-- ==== Sys2Proof/Word.lean ====
section
/-! DEFINITION. The words the registers hold and the byte the memories and wires carry. -/

namespace Sys2Proof

/-- One byte of a packet, a frame, a mailbox area or a host-memory structure. -/
abbrev Byte := BitVec 8

/-- One direct register (R81: direct registers are 32 bits wide). -/
abbrev Word32 := BitVec 32

/-- A 64-bit quantity: fabric time (R140) or a statistics counter (R474). -/
abbrev Word64 := BitVec 64

end Sys2Proof
end

