-- ==== Sys2Proof/Syntax.lean ====
section
/-! DEFINITION. The commands the block takes: one constructor of `Instr` for each row of spec/opcode_table.json, and the
operand structures they carry (packets, link transfer blocks, chain frames, records read from host memory, images). -/

namespace Sys2Proof

/-- The straps latched at PORST_N deassertion (R445, R508). -/
structure Straps where
  chainHead : Bool
  bootSrc : Nat
  mgrEligible : Bool
  feaStrapEn : Bool
  smbAddr : Nat
  deriving DecidableEq, Repr

/-- An 8-byte doorbell or head record as read from host memory (R270); bits [31:30] of the second word are ignored. -/
structure DbRec where
  index : BitVec 32
  epoch : BitVec 30
  deriving DecidableEq, Repr

/-- The PCIe configuration settings of a function that the spec gives an effect and that host software writes: AtomicOp Requester Enable (R64),
the ATS Enable (R2, R320), the MSI-X function mask (R91), and the completion timeout's upper end or its disabling (R294). -/
inductive CfgWrite where
  | atomicEn (on : Bool)
  | ats (on : Bool)
  | msixMask (on : Bool)
  | cplTimeout (us : Nat) (disabled : Bool)
  deriving DecidableEq, Repr

/-- A configuration request to a function: a read, or a write of one of these settings. -/
structure CfgRequest where
  fn : Nat
  write : Option CfgWrite
  deriving DecidableEq, Repr

/-- What a fetch from an admin queue meets (R105, R106): the slots, or none where the command ring cannot be read; and whether the
completion ring can be written. -/
structure AqFetch where
  slots : Option (List (List Byte))
  cqOk : Bool
  deriving DecidableEq, Repr

/-- What a read of a firmware image from the flash gives the checks of R452 (R451 names the header fields).
The security engine's verdicts on PUBKEY and the signature are facts of the image. -/
structure Image where
  magicOk : Bool
  formatOk : Bool
  imageLen : Nat
  keySlot : Nat
  pubkeyHashOk : Bool
  sigOk : Bool
  golden : Bool
  svn : Nat
  version : BitVec 32
  profiles : BitVec 32
  variants : Nat
  sha : Nat
  deriving DecidableEq, Repr

/-- The fabric header (R217). -/
structure FabHdr where
  ver : Nat := 1
  type : Nat := 1
  sl : Nat := 0
  stage : Nat := 0
  rmode : Nat := 0
  dp : Nat := 0
  pkey : BitVec 16 := 0xFFFF
  dest : BitVec 24 := 0
  src : BitVec 24 := 0
  hops : Nat := 0
  timed : Bool := false
  trc : Bool := false
  intGroup : BitVec 12 := 0
  len : Nat := 64
  entropy : BitVec 16 := 0
  treeId : BitVec 24 := 0
  qdelay : BitVec 16 := 0
  hopLat : BitVec 16 := 0
  hdrCrc : BitVec 16 := 0
  deriving DecidableEq, Repr

/-- The transport header (R219), its FLAGS as R303 names them. -/
structure TransHdr where
  opcode : Nat
  destQpn : Nat
  srcQpn : Nat
  syn : Bool := false
  ackReq : Bool := false
  last : Bool := false
  solicit : Bool := false
  retx : Bool := false
  psn : BitVec 32 := 0
  msn : BitVec 32 := 0
  windowKey : BitVec 32 := 0
  remoteOffset : BitVec 64 := 0
  ts : BitVec 32 := 0
  deriving DecidableEq, Repr

/-- The extension header a TRANSPORT packet carries after its transport header:
the atomic extension (R304), the ACK content (R305) or the matching extension (R331). -/
inductive Ext where
  | none
  | atomic (aop counter : Nat) (operandA : BitVec 128)
  | ack (sack : BitVec 256) (nakCode qdelayEcho retryAfter : Nat) (nakPsn : BitVec 32)
  | eager (context : Nat) (srcRank : BitVec 32) (tag : BitVec 64) (msgLen : Nat)
  | rts (context : Nat) (srcRank : BitVec 32) (tag : BitVec 64) (msgLen : Nat) (srcKey : BitVec 32) (srcOffset : BitVec 64)
  | fin (context : Nat) (msn : BitVec 32) (tag : BitVec 64) (bytesRead : Nat) (status : Nat)
  deriving DecidableEq, Repr

/-- The collective extension header (R364). -/
structure CollHdr where
  kind : Nat
  op : Nat := 0
  native : Bool := false
  dtype : Nat := 0
  empty : Bool := false
  inexact : Bool := false
  overflow : Bool := false
  invalid : Bool := false
  seq : BitVec 32 := 0
  blockFirst : Nat := 0
  blockCount : Nat := 0
  ebase : Int := 0
  vecLen : Nat := 0
  rootCount : Nat := 0
  credits : Nat := 0
  status : Nat := 0
  deriving DecidableEq, Repr

/-- The management header (R426). -/
structure MgmtHdr where
  mtag : Nat
  pathLen : Nat := 0
  pathPtr : Nat := 0
  path : List Nat := []
  direct : Bool := false
  ret : Bool := false
  deriving DecidableEq, Repr

/-- What follows the fabric header of a packet (R216), by TYPE. -/
inductive Body where
  | transport (th : TransHdr) (ext : Ext) (payload : List Byte)
  | coll (ch : CollHdr) (payload : List Byte)
  | mgmt (mh : MgmtHdr) (payload : List Byte)
  | raw (bytes : List Byte)
  deriving DecidableEq, Repr

/-- A fabric packet (R216): fabric header, body and the ICRC it carries. -/
structure Pkt where
  hdr : FabHdr
  body : Body
  icrc : BitVec 32 := 0
  deriving DecidableEq, Repr

/-- The header fields of an arriving LTB whose CRC passed (R186). -/
structure LtbHdr where
  seq : BitVec 16
  ackSeq : BitVec 16
  nak : Bool := false
  abortEnd : Bool := false
  startOff : Nat := 0xFF
  creditA : Nat × Nat := (0, 0)
  creditB : Nat × Nat := (0, 0)
  shared : Int := 0
  /-- [R168 R190] the position in the port of the lane it came on, and the codewords it draws bytes from: 0 the lane's newest -/
  lane : Nat := 0
  draws : List Nat := []
  /-- [R140] the quarter of a nanosecond in which its first symbol passed the land, from SerDes phase -/
  phase : BitVec 2 := 0
  deriving DecidableEq, Repr

/-- A stretch of a DATA LTB's payload (R191): bytes that continue the packet in progress, or the first bytes of a packet. -/
inductive Frag where
  | cont (n : Nat)
  | start (pkt : Pkt) (n : Nat)
  deriving DecidableEq, Repr

/-- The content of an INIT LTB (R197). -/
structure InitMsg where
  initVer : Nat := 1
  partnerSeen : Bool := false
  groupManager : Bool := false
  timeValid : Bool := false
  split : Bool := false
  profile : Nat := 1
  laneIdx : Nat := 0
  width : Nat := 0
  fea : BitVec 24 := 0
  port : Nat := 0
  serial : List Byte := []
  partHash : BitVec 32 := 0
  ft : Nat := 0
  maxPacket : Nat := 4224
  rxMap : BitVec 8 := 0
  sharedAvail : Int := 0
  vcReserve : List Nat := []
  vcAvail : List Nat := []
  creditTmoUs : Nat := 0
  deriving DecidableEq, Repr

/-- The content of a TIME LTB (R144). Timestamps are in units of 2^-16 ns (64-bit FT followed by FT_FRAC). -/
structure TimeMsg where
  locked : Bool := false
  holdover : Bool := false
  valid : Bool := false
  outOfCycle : Bool := false
  exchSeq : BitVec 16 := 0
  tA : BitVec 80 := 0
  tB : BitVec 80 := 0
  sourceFea : BitVec 24 := 0
  cls : BitVec 2 := 0
  hops : BitVec 6 := 0
  stepSeq : BitVec 8 := 0
  stepFt : BitVec 64 := 0
  stepNs : BitVec 64 := 0
  deriving DecidableEq, Repr

/-- A TIME LTB as it arrives: its header and its content. -/
structure TimeLtb where
  hdr : LtbHdr
  msg : TimeMsg
  deriving DecidableEq, Repr

/-- The content of a LOAD_HINT LTB (R236). -/
structure HintMsg where
  ver : Nat := 1
  block : Nat := 0
  slLoad : List Nat := []
  groupLoad : List Nat := []
  deriving DecidableEq, Repr

/-- A management-chain frame (R416) with its CRC verdict; `payload` is the payload's bytes. -/
structure ChainFrame where
  dest : Nat
  src : Nat
  type : Nat
  ftag : Nat
  payload : List Byte
  deriving DecidableEq, Repr

/-- Which chain port (R414). -/
inductive ChainPort where
  | upstream
  | downstream
  deriving DecidableEq, Repr

/-- Where a packet enters a switch core (R24): a network port, a host endpoint's internal port, a quadrant's collective
port, or the service port of the management agent. -/
inductive ArrSrc where
  | net (port : Nat)
  | host (ep : Nat)
  | coll (quad : Nat)
  | service
  deriving DecidableEq, Repr

/-- How a host read or AtomicOp that failed ended (R294, R106). -/
inductive ReadFail where
  | timeout
  | unsupported
  | abort
  deriving DecidableEq, Repr

/-- A scatter-gather element (R275). -/
structure Sge where
  key : BitVec 32
  len : Nat
  off : BitVec 64
  deriving DecidableEq, Repr

/-- An ECC verdict on a read of stored state (R409, R411). -/
inductive Ecc where
  | ok
  | corrected
  | uncorrectable
  deriving DecidableEq, Repr

/-- A context line: kind (R388 row), context number, line within the context. -/
structure LineId where
  kind : Nat
  num : Nat
  idx : Nat
  deriving DecidableEq, Repr

/-- A requester of the coherence directory (R402): a quadrant's cache 0-3, or the host class 4. -/
abbrev CacheId := Nat

/-- The commands of the block: one constructor per row of spec/opcode_table.json, in the table's order. -/
inductive Instr where
  | porstNAssert
  | coldStart (straps : Straps)
  | rootPllLock
  | bootRomConfigRead (newerCopyOk : Bool)
  | serviceDieSelfTest
  | quadrantPowerUp (q : Nat)
  | quadrantArraySelfTest
  | hbmTraining
  | imageSelection (a b golden : Image)
  | molzuStart (vkeepLost : Bool)
  | hbmClearing
  | laneCalibration
  | quadrantInitialisation
  | fwReadySet
  | warmRstNAssert
  | warmStart
  | bootTmoExpire
  | watchdogExpire
  | antiRollbackRaise
  | perstNAssert (h : Nat)
  | hostLinkDown (ep : Nat)
  | hostLinkUp (ep speed width : Nat)
  | configRequest (r : CfgRequest)
  | busMasterEnableClear (fn : Nat)
  | flr (fn : Nat)
  | flrComplete (fn : Nat)
  | lateCompletion (fn : Nat)
  | flashReqAssert
  | flashGntAssert
  | flashReqDeassert
  | registerWrite (m off : Nat) (bytes : List Byte)
  | windowRead (m off width : Nat)
  | statusCauseWrite (m : Nat) (val : Word32)
  | statusMaskWrite (m : Nat) (val : Word32)
  | msixUnmask (fn : Nat) (vec : Option Nat)
  | mailboxDoorbell (m : Nat) (val : Word32)
  | nudgeWrite (fn idx : Nat)
  | aqSqTailWrite (fn : Nat) (val : Word32)
  | aqCqHeadWrite (fn : Nat) (val : Word32)
  | aqEnableSet (fn : Nat) (irqEn : Bool)
  | aqEnableClear (fn : Nat) (irqEn : Bool)
  | aqCommandFetch (fn : Nat) (r : AqFetch)
  | timeFtLoRead (m : Nat)
  | snapCtrlArm (m : Nat)
  | snapCtrlCancel (m : Nat)
  | eventData7Read (m : Nat)
  | counterLoRead (m k : Nat)
  | laneCfgWrite (m : Nat) (val : Word32)
  | octetTimersWrite (m : Nat) (val : Word32)
  | portSharedLimitsWrite (m : Nat) (val : Word32)
  | hostBackingWrite (m off : Nat) (val : Word32)
  | mbIdentGet
  | mbCapsGet
  | mbOctetSet
  | mbPortSet
  | mbPortGet
  | mbHostModeStore
  | mbPartitionSet
  | mbRouteWrite
  | mbRouteCommit
  | mbRouteStatus
  | mbRouteAbandon
  | mbTimeSet
  | mbTimeStatus
  | mbSnapArm
  | mbSnapCancel
  | mbEqxSet
  | mbAlmanacLoad
  | mbAlmanacGet
  | mbShaperSet
  | mbPolicerSet
  | mbSlWeightsSet
  | mbTreeSetup
  | mbTreeTeardown
  | mbTreeGet
  | mbEventClearNonce
  | mbEventClear (sigOk : Bool)
  | mbTelemetryGet
  | mbLifeGet
  | mbFwUpdateBegin
  | mbFwUpdateWrite (queueFull : Bool)
  | mbFwUpdateEnd (img : Image)
  | mbFwActivate (img : Image)
  | mbMeasureGet
  | mbAccessSet
  | mbAccessGet
  | mbConfigRead
  | mbConfigExport
  | mbConfigExportRead
  | mbConfigImportWrite
  | mbConfigImportCommit
  | mbGroupRoleSet
  | mbFeaSet
  | mbQuadGate
  | mbQuadRetire
  | mbChainStatus
  | mbPrbsSet
  | mbPrbsGet (bits errs : Nat)
  | mbLoopbackSet
  | mbErrInject
  | mbInvalidOpcode
  | cmdDone (m tag : Nat)
  | stagingIdleTimeout (importBuf : Bool)
  | nonceExpire
  | fwUpdateIdleTimeout
  | quadPortsDrained (q : Nat)
  | quadRehomeDone (q : Nat)
  | quadGateDone (q : Nat)
  | quadUngateTrained (q : Nat)
  | aqCreateQp (fn : Nat) (db : List Byte)
  | aqModifyQp (fn : Nat)
  | aqDestroyQp (fn : Nat)
  | aqCreateSrq (fn : Nat) (db : List Byte)
  | aqDestroySrq (fn : Nat)
  | aqCreateCq (fn : Nat) (head : List Byte)
  | aqDestroyCq (fn : Nat)
  | aqCreateEq (fn : Nat)
  | aqDestroyEq (fn : Nat)
  | aqCreatePd (fn : Nat)
  | aqDestroyPd (fn : Nat)
  | aqRegisterWindow (fn : Nat) (extents : List Byte)
  | aqRevokeWindow (fn : Nat)
  | aqInvalidate (fn : Nat)
  | aqAbort (fn : Nat)
  | aqSetQuota (fn : Nat)
  | aqQueryQuota (fn : Nat)
  | routeBankAdopt
  | almanacBankAdopt (p : Nat)
  | snapshotTake
  | counterFoldDone
  | eqxExchangeStart (p : Nat)
  | timeReqRx (p : Nat) (t : TimeLtb)
  | timeRespRx (p : Nat) (t : TimeLtb)
  | timeReportRx (p : Nat) (t : TimeLtb)
  | timeAnnounceRx (p : Nat) (t : TimeLtb)
  | timeLockGained
  | eqxIntervalEnd (p : Nat)
  | timeMissLimit
  | timeStepApply
  | ppsInEdge
  | ppsLossTimeout
  | sourceWaitExpire
  | octetPllUnlock (o : Nat)
  | octetPllRelock (o : Nat)
  | refclkNetLost (q : Nat)
  | codewordRx (l : Nat) (corrected : Option Nat)
  | fecLockGained (l : Nat) (rxInv : Bool)
  | fecLockLost (l : Nat)
  | lossOfSignal (l : Nat)
  | noLockTimerExpire (l : Nat)
  | retryWaitExpire (l : Nat)
  | retrainTmoExpire (l : Nat)
  | idleEnterExpire (p : Nat)
  | idleSequenceSent (p : Nat)
  | partnerIdleRx (l : Nat)
  | eidleRefreshExpire (p : Nat)
  | wakeBatch
  | exitBurstDone (l : Nat)
  | startOfStreamRx (l : Nat)
  | wakeAlignTmoExpire (l : Nat)
  | adaptationPass (l : Nat) (rxEq snr eye ber : Word32)
  | calibCoeffWrite (l : Nat)
  | prbsCheckerLock (l : Nat)
  | prbsCheckerLoss (l bits errs : Nat)
  | errInjectFire (l : Nat)
  | laneDropEnd (l : Nat)
  | ltbLockGained (l : Nat)
  | ltbLockLost (l : Nat)
  | ltbBadRx (p : Nat) (badType : Bool)
  | ltbIdleRx (p : Nat) (h : LtbHdr)
  | ltbDataRx (p : Nat) (h : LtbHdr) (frags : List Frag) (since : Nat)
  | edgeRunLimit (p : Nat) (err : Int)
  | ltbCtrlCreditRx (p : Nat) (h : LtbHdr) (heldMask : BitVec 16)
  | ltbCtrlLinkDownRx (p : Nat) (h : LtbHdr) (heldMask : BitVec 16)
  | ltbCtrlReservedRx (p : Nat) (h : LtbHdr)
  | ltbInitRx (p lane : Nat) (h : LtbHdr) (i : InitMsg)
  | ltbLaneMapRx (p : Nat) (h : LtbHdr) (mapSeq : BitVec 8) (rxMap : BitVec 8) (echo : Bool)
  | ltbLoadHintRx (p : Nat) (h : LtbHdr) (m : HintMsg)
  | trainWaitExpire (p : Nat)
  | initTmoExpire (p : Nat)
  | initRepeat (p : Nat)
  | initPoolRetry (p : Nat)
  | heldIntervalExpire (p vc : Nat)
  | creditTmoExpire (p vc : Nat)
  | sharedGrantAdjust (p : Nat)
  | replayTmoExpire (p : Nat)
  | replayLimit (p : Nat)
  | linkGraceExpire (p : Nat)
  | drainComplete (p : Nat)
  | linkDownWaitEnd (p : Nat)
  | loadHintSend (p : Nat)
  | packetArrival (src : ArrSrc)
  | egressPacketStart (p : Nat)
  | packetDeparted (p : Nat)
  | almanacEntryChange (p : Nat)
  | gateWakeLead (p : Nat)
  | holdoverMaxExpire (p : Nat)
  | doorbellPoll (q : Nat)
  | doorbellReadComplete (q : Nat) (db : List Byte)
  | emptyPollLimit (q : Nat)
  | slotReadComplete (q : Nat) (slots : List (List Byte))
  | slotReread (q : Nat) (slot : List Byte)
  | slotWaitExpire (q : Nat)
  | chainListReadComplete (q : Nat) (elems : List Byte)
  | hostReadError (q : Nat) (why : ReadFail)
  | parkIdleExpire (q : Nat)
  | queueServiceTurn (quad : Nat)
  | headRecordWrite (q : Nat)
  | cqHeadReread (cq : Nat)
  | cqHeadReadComplete (cq : Nat) (head : List Byte)
  | cqFullTimeout (cq : Nat)
  | interruptHoldoffEnd (fn vec : Nat)
  | write (q : Nat)
  | writeWithCount (q : Nat)
  | read (q : Nat)
  | send (q : Nat)
  | fetchAdd (q : Nat)
  | cswap64 (q : Nat)
  | cswap128 (q : Nat)
  | bindWindow (q : Nat) (extents : List Byte)
  | counterFetch (q : Nat)
  | recv (srq : Nat)
  | tsend (q : Nat)
  | trecv (srq : Nat)
  | collective (q : Nat)
  | writeRx (ep : Nat)
  | writeCountRx (ep : Nat)
  | readReqRx (ep : Nat)
  | readRespRx (ep : Nat)
  | sendRx (ep : Nat)
  | atomicReqRx (ep : Nat)
  | hostAtomicComplete (ep : Nat) (orig : Option (BitVec 128))
  | atomicRespRx (ep : Nat)
  | ackRx (ep : Nat)
  | ackDelayExpire (q : Nat)
  | rtoExpire (q : Nat) (psn : BitVec 32)
  | rnrRetryAfterExpire (q : Nat)
  | atsInvalidateRequest (fn : Nat) (start len : Nat)
  | numberQuarantineEnd (space num : Nat)
  | tagEagerRx (ep : Nat)
  | tagRtsRx (ep : Nat)
  | rdvReadComplete (q : Nat) (status : Nat)
  | tagFinRx (ep : Nat)
  | upRx (quad : Nat)
  | opalBlockDone (quad : Nat) (tree : BitVec 24) (seq : BitVec 32) (block : Nat)
  | downRx (quad : Nat)
  | treeCreditRx (quad : Nat)
  | treeAbortRx (quad : Nat)
  | stallTmoExpire (quad : Nat) (tree : BitVec 24) (seq : BitVec 32)
  | evictionComplete (q : Nat)
  | pageInReadComplete (q : Nat) (img : Option (Bool × Nat × Nat × Bool))
  | idleWriteback (quad : Nat) (line : LineId)
  | getS (req : CacheId) (line : LineId)
  | getM (req : CacheId) (line : LineId)
  | upgrade (req : CacheId) (line : LineId)
  | put (req : CacheId) (line : LineId)
  | putClean (req : CacheId) (line : LineId)
  | fwdS (owner req : CacheId) (line : LineId)
  | fwdM (owner req : CacheId) (line : LineId)
  | inv (sharer req : CacheId) (line : LineId)
  | cohAck (req : CacheId) (line : LineId)
  | putAck (req : CacheId) (line : LineId)
  | grant (req : CacheId) (line : LineId) (acks : Nat)
  | cohData (req : CacheId) (line : LineId) (acks : Nat) (state : Nat) (ecc : Ecc)
  | hostSnoop (quad : Nat) (line : LineId) (invalidate : Bool)
  | patrolScrubRead (stack : Nat) (ecc : Ecc) (row : Nat)
  | patrolPassStart (stack : Nat)
  | cacheScrubPass (quad : Nat) (line : LineId) (ecc : Ecc)
  | chainPortLock (port : ChainPort)
  | chainPortLockLost (port : ChainPort)
  | enum (port : ChainPort) (f : ChainFrame)
  | enumAck (port : ChainPort) (f : ChainFrame)
  | enumDone (port : ChainPort) (f : ChainFrame)
  | enumTmoExpire
  | heartbeat (port : ChainPort) (f : ChainFrame)
  | heartbeatSend
  | joinReq (port : ChainPort) (f : ChainFrame)
  | joinReqSend
  | chainBreak (port : ChainPort) (f : ChainFrame)
  | orphanTmoExpire
  | statusReq (port : ChainPort) (f : ChainFrame)
  | statusRsp (port : ChainPort) (f : ChainFrame)
  | reset (port : ChainPort) (f : ChainFrame)
  | chainResetAction
  | regRead (port : ChainPort) (f : ChainFrame)
  | regWrite (port : ChainPort) (f : ChainFrame)
  | regRsp (port : ChainPort) (f : ChainFrame)
  | mbCmd (port : ChainPort) (f : ChainFrame)
  | mbRsp (port : ChainPort) (f : ChainFrame)
  | event (port : ChainPort) (f : ChainFrame)
  | chainBadFrame (port : ChainPort) (f : ChainFrame)
  | chainCrcFail (port : ChainPort) (f : ChainFrame)
  | relayTmoExpire (mtag : Nat)
  | mgmtCmdRx
  | mgmtRespRx
  | mgmtEventRx
  | mgmtDistRx
  | announceSend
  | mgrLossTmoExpire
  | electTmoExpire
  | groupWalk
  | isolateTmoExpire
  | eventForward (quad : Nat)
  | eventFlush
  | mramRemap (part sector : Nat)
  | pwrfailAssert
  | pwrfailDeassert
  | lifeSecondCheck (meanTemp : Int)
  | lifeHourlyWrite
  | lifeMonthBoundary
  | telemetrySample (group : Nat) (readings : List Int)
  | thermalTrip (die : Nat)
  | railOutOfRange (rail mv : Nat)
  | railUndervoltage (rail mv : Nat)
  | refclkCoreLost
  | pstepAckRise (g : Nat)
  | noticeLeadExpire (g : Nat)
  | grantHoldExpire (g : Nat)
  | pstepStepDone (g : Nat)
  | bmcRegWrite (off : Nat) (val : Word32) (pecOk : Bool)
  | bmcRegRead (off : Nat)
  | i3cAddressAssign (addr : Nat)
  | i3cRstdaa
  | smbusAlertResponse
  | trstNAssert
  | idcode
  | samplePreload
  | extest
  | extestPulse
  | extestTrain
  | clamp
  | highz
  | regAccess (dr : BitVec 59)
  | bypass
  | perstNDeassert (h : Nat)
  | busMasterEnableSet (fn : Nat)
  | spdmRequest (ep : Nat) (code : Nat)
  | ppsOutEdge
  | signalDetect (l : Nat)
  | vaonLoss
  | hostDataReadComplete (ep : Nat) (data : Option (List Byte))
  | atsTranslationComplete (fn : Nat) (addr : Nat) (len : Nat) (bus : Option Nat)
  | cxlCacheOwnershipGranted (ep : Nat) (orig : BitVec 128)
  | pstepAckFall (g : Nat)
  deriving DecidableEq, Repr

end Sys2Proof
end

