-- ==== Sys2Proof/Decode.lean ====
section
/-! DEFINITION. Reading a command from a table word. spec/opcode_table.json gives no row any bits: a command of this block is
not a word, so no word spells one. -/

namespace Sys2Proof

/-- The command a word of the opcode table's bits spells: none, because no row of the table carries bits. -/
def decodeTableWord (_nbits _w : Nat) : Option Instr := none

end Sys2Proof
end

