-- ==== Sys2Proof/Machine/Tbl.lean ====
section
/-! DEFINITION. `Tbl`: a sparse table of plain data in one canonical form (keys strictly rising, no cell equal to what an
unlisted key reads as), and the operations every resource of the state (lanes, ports, queues, counters) is held by. -/

namespace Sys2Proof.Machine

/-- A table by number: `dflt` is what an unlisted key reads as. -/
structure Tbl (α : Type) where
  dflt : α
  cells : List (Nat × α) := []
  deriving DecidableEq, Repr

/-- The value at key `k` of the cells. -/
def cellsGet {α : Type} (d : α) : List (Nat × α) → Nat → α
  | [], _ => d
  | (k', v) :: rest, k => if k = k' then v else cellsGet d rest k

/-- The cells without key `k`. -/
def cellsErase {α : Type} (l : List (Nat × α)) (k : Nat) : List (Nat × α) := l.filter (fun kv => kv.1 != k)

/-- Put a cell before the first larger key. -/
def cellsPut {α : Type} : List (Nat × α) → Nat → α → List (Nat × α)
  | [], k, v => [(k, v)]
  | (k', w) :: rest, k, v => if k < k' then (k, v) :: (k', w) :: rest else (k', w) :: cellsPut rest k v

/-- Put `v` at key `k`, keeping keys rising; a value equal to the default removes the cell. -/
def cellsSet {α : Type} [DecidableEq α] (d : α) (l : List (Nat × α)) (k : Nat) (v : α) : List (Nat × α) :=
  if v = d then cellsErase l k else cellsPut (cellsErase l k) k v

def Tbl.get {α : Type} (t : Tbl α) (k : Nat) : α := cellsGet t.dflt t.cells k

def Tbl.set {α : Type} [DecidableEq α] (t : Tbl α) (k : Nat) (v : α) : Tbl α :=
  { t with cells := cellsSet t.dflt t.cells k v }

/-- Change the value at `k` by `f`. -/
def Tbl.upd {α : Type} [DecidableEq α] (t : Tbl α) (k : Nat) (f : α → α) : Tbl α := t.set k (f (t.get k))

/-- Change every listed value by `f` (the unlisted ones keep the default). -/
def Tbl.mapCells {α : Type} [DecidableEq α] (t : Tbl α) (f : Nat → α → α) : Tbl α :=
  t.cells.foldl (fun acc kv => acc.set kv.1 (f kv.1 kv.2)) { t with cells := [] }

/-- Keys are strictly rising. -/
def keysRising {α : Type} : List (Nat × α) → Bool
  | [] => true
  | [_] => true
  | (k, _) :: (k', v) :: rest => decide (k < k') && keysRising ((k', v) :: rest)

/-- The canonical form. -/
def Tbl.wf {α : Type} [DecidableEq α] (t : Tbl α) : Bool :=
  keysRising t.cells && t.cells.all (fun kv => decide (kv.2 ≠ t.dflt))

/-- Drop every cell whose key the predicate names. -/
def Tbl.eraseIf {α : Type} (t : Tbl α) (p : Nat → α → Bool) : Tbl α :=
  { t with cells := t.cells.filter (fun kv => !p kv.1 kv.2) }

/-- The listed cells whose value satisfies `p`. -/
def Tbl.find {α : Type} (t : Tbl α) (p : Nat → α → Bool) : List (Nat × α) :=
  t.cells.filter (fun kv => p kv.1 kv.2)

end Sys2Proof.Machine
end

