-- ==== Sys2Proof/Machine/PartsBase.lean ====
section
/-! DEFINITION. Parts of the state shared by every area: the unit's identity, the clocks, event records, the counter banks
and the list of outputs the block has emitted. -/

namespace Sys2Proof.Machine

/-- The events of CP1 (R160, R183, R213, R245, R268, R296, R328, R354, R384, R413, R442, R464, R490, R506 and the
labelled statements of class 0x1). -/
inductive Ev where
  | accessDenied | almanacNotAdopted | cmdDone | configImported | importGradeDiffers | legacyOversize | lifeTempExceeded
  | logCleared | modeFallback | profileFallback | quadGated
  | ppsLost | timeLock | timeSlew | timeSourceChange | timeStep | timeUnlock
  | laneLockLost | laneNoLock | laneRetrainFail | laneWakeFail | octetPllUnlock | refclkNetLost
  | creditLoss | laneRestored | laneShed | linkDown | linkFlush | linkInitMismatch | linkPartMismatch | linkReserveClamp
  | linkUp | replayLimit
  | noRoute | packetTrace | pkeyViolation
  | gateClosed | gateHoldover | gateNofit | gateResumed | timeEdge
  | cqOverflow | noQp | qpResync | queueError
  | reorderFull | unexpectedFull
  | collAbort | treeBroken
  | backingCorrupt | contextLost | hbmRowRepair | hbmUe | onyxNoVictim
  | chainAddrChanged | chainBreak | chainEnum | chainOrphan | chainTwoHeads | feaAssigned | feaDuplicate | feaStrapRange
  | groupMemberLost | groupMgrConflict | groupMgrElected | groupMgrLost | groupMgrYield | isolated | mgmtDenied
  | remoteEvent | snapWorkerMissed
  | bootFailed | bootImageRejected | bootSrcReserved | fwDown | fwRestart | safeMode | warmAsCold
  | eventLost | mramRemap | mramSpareLow | powerFail | snapMissed | vigilLost
  | pstepAckStuck | railOutOfRange | refclkCoreLost | thermalThrottle | thermalTrip | thermalWarn
  deriving DecidableEq, Repr

/-- An event record (R465). `code` is CLASS and NUMBER, 16 bits. -/
structure EvRec where
  code : BitVec 16
  sev : Nat
  keeper : Bool
  summary : Bool
  carried : Bool
  die : Nat
  unit : Nat
  seq : BitVec 32
  time : BitVec 64
  p0 : BitVec 32
  p1 : BitVec 32
  p2 : BitVec 32
  p3 : BitVec 32
  deriving DecidableEq, Repr

/-- [R186] the header fields of an LTB sent: START_OFF 0xFF where no packet starts in it, up to two credit returns (VC, credits). -/
structure LtbTx where
  seq : BitVec 16
  ack : BitVec 16
  nak : Bool := false
  abortEnd : Bool := false
  startOff : Nat := 0xFF
  credits : List (Nat × Nat) := []
  shared : Int := 0
  deriving DecidableEq, Repr

/-- [R187] the content of an LTB sent, by type. -/
inductive LtbBody where
  | idle
  | data (bytes : List Byte)
  | ctrl (op : Nat) (heldMask : BitVec 16)
  | init (i : InitMsg)
  | laneMap (mapSeq rxMap : BitVec 8) (echo : Bool)
  | hint (m : HintMsg)
  | time (msg : Nat) (t : TimeMsg)
  deriving DecidableEq, Repr

/-- What the block has emitted at its outside, in order (the model's own trace of outputs; DESIGN CHOICE, log 4). -/
inductive Out where
  /-- A value returned to the master that read (R81). -/
  | readData (m : Nat) (val : Nat)
  /-- A completion status returned on a board interface (R512, R513). -/
  | readStatus (m : Nat) (status : Nat)
  /-- An MSI-X message of a function (R90, R91). -/
  | msix (fn vec : Nat)
  /-- A write into host memory through a function. -/
  | dmaWrite (fn addr : Nat) (bytes : List Byte)
  /-- A read of host memory issued through a function; `q` is the queue it serves. -/
  | dmaRead (fn addr len : Nat) (q : Nat)
  /-- A PCIe AtomicOp or CXL.cache ownership request (R321). -/
  | hostAtomic (fn addr : Nat) (aop : Nat) (a swap : BitVec 128)
  | cxlOwn (ep addr : Nat)
  /-- A host line leaves the device, to a snoop or by eviction: its address and the bytes atomics have left in it (R321, R406). -/
  | cxlLine (hostPort addr : Nat) (data : List (Nat × Byte))
  /-- An ATS translation request (R320). -/
  | atsRequest (fn addr : Nat)
  /-- An LTB sent on a port, on the lane at a position in it (R186, R190); its 256 bytes are `encLtb`. -/
  | ltb (p lane : Nat) (h : LtbTx) (b : LtbBody)
  /-- A lane's transmitter: 0 squelched, 1 training stream, 2 codewords, 3 idle sequence, 4 exit burst, 5 PRBS, 6 what it receives,
  7 IDLE LTBs on a lane excluded from the transmit map (R190). -/
  | laneTx (l : Nat) (what : Nat)
  /-- The transmit polarity, preset and swing a lane takes as it enters TRAIN (R162, R184). -/
  | laneDrive (l : Nat) (cfg : Word32)
  | laneInject (l : Nat) (kind : Nat)
  /-- A fabric packet or service message enters a link between dies: quadrants 0 to 3, 4 the service die (R19 to R22). -/
  | meshCross (fromQ toQ : Nat)
  /-- [R410] 32 B of a stack, at an address divided by 32, are written with zero data and fresh check bits -/
  | hbmZero (stack unit : Nat)
  /-- A coherence message over the mesh (R403): message number, from, to, line, ACK count. -/
  | coh (msg : Nat) (src dst : Nat) (line : LineId) (acks : Nat)
  | chain (port : ChainPort) (f : ChainFrame)
  /-- A pin driven to a value. -/
  | pin (name : String) (v : Nat)
  /-- A PCIe configuration answer: 0 successful, 1 Request Retry Status. -/
  | cfgRsp (fn : Nat) (rrs : Bool)
  | drs (ep : Nat)
  /-- SPDM answer code of the responder (R457); 0xFF is the Busy error. -/
  | spdm (ep : Nat) (code : Nat) (busy : Bool)
  | smbusAra (addr : Nat)
  | jtagDr (val : BitVec 64)
  /-- Flash operations the device performs (R450, R458). -/
  | flash (op : Nat) (addr len : Nat)
  /-- A write of the MRAM power-fail marker (R472). -/
  | pfMarker (left : Nat)
  deriving DecidableEq, Repr

/-- Where a packet in the device came from, for its buffer space and the credits owed (R29, R201). -/
structure Origin where
  src : ArrSrc
  vc : Nat
  credits : Nat
  /-- the packet's number at its arrival port while it was not wholly received when it was switched; 0 otherwise -/
  no : Nat := 0
  /-- [R218] model time its header arrived at the land -/
  arr : Nat := 0
  deriving DecidableEq, Repr

/-- A packet in an egress queue or at an internal port, with the time it was queued and where its buffer space is. -/
structure QPkt where
  pkt : Pkt
  orig : Origin
  at_ : Nat
  /-- [R231] chosen non-minimally; [R244] chosen from a route table at all -/
  nonmin : Bool := false
  routed : Bool := false
  /-- [R251] queue pair whose engine built it; none for a forwarded packet -/
  qp : Option Nat := none
  deriving DecidableEq, Repr

/-- The unit's own, fused identity (R3, R6, R7, R88). -/
structure Ident where
  /-- [R3 R88] IDENT.VARIANT: true H96. Reset DESIGN CHOICE true (log 5). -/
  h96 : Bool := true
  /-- [R3 R88] IDENT.GRADE: true long-life. Reset DESIGN CHOICE false (log 5). -/
  gradeL : Bool := false
  /-- [R7] IDENT.STEPPING, ASCII. Reset 0x41, the first stepping (DESIGN CHOICE, log 5). -/
  stepping : Nat := 0x41
  /-- [R6] serial number, 12 characters. Reset DESIGN CHOICE twelve 0x30 (log 5). -/
  serial : List Byte := List.replicate 12 0x30
  deriving DecidableEq, Repr

/-- Clocks (R140, R499) and the model's own elapsed time. -/
structure Clock where
  /-- Model's elapsed nanoseconds, advanced by the tick (the model's own field, log 3). -/
  now : Nat := 0
  /-- [R140] FT, nanoseconds since the fabric epoch. Reset 0 (R142, R107). -/
  ft : BitVec 64 := 0
  /-- [R140] FT_FRAC in 2^-16 ns. Reset 0 (R107). -/
  frac : BitVec 16 := 0
  /-- what the rate correction has gained beyond whole units of FT_FRAC, in 10^-11 of a unit (the model's own field, log 3) -/
  sub : Int := 0
  /-- what a source's slew has gained beyond whole units of FT_FRAC, in 10^-11 of a unit (the model's own field, log 3) -/
  slewSub : Int := 0
  /-- [R499] Vigil seconds, 40 bits. Reset DESIGN CHOICE 0 (log 6). -/
  vigil : BitVec 40 := 0
  /-- [R499] nanoseconds within the current Vigil second. Reset 0 (log 6). -/
  vigilNs : Nat := 0
  deriving DecidableEq, Repr

/-- One statistics counter: two banks and whether its frozen value is folded (R474, R477). -/
structure Ctr where
  /-- [R477] the active bank. Reset 0 (R479). -/
  live : BitVec 64 := 0
  /-- [R477] the frozen bank. Reset 0 (R477: zero before the first snapshot). -/
  frozen : BitVec 64 := 0
  deriving DecidableEq, Repr

/-- A rate limiter of an event (R118, R183, R213, ...): when the last record was written, and occurrences since. -/
structure Limiter where
  last : Option Nat := none
  count : Nat := 0
  deriving DecidableEq, Repr

end Sys2Proof.Machine
end

