-- ==== Sys2Proof/Machine/PartsDevice.lean ====
section
/-! DEFINITION. Parts of the state: start-up and firmware, the stored configuration, the quadrants, the functions and host
endpoints, the masters' selections, mailboxes and admin queues. -/

namespace Sys2Proof.Machine

/-- [R494] the power states. -/
inductive PowerState where
  | off | held | run | safe | tripped
  deriving DecidableEq, Repr

/-- [R446] which steps of the running start have completed. -/
structure BootSteps where
  /-- [R446] PORST_N deasserted, straps latched. Reset false. -/
  started : Bool := false
  /-- [R446] root PLLs locked. Reset false. -/
  pll : Bool := false
  /-- [R446] CONFIG and SECURE read. Reset false. -/
  config : Bool := false
  /-- [R446] service-die self-test done. Reset false. -/
  svcTest : Bool := false
  /-- [R446] quadrants powered in this start, as a mask. Reset 0. -/
  powered : BitVec 4 := 0
  /-- [R446] host PHYs enabled. Reset false. -/
  phys : Bool := false
  /-- [R446] array self-test done. Reset false. -/
  arrays : Bool := false
  /-- [R446] HBM trained. Reset false. -/
  hbmTrained : Bool := false
  /-- [R446] image selected and verified. Reset false. -/
  image : Bool := false
  /-- [R446] Molzu started. Reset false. -/
  molzu : Bool := false
  /-- [R446] HBM cleared. Reset false. -/
  hbmCleared : Bool := false
  /-- [R446] lanes calibrated. Reset false. -/
  calibrated : Bool := false
  /-- [R446] quadrant initialisation done. Reset false. -/
  quadInit : Bool := false
  deriving DecidableEq, Repr

/-- [R456] a firmware update in progress. -/
structure FwUpdate where
  owner : Nat
  slot : Nat
  len : Nat
  next : Nat
  lastUse : Nat
  deriving DecidableEq, Repr

/-- Start-up, reset and firmware state (chapter 16). -/
structure Boot where
  /-- [R494] power state. Reset HELD (PORST_N asserted). -/
  power : PowerState := .held
  /-- [R445 R508] straps as latched. Reset: the defaults of R508's pulls. -/
  straps : Straps := ⟨false, 0, false, false, 0⟩
  /-- [R507] PORST_N level, true asserted. Reset true. -/
  porst : Bool := true
  /-- [R507] WARM_RST_N asserted. Reset false. -/
  warmRst : Bool := false
  /-- [R446] steps of the start under way. Reset none. -/
  steps : BootSteps := {}
  /-- [R448] the start under way is a warm start. Reset false. -/
  warm : Bool := false
  /-- [R444] FW_READY set since the last cold start. Reset false. -/
  readySinceCold : Bool := false
  /-- [R89] STATUS.DEV.FW_READY. Reset 0. -/
  fwReady : Bool := false
  /-- [R89] STATUS.DEV.FW_RESTARTING. Reset 0. -/
  fwRestarting : Bool := false
  /-- [R89] STATUS.DEV.SAFE. Reset 0. -/
  safe : Bool := false
  /-- [R459] Molzu stays down (EV_FW_DOWN recorded). Reset false. -/
  fwDown : Bool := false
  /-- [R446 R453] boot attempt count in SECURE. Reset DESIGN CHOICE 0 (log 6). -/
  attempts : Nat := 0
  /-- [R453] preferred slot, 0 A, 1 B; A from manufacture. Reset 0. -/
  preferred : Nat := 0
  /-- [R88] IDENT.FW_SLOT. Reset 0. -/
  slot : Nat := 0
  /-- [R88] IDENT.FW version of the running image. Reset 0. -/
  version : BitVec 32 := 0
  /-- [R88] whether FW_READY has been set since the start, so IDENT.FW reads the version. Reset false. -/
  versionShown : Bool := false
  /-- [R122] SHA-384 of the running image. Reset 0. -/
  sha : Nat := 0
  /-- [R448] SHA-384 recorded in SECURE at the last full check, per slot (0 A, 1 B, 2 golden). Reset 0 (log 6). -/
  shaRecorded : Tbl Nat := { dflt := 0 }
  /-- [R451] SVN of the running image. Reset 0. -/
  svn : Nat := 0
  /-- [R10] profiles the running image offers. Reset 1 (CP1; DESIGN CHOICE, log 6). -/
  profiles : BitVec 32 := 1
  /-- [R454] anti-rollback counter in SECURE. Reset DESIGN CHOICE 0 (log 6). -/
  antiRollback : Nat := 0
  /-- [R454 R459] when FW_READY was last set (model time). Reset 0. -/
  readyAt : Nat := 0
  /-- [R459] times and causes of the Molzu restarts, newest first. Reset none. -/
  restarts : List (Nat × Nat) := []
  /-- [R459] the next image is the golden image. Reset false. -/
  goldenNext : Bool := false
  /-- [R459] the restart under way already runs from the golden image. Reset false. -/
  goldenRestart : Bool := false
  /-- [R459] the slot the restart under way loads. Reset 0. -/
  restartSlot : Nat := 0
  /-- [R133] an import has written CONFIG since the last start. Reset false. -/
  importFresh : Bool := false
  /-- [R456] update in progress. Reset none. -/
  update : Option FwUpdate := none
  /-- [R456] slots A and B whose first 4 KiB stand erased. Reset false (log 6). -/
  erasedA : Bool := false
  erasedB : Bool := false
  /-- [R507 R458] FLASH_REQ level. Reset false. -/
  flashReq : Bool := false
  /-- [R507 R458] FLASH_GNT level; high while PORST_N is asserted. Reset true. -/
  flashGnt : Bool := true
  /-- [R458] the device's flash operation: 0 erase, 1 program, 2 read. Reset none. -/
  flashOp : Option Nat := none
  /-- [R458] an erase is suspended for the BMC. Reset false. -/
  flashSuspended : Bool := false
  /-- [R458] device flash work that waits for FLASH_REQ to drop: operation, address, length. Reset none. -/
  flashWork : List (Nat × Nat × Nat) := []
  /-- [R452] image-key slots fused and not revoked. Reset: all four (DESIGN CHOICE, log 5). -/
  keySlots : BitVec 4 := 0xF
  /-- [R130] KEY_IDs of the owner keys held in the key and fuse block. Reset DESIGN CHOICE one key of KEY_ID 1 (log 5). -/
  ownerKeys : List (BitVec 64) := [1]
  /-- [R133 R426] the management P_KEY in force, taken from CONFIG at a cold or warm start. Reset 0xFFFF. -/
  mgmtPkey : BitVec 16 := 0xFFFF
  /-- [R133 R419] the GROUP_BASE in force on a chain manager, taken from CONFIG at a cold or warm start. Reset DESIGN CHOICE 0 (log 6). -/
  groupBase : BitVec 20 := 0
  /-- [R171] CALIB holds HBM training of the stacks. Reset DESIGN CHOICE 0 (log 6). -/
  calibHbm : BitVec 4 := 0
  deriving DecidableEq, Repr

/-- [R523] a stored port. -/
structure StoredPort where
  width : Nat
  role : Nat
  up : Bool
  deriving DecidableEq, Repr

/-- [R113] an access-table entry. -/
structure AccEntry where
  id : Nat
  mask : Nat
  read : Bool
  write : Bool
  valid : Bool
  deriving DecidableEq, Repr

/-- [R127] an Almanac bank's content. -/
structure AlmBank where
  /-- [R127] the GATING flag loaded. Reset 0. -/
  gating : Bool := false
  /-- [R127] entries (DURATION_NS, OPEN_MASK). Reset none. -/
  entries : List (Nat × BitVec 16) := []
  /-- [R127 R257] ADOPT_FT while pending, the cycle base afterwards. Reset 0. -/
  ft : BitVec 64 := 0
  deriving DecidableEq, Repr

/-- The CONFIG partition's content (R44, R133, R523, R525). -/
structure StoredCfg where
  /-- [R60] stored mode per host port; none where nothing is stored. Reset none. -/
  hostMode : Tbl (Option Nat) := { dflt := none }
  /-- [R523] RATE per octet. Reset 0 (R185: 224G until the stored configuration is applied). -/
  rate : Tbl Nat := { dflt := 0 }
  /-- [R523] REACH per octet. Reset 0 (R185). -/
  reach : Tbl Nat := { dflt := 0 }
  /-- [R523] ports by first lane. Reset none (DESIGN CHOICE, log 6). -/
  ports : Tbl (Option StoredPort) := { dflt := none }
  /-- [R523 R184] LANE.CFG per lane. Reset 0xF30 (TX_PRESET 3, TX_AMP 15). -/
  laneCfg : Tbl Nat := { dflt := 0xF30 }
  /-- [R433] stored router FEA[23:4]. Reset none (DESIGN CHOICE, log 6). -/
  fea : Option (BitVec 20) := none
  /-- [R419 R133] GROUP_BASE. Reset DESIGN CHOICE 0 (log 6). -/
  groupBase : BitVec 20 := 0
  /-- [R133] stored group role: group manager. Reset false (log 6). -/
  groupMgr : Bool := false
  /-- [R133] chain address carried by the image. Reset 0 (log 6). -/
  chainAddr : Nat := 0
  /-- [R133 R525] stored chain role and MGR_ELIGIBLE, as an imported image gave them. Reset false (log 6). -/
  chainRole : Bool := false
  mgrElig : Bool := false
  /-- [R426] management P_KEY. Reset 0xFFFF. -/
  mgmtPkey : BitVec 16 := 0xFFFF
  /-- [R10] profile named, 0 none. Reset 0 (log 6). -/
  profile : Nat := 0
  /-- [R75] retire records. Reset 0 (log 6). -/
  retire : BitVec 4 := 0
  /-- [R115] stored access tables by target. Reset none. -/
  access : Tbl (Option (List AccEntry)) := { dflt := none }
  /-- [R133 R227] route-table epoch written by an import. Reset 0. -/
  routeEpoch : BitVec 16 := 0
  /-- [R133] imported Almanac lists by port field. Reset none. -/
  almanac : Tbl AlmBank := { dflt := {} }
  deriving DecidableEq, Repr

/-- [R73] how far a quadrant's gating or ungating has come. -/
inductive GateStage where
  | idle | draining | rehoming | gating | ungating
  deriving DecidableEq, Repr

/-- One direction of a link between dies (R19, R21): bytes waiting in each receive buffer's queue as of model time `at_`, fabric
packets by VC, coherence messages by class (REQ, FWD, RSP, DAT), service messages. -/
structure MeshDir where
  fab : List Nat := List.replicate 16 0
  coh : List Nat := List.replicate 4 0
  svc : Nat := 0
  at_ : Nat := 0
  deriving DecidableEq, Repr

/-- A quadrant (R23, R72). -/
structure Quad where
  /-- [R72 R88] IDENT.QUAD code: 0 ACTIVE, 1 GATED, 2 RETIRED. Reset DESIGN CHOICE 0 until a cold start applies retire records (log 6). -/
  st : Nat := 0
  /-- [R73 R74] gating under way. Reset idle. -/
  stage : GateStage := .idle
  /-- [R504 R501] held in reset by a lost core reference or a trip. Reset false. -/
  inReset : Bool := false
  /-- [R163 R185] REFCLK_NETq present: seen when the quadrant is powered (DEDUCED, log 19). Reset false (R185). -/
  refOk : Bool := false
  /-- [R163] REFCLK_NETq has been lost since it was last present. Reset false. -/
  refLost : Bool := false
  /-- [R41 R43] patrol scrub address (64 B units). Reset 0. -/
  patrolAddr : Nat := 0
  /-- [R41] when the current pass started. Reset 0. -/
  patrolStart : Nat := 0
  /-- [R43] when the stack was gated. Reset 0. -/
  gatedAt : Nat := 0
  /-- [R199] receive-pool credits allocated to ports, tree reservations included. Reset 0. -/
  poolUsed : Nat := 0
  /-- [R198 R199] receive-pool credits that packets from the quadrant's internal ports occupy. Reset 0. -/
  intUsed : Nat := 0
  /-- [R200] the port whose grant request the pool's arbiter served last. Reset 0. -/
  arb : Nat := 0
  /-- [R19 R21] links out of the quadrant by destination: quadrants 0 to 3, 4 the service die. Reset empty. -/
  mesh : Tbl MeshDir := { dflt := {} }
  /-- [R19 R22] the service die's link into the quadrant (Q0 and Q2). Reset empty. -/
  svcIn : MeshDir := {}
  /-- [R23 R31] trees whose entries the tree cache holds, the last used first. Reset none. -/
  treeCache : List Nat := []
  /-- [R23 R504] the quadrant's root PLL has locked. Reset false. -/
  rootPll : Bool := false
  /-- [R444 R448] the quadrant's stack is in self refresh. Reset false. -/
  selfRefresh : Bool := false
  /-- [R231] route decisions made: the position of the quadrant's LFSR. Reset 0 (log 7). -/
  lfsr : Nat := 0
  /-- [R285] position in the SL turn cycle, 0-6. Reset 0 (DESIGN CHOICE, log 6). -/
  turn : Nat := 0
  /-- [R285] last queue served per SL. Reset 0. -/
  lastServed : Tbl Nat := { dflt := 0 }
  /-- [R500] throttle level 0, 1, 2. Reset 0. -/
  throttle : Nat := 0
  /-- [R393] page-ins waiting for a slot on this stack, in request order. Reset none. -/
  pageInWait : List Nat := []
  /-- [R394 R393] queue-pair slots in use on this stack. Reset 0. -/
  slotsUsed : Nat := 0
  /-- [R388] small-queue, window, PD, stream and tree entries in use on this stack. Reset 0. -/
  smallUsed : Nat := 0
  winUsed : Nat := 0
  pdUsed : Nat := 0
  streamUsed : Nat := 0
  treeUsed : Nat := 0
  /-- [R333] store entries in use. Reset 0. -/
  storeUsed : Nat := 0
  /-- [R344] unexpected-pool chunks in use. Reset 0. -/
  chunksUsed : Nat := 0
  /-- [R387] context-list entries in use. Reset 0. -/
  ctxListUsed : Nat := 0
  /-- [R409] model times of the corrected errors per HBM row in the last 24 h. Reset none. -/
  rowErrs : Tbl (List Nat) := { dflt := [] }
  /-- [R409] rows recorded in CALIB for repair at the next cold start. Reset none. -/
  repairRows : List Nat := []
  /-- [R470] the quadrant's event buffer, oldest first. Reset none. -/
  evBuf : List EvRec := []
  /-- [R470] records overwritten and not yet reported by EV_EVENT_LOST. Reset 0. -/
  evLost : Nat := 0
  deriving DecidableEq, Repr

/-- A cached translation (R320): the protection domain it is tagged with, the addresses it covers, and where they lie. -/
structure Xlat where
  pd : Nat
  addr : Nat
  len : Nat
  bus : Nat
  deriving DecidableEq, Repr

/-- [R321] an atomic at host memory under way. -/
structure HostAtomic where
  qp : Nat
  psn : BitVec 32
  fn : Nat
  addr : Nat
  aop : Nat
  a : BitVec 128
  swap : BitVec 128
  /-- under CXL_X16 the device operates on the line itself -/
  cxl : Bool
  /-- [R319] the index of the window it works through -/
  win : Nat := 0
  deriving DecidableEq, Repr

/-- The HOST window's RW registers and the endpoint's link (R462). -/
structure HostEp where
  /-- [R462] HOST.STATE.LINK_UP. Reset 0. -/
  linkUp : Bool := false
  /-- [R462] HOST.STATE.CFG_READY. Reset 0. -/
  cfgReady : Bool := false
  /-- [R462] HOST.STATE.SPEED. Reset 0. -/
  speed : Nat := 0
  /-- [R462] HOST.STATE.WIDTH. Reset 0. -/
  width : Nat := 0
  /-- [R462] HOST.STATE.OUTSTANDING. Reset 0. -/
  outstanding : Nat := 0
  /-- [R447] the Device Readiness Status message of this cold start has been sent. Reset false. -/
  drsSent : Bool := false
  /-- [R447] the link has reached DL_Active since the cold start. Reset false. -/
  seenLink : Bool := false
  /-- [R281] HOST.POLL_ACTIVE_NS. Reset 250. -/
  pollActive : Nat := 250
  /-- [R281] HOST.POLL_IDLE_MAX_US. Reset 20. -/
  pollIdleMax : Nat := 20
  /-- [R281] HOST.SLOT_WAIT_NS. Reset 2000. -/
  slotWait : Nat := 2000
  /-- [R281] HOST.PARK_IDLE_MS. Reset 100. -/
  parkIdle : Nat := 100
  /-- [R281] HOST.CQ_FULL_US. Reset 1000. -/
  cqFull : Nat := 1000
  /-- [R314] HOST.RTO_MIN_US. Reset 10. -/
  rtoMin : Nat := 10
  /-- [R314] HOST.RETRY_LIMIT. Reset 7. -/
  retryLimit : Nat := 7
  /-- [R314] HOST.RNR_LIMIT. Reset 16. -/
  rnrLimit : Nat := 16
  /-- [R314] HOST.RNR_HINT_US. Reset 20. -/
  rnrHint : Nat := 20
  /-- [R314] HOST.REORDER_TOL_US. Reset 8. -/
  reorderTol : Nat := 8
  /-- [R314] HOST.ACK_DELAY_NS. Reset 2000. -/
  ackDelay : Nat := 2000
  /-- [R314] HOST.ACK_COALESCE. Reset 4. -/
  ackCoalesce : Nat := 4
  /-- [R314] HOST.CC_TARGET_SL0_US. Reset 16. -/
  ccT0 : Nat := 16
  /-- [R314] HOST.CC_TARGET_SL1_US. Reset 6. -/
  ccT1 : Nat := 6
  /-- [R314] HOST.CC_TARGET_SL2_US. Reset 12. -/
  ccT2 : Nat := 12
  /-- [R351] HOST.EAGER_MAX. Reset 8192. -/
  eagerMax : Nat := 8192
  /-- [R395] HOST.BACKING_BASE. Reset 0. -/
  backBase : BitVec 64 := 0
  /-- [R395] HOST.BACKING_SLOTS. Reset 0. -/
  backSlots : Nat := 0
  /-- [R395] backing slots holding images: slot to queue number. Reset none. -/
  images : Tbl (Option Nat) := { dflt := none }
  /-- [R339] headers held in the host port's reorder store (kept at its half A endpoint). Reset 0. -/
  reorderUsed : Nat := 0
  /-- [R24 R29 R30] packets delivered to the endpoint's internal port, waiting for their engine. Reset none. -/
  rx : List QPkt := []
  /-- [R24] packets the endpoint's engines have built, waiting to enter the switch core. Reset none. -/
  inject : List Pkt := []
  /-- [R321] atomics sent to host memory that await their completion. Reset none. -/
  atomics : List HostAtomic := []
  deriving DecidableEq, Repr

/-- [R103] an admin queue. -/
structure AdminQ where
  /-- [R103] AQ.SQ_BASE. Reset 0. -/
  sqBase : BitVec 64 := 0
  /-- [R103] AQ.CQ_BASE. Reset 0. -/
  cqBase : BitVec 64 := 0
  /-- [R103] AQ.SIZE.LOG2_ENTRIES. Reset 8. -/
  log2 : Nat := 8
  /-- [R103] AQ.SQ_TAIL. Reset 0. -/
  sqTail : Nat := 0
  /-- [R103] AQ.SQ_HEAD. Reset 0. -/
  sqHead : Nat := 0
  /-- [R103] AQ.CQ_HEAD. Reset 0. -/
  cqHead : Nat := 0
  /-- [R104] completions written, modulo twice the ring size. Reset 0. -/
  cqTail : Nat := 0
  /-- [R103] AQ.CTRL.ENABLE. Reset 0. -/
  enable : Bool := false
  /-- [R103] AQ.CTRL.IRQ_EN. Reset 0. -/
  irqEn : Bool := false
  /-- [R103] AQ.STATUS.STATE: 0 DISABLED, 1 RUNNING, 2 ERROR, 3 QUIESCED. Reset 0. -/
  state : Nat := 0
  /-- [R103] AQ.STATUS.ERR_CODE. Reset 0. -/
  errCode : Nat := 0
  /-- [R105] fetched commands not yet completed, in fetch order (64 B slots). Reset none. -/
  fetched : List (List Byte) := []
  deriving DecidableEq, Repr

/-- [R139] a function's quotas; none means no limit. -/
structure Quota where
  /-- [R139] MAX_QUEUES. Reset 65,536 (VF). -/
  queues : Nat := 65536
  /-- [R139] MAX_CQ. Reset 65,536. -/
  cqs : Nat := 65536
  /-- [R139] MAX_WINDOWS. Reset 262,144. -/
  windows : Nat := 262144
  /-- [R139] MAX_UNEXPECTED in KiB. Reset 65,536. -/
  unexp : Nat := 65536
  deriving DecidableEq, Repr

/-- A PCIe function (R85 to R91, R110), keyed by its master ID. -/
structure Fn where
  /-- [R460] bus-master enable. Reset false (PCIe reset value; PRESUMED, log 8). -/
  bme : Bool := false
  /-- [R460] the function's queues are QUIESCED. Reset false. -/
  quiesced : Bool := false
  /-- [R461] an FLR is running. Reset false. -/
  flrBusy : Bool := false
  /-- [R64] AtomicOp Requester Enable in Device Control 2. Reset false (PRESUMED, log 8). -/
  atomicEn : Bool := false
  /-- [R294] completion timeout upper end in us. Reset 50,000 (PRESUMED, log 8). -/
  ctoUs : Nat := 50000
  /-- [R320] ATS capability Enable. Reset off (R320). -/
  ats : Bool := false
  /-- [R320] cached ATS translations: PDID, start, length. Reset none. -/
  atsCache : List Xlat := []
  /-- [R91] MSI-X function mask. Reset false (PRESUMED, log 8). -/
  msixFnMask : Bool := false
  /-- [R91] vectors masked individually. Reset: every vector masked (PCIe MSI-X; PRESUMED, log 8). -/
  msixMask : Tbl Bool := { dflt := true }
  /-- [R91] MSI-X table address and data per vector, as written. Reset 0 (PRESUMED, log 8). -/
  msixTable : Tbl (BitVec 96) := { dflt := 0 }
  /-- [R91] pending bits. Reset 0. -/
  msixPend : Tbl Bool := { dflt := false }
  /-- [R289] vectors within an interrupt holdoff: 1 running, 2 running with a write to signal. Reset 0. -/
  holdoff : Tbl Nat := { dflt := 0 }
  /-- [R103] the admin queue. -/
  aq : AdminQ := {}
  /-- [R224] host-function partition table, 16 entries. Reset entry 0 = 0xFFFF. -/
  pkeys : Tbl (BitVec 16) := { dflt := 0, cells := [(0, 0xFFFF)] }
  /-- [R139] quotas. -/
  quota : Quota := {}
  /-- [R134 R138] queues, completion queues and windows in use; unexpected KiB in use. Reset 0. -/
  qUse : Nat := 0
  cqUse : Nat := 0
  winUse : Nat := 0
  unexpUse : Nat := 0
  deriving DecidableEq, Repr

/-- A queued mailbox or in-band command (R98, R102). -/
structure MbCmd where
  /-- the issuing master ID; in-band commands act with 0x800 + slot (R111) -/
  m : Nat
  inband : Option (ArrSrc × MgmtHdr × BitVec 24) := none
  op : Nat
  tag : Nat
  len : Nat
  flags : Nat
  payload : List Byte
  /-- [R126 R129] model time of the doorbell, or of arrival at the management agent -/
  at_ : Nat
  deriving DecidableEq, Repr

/-- A function's or instance's STATUS and MAILBOX blocks (R89, R97). -/
structure Inst where
  /-- [R89] STATUS.DEV.SEL_ERR. Reset 0. -/
  selErr : Bool := false
  /-- [R89] STATUS.DEV.ACC_ERR. Reset 0. -/
  accErr : Bool := false
  /-- [R89] STATUS.CAUSE. Reset 0. -/
  cause : BitVec 9 := 0
  /-- [R89] STATUS.MASK. Reset 0x1FF. -/
  mask : BitVec 9 := 0x1FF
  /-- [R97] command area, by byte. Reset 0. -/
  cmdArea : Tbl Byte := { dflt := 0 }
  /-- [R97] response area's bytes, from offset 0. Reset none (reads zero). -/
  rspArea : List Byte := []
  /-- [R97] MAILBOX.STATE.STATE: 0 IDLE, 1 BUSY, 2 DONE. Reset 0. -/
  mbState : Nat := 0
  /-- [R97] WAITING_FW. Reset 0. -/
  waitingFw : Bool := false
  /-- [R97] DB_IGNORED. Reset 0. -/
  dbIgnored : Bool := false
  /-- [R97] LAST_TAG. Reset 0. -/
  lastTag : Nat := 0
  deriving DecidableEq, Repr

/-- What the device keeps per master ID (R93, R107, R109, R475). -/
structure Master where
  /-- [R92] CHSEL.PORT_SEL. Reset 0. -/
  portSel : Nat := 0
  /-- [R92] CHSEL.LANE_SEL. Reset 0. -/
  laneSel : Nat := 0
  /-- [R92] CHSEL.OCT_SEL. Reset 0. -/
  octSel : Nat := 0
  /-- [R92] CHSEL.HOST_SEL. Reset 0. -/
  hostSel : Nat := 0
  /-- [R92] CHSEL.SHP_SEL. Reset 0. -/
  shpSel : Nat := 0
  /-- [R92] CHSEL.CNT_SEL. Reset 0. -/
  cntSel : Nat := 0
  /-- [R107] shadow of FT_HI. Reset 0. -/
  ftHi : BitVec 32 := 0
  /-- [R107] shadow of FT_FRAC. Reset 0. -/
  ftFrac : BitVec 16 := 0
  /-- [R475] shadow of a counter's high half. Reset 0. -/
  cntHi : BitVec 32 := 0
  /-- [R109] EVENT.RD_PTR. Reset OLDEST, as it is at the cold or warm start: 1 while no record is held. -/
  rdPtr : BitVec 32 := 1
  deriving DecidableEq, Repr

/-- [R100 R101 R123] a class L command carrying on. -/
inductive Background where
  | portDown (p : Nat)
  | quadGate (q : Nat)
  | quadUngate (q : Nat)
  | fwEnd (slot : Nat)
  | importCommit
  deriving DecidableEq, Repr

structure BgCmd where
  m : Nat
  tag : Nat
  op : Nat
  what : Background
  committed : Bool
  status : Nat
  done : Bool
  deriving DecidableEq, Repr

/-- [R132] a staging buffer. -/
structure Staging where
  /-- [R132] the master holding it. Reset none. -/
  owner : Option Nat := none
  /-- [R132] the bytes held. Reset none. -/
  bytes : List Byte := []
  /-- [R132] next byte expected. Reset 0. -/
  next : Nat := 0
  deriving DecidableEq, Repr

/-- The Molzu command interface (chapters 3 and 4). -/
structure Cmds where
  /-- [R100] commands waiting for Molzu, in doorbell order. Reset none. -/
  queue : List MbCmd := []
  /-- [R101 R131] commands Molzu was executing, before their commit points, when it stopped: they complete after the restart. Reset none. -/
  cut : List MbCmd := []
  /-- [R100 R123] class L commands carrying on. Reset none. -/
  running : List BgCmd := []
  /-- [R132] export staging buffer. -/
  exportBuf : Staging := {}
  /-- [R132] import staging buffer. -/
  importBuf : Staging := {}
  /-- [R130] current clear nonce, none when none is current. Reset none. -/
  nonce : Option (BitVec 128) := none
  /-- [R126] when a route bank was last adopted. Reset none. -/
  lastAdopt : Option Nat := none
  /-- [R129] when a snapshot last fell due. Reset none. -/
  lastSnap : Option Nat := none
  deriving DecidableEq, Repr

end Sys2Proof.Machine
end

