-- ==== Sys2Proof/Machine/PartsFabric.lean ====
section
/-! DEFINITION. Parts of the state: lanes and octets, network ports with their link layer, egress schedulers and gates, the
time unit, the route banks, the shapers and policers. -/

namespace Sys2Proof.Machine

/-- [R169] the lane states, in the order of LANE.STATE.STATE. -/
inductive LaneSt where
  | off | parked | train | up | eidle | wake | retrain | diag
  deriving DecidableEq, Repr

/-- A network lane (chapter 6). -/
structure Lane where
  /-- [R169 R184] LANE.STATE.STATE. Reset 0 OFF. -/
  st : LaneSt := .off
  /-- [R184] LANE.STATE.SIGNAL_DET. Reset 0. -/
  sig : Bool := false
  /-- [R184] LANE.STATE.CDR_LOCK. Reset 0. -/
  cdr : Bool := false
  /-- [R184] LANE.STATE.FEC_LOCK. Reset 0. -/
  fec : Bool := false
  /-- [R184] LANE.STATE.EIDLE_RX. Reset 0. -/
  eidleRx : Bool := false
  /-- [R184] LANE.STATE.RX_INV. Reset 0. -/
  rxInv : Bool := false
  /-- [R184] LANE.STATE.NO_LOCK. Reset 0. -/
  noLock : Bool := false
  /-- [R169] NO_LOCK timer running. Reset false. -/
  noLockTmr : Bool := false
  /-- [R169] waiting out RETRY_WAIT. Reset false. -/
  retryWait : Bool := false
  /-- [R177] waits for a place in a wake batch before it starts training. Reset false. -/
  trainReq : Bool := false
  /-- [R175] WAKE_ALIGN_TMO running since signal detect. Reset false. -/
  alignTmr : Bool := false
  /-- [R167 R168] consecutive uncorrectable codewords, up to 4. Reset 0. -/
  uncorr : Nat := 0
  /-- [R167] consecutive codewords decoded without failure at one boundary, up to 8. Reset 0. -/
  good : Nat := 0
  /-- [R168] the error marks of the last eight codewords handed to the link layer, newest first. Reset none. -/
  marks : List Bool := []
  /-- [R189] LTB lock. Reset false. -/
  ltbLock : Bool := false
  /-- [R181 R184] LOOPBACK. Reset 0. -/
  loopback : Nat := 0
  /-- [R178] PATTERN set. Reset 0. -/
  pattern : Nat := 0
  /-- [R184] PRBS_GEN. Reset 0. -/
  prbsGen : Bool := false
  /-- [R184] PRBS_CHK. Reset 0. -/
  prbsChk : Bool := false
  /-- [R184] PRBS_LOCK. Reset 0. -/
  prbsLock : Bool := false
  /-- [R179] bits checked before the checker last locked. Reset 0. -/
  prbsBits : Nat := 0
  /-- [R179] bit errors counted before the checker last locked. Reset 0. -/
  prbsErrs : Nat := 0
  /-- [R179] bits checked in the present lock, as last reported. Reset 0. -/
  lockBits : Nat := 0
  /-- [R179] bit errors of the present lock, as last reported. Reset 0. -/
  lockErrs : Nat := 0
  /-- [R184] LANE.CFG as stored. Reset 0xF30. -/
  cfg : Word32 := 0xF30
  /-- [R184] LANE.CFG in force, taken at the last entry to TRAIN. Reset 0xF30. -/
  cfgNow : Word32 := 0xF30
  /-- [R184] LANE.RX_EQ. Reset 0. -/
  rxEq : Word32 := 0
  /-- [R184] LANE.SNR.SNR. Reset 0. -/
  snr : BitVec 12 := 0
  /-- [R173 R184] LANE.SNR.ADAPT_SEQ. Reset 0. -/
  adaptSeq : BitVec 16 := 0
  /-- [R184] LANE.EYE. Reset 0. -/
  eye : Word32 := 0
  /-- [R184] LANE.BER. Reset 0. -/
  ber : Word32 := 0
  /-- [R184] LANE.INJ.REMAINING. Reset 0. -/
  inj : BitVec 32 := 0
  /-- [R180] kind of the pending injections. Reset 0. -/
  injKind : Nat := 0
  /-- [R180] a LANE_DROP squelches the transmitter. Reset false. -/
  dropping : Bool := false
  /-- [R172] the coefficient sets CALIB holds, by reach*4+rate, in the form of LANE.RX_EQ. Reset DESIGN CHOICE none (log 6). -/
  calibSets : Tbl (Option Word32) := { dflt := none }
  /-- [R172] the lane has had its first FEC lock since the cold start. Reset false. -/
  lockedSinceCold : Bool := false
  /-- [R172] when the lane's set was last written. Reset 0. -/
  calibAt : Nat := 0
  /-- [R171] CALIB holds the lane's circuit values. Reset DESIGN CHOICE false (log 6). -/
  circuit : Bool := false
  /-- [R174 R177] exit burst under way. Reset false. -/
  burst : Bool := false
  deriving DecidableEq, Repr

/-- An octet (R185). -/
structure Octet where
  /-- [R185] OCTET.CFG.RATE. Reset 0. -/
  rate : Nat := 0
  /-- [R185] OCTET.CFG.REACH. Reset 0. -/
  reach : Nat := 0
  /-- [R185] OCTET.CFG.PLL_LOCK. Reset 0. -/
  pll : Bool := false
  /-- [R185] OCTET.CFG.CAL_SOURCE. Reset 0. -/
  calSrc : Nat := 0
  /-- [R185] OCTET.TIMERS.IDLE_ENTER. Reset 20. -/
  idleEnter : Nat := 20
  /-- [R185] OCTET.TIMERS.IDLE_EN. Reset 1. -/
  idleEn : Bool := true
  /-- [R185] OCTET.TIMERS.REFRESH. Reset 10. -/
  refresh : Nat := 10
  /-- [R185] OCTET.TIMERS.RETRAIN. Reset 10. -/
  retrain : Nat := 10
  /-- [R185] OCTET.TEMP. Reset 0. -/
  temp : BitVec 12 := 0
  deriving DecidableEq, Repr

/-- [R195] the link states, in the order of PORT.LINK.STATE. -/
inductive LinkSt where
  | down | train | init | active | retrain | drain
  deriving DecidableEq, Repr

/-- A packet that has begun to leave (R205): how many DATA LTBs up to the one with its last byte are still to be sent, and that one's
number once it has been. -/
structure TxPkt where
  q : QPkt
  left : Nat := 0
  lastSeq : BitVec 16 := 0
  /-- [R259] FT at which its window closes; none for an ungated packet -/
  winEnd : Option Nat := none
  /-- [R193] it ends with ABORT_END -/
  aborted : Bool := false
  /-- its last byte has left (R201) -/
  departed : Bool := false
  deriving DecidableEq, Repr

/-- A sequenced LTB held for replay, and how often it has been replayed (R203, R204). -/
structure HeldLtb where
  seq : BitVec 16
  replays : Nat := 0
  /-- its other fields and its content -/
  h : LtbTx := { seq := 0, ack := 0 }
  body : LtbBody := .idle
  deriving DecidableEq, Repr

/-- A DATA LTB that is filled or waits for its bytes (R191). -/
structure DataLtb where
  bytes : List Byte
  startOff : Nat := 0xFF
  abortEnd : Bool := false
  deriving DecidableEq, Repr

/-- A packet being received (R191): how many of its bytes have come. -/
structure RxPkt where
  pkt : Pkt
  got : Nat
  /-- [R218] model time its header arrived -/
  at_ : Nat := 0
  bad : Bool := false
  /-- it has entered the switch core before it was whole (R194) -/
  gone : Bool := false
  deriving DecidableEq, Repr

/-- A shaper (R250): tokens in 1/8000 B, as of model time `at_`. -/
structure Shaper where
  /-- [R266] SHAPER.RATE in Mbit/s. Reset 0. -/
  rate : Nat := 0
  /-- [R266] SHAPER.BURST in bytes. Reset 0. -/
  burst : Nat := 0
  /-- [R250] T, in 1/8000 B. Reset 0. -/
  tok : Int := 0
  /-- the model time `tok` was taken at. Reset 0. -/
  at_ : Nat := 0
  deriving DecidableEq, Repr

/-- A policer (R254): buckets in 1/8000 B, as of model time `at_`. -/
structure Policer where
  /-- [R266] POL_CFG.DROP_RED. Reset 0. -/
  dropRed : Bool := false
  /-- [R266] POL_CFG.AWARE. Reset 0. -/
  aware : Bool := false
  /-- [R266] POL_CFG.ENABLE. Reset 0. -/
  enable : Bool := false
  /-- [R266] POL_CIR. Reset 0. -/
  cir : Nat := 0
  /-- [R266] POL_PIR. Reset 0. -/
  pir : Nat := 0
  /-- [R266] POL_CBS. Reset 0. -/
  cbs : Nat := 0
  /-- [R266] POL_PBS. Reset 0. -/
  pbs : Nat := 0
  /-- [R266] POL_TC, in 1/8000 B. Reset 0. -/
  tc : Nat := 0
  /-- [R266] POL_TP, in 1/8000 B. Reset 0. -/
  tp : Nat := 0
  /-- the model time the buckets were taken at. Reset 0. -/
  at_ : Nat := 0
  deriving DecidableEq, Repr

/-- A LOAD_HINT block as received (R237). -/
structure HintBlk where
  at_ : Nat
  load : List Nat
  deriving DecidableEq, Repr

/-- What a neighbour announced (R144, R151). -/
structure Announced where
  valid : Bool := false
  locked : Bool := false
  holdover : Bool := false
  fea : BitVec 24 := 0
  cls : Nat := 0
  hops : Nat := 0
  stepSeq : BitVec 8 := 0
  stepFt : BitVec 64 := 0
  stepNs : Int := 0
  deriving DecidableEq, Repr

/-- A port's Equinox state (R146, R147). -/
structure PortEqx where
  /-- [R147] exchange interval in ns. Reset 1,000,000 (1 ms). -/
  interval : Nat := 1000000
  /-- [R144] EXCH_SEQ of the last exchange started. Reset 0. -/
  seq : BitVec 16 := 0
  /-- [R146] the regular exchange that is open, started at t1 (2^-16 ns). Reset none. -/
  t1 : Option Nat := none
  /-- [R146] EXCH_SEQ of the last regular exchange. Reset 0. -/
  openSeq : BitVec 16 := 0
  /-- [R147] the open out-of-cycle exchange: its EXCH_SEQ and t1. Reset none. -/
  extra : Option (BitVec 16 × Nat) := none
  /-- [R147 R159] EXCH_SEQ of the last out-of-cycle exchange. Reset none. -/
  extraSeq : Option (BitVec 16) := none
  /-- [R147] the last exchange started is out of cycle. Reset false. -/
  outOfCycle : Bool := false
  /-- [R146 R147 R175] exchanges that wait for the transmitter's wake: a regular one, an out-of-cycle one. Reset false. -/
  dueReg : Bool := false
  dueExtra : Bool := false
  /-- [R146] delays of the last 16 accepted measurements, newest first (2^-16 ns). Reset none. -/
  delays : List Int := []
  /-- [R146] the offset of the last accepted measurement, 2^-16 ns. Reset none. -/
  offset : Option Int := none
  /-- [R155] a measurement was accepted in this interval. Reset false. -/
  accepted : Bool := false
  /-- [R159] a RESP arrived in this interval. Reset false. -/
  responded : Bool := false
  /-- [R155] consecutive intervals without an accepted measurement. Reset 0. -/
  missed : Nat := 0
  /-- [R145] a RESP owed while the transmitter was squelched: the REQ's EXCH_SEQ and arrival. Reset none. -/
  oweResp : Option (BitVec 16 × Nat) := none
  /-- [R146] the peer's own REPORT (t1, t4) of its last exchange, for the records. Reset none. -/
  report : Option (Nat × Nat) := none
  /-- [R151] the neighbour's last ANNOUNCE. Reset none. -/
  ann : Option Announced := none
  deriving DecidableEq, Repr

/-- [R257] the two Almanac banks of a port and its gate state. -/
structure Gate where
  /-- [R257] bank 0. Reset empty. -/
  bank0 : AlmBank := {}
  /-- [R257] bank 1. Reset empty. -/
  bank1 : AlmBank := {}
  /-- [R266] GATE_STATE.BANK. Reset 0. -/
  active : Bool := false
  /-- [R266] GATE_STATE.PENDING. Reset 0. -/
  pending : Bool := false
  /-- [R266] GATE_STATE.GATING. Reset 0. -/
  gating : Bool := false
  /-- [R266] GATE_STATE.FORCED_CLOSED. Reset 0. -/
  forced : Bool := false
  /-- [R264] when the gates were forced closed. Reset 0. -/
  forcedAt : Nat := 0
  /-- [R266] GATE_STATE.HOLDOVER. Reset 0. -/
  holdTmr : Bool := false
  /-- [R265] GUARD_NS. Reset 100. -/
  guardNs : Nat := 100
  /-- [R265] EDGE_TOL. Reset 40. -/
  edgeTol : Nat := 40
  /-- [R265] HOLDOVER_MAX. Reset 10. -/
  holdoverMax : Nat := 10
  /-- [R263] EDGE_RUN. Reset 0. -/
  run : Nat := 0
  /-- [R263] runs of 16 whose event and query are due: the last departure error of each in ns, oldest first. Reset none. -/
  edgeDue : List Int := []
  deriving DecidableEq, Repr

/-- [R184 R197] what the partner's INIT said. -/
structure Partner where
  /-- [R211] PORT.PARTNER.VALID. Reset 0. -/
  valid : Bool := false
  /-- [R211] PORT.PARTNER.FEA. Reset 0. -/
  fea : BitVec 24 := 0
  /-- [R211] PORT.PARTNER_PORT.PORT. Reset 0. -/
  port : Nat := 0
  /-- [R197] the partner's serial number. Reset none. -/
  serial : List Byte := []
  /-- [R197] the partner is a group manager. Reset false. -/
  manager : Bool := false
  /-- [R197] the partner uses split numbering. Reset false. -/
  split : Bool := false
  /-- [R197] CREDIT_TMO the partner announced, in us. Reset 0. -/
  creditTmo : Nat := 0
  deriving DecidableEq, Repr

/-- A network port, keyed by its first lane (chapters 7 to 9). -/
structure Port where
  /-- [R50] the port is configured. Reset false. -/
  exists_ : Bool := false
  /-- [R211] WIDTH code: 0 x1, 1 x2, 2 x4, 3 x8. Reset 0. -/
  width : Nat := 0
  /-- [R211] ROLE: 0 FABRIC, 1 EDGE_LEGACY, 2 DIAG, 3 OFF. Reset 3. -/
  role : Nat := 3
  /-- [R50] set UP. Reset false. -/
  up : Bool := false
  /-- [R434] the port drains for a change of the FEA and comes up again afterwards. Reset false. -/
  again : Bool := false
  /-- [R211] PORT.LINK.STATE. Reset 0 DOWN. -/
  link : LinkSt := .down
  /-- [R195] LINK_DOWN has been sent and its acknowledgement is awaited. Reset false. -/
  downSent : Bool := false
  /-- [R195] TRAIN_WAIT running. Reset false. -/
  trainWait : Bool := false
  /-- [R211] MISMATCH. Reset 0. -/
  mismatch : Nat := 0
  /-- [R195] EV_LINK_INIT_MISMATCH has been recorded in this episode, which ends when the port leaves INIT. Reset false. -/
  mismatchRec : Bool := false
  /-- [R207] LINK_DOWN waits for room in the replay buffer. Reset false. -/
  downDue : Bool := false
  /-- [R211] GRACE: LINK_GRACE running. Reset 0. -/
  grace : Bool := false
  /-- [R230] the link left ACTIVE other than by command and has not come back. Reset false. -/
  lost : Bool := false
  /-- [R211] RX_MAP. Reset 0. -/
  rxMap : BitVec 8 := 0
  /-- [R211] TX_MAP. Reset 0. -/
  txMap : BitVec 8 := 0
  /-- [R211] RX_SEQ.MAP_SEQ. Reset 0. -/
  mapSeq : BitVec 8 := 0
  /-- [R209] a LANE_MAP exchange of this receiver is open. Reset false. -/
  mapOpen : Bool := false
  /-- [R209] when the last round of it was sent. Reset 0. -/
  mapAt : Nat := 0
  /-- [R209] lanes on which the echo of the open exchange has arrived; lanes that the exchange adds to the receive map. Reset 0. -/
  echoSeen : BitVec 8 := 0
  restoring : BitVec 8 := 0
  /-- [R190] the lane of the transmit map whose slot the next LTB takes; one past the last begins a new round. Reset 0. -/
  txSlot : Nat := 0
  /-- [R175] LTBs that wait for the squelched transmitter's wake, in order: a fixed lane or the next slot. Reset none. -/
  txWait : List (Option Nat × LtbTx × LtbBody) := []
  /-- [R209] the last MAP_SEQ answered as transmitter. Reset none. -/
  peerMapSeq : Option (BitVec 8) := none
  /-- [R211] the partner. -/
  partner : Partner := {}
  /-- [R195 R197] lanes on which a valid INIT with PARTNER_SEEN has come. Reset 0. -/
  initSeen : BitVec 8 := 0
  /-- [R197] a valid INIT has come from the partner in this INIT. Reset false. -/
  gotInit : Bool := false
  /-- [R195] a full round of INIT with PARTNER_SEEN has been sent. Reset false. -/
  sentSeen : Bool := false
  /-- [R199] held in INIT for want of pool space. Reset false. -/
  poolWait : Bool := false
  /-- [R199] reserves clamped at this INIT. Reset false. -/
  clamped : Bool := false
  /-- [R199] the allotment has been taken from the pool. Reset false. -/
  allotted : Bool := false
  /-- [R199] reserve credits in force per VC. Reset 0. -/
  resNow : Tbl Nat := { dflt := 0 }
  /-- [R199] SHARED_MIN in force. Reset 0. -/
  sharedMinNow : Nat := 0
  /-- [R199] SHARED_MAX in force. Reset 0. -/
  sharedMaxNow : Nat := 0
  /-- [R197 R211] CREDIT_TMO announced at the last INIT. Reset 100. -/
  creditTmoNow : Nat := 100
  /-- [R211] TIMERS.GRACE_MS. Reset 20. -/
  graceMs : Nat := 20
  /-- [R211] TIMERS.REPLAY_US. Reset 10. -/
  replayUs : Nat := 10
  /-- [R211] CREDIT_TMO.US. Reset 100. -/
  creditTmo : Nat := 100
  /-- [R211] SHARED_LIMITS.MIN. Reset 1,024. -/
  sharedMin : Nat := 1024
  /-- [R211] SHARED_LIMITS.MAX. Reset 32,768. -/
  sharedMax : Nat := 32768
  /-- [R211] VC_RESERVE per VC. Reset 66. -/
  reserve : Tbl Nat := { dflt := 66 }
  /-- [R211] RX_GRANT.GRANT. Reset 0. -/
  grant : Nat := 0
  /-- [R199] when the partner's shared use was last at or above a quarter of the grant. Reset 0. -/
  grantLowAt : Nat := 0
  /-- [R199] credits received packets occupy in the pool, per VC. Reset 0. -/
  heldV : Tbl Nat := { dflt := 0 }
  /-- [R201] credits to return, in the order they became pending. Reset none. -/
  owed : List (Nat × Nat) := []
  /-- [R201] SHARED change to send. Reset 0. -/
  owedShared : Int := 0
  /-- [R201] when the HELD interval of a VC last restarted. Reset 0. -/
  heldAt : Tbl Nat := { dflt := 0 }
  /-- [R198 R211] A_v. Reset 0. -/
  avail : Tbl Nat := { dflt := 0 }
  /-- [R211] CAP: the partner's VC_RESERVE. Reset 0. -/
  cap : Tbl Nat := { dflt := 0 }
  /-- [R198 R211] S. Reset 0. -/
  shared : Int := 0
  /-- [R202] VCs whose CREDIT_TMO has been restarted by a return or HELD bit, at model time. Reset 0. -/
  creditAt : Tbl Nat := { dflt := 0 }
  /-- [R211] REPLAY.NEXT_SEQ. Reset 0. -/
  nextSeq : BitVec 16 := 0
  /-- [R211] REPLAY.ACKED. Reset 0xFFFF. -/
  acked : BitVec 16 := 0xFFFF
  /-- [R203] held LTBs, oldest first. Reset none. -/
  held : List HeldLtb := []
  /-- [R211] RX_SEQ.ACK_SEQ. Reset 0xFFFF. -/
  ackSeq : BitVec 16 := 0xFFFF
  /-- [R174 R203] model time of the last LTB taken in order; the next LTB sent acknowledges it. Reset 0. -/
  ackAt : Nat := 0
  /-- [R202] model time of the last LTB that failed its CRC. Reset none. -/
  crcAt : Option Nat := none
  /-- [R203] NAK sent at that model time, no in-order LTB since. Reset none. -/
  nakAt : Option Nat := none
  /-- [R262] highest LTB_SEQ received before the last NAK; LTBs not beyond it are replays. Reset none. -/
  nakHigh : Option (BitVec 16) := none
  /-- [R262] highest LTB_SEQ received. Reset 0xFFFF. -/
  highSeq : BitVec 16 := 0xFFFF
  /-- [R191] DATA LTBs being filled or waiting for their bytes, oldest first. Reset none. -/
  txq : List DataLtb := []
  /-- [R191] payload bytes used in the last of them, 0 when it is full. Reset 0. -/
  txFill : Nat := 0
  /-- [R190 R212] what the line has carried since the last whole LTB was counted, in tenths of a bit of packet throughput; below zero while
  LTBs shown wait for their slots. Reset 0. -/
  slotAcc : Int := 0
  /-- [R191] model time the last packet's last byte left: a packet that starts then follows it without a gap. Reset 0. -/
  txAt : Nat := 0
  /-- [R191] the packet being received. Reset none. -/
  rxCur : Option RxPkt := none
  /-- [R262] FT at which its first byte passed the land, in ns; none where its arrival is not checked. Reset none. -/
  rxLand : Option Nat := none
  /-- [R192] framing was lost: discard until a START_OFF. Reset false. -/
  rxLost : Bool := false
  /-- [R192] credits to return when framing is taken up again. Reset none. -/
  rxLostCredits : List (Nat × Nat) := []
  /-- [R191] the number of the packet being received, counting packets started at this port. Reset 0. -/
  rxNo : Nat := 0
  /-- [R191] packets received, waiting for the switch core, with the model time their headers arrived; the last may still be
  arriving. Reset none. -/
  arrived : List (Pkt × Nat) := []
  /-- [R246] the VC queues. Reset none. -/
  vcq : Tbl (List QPkt) := { dflt := [] }
  /-- [R193 R205] packets that have begun to leave, until they have departed and are wholly acknowledged. Reset none. -/
  leaving : List TxPkt := []
  /-- [R249] quanta of SL0 to SL2. Reset 66, 66, 132. -/
  quanta : Nat × Nat × Nat := (66, 66, 132)
  /-- [R249] deficits of SL0 to SL2. Reset 0. -/
  deficit : Nat × Nat × Nat := (0, 0, 0)
  /-- [R249] the SL whose turn it is. Reset 0. -/
  turn : Nat := 0
  /-- [R249] the SL whose turn it is has had its quantum in this visit. Reset false. -/
  visited : Bool := false
  /-- [R250] the port shaper. -/
  shaper : Shaper := {}
  /-- [R253] ingress policers of SL0 to SL2. -/
  pol0 : Policer := {}
  pol1 : Policer := {}
  pol2 : Policer := {}
  /-- [R266] DP_THRESH.YELLOW. Reset 0xFFFF. -/
  yellow : Nat := 0xFFFF
  /-- [R266] DP_THRESH.RED. Reset 0xFFFF. -/
  red : Nat := 0xFFFF
  /-- [R257] gates. -/
  gate : Gate := {}
  /-- [R259] VCs whose head packet's guard deferral has been counted. Reset 0. -/
  guardSeen : BitVec 16 := 0
  /-- [R267] VCs whose head packet's wait for the port shaper has been counted. Reset 0. -/
  shapSeen : BitVec 16 := 0
  /-- [R224 R243] ingress partition table. Reset entry 0 = 0xFFFF. -/
  pkeys : Tbl (BitVec 16) := { dflt := 0, cells := [(0, 0xFFFF)] }
  /-- [R197 R224] PART_HASH taken when the port last began to send INIT. Reset 0 (log 9). -/
  partHash : BitVec 32 := 0
  /-- [R243] HINT_CFG.MAX_AGE_US. Reset 40. -/
  hintAge : Nat := 40
  /-- [R237] stored hint blocks. Reset none. -/
  hints : Tbl (Option HintBlk) := { dflt := none }
  /-- [R243] HINT_SL, with the time of the last hint. Reset 0. -/
  hintSl : List Nat := [0, 0, 0, 0]
  hintSlAt : Option Nat := none
  /-- [R236] next hint block to send. Reset 0. -/
  hintNext : Nat := 0
  /-- [R174] transmit side: 0 sending, 1 in the idle sequence, 2 squelched, 3 waking. Reset 0. -/
  txIdle : Nat := 0
  /-- [R177] a wake request: class 1 to 4 and when it was made. Reset none. -/
  wakeReq : Option (Nat × Nat) := none
  /-- [R175] the wake under way is a refresh; when the port last woke. Reset 0. -/
  refreshWake : Bool := false
  lastWake : Nat := 0
  /-- [R146] Equinox on this port. -/
  eqx : PortEqx := {}
  deriving DecidableEq, Repr

/-- [R155] the time-unit states. -/
inductive TimeSt where
  | free | acquiring | locked | holdover | source
  deriving DecidableEq, Repr

/-- The time unit (chapter 5). -/
structure TimeUnit where
  /-- [R155] state. Reset FREE. -/
  st : TimeSt := .free
  /-- [R107] TIME.STATE.VALID. Reset 0. -/
  valid : Bool := false
  /-- [R151] the upstream port's field. Reset none. -/
  upstream : Option Nat := none
  /-- [R151] FEA of the source followed, or own. Reset 0. -/
  srcFea : BitVec 24 := 0
  /-- [R144] class of the source. Reset 2. -/
  cls : Nat := 2
  /-- [R144] hops to the source. Reset 0. -/
  hops : Nat := 0
  /-- [R155] consecutive measurements within LOCK_THRESH. Reset 0. -/
  lockCount : Nat := 0
  /-- [R155] the last offset, 2^-16 ns. Reset 0. -/
  offset : Int := 0
  /-- [R149] the servo's integral term, 0.01 ppb. Reset 0. -/
  integ : Int := 0
  /-- [R149] the rate correction in force, 0.01 ppb, within 500 ppm. Reset 0. -/
  rate : Int := 0
  /-- [R149] model time at which the part of the rate that removes the last measured offset ends. Reset 0. -/
  propTill : Nat := 0
  /-- [R151 R155] model time from which a group manager has had no selectable source. Reset none. -/
  waitFrom : Option Nat := none
  /-- [R150 R153] change of FT still to be applied by rate or slew, 2^-16 ns. Reset 0. -/
  slew : Int := 0
  /-- [R144] STEP_SEQ announced. Reset 0. -/
  stepSeq : BitVec 8 := 0
  /-- [R144] STEP_FT announced. Reset 0. -/
  stepFt : BitVec 64 := 0
  /-- [R144] STEP_NS announced. Reset 0. -/
  stepNs : Int := 0
  /-- [R150] an upstream step waiting for its STEP_FT. Reset none. -/
  stepWait : Option (BitVec 8 × BitVec 64 × Int) := none
  /-- [R153] TOD_FT waiting for a PPS edge. Reset none. -/
  tod : Option (BitVec 64) := none
  /-- [R153] model time at which that TOD_FT was accepted. Reset 0. -/
  todAt : Nat := 0
  /-- [R153] PPS discipline is on (an AT_PPS set has taken its edge). Reset false. -/
  ppsOn : Bool := false
  /-- [R153] FT of the last PPS edge. Reset 0. -/
  lastPps : BitVec 64 := 0
  /-- [R510] model time of the last PPS edge taken or ignored. Reset none. -/
  ppsAt : Option Nat := none
  /-- [R153 R510] FT value PPS_OUT rose at, while high. Reset none. -/
  ppsOut : Option (BitVec 64) := none
  /-- [R153] FT second at which PPS_OUT last rose. Reset none. -/
  ppsSec : Option Nat := none
  deriving DecidableEq, Repr

/-- [R227] a route bank. -/
structure RouteBank where
  /-- [R227] GROUP entries. Reset 0. -/
  group : Tbl (BitVec 128) := { dflt := 0 }
  /-- [R227] ROUTER entries. Reset 0. -/
  router : Tbl (BitVec 128) := { dflt := 0 }
  /-- [R227] ENDPOINT entries. Reset DELIVER_EN only. -/
  endpoint : Tbl (BitVec 128) := { dflt := 0x80000000000000000000000000000000#128 }
  /-- [R125] routing mode per SL: 0 DETERMINISTIC, 1 ADAPTIVE_MIN, 2 ADAPTIVE_FULL. Reset 0. -/
  mode : Tbl Nat := { dflt := 0 }
  /-- [R125] alpha per SL. Reset 0. -/
  alpha : Tbl Nat := { dflt := 0 }
  /-- [R125] beta per SL. Reset 0. -/
  beta : Tbl Nat := { dflt := 0 }
  deriving DecidableEq, Repr

/-- [R122 R124] the staged bank's state. -/
inductive StageSt where
  | none | staged | pending
  deriving DecidableEq, Repr

/-- The route tables (R124 to R126, R227) and the partition device table (R224). -/
structure Routes where
  /-- [R227] the active bank. -/
  active : RouteBank := {}
  /-- [R227] the other bank, staged or left over. -/
  other : RouteBank := {}
  /-- [R125] active epoch. Reset: the epoch in CONFIG, or 0. -/
  epoch : BitVec 16 := 0
  /-- [R124] the staged bank's state. Reset none. -/
  stage : StageSt := .none
  /-- [R124] the staged epoch. Reset 0. -/
  stagedEpoch : BitVec 16 := 0
  /-- [R125] ADOPT_FT while PENDING. Reset 0. -/
  adoptFt : BitVec 64 := 0
  /-- [R433] the running router FEA[23:4]; none while IDENT.FEA.VALID is 0. Reset none (R88). -/
  fea : Option (BitVec 20) := none
  /-- [R224] the device slot table. Reset slot 0 = 0xFFFF. -/
  slots : Tbl (BitVec 16) := { dflt := 0, cells := [(0, 0xFFFF)] }
  /-- [R126] an epoch that was staged and lost to a Molzu restart. Reset none. -/
  lostEpoch : Option (BitVec 16) := none
  deriving DecidableEq, Repr

/-- [R107 R477] the snapshot machinery. -/
structure Snap where
  /-- [R107] SNAP_FT. Reset 0. -/
  ft : BitVec 64 := 0
  /-- [R107] STATE: 0 IDLE, 1 ARMED, 2 TAKEN, 3 MISSED. Reset 0. -/
  st : Nat := 0
  /-- [R107] FROZEN_BANK. Reset 0. -/
  bank : Bool := false
  /-- [R107] SNAP_SEQ. Reset 0. -/
  seq : BitVec 16 := 0
  /-- [R475] COUNTER.FOLD.DONE. Reset 1. -/
  folded : Bool := true
  /-- [R475] SNAP_SEQ of the frozen bank. Reset 0. -/
  frozenSeq : BitVec 16 := 0
  deriving DecidableEq, Repr

end Sys2Proof.Machine
end

