-- ==== Sys2Proof/Machine/PartsEndpoint.lean ====
section
/-! DEFINITION. Parts of the state: queues and their entries, the transport of a queue pair, windows and protection domains,
Garnet's lists, trees and collectives, Onyx's number spaces, the context caches and the coherence directory. -/

namespace Sys2Proof.Machine

/-- Which object a queue number names (R389, R392). -/
inductive QKind where
  | none | qp | srq | cq | eq
  deriving DecidableEq, Repr

/-- A work-queue entry as fetched (R273 to R276), with its progress. -/
structure Ent where
  /-- first slot's index in the ring, modulo 2^32 -/
  idx : BitVec 32
  nslots : Nat
  slots : List (List Byte)
  wqe : BitVec 16
  op : Nat
  signal : Bool
  fence : Bool
  inline : Bool
  solicit : Bool
  /-- elements read so far, CHAIN elements left out -/
  sges : List Sge
  /-- a chain list still to be read: its address and element count -/
  chain : Option (Nat × Nat)
  /-- the chain lists read: their addresses and element counts (R388) -/
  lists : List (Nat × Nat) := []
  /-- the list `chain` names is being read (R276) -/
  chainRead : Bool := false
  /-- CHAIN elements followed and elements read (R276) -/
  hops : Nat
  elems : Nat
  inlineData : List Byte
  /-- 0 fetched, 1 started, 2 completed -/
  st : Nat := 0
  status : Nat := 0
  /-- bytes of the operation, bytes handed to the switch core, bytes acknowledged or placed -/
  len : Nat := 0
  sent : Nat := 0
  got : Nat := 0
  /-- its wait for the stack's count of working queue pairs has been counted (R391) -/
  waited : Bool := false
  /-- MSN given at its start (R303) -/
  msn : BitVec 32 := 0
  /-- its last packet has been cut -/
  cut : Bool := false
  /-- a rendezvous send that waits for TAG_FIN (R341) -/
  awaitFin : Bool := false
  /-- its first packet, or its first block for Opal, has been handed over (R277, R348, R363) -/
  handed : Bool := false
  deriving DecidableEq, Repr

/-- [R280] the polling states. -/
inductive PollSt where
  | none | active | backoff | parked
  deriving DecidableEq, Repr

/-- The ring side of a send queue or SRQ (R269 to R284). -/
structure Ring where
  /-- [R135] LOG2_SLOTS. -/
  log2 : Nat
  /-- [R135] ring base. -/
  base : Nat
  /-- [R135] doorbell record address. -/
  db : Nat
  /-- [R271] the queue's epoch. -/
  epoch : BitVec 30
  /-- [R87] nudge index. -/
  nudge : Nat
  /-- [R280] polling state. -/
  poll : PollSt := .none
  /-- [R280] poll interval in ns. -/
  interval : Nat := 250
  /-- [R280] consecutive empty polls. -/
  empty : Nat := 0
  /-- [R280] a doorbell read is outstanding. -/
  reading : Bool := false
  /-- [R280 R282 R284] another poll follows the one that is outstanding. -/
  again : Bool := false
  /-- [R280] when the doorbell record was last asked for, and [R284] since when the interval stands at POLL_IDLE_MAX. -/
  pollAt : Nat := 0
  maxAt : Option Nat := none
  /-- [R277] the INDEX last read. -/
  index : BitVec 32 := 0
  /-- [R277] next slot to fetch. -/
  fetch : BitVec 32 := 0
  /-- [R277] slots asked for and not yet returned. -/
  fetching : Nat := 0
  /-- [R290] in ERROR: the INDEX that covers the next entry only in part; the entry waits for a later one. -/
  held : Option (BitVec 32) := none
  /-- [R277] slots returned that do not yet make a whole entry. -/
  partial_ : List (List Byte) := []
  /-- [R279] SLOT_WAIT runs for the slot at this position of `partial_`. -/
  slotWait : Option Nat := none
  /-- [R279] when SLOT_WAIT started. -/
  waitAt : Nat := 0
  /-- [R277] entries from the head to the last fetched, in ring order. -/
  ents : List Ent := []
  /-- [R270] head INDEX. -/
  head : BitVec 32 := 0
  /-- [R284] PARKED last written in the head record. -/
  parkedBit : Bool := false
  /-- [R284] parking: the head record is written and the last poll is awaited. -/
  parking : Bool := false
  /-- [R393] when the queue was parked, and when its last non-empty poll was. -/
  parkedAt : Nat := 0
  lastWork : Nat := 0
  /-- [R286] the head record owes a write. -/
  headDue : Bool := false
  /-- [R290 R292] the device no longer polls the ring. -/
  stopped : Bool := false
  /-- [R276 R292] chain lists (and, true, extent lists of BIND_WINDOW) asked for, oldest first, by their entry's index. -/
  chainQ : List (BitVec 32 × Bool) := []
  /-- [R137 R348] the last completed entries, newest first, at most one per slot of the ring (DESIGN CHOICE, log 99): WQE_ID, completion tag,
  and whether a message had matched it. -/
  done : List (BitVec 16 × BitVec 64 × Bool) := []
  deriving DecidableEq, Repr

/-- What an outstanding PSN belongs to (R301, R342). -/
inductive Owner where
  | ent (idx : BitVec 32)
  | rdv (msn : BitVec 32) (gen : Nat)
  | fin
  deriving DecidableEq, Repr

/-- An outstanding PSN at the requester (R309 to R312). -/
structure Pend where
  psn : BitVec 32
  owner : Owner
  /-- wire opcode -/
  op : Nat
  off : Nat
  len : Nat
  /-- payload bytes of the request packet that carries this PSN (R313) and its MSN field (R303) -/
  pay : Nat := 0
  msn : BitVec 32 := 0
  /-- the wait for the partition shaper's tokens has been counted (R267) -/
  shapSeen : Bool := false
  firstAt : Nat
  lastAt : Nat
  timeouts : Nat := 0
  path : Nat := 0
  acked : Bool := false
  /-- the last packet of its entry -/
  last : Bool := false
  /-- TAG_FIN's content, kept for a resend (R331) -/
  fin : Option (Nat × BitVec 32 × BitVec 64 × Nat × Nat) := none
  deriving DecidableEq, Repr

/-- A send-class message being received (R308). -/
structure RxMsg where
  msn : BitVec 32
  /-- the receive entry: SRQ entry WQE_ID and its elements; none while refused -/
  wqe : BitVec 16
  sges : List Sge
  cap : Nat
  len : Option Nat := none
  got : Nat := 0
  solicit : Bool := false
  refused : Bool := false
  deriving DecidableEq, Repr

/-- A tagged message's key and length (R331, R344). -/
structure TagMsg where
  ctx : Nat
  rank : BitVec 32
  tag : BitVec 64
  len : Nat
  /-- rendezvous: SRC_KEY and SRC_OFFSET; none for eager -/
  rts : Option (BitVec 32 × BitVec 64)
  qp : Nat
  msn : BitVec 32
  /-- the synchronisation of the queue pair it arrived under: MSNs start anew with each (R340) -/
  gen : Nat := 0
  deriving DecidableEq, Repr

/-- A matching header waiting in the reorder store, with the payload packets pooled so far (R339). -/
structure Waiting where
  msg : TagMsg
  /-- (offset, bytes) of packets held in the pool -/
  data : List (Nat × List Byte)
  /-- the pool chunks it holds -/
  pool : List Nat
  deriving DecidableEq, Repr

/-- A receive that has matched and is not yet complete (R342). -/
structure Matched where
  msg : TagMsg
  wqe : BitVec 16
  /-- COMPLETION_TAG (R348) -/
  ctag : BitVec 64 := 0
  key : BitVec 32
  off : BitVec 64
  cap : Nat
  got : Nat
  placed : Nat
  buffered : Bool
  unexp : Bool
  /-- a placement failed: the rest is discarded (R343) -/
  failed : Bool := false
  /-- bytes a rendezvous read has asked for (R342) -/
  asked : Nat := 0
  /-- a chunk of the pooled message was lost (R410) -/
  lost : Bool := false
  deriving DecidableEq, Repr

/-- A queue pair (chapters 10 to 12). -/
structure Qp where
  /-- [R269] owning function's master ID. -/
  fn : Nat
  /-- [R135] PDID. -/
  pd : Nat
  /-- [R135] send and receive CQ. -/
  sendCq : Nat
  recvCq : Nat
  /-- [R135] SRQ; none for 0xFF_FFFF. -/
  srq : Option Nat
  /-- [R135] GARNET and KERNEL. -/
  garnet : Bool
  kernel : Bool
  /-- [R135] SL and P_KEY index. -/
  sl : Nat
  pkIdx : Nat
  /-- [R135] head record address. -/
  headAddr : Nat
  /-- [R269] the ring. -/
  ring : Ring
  /-- [R298] state: 0 INIT, 1 READY, 2 ERROR, 3 QUIESCED. -/
  st : Nat := 0
  /-- [R297] remote QPN and FEA. -/
  remote : Option (Nat × BitVec 24) := none
  /-- [R390] home stack. -/
  home : Nat := 0
  /-- [R407] home stack of its stream entry. -/
  strm : Nat := 0
  /-- [R400] a use that met its page-out waits to page it in again. -/
  stalled : Bool := false
  /-- [R391] holds a slot. -/
  resident : Bool := true
  /-- [R386 R392] the slot of its home stack that it holds while it is resident. -/
  slot : Nat := 0
  /-- [R392] backing slot of its image. -/
  image : Option Nat := none
  /-- [R393 R400] paging: 0 none, 1 page-in waiting for a slot, 2 image read running, 3 WRITEBACK: page-out running. -/
  paging : Nat := 0
  /-- [R400] marked for eviction. -/
  marked : Bool := false
  /-- [R300] next PSN to send. -/
  psn : BitVec 32 := 0
  /-- [R300] SYN is set until the first ACK. -/
  syn : Bool := true
  /-- [R303] next MSN. -/
  msn : BitVec 32 := 0
  /-- [R311] outstanding PSNs, oldest first. -/
  pend : List Pend := []
  /-- [R311] SRTT and RTTVAR in ns, after the first sample. -/
  rtt : Option (Nat × Nat) := none
  /-- [R311] consecutive timeouts. -/
  backoff : Nat := 0
  /-- [R306] consecutive RNRs, and the PSN to resend from while RETRY_AFTER runs. -/
  rnr : Nat := 0
  rnrPsn : Option (BitVec 32) := none
  /-- [R306] when RETRY_AFTER ends. -/
  rnrUntil : Nat := 0
  /-- [R313] W in bytes. -/
  cwnd : Nat := 262144
  /-- [R158 R313] FT[31:0] at the last decrease, none before one. -/
  cutAt : Option (BitVec 32) := none
  /-- [R307] the path set, and the next value to use. -/
  paths : List (BitVec 16) := []
  pathNext : Nat := 0
  /-- [R300] receiver synchronised. -/
  synced : Bool := false
  /-- [R309] expected PSN and the bitmap from it. -/
  expPsn : BitVec 32 := 0
  bitmap : BitVec 4096 := 0
  /-- [R340] number of the receiver's synchronisation, and of the first one: messages of an earlier number came on another queue pair of this
  number. -/
  gen : Nat := 0
  born : Nat := 0
  /-- [R267] the next packet's wait for the partition shaper has been counted. -/
  shapSeen : Bool := false
  /-- [R310] requests unacknowledged, and the TS and QDELAY of the last. -/
  ackDue : Nat := 0
  /-- [R310] when the oldest unacknowledged request arrived. -/
  ackAt : Nat := 0
  ackTs : BitVec 32 := 0
  ackQd : Nat := 0
  /-- [R308] messages with receive entries, and the next MSN without one. -/
  rxMsgs : List RxMsg := []
  rxNext : BitVec 32 := 0
  /-- [R312] PSNs and results of the last 16 atomics, newest first. -/
  atomics : List (BitVec 32 × BitVec 128 × Nat) := []
  /-- [R322] the 16 counters. -/
  ctrs : Tbl (BitVec 64) := { dflt := 0 }
  /-- [R338] expected MSN of the stream. -/
  expMsn : BitVec 32 := 0
  /-- [R339] headers waiting in the reorder store. -/
  waiting : List Waiting := []
  /-- [R342] matched receives not yet complete. -/
  matched : List Matched := []
  /-- [R341 R349] TAG_FINs owed: the message, bytes read, status. -/
  finOwed : List (TagMsg × Nat × Nat) := []
  /-- [R290] flush owed on entering ERROR; R292 a destroy waits (admin function and tag). -/
  destroy : Option (Nat × BitVec 16) := none
  deriving DecidableEq, Repr

/-- An untagged receive in the SRQ's receive list (R301). -/
structure RecvEnt where
  idx : BitVec 32
  wqe : BitVec 16
  sges : List Sge
  deriving DecidableEq, Repr

/-- A posted tagged receive (R333). -/
structure Posted where
  ctx : Nat
  rank : BitVec 32
  tag : BitVec 64
  ignore : BitVec 64
  stamp : BitVec 48
  wqe : BitVec 16
  ctag : BitVec 64
  key : BitVec 32
  len : Nat
  off : BitVec 64
  /-- the entry of the quadrant's store it takes, and its place in the quadrant's lists (R333, R334) -/
  idx : Nat := 0
  ord : Nat := 0
  deriving DecidableEq, Repr

/-- An unexpected message (R344). -/
structure Unexp where
  msg : TagMsg
  stamp : BitVec 48
  got : Nat
  /-- pool chunks held, the first of the message first -/
  pool : List Nat
  data : List (Nat × List Byte)
  /-- [R410] a chunk was lost. -/
  lost : Bool := false
  /-- the entry of the quadrant's store it takes, and its place in the quadrant's lists (R333, R334) -/
  idx : Nat := 0
  ord : Nat := 0
  deriving DecidableEq, Repr

/-- A shared receive queue (R269, R333). -/
structure Srq where
  /-- [R269] owning function, PDID, CQ. -/
  fn : Nat
  pd : Nat
  cq : Nat
  garnet : Bool
  ring : Ring
  /-- [R291] in ERROR. -/
  err : Bool := false
  /-- QUIESCED. -/
  quiesced : Bool := false
  home : Nat := 0
  /-- [R301] untagged receives. -/
  recvs : List RecvEnt := []
  /-- [R335] next POST_STAMP. -/
  postStamp : BitVec 48 := 0
  /-- [R344] next ARRIVAL_STAMP. -/
  arrStamp : BitVec 48 := 0
  /-- [R334] posted receives, in POST_STAMP order. -/
  posted : List Posted := []
  /-- [R344] unexpected messages, in ARRIVAL_STAMP order. -/
  unexp : List Unexp := []
  /-- [R340] matched receives whose queue pair is gone before all their bytes have come. -/
  orphans : List Matched := []
  destroy : Option (Nat × BitVec 16) := none
  deriving DecidableEq, Repr

/-- A completion waiting for room in its CQ (R288): the 32 B entry without its GEN bit. -/
abbrev CqEnt := List Byte

/-- A completion queue (R68, R286 to R288). -/
structure Cq where
  fn : Nat
  /-- [R286] 0 HEAD, 1 RING, 2 HYBRID. -/
  mode : Nat
  log2 : Nat
  vector : Nat
  base : Nat
  headAddr : Nat
  epoch : BitVec 30
  home : Nat := 0
  /-- [R287] entries written. -/
  written : BitVec 32 := 0
  /-- [R288] cached head INDEX. -/
  head : BitVec 32 := 0
  /-- [R288] completions waiting. -/
  waiting : List CqEnt := []
  /-- [R288] when the CQ became full. -/
  fullAt : Option Nat := none
  /-- [R288] in ERROR. -/
  err : Bool := false
  quiesced : Bool := false
  deriving DecidableEq, Repr

/-- An event queue (R289). -/
structure Eq where
  fn : Nat
  log2 : Nat
  vector : Nat
  base : Nat
  home : Nat := 0
  written : BitVec 32 := 0
  /-- [R410] context lost: it writes no more. -/
  lost : Bool := false
  quiesced : Bool := false
  deriving DecidableEq, Repr

/-- A protection domain (R317). -/
structure Pd where
  fn : Nat
  kernel : Bool
  home : Nat := 0
  deriving DecidableEq, Repr

/-- A window registered under an index (R136, R315). -/
structure Win where
  fn : Nat
  pd : Nat
  /-- [R135] RIGHTS: READ, WRITE, ATOMIC, KERNEL_OK. -/
  rights : BitVec 4
  extents : List (Nat × Nat)
  home : Nat := 0
  deriving DecidableEq, Repr

/-- A window index: its generation and the window it holds (R319). -/
structure WinIdx where
  gen : BitVec 8 := 0
  win : Option Win := none
  deriving DecidableEq, Repr

/-- [R389] a number space: the next number never yet assigned, and the freed ones, longest ago first, with whether their
quarantine has ended. -/
structure NumSpace where
  fresh : Nat := 1
  freed : List (Nat × Bool) := []
  deriving DecidableEq, Repr

/-- A read of payload data from host memory, and what it is for (R30). -/
inductive DataRead where
  /-- payload of the packet that carries PSN `psn` of a queue pair -/
  | send (qp : Nat) (psn : BitVec 32) (retx : Bool)
  /-- data of a READ_RESP at the responder (R312) -/
  | resp (qp : Nat) (psn : BitVec 32) (off len : Nat) (last : Bool) (ts : BitVec 32) (qd : Nat)
  /-- a collective's contribution (R374) -/
  | coll (qp : Nat) (idx : BitVec 32) (tree : BitVec 24) (seq : BitVec 32) (first count : Nat)
  deriving DecidableEq, Repr

/-- What waits for an ATS translation (R320). -/
inductive AtsWait where
  | pkt (ep : Nat) (p : Pkt)
  | queue (qp : Nat)
  | send (qp : Nat) (psn : BitVec 32) (retx : Bool)
  deriving DecidableEq, Repr

/-- A translation asked for (R320): the function, the address, the domain of the window it is for, and what waits. -/
structure AtsReq where
  fn : Nat
  addr : Nat
  pd : Nat
  what : AtsWait
  deriving DecidableEq, Repr

/-- What an admin command waits for: the abort of an entry that INDEX covers and that is still to be fetched (R293), or a revocation while
atomics work through the window (R319). -/
inductive AqPend where
  | abort (q : Nat) (wqe : BitVec 16) (ctag : BitVec 64) (upTo : BitVec 32)
  | revoke (win : Nat)
  deriving DecidableEq, Repr

/-- An admin command that has started and not completed: its function, tag and what it waits for. -/
structure AqWait where
  fn : Nat
  tag : BitVec 16
  what : AqPend
  deriving DecidableEq, Repr

/-- [R355] where a tree edge leads. -/
inductive EdgeTo where
  | port (p : Nat)
  | host (endpoint : Nat)
  deriving DecidableEq, Repr

/-- An edge of a tree at a router (R359). -/
structure Edge where
  dest : EdgeTo
  /-- [R359] send counter. Reset 0. -/
  ctr : Nat := 0
  /-- [R359] live. -/
  live : Bool := false
  /-- [R359] the credits of its first ACTIVE after setup have been granted. -/
  granted : Bool := false
  deriving DecidableEq, Repr

/-- A block of a collective at a router (R374): its running sum and who has delivered it. -/
structure Blk where
  /-- EXACT sums and integers: one integer per element, on the grid (R367). -/
  acc : List Int := []
  /-- special codes per element (R369). -/
  code : List Nat := []
  /-- RAW data (MIN, MAX, bitwise, BROADCAST, NATIVE): encoded elements. -/
  raw : List Nat := []
  /-- something has been added. -/
  started : Bool := false
  /-- child edges that have delivered it. -/
  from_ : List Nat := []
  /-- Opal has finished it (sent up, or rounded at the root). -/
  done : Bool := false
  deriving DecidableEq, Repr

/-- A local member's entry in a collective. -/
structure Member where
  child : Nat
  qp : Nat
  idx : BitVec 32
  /-- destination length, bytes placed, blocks received -/
  dst : Nat
  placed : Nat := 0
  blocks : Nat := 0
  deriving DecidableEq, Repr

/-- A collective active at a router (R377). -/
structure Coll where
  seq : BitVec 32
  op : Nat
  dtype : Nat
  native : Bool
  ebase : Int
  vecLen : Nat
  /-- children whose first contribution has been compared (R379). -/
  seen : List Nat := []
  blocks : Tbl Blk := { dflt := {} }
  /-- children that sent EMPTY, or their BARRIER packet. -/
  empty : List Nat := []
  inexact : Bool := false
  overflow : Bool := false
  invalid : Bool := false
  rootCount : Nat := 0
  members : List Member := []
  /-- UP packets owed to the parent, in block order: (block, data). -/
  upQ : List Pkt := []
  /-- UP packets of this collective still to leave (R377). -/
  upLeft : Nat := 0
  /-- DOWN packets owed to child edges: (edge, packet). -/
  downQ : List (Nat × Pkt) := []
  /-- blocks that have come down (or been sent down, at the root). -/
  downBlocks : List Nat := []
  /-- [R381] model time of the last block's arrival. -/
  progress : Nat := 0
  deriving DecidableEq, Repr

/-- A collective tree at this router (R355 to R360). -/
structure Tree where
  parent : Option Nat
  children : List EdgeTo
  pkey : BitVec 16
  sl : Nat
  window : Nat
  stall : Nat
  /-- [R356] STATE BROKEN, and the status entries then complete with. -/
  broken : Bool := false
  brokenSt : Nat := 0
  /-- [R359] edges: 0 the parent, 1 + i child i. -/
  edges : Tbl (Option Edge) := { dflt := none }
  /-- [R363] next COLL_SEQ per member child. -/
  next : Tbl (BitVec 32) := { dflt := 0 }
  /-- [R377] active collectives, oldest first. -/
  colls : List Coll := []
  /-- [R377] UP packets of a fifth collective, held with the edge they came on. -/
  hold : List (Nat × Pkt) := []
  /-- [R379] statuses of ended collectives, for members that have not started. -/
  ended : List (BitVec 32 × Nat) := []
  /-- [R359] credits taken from the pool. -/
  reserved : Nat := 0
  deriving DecidableEq, Repr

/-- [R402] MOESI states. -/
inductive Moesi where
  | i | s | e | m | o
  deriving DecidableEq, Repr

/-- [R403] the REQ messages. -/
inductive CohReq where
  | getS | getM | upgrade | put | putClean
  deriving DecidableEq, Repr

/-- A directory entry (R402). -/
structure Dir where
  st : Moesi := .i
  owner : Nat := 0
  sharers : BitVec 5 := 0
  busy : Bool := false
  /-- ACKs the open transaction's requester must collect -/
  acks : Nat := 0
  /-- requests waiting at the home, in arrival order -/
  wait : List (CohReq × Nat) := []
  deriving DecidableEq, Repr

/-- A context line in one quadrant's cache (R399, R400). -/
structure CLine where
  st : Moesi := .i
  dirty : Bool := false
  /-- 0 none, 1 MARKED, 2 WRITEBACK -/
  phase : Nat := 0
  /-- the request this cache has open on the line, or holds until the write-back ends -/
  req : Option CohReq := none
  /-- ACKs named by DATA or GRANT, ACKs collected, DATA or GRANT received -/
  acksDue : Nat := 0
  acks : Nat := 0
  answered : Bool := false
  /-- state the transaction ends in -/
  target : Moesi := .i
  /-- model time of the last touch -/
  touched : Nat := 0
  /-- [R321] of a host line: the bytes atomics have left, by their place in the line -/
  data : List (Nat × Byte) := []
  deriving DecidableEq, Repr

/-- The endpoint state of the device (chapters 10 to 14). -/
structure Endpoint where
  /-- [R392] kind of each queue number. Reset none. -/
  kinds : Tbl QKind := { dflt := .none }
  /-- [R269] queue pairs. Reset none. -/
  qps : Tbl (Option Qp) := { dflt := none }
  /-- [R269] SRQs. Reset none. -/
  srqs : Tbl (Option Srq) := { dflt := none }
  /-- [R269] CQs. Reset none. -/
  cqs : Tbl (Option Cq) := { dflt := none }
  /-- [R269] EQs. Reset none. -/
  eqs : Tbl (Option Eq) := { dflt := none }
  /-- [R317] protection domains. Reset none. -/
  pds : Tbl (Option Pd) := { dflt := none }
  /-- [R319] window indices. Reset generation 0, no window. -/
  wins : Tbl WinIdx := { dflt := {} }
  /-- [R389] queue numbers, window indices, PDIDs. Reset: none assigned. -/
  qnums : NumSpace := {}
  wnums : NumSpace := { fresh := 0 }
  pnums : NumSpace := {}
  /-- [R87] nudge slots: function * 2^23 + index to queue number. Reset none. -/
  nudges : Tbl (Option Nat) := { dflt := none }
  /-- [R30] host data reads outstanding per endpoint, oldest first. Reset none. -/
  reads : Tbl (List DataRead) := { dflt := [] }
  /-- [R320] what waits for a translation. Reset none. -/
  ats : List AtsReq := []
  /-- [R293 R319] admin commands that wait. Reset none. -/
  aqWaits : List AqWait := []
  /-- [R251] packets that wait for a partition shaper's tokens, first first, with their endpoint. Reset none. -/
  shaped : Tbl (List (Nat × Pkt)) := { dflt := [] }
  /-- [R334] the next place in Garnet's lists. Reset 0. -/
  storeOrd : Nat := 0
  /-- [R340] the next number of a synchronisation. Reset 0. -/
  gens : Nat := 0
  /-- [R251] partition shapers, quadrant * 4096 + number. Reset RATE 0. -/
  shapers : Tbl Shaper := { dflt := {} }
  /-- [R253] partition policers. Reset ENABLE 0. -/
  policers : Tbl Policer := { dflt := {} }
  /-- [R355] trees. Reset none. -/
  trees : Tbl (Option Tree) := { dflt := none }
  /-- [R24 R29] tree packets waiting at a quadrant's collective port, with their source and buffer space. Reset none. -/
  collRx : Tbl (List QPkt) := { dflt := [] }
  /-- [R24] packets the collective agent of a quadrant sends to a network port, waiting to enter the scheduler. Reset none. -/
  collTx : Tbl (List (Nat × Pkt)) := { dflt := [] }
  /-- [R402] directory, by line. Reset I. -/
  dir : Tbl Dir := { dflt := {} }
  /-- [R399] the caches: quadrant, line. Reset I. -/
  cache : Tbl CLine := { dflt := {} }
  deriving DecidableEq, Repr

end Sys2Proof.Machine
end

