-- ==== Sys2Proof/Machine/PartsService.lean ====
section
/-! DEFINITION. Parts of the state: the management chain, the group manager and the management agent, the event recorder,
telemetry, the life record, MRAM, power steps, temperature, board pins, the BMC and JTAG ports. -/

namespace Sys2Proof.Machine

/-- The management-chain agent (R414 to R425). -/
structure Chain where
  /-- [R88] IDENT.CHAIN.CHAIN_ADDR. Reset 0. -/
  addr : Nat := 0
  /-- [R415] upstream and downstream lock. Reset false. -/
  upLock : Bool := false
  downLock : Bool := false
  /-- [R88] IDENT.CHAIN.ORPHAN. Reset 0. -/
  orphan : Bool := false
  /-- [R421] OVERFLOW. Reset false. -/
  overflow : Bool := false
  /-- [R421] JOIN_REQ is ignored until an enumeration triggered by lock. Reset false. -/
  ignoreJoin : Bool := false
  /-- [R419] GROUP_BASE kept from ENUM (or own, on a chain manager). Reset 0. -/
  groupBase : BitVec 20 := 0
  /-- [R419] ENUM_TMO running. Reset false. -/
  enumTmr : Bool := false
  /-- [R425] chain length on a chain manager. Reset 0. -/
  len : Nat := 0
  /-- [R419] HEARTBEAT is being sent. Reset false. -/
  beating : Bool := false
  /-- [R416] FTAG of the frames this device originates. Reset 0. -/
  ftag : Nat := 0
  /-- [R424] RESET waiting for its 10 us: KIND. Reset none. -/
  resetKind : Option Nat := none
  /-- [R428] the chain mailbox command came from an MB_CMD frame: FTAG to answer with. Reset none. -/
  mbFtag : Option Nat := none
  deriving DecidableEq, Repr

/-- [R428 R434] what a command this manager sent in-band is for. -/
inductive SentFor where
  | relay (ftag tag : Nat)
  | walkIdent (path : List Nat)
  | walkFea (path : List Nat) (fea : BitVec 24) (serial : List Byte)
  | snap (fea : BitVec 24) (ft : BitVec 64)
  deriving DecidableEq, Repr

/-- A member of the group as the last walk found it (R434). -/
structure GrpMember where
  fea : BitVec 24
  serial : List Byte
  path : List Nat
  fails : Nat := 0
  seen : Bool := false
  deriving DecidableEq, Repr

/-- A manager heard (R429). -/
structure Heard where
  fea : BitVec 24
  configured : Bool
  candidate : Bool
  seq : BitVec 16
  at_ : Nat
  deriving DecidableEq, Repr

/-- The group manager and the management agent (R426 to R435). -/
structure Group where
  /-- [R88] IDENT.CHAIN.GROUP_MGR. Reset 0 until the stored role is applied. -/
  manager : Bool := false
  /-- [R429] the role was set by command. Reset false. -/
  configured : Bool := false
  /-- [R429] a candidacy runs. Reset false. -/
  candidate : Bool := false
  /-- [R430] a configured manager with a lower FEA is heard: no distribution or walk. Reset false. -/
  yielded : Bool := false
  /-- [R430] EV_GROUP_MGR_LOST has been recorded since a manager was last heard. Reset false. -/
  lostRec : Bool := false
  /-- [R429] managers and candidates heard, by FEA. Reset none. -/
  heard : List Heard := []
  /-- [R429] ANN_SEQ. Reset 0. -/
  annSeq : BitVec 16 := 0
  /-- [R431] members found. Reset none. -/
  members : List GrpMember := []
  /-- [R434] paths still to visit in this walk. Reset none. -/
  walk : List (List Nat) := []
  /-- [R434] routers without a valid FEA that this walk has found. Reset none. -/
  blank : List GrpMember := []
  /-- [R426] next MTAG. Reset 0. -/
  mtag : Nat := 0
  /-- [R428] commands sent in-band whose answer is awaited. Reset none. -/
  sent : List (Nat × SentFor) := []
  /-- [R88] IDENT.CHAIN.ISOLATED. Reset 0. -/
  isolated : Bool := false
  /-- [R24 R29] packets waiting for the management agent, with their source and buffer space. Reset none. -/
  rx : List QPkt := []
  /-- [R427] packets the agent has built: a port to leave by, or none to be routed. Reset none. -/
  tx : List (Option Nat × Pkt) := []
  /-- [R431] records forwarded in the second that began at that model time. Reset 0. -/
  fwdAt : Nat := 0
  fwdCount : Nat := 0
  deriving DecidableEq, Repr

/-- The event recorder (R465 to R473). -/
structure Recorder where
  /-- [R470] service-die buffer: records not yet flushed, oldest first. Reset none. -/
  buf : List EvRec := []
  /-- [R473] records in EVENT_RING, oldest first. Reset DESIGN CHOICE none (log 6). -/
  ring : List EvRec := []
  /-- [R469] next RECORD_SEQ. Reset 1. -/
  next : BitVec 32 := 1
  /-- [R470] records overwritten in the service-die buffer and not yet reported. Reset 0. -/
  lost : Nat := 0
  /-- [R471] when the last flush ended. Reset 0. -/
  flushedAt : Nat := 0
  /-- [R472] power-fail latch: Vigil seconds of the assertion. Reset none. -/
  pfLatch : Option (BitVec 40) := none
  /-- [R472] power-fail marker: records left behind. Reset 0. -/
  pfLeft : Nat := 0
  /-- [R501] Vigil trip latch: die code and Vigil seconds. Reset none. -/
  tripLatch : Option (Nat × BitVec 40) := none
  /-- [R118 R183] rate limiters, by event and object. Reset none. -/
  limits : Tbl Limiter := { dflt := {} }
  /-- [R222] trace records in the second that began at that model time. Reset 0. -/
  traceAt : Nat := 0
  traceCount : Nat := 0
  deriving DecidableEq, Repr

/-- One month of the life record (R481). -/
structure Month where
  sum : Int
  secs : Nat
  deriving DecidableEq, Repr

/-- The LIFE partition (R481) and the life accumulators. -/
structure Life where
  /-- [R481] powered seconds. Reset DESIGN CHOICE 0 (log 6). -/
  secs : Nat := 0
  /-- [R481] completed months, newest first, up to 13. Reset none (log 6). -/
  months : List Month := []
  /-- [R481] the month in progress. Reset 0 (log 6). -/
  cur : Month := ⟨0, 0⟩
  /-- [R481] highest average recorded. Reset 0 (log 6). -/
  maxAvg : Int := 0
  /-- [R481] hottest 1 s mean recorded. Reset 0 (log 6). -/
  maxMean : Int := 0
  /-- [R481] RATING_VOID. Reset 0 (log 6). -/
  void : Bool := false
  /-- [R482] VIGIL_GAP. Reset 0 (log 6). -/
  gap : Bool := false
  /-- [R481] complete months, saturating at 255. Reset 0 (log 6). -/
  nMonths : Nat := 0
  /-- [R481] serial number of the predecessor. Reset zeros. -/
  pred : List Byte := List.replicate 12 0
  /-- [R481] seconds with a mean above the range. Reset 0 (log 6). -/
  hotSecs : Nat := 0
  /-- [R5 R481] Vigil seconds at which EV_LIFE_TEMP_EXCEEDED was last recorded, for either cause. Reset none. -/
  recAt : Option Nat := none
  deriving DecidableEq, Repr

/-- MRAM wear (R483). -/
structure Mram where
  /-- [R483] spares left. Reset 124. -/
  spares : Nat := 124
  /-- [R483] EV_MRAM_SPARE_LOW recorded in this start. Reset false. -/
  lowRec : Bool := false
  /-- [R483 R485] sectors of EVENT_RING skipped: for want of a spare, or until Molzu remaps them. Reset 0. -/
  skipped : Nat := 0
  /-- [R485] the skipped sectors that wait for Molzu. Reset none. -/
  waiting : List Nat := []
  /-- [R483] partitions (0-5) with a failed sector and no spare: writes to them fail. Reset none. -/
  failed : BitVec 6 := 0
  deriving DecidableEq, Repr

/-- A power-step group (R496 to R498). -/
structure PStep where
  /-- [R496] notice code driven. Reset 0. -/
  code : Nat := 0
  /-- [R497] when the last STB edge came. Reset 0. -/
  stbAt : Nat := 0
  /-- [R497] ACK level. Reset false. -/
  ack : Bool := false
  /-- [R497] ACK was high at the STB edge and has not gone low since. Reset false. -/
  armLow : Bool := false
  /-- [R497] a grant is held, and since when. Reset none. -/
  grant : Option Nat := none
  /-- [R498] amperes of the rise still to take. Reset 0. -/
  rise : Nat := 0
  /-- [R505] the grant has been used for this step. Reset false. -/
  used : Bool := false
  deriving DecidableEq, Repr

/-- [R500] thresholds a die is above. -/
structure Therm where
  warn : Bool := false
  thr1 : Bool := false
  thr2 : Bool := false
  deriving DecidableEq, Repr

/-- The board pins, the BMC interface and the TAP (chapter 19). -/
structure Pins where
  /-- [R507] PERST_N asserted, by host port. Reset true. -/
  perst : BitVec 8 := 0xFF
  /-- [R507] PWRFAIL_N asserted. Reset false. -/
  pwrfail : Bool := false
  /-- [R501 R507] THERMTRIP_N asserted. Reset false. -/
  thermtrip : Bool := false
  /-- [R504] REFCLK_CORE lost; ACLK runs from the monitor oscillator. Reset false. -/
  coreLost : Bool := false
  /-- [R511] I3C dynamic address; none: SMBus. Reset none. -/
  i3c : Option Nat := none
  /-- [R513] TRST_N low. Reset true. -/
  trst : Bool := true
  /-- [R513] the JTAG instruction register. Reset IDCODE. -/
  ir : Nat := 1
  /-- [R513] the REG_ACCESS data register: OFFSET, VALUE, WRITE, STATUS. Reset 0. -/
  dr : BitVec 59 := 0
  deriving DecidableEq, Repr

end Sys2Proof.Machine
end

