-- ==== Sys2Proof/Machine/State.lean ====
section
/-! DEFINITION. The state of the device: everything the spec gives it, and the queue of waiting commands; the reasons a step
can stop; the state right after reset. -/

namespace Sys2Proof.Machine

/-- Why a step faults. -/
inductive Fault where
  /-- Raised by a command that names a lane, octet, port, host endpoint, quadrant, stack, die, rail, group or cache that
  the device does not have (the shared figures of R39 and R18). Safe: the spec gives no such resource an effect. -/
  | noSuchResource
  deriving DecidableEq, Repr

/-- Why a step is refused. -/
inductive Refusal where
  /-- Raised by the dispatcher for a command with no meaning in this model yet. Safe. -/
  | notModelled (mnemonic : String)
  deriving DecidableEq, Repr

/-- The whole device. -/
structure State where
  /-- [R3] identity. -/
  ident : Ident := {}
  /-- [R140] clocks. -/
  clk : Clock := {}
  /-- [R446] start-up. -/
  boot : Boot := {}
  /-- [R44] stored configuration (the newer CONFIG copy). -/
  cfg : StoredCfg := {}
  /-- [R484] the older CONFIG copy. Reset as the newer (log 6). -/
  cfgOld : StoredCfg := {}
  /-- [R60] running host port modes. Reset PCIE_X16. -/
  hostMode : Tbl Nat := { dflt := 0 }
  /-- [R10] active compatibility profile. Reset 1. -/
  profile : Nat := 1
  /-- [R161] lanes. -/
  lanes : Tbl Lane := { dflt := {} }
  /-- [R185] octets. -/
  octets : Tbl Octet := { dflt := {} }
  /-- [R195] network ports. -/
  ports : Tbl Port := { dflt := {} }
  /-- [R155] time unit. -/
  tu : TimeUnit := {}
  /-- [R227] routes. -/
  routes : Routes := {}
  /-- [R107] snapshots. -/
  snap : Snap := {}
  /-- [R474] counters. -/
  ctrs : Tbl Ctr := { dflt := {} }
  /-- [R23] quadrants. -/
  quads : Tbl Quad := { dflt := {} }
  /-- [R462] host endpoints: host port * 2 + half. -/
  eps : Tbl HostEp := { dflt := {} }
  /-- [R85] functions, by master ID. -/
  fns : Tbl Fn := { dflt := {} }
  /-- [R83] STATUS and MAILBOX instances, by master ID. -/
  insts : Tbl Inst := { dflt := {} }
  /-- [R93] per-master registers. -/
  masters : Tbl Master := { dflt := {} }
  /-- [R112] running access tables, by target. Reset none until a cold start loads them. -/
  access : Tbl (List AccEntry) := { dflt := [] }
  /-- [R100] Molzu's commands. -/
  cmds : Cmds := {}
  /-- [R30] endpoint engines and contexts. -/
  ep : Endpoint := {}
  /-- [R414] chain. -/
  chain : Chain := {}
  /-- [R429] group management. -/
  grp : Group := {}
  /-- [R465] event recorder. -/
  recd : Recorder := {}
  /-- [R480] readings per telemetry group. Reset none. -/
  tele : Tbl (List Int) := { dflt := [] }
  /-- [R480] FT of the last sample. Reset 0. -/
  teleFt : Tbl (BitVec 64) := { dflt := 0 }
  /-- [R481] life record. -/
  life : Life := {}
  /-- [R481] the LIFE partition as last written. Reset as the accumulators (log 6). -/
  lifePart : Life := {}
  /-- [R483] MRAM. -/
  mram : Mram := {}
  /-- [R496] power-step groups C and S. -/
  pstepC : PStep := {}
  pstepS : PStep := {}
  /-- [R500] thresholds by die. -/
  therm : Tbl Therm := { dflt := {} }
  /-- [R507] pins. -/
  pins : Pins := {}
  /-- The model's own trace of what the device has emitted, oldest first (log 4). Reset none. -/
  out : List Out := []
  /-- The model's own counter of free values drawn (log 7). Reset 0. -/
  free : Nat := 0
  /-- Commands waiting, first in first out. Reset none. -/
  pending : List Instr := []
  deriving DecidableEq, Repr

/-- The machine right after reset: PORST_N asserted, nothing started (R443, R494). -/
def State.reset : State := {}

end Sys2Proof.Machine
end

