-- ==== Sys2Proof/Machine/Counters.lean ====
section
/-! DEFINITION. The statistics counters by scope, in the order of R476, and counting. -/

namespace Sys2Proof.Machine

/-- The counters of every chapter's counter tables. -/
inductive Cn where
  | eqxAccepted | eqxRejected | eqxMissed | eqxOffsetMax | ltbTx | ltbRx | ltbCrcErr | badType
  | nakTx | nakRx | replayLtb | replayLimit | creditLoss | retrain | laneShed | laneRestore
  | framingErr | oversizeRx | abortTx | abortRx | retrainDrop | linkFlush | legacyOversize | hdrCrcErr
  | badTypePkt | pkeyDrop | hopLimit | nonminSkip | routeMin | routeNonmin | hintRx | gateWaitGuard
  | gateOverrun | gateNofit | gateEdgeViol | timedTx | timedUngated | shaperWait | dpDropYellow | dpDropRed
  | polGreen | polYellow | polRed | polDrop | fecCw | fecCorrCw | fecCorrSym | fecUncorrCw
  | fecHist0 | fecHist1 | fecHist2 | fecHist3 | fecHist4 | fecHist5 | fecHist6 | fecHist7
  | fecHist8 | fecHist9 | fecHist10 | fecHist11 | fecHist12 | fecHist13 | fecHist14 | fecHist15
  | lockLoss | retrainFail | noLock | eidleEntry | wake | wakeFail | octPllUnlock | pkeyInjectDrop
  | pkeyDeliverDrop | noEndpoint | icrcErr | dbPoll | dbEmpty | dbStale | nudge | nudgeUnused
  | wqeFetched | slotWaitHit | slotWaitExpired | malformed | sglLimit | hostTimeout | park | unpark
  | cqFullStall | cqDrop | eqWrite | txPkt | rxPkt | retxReorder | retxTimeout | dupRx
  | windowDrop | unsyncDrop | ackTx | ackRx | rnrTx | rnrRx | remoteAccessNak | targetUnavailNak
  | pathReplaced | noQp | srcMismatch | atomicExec | revoke | invalidate | ccDecrease | matchPosted
  | matchUnexpected | unexpEnq | reorderHold | reorderFull | unexpFull | rdvRead | truncated | matchWalk
  | longWalk | bmeQuiesce | flr | lateCplDrop | noRoute | stageOverflow | collStarted | collDone
  | collAbort | blocksReduced | opalInBytes | encP64 | encP128 | encP384 | collInexact | collOverflow
  | noTree | seqHold | ccHit | ccMiss | ccFromPeer | ccFromHbm | pageIn | pageOut
  | onyxRnr | onyxActiveWait | onyxNoVictim | evictCancel | evictStall | cohReq | cohFwd | hbmCe
  | hbmUe | ccCe | ccUe | bgHbmBytes | eventLost | traceSuppressed | chainCrcErr | chainBadFrame
  | chainFwd | chainEnum | mgmtPathDrop | mgmtRelay | relayTimeout | eventFwdSuppressed | coldStart | warmStart
  | fwRestart | bootFailed | eventRecorded | eventFlush | snapTaken | snapMissed | mramVerifyRetry | mramRemap
  | pstepNoticeC | pstepNoticeS | pstepGrant | pstepSelfLimited | throttleMs | ppsEdgeIgnored | bmcPecErr | accessDenied
  deriving DecidableEq, Repr

/-- [R92] CNT_SEL.SCOPE. -/
inductive Scope where
  | port | lane | octet | host | quadrant | device | shaper | target
  deriving DecidableEq, Repr

def Scope.code : Scope → Nat
  | .port => 0 | .lane => 1 | .octet => 2 | .host => 3 | .quadrant => 4 | .device => 5 | .shaper => 6 | .target => 7

/-- [R92] the scope CNT_SEL.SCOPE names; 8 to 15 are reserved. -/
def Scope.ofCode : Nat → Option Scope
  | 0 => some .port | 1 => some .lane | 2 => some .octet | 3 => some .host | 4 => some .quadrant | 5 => some .device
  | 6 => some .shaper | 7 => some .target | _ => none

/-- [R476] the counters of port scope, k = 0 onwards. -/
def portCounters : List Cn :=
  [Cn.eqxAccepted, Cn.eqxRejected, Cn.eqxMissed, Cn.eqxOffsetMax, Cn.ltbTx, Cn.ltbRx, Cn.ltbCrcErr, Cn.badType] ++
  [Cn.nakTx, Cn.nakRx, Cn.replayLtb, Cn.replayLimit, Cn.creditLoss, Cn.retrain, Cn.laneShed, Cn.laneRestore] ++
  [Cn.framingErr, Cn.oversizeRx, Cn.abortTx, Cn.abortRx, Cn.retrainDrop, Cn.linkFlush, Cn.legacyOversize, Cn.hdrCrcErr] ++
  [Cn.badTypePkt, Cn.pkeyDrop, Cn.hopLimit, Cn.nonminSkip, Cn.routeMin, Cn.routeNonmin, Cn.hintRx, Cn.gateWaitGuard] ++
  [Cn.gateOverrun, Cn.gateNofit, Cn.gateEdgeViol, Cn.timedTx, Cn.timedUngated, Cn.shaperWait, Cn.dpDropYellow, Cn.dpDropRed] ++
  [Cn.polGreen, Cn.polYellow, Cn.polRed, Cn.polDrop]

/-- [R476] the counters of lane scope, k = 0 onwards. -/
def laneCounters : List Cn :=
  [Cn.fecCw, Cn.fecCorrCw, Cn.fecCorrSym, Cn.fecUncorrCw, Cn.fecHist0, Cn.fecHist1, Cn.fecHist2, Cn.fecHist3] ++
  [Cn.fecHist4, Cn.fecHist5, Cn.fecHist6, Cn.fecHist7, Cn.fecHist8, Cn.fecHist9, Cn.fecHist10, Cn.fecHist11] ++
  [Cn.fecHist12, Cn.fecHist13, Cn.fecHist14, Cn.fecHist15, Cn.lockLoss, Cn.retrainFail, Cn.noLock, Cn.eidleEntry] ++
  [Cn.wake, Cn.wakeFail]

/-- [R476] the counters of octet scope, k = 0 onwards. -/
def octetCounters : List Cn :=
  [Cn.octPllUnlock]

/-- [R476] the counters of host scope, k = 0 onwards. -/
def hostCounters : List Cn :=
  [Cn.pkeyInjectDrop, Cn.pkeyDeliverDrop, Cn.noEndpoint, Cn.icrcErr, Cn.dbPoll, Cn.dbEmpty, Cn.dbStale, Cn.nudge] ++
  [Cn.nudgeUnused, Cn.wqeFetched, Cn.slotWaitHit, Cn.slotWaitExpired, Cn.malformed, Cn.sglLimit, Cn.hostTimeout, Cn.park] ++
  [Cn.unpark, Cn.cqFullStall, Cn.cqDrop, Cn.eqWrite, Cn.txPkt, Cn.rxPkt, Cn.retxReorder, Cn.retxTimeout] ++
  [Cn.dupRx, Cn.windowDrop, Cn.unsyncDrop, Cn.ackTx, Cn.ackRx, Cn.rnrTx, Cn.rnrRx, Cn.remoteAccessNak] ++
  [Cn.targetUnavailNak, Cn.pathReplaced, Cn.noQp, Cn.srcMismatch, Cn.atomicExec, Cn.revoke, Cn.invalidate, Cn.ccDecrease] ++
  [Cn.matchPosted, Cn.matchUnexpected, Cn.unexpEnq, Cn.reorderHold, Cn.reorderFull, Cn.unexpFull, Cn.rdvRead, Cn.truncated] ++
  [Cn.matchWalk, Cn.longWalk, Cn.bmeQuiesce, Cn.flr, Cn.lateCplDrop]

/-- [R476] the counters of quadrant scope, k = 0 onwards. -/
def quadrantCounters : List Cn :=
  [Cn.noRoute, Cn.stageOverflow, Cn.collStarted, Cn.collDone, Cn.collAbort, Cn.blocksReduced, Cn.opalInBytes, Cn.encP64] ++
  [Cn.encP128, Cn.encP384, Cn.collInexact, Cn.collOverflow, Cn.noTree, Cn.seqHold, Cn.ccHit, Cn.ccMiss] ++
  [Cn.ccFromPeer, Cn.ccFromHbm, Cn.pageIn, Cn.pageOut, Cn.onyxRnr, Cn.onyxActiveWait, Cn.onyxNoVictim, Cn.evictCancel] ++
  [Cn.evictStall, Cn.cohReq, Cn.cohFwd, Cn.hbmCe, Cn.hbmUe, Cn.ccCe, Cn.ccUe, Cn.bgHbmBytes] ++
  [Cn.eventLost]

/-- [R476] the counters of device scope, k = 0 onwards. -/
def deviceCounters : List Cn :=
  [Cn.traceSuppressed, Cn.chainCrcErr, Cn.chainBadFrame, Cn.chainFwd, Cn.chainEnum, Cn.mgmtPathDrop, Cn.mgmtRelay, Cn.relayTimeout] ++
  [Cn.eventFwdSuppressed, Cn.coldStart, Cn.warmStart, Cn.fwRestart, Cn.bootFailed, Cn.eventLost, Cn.eventRecorded, Cn.eventFlush] ++
  [Cn.snapTaken, Cn.snapMissed, Cn.mramVerifyRetry, Cn.mramRemap, Cn.pstepNoticeC, Cn.pstepNoticeS, Cn.pstepGrant, Cn.pstepSelfLimited] ++
  [Cn.throttleMs, Cn.ppsEdgeIgnored, Cn.bmcPecErr]

/-- [R476] the counters of shaper scope, k = 0 onwards. -/
def shaperCounters : List Cn :=
  [Cn.shaperWait, Cn.polGreen, Cn.polYellow, Cn.polRed]

/-- [R476] the counters of target scope, k = 0 onwards. -/
def targetCounters : List Cn :=
  [Cn.accessDenied]

def Scope.counters : Scope → List Cn
  | .port => portCounters
  | .lane => laneCounters
  | .octet => octetCounters
  | .host => hostCounters
  | .quadrant => quadrantCounters
  | .device => deviceCounters
  | .shaper => shaperCounters
  | .target => targetCounters

/-- The place of a name in a list. -/
def placeOf (n : Cn) : List Cn → Nat
  | [] => 0
  | m :: rest => if m = n then 0 else placeOf n rest + 1

/-- The key a counter is held under: scope, instance and place. -/
def ctrKey (sc : Scope) (index k : Nat) : Nat := sc.code * 2 ^ 40 + index * 2 ^ 16 + k

/-- [R474] add `n` to a counter: 64 bits, wrapping. -/
def count (s : State) (sc : Scope) (index : Nat) (c : Cn) (n : Nat := 1) : State :=
  { s with ctrs := s.ctrs.upd (ctrKey sc index (placeOf c sc.counters)) (fun x => { x with live := x.live + BitVec.ofNat 64 n }) }

/-- [R474] a maximum-type counter takes the larger value. -/
def countMax (s : State) (sc : Scope) (index : Nat) (c : Cn) (n : Nat) : State :=
  { s with ctrs := s.ctrs.upd (ctrKey sc index (placeOf c sc.counters))
             (fun x => if x.live.toNat < n then { x with live := BitVec.ofNat 64 n } else x) }

/-- [R477] a live read of a counter. -/
def counterLive (s : State) (sc : Scope) (index : Nat) (c : Cn) : BitVec 64 :=
  (s.ctrs.get (ctrKey sc index (placeOf c sc.counters))).live

end Sys2Proof.Machine
end

