-- ==== Sys2Proof/Machine/Wire.lean ====
section
/-! DEFINITION. Byte layouts on the wire and in host memory, and the checksums over them (R14, R186, R217 to R220). -/

namespace Sys2Proof.Machine

/-- [R14] `n` bytes of a number, most significant first. -/
def beBytes : Nat → Nat → List Byte
  | 0, _ => []
  | n + 1, v => BitVec.ofNat 8 (v / 256 ^ n) :: beBytes n v

/-- [R14] `n` bytes of a number, least significant first. -/
def leBytes : Nat → Nat → List Byte
  | 0, _ => []
  | n + 1, v => BitVec.ofNat 8 v :: leBytes n (v / 256)

/-- The number bytes hold, least significant first. -/
def leNat : List Byte → Nat
  | [] => 0
  | b :: rest => b.toNat + 256 * leNat rest

/-- The number bytes hold, most significant first. -/
def beNat (l : List Byte) : Nat := l.foldl (fun a b => a * 256 + b.toNat) 0

/-- `n` bytes from offset `i`, little-endian; bytes beyond the end read zero. -/
def leAt (l : List Byte) (i n : Nat) : Nat := leNat ((l.drop i).take n)

/-- The byte at offset `i`. -/
def byteAt (l : List Byte) (i : Nat) : Nat := leAt l i 1

/-- All bytes of a stretch are zero (a reserved field, R16). -/
def zeroAt (l : List Byte) (i n : Nat) : Bool := ((l.drop i).take n).all (fun b => b == 0)

/-- [R218] one bit step of CRC-16 with polynomial 0x1021. -/
def crc16Bit (c : BitVec 16) (b : Bool) : BitVec 16 :=
  if c.msb != b then (c <<< 1) ^^^ 0x1021 else c <<< 1

/-- [R218] the bits of a byte, most significant first. -/
def bitsOf (b : Byte) : List Bool := [b.getMsbD 0, b.getMsbD 1, b.getMsbD 2, b.getMsbD 3, b.getMsbD 4, b.getMsbD 5, b.getMsbD 6, b.getMsbD 7]

/-- [R218] CRC-16: initial value 0xFFFF, no reflection, no final XOR. -/
def crc16 (l : List Byte) : BitVec 16 :=
  l.foldl (fun c b => (bitsOf b).foldl crc16Bit c) 0xFFFF

/-- [R186] one bit step of the reflected CRC-32C. -/
def crc32Step (c : BitVec 32) : BitVec 32 :=
  if c.getLsbD 0 then (c >>> 1) ^^^ 0x82F63B78 else c >>> 1

/-- [R186] CRC-32C: polynomial 0x1EDC6F41 reflected, initial value and final XOR 0xFFFFFFFF. -/
def crc32c (l : List Byte) : BitVec 32 :=
  (l.foldl (fun c b => crc32Step (crc32Step (crc32Step (crc32Step (crc32Step (crc32Step (crc32Step (crc32Step
    (c ^^^ b.zeroExtend 32))))))))) 0xFFFFFFFF) ^^^ 0xFFFFFFFF

/-- [R217] bytes 0 to 29 of the fabric header. -/
def encHdr (h : FabHdr) : List Byte :=
  beBytes 1 (h.ver * 32 + h.type % 32) ++
  beBytes 1 (h.sl % 4 * 64 + h.stage % 4 * 16 + h.rmode % 4 * 4 + h.dp % 4) ++
  beBytes 2 h.pkey.toNat ++ beBytes 3 h.dest.toNat ++ beBytes 3 h.src.toNat ++
  beBytes 1 (h.hops % 64 * 4 + (if h.timed then 2 else 0) + (if h.trc then 1 else 0)) ++
  beBytes 2 (h.intGroup.toNat * 16) ++ beBytes 2 (h.len % 8192) ++ beBytes 2 h.entropy.toNat ++ beBytes 3 h.treeId.toNat ++
  beBytes 2 h.qdelay.toNat ++ beBytes 2 h.hopLat.toNat ++ beBytes 6 0

/-- [R218] the HDR_CRC a header should carry. -/
def hdrCrcOf (h : FabHdr) : BitVec 16 := crc16 (encHdr h)

/-- [R303] the FLAGS byte. -/
def transFlags (t : TransHdr) : Nat :=
  (if t.syn then 1 else 0) + (if t.ackReq then 2 else 0) + (if t.last then 4 else 0) + (if t.solicit then 8 else 0) +
    (if t.retx then 16 else 0)

/-- [R219] the transport header. -/
def encTrans (t : TransHdr) : List Byte :=
  beBytes 1 t.opcode ++ beBytes 3 t.destQpn ++ beBytes 3 t.srcQpn ++ beBytes 1 (transFlags t) ++ beBytes 4 t.psn.toNat ++
  beBytes 4 t.msn.toNat ++ beBytes 4 t.windowKey.toNat ++ beBytes 8 t.remoteOffset.toNat ++ beBytes 4 t.ts.toNat

/-- [R304 R305 R331] the extension header. -/
def encExt : Ext → List Byte
  | .none => []
  | .atomic aop counter a => beBytes 1 aop ++ beBytes 1 counter ++ beBytes 6 0 ++ beBytes 16 a.toNat
  | .ack sack code qd ra npsn => beBytes 32 sack.toNat ++ beBytes 1 code ++ beBytes 1 qd ++ beBytes 2 ra ++ beBytes 4 npsn.toNat
  | .eager c r t len => beBytes 2 c ++ beBytes 1 1 ++ beBytes 1 0 ++ beBytes 4 r.toNat ++ beBytes 8 t.toNat ++ beBytes 4 len ++ beBytes 12 0
  | .rts c r t len k o => beBytes 2 c ++ beBytes 1 2 ++ beBytes 1 0 ++ beBytes 4 r.toNat ++ beBytes 8 t.toNat ++ beBytes 4 len ++
      beBytes 4 k.toNat ++ beBytes 8 o.toNat
  | .fin c m t n st => beBytes 2 c ++ beBytes 1 3 ++ beBytes 1 0 ++ beBytes 4 m.toNat ++ beBytes 8 t.toNat ++ beBytes 4 n ++
      beBytes 4 (st * 65536) ++ beBytes 8 0

/-- [R364] the collective extension header. -/
def encColl (c : CollHdr) : List Byte :=
  beBytes 1 c.kind ++ beBytes 1 (c.op % 16 + (if c.native then 16 else 0)) ++ beBytes 1 c.dtype ++
  beBytes 1 ((if c.empty then 1 else 0) + (if c.inexact then 2 else 0) + (if c.overflow then 4 else 0) + (if c.invalid then 8 else 0)) ++
  beBytes 4 c.seq.toNat ++ beBytes 4 c.blockFirst ++ beBytes 2 c.blockCount ++ beBytes 2 (BitVec.ofInt 16 c.ebase).toNat ++
  beBytes 4 c.vecLen ++ beBytes 4 c.rootCount ++ beBytes 2 c.credits ++ beBytes 2 c.status ++ beBytes 4 0

/-- [R426] the management header; BODY_LEN is the payload's length. -/
def encMgmt (m : MgmtHdr) (body : Nat) : List Byte :=
  beBytes 2 m.mtag ++ beBytes 1 m.pathLen ++ beBytes 1 m.pathPtr ++
  ((List.range 8).flatMap (fun i => beBytes 2 (m.path.getD i 0 % 512))) ++ beBytes 2 body ++
  beBytes 1 ((if m.direct then 1 else 0) + (if m.ret then 2 else 0)) ++ beBytes 1 0

/-- [R216] what follows the fabric header, without pad and ICRC. -/
def encBody : Body → List Byte
  | .transport t e p => encTrans t ++ encExt e ++ p
  | .coll c p => encColl c ++ p
  | .mgmt m p => encMgmt m p.length ++ p
  | .raw b => b

/-- [R216] bytes 0 to LENGTH - 5 of a packet: header, body and pad. -/
def encPkt (p : Pkt) : List Byte :=
  let b := encHdr p.hdr ++ beBytes 2 p.hdr.hdrCrc.toNat ++ encBody p.body
  b ++ List.replicate (p.hdr.len - 4 - b.length) 0

/-- [R220] a packet's bytes with the fields a router changes taken as ones. -/
def icrcView (l : List Byte) : List Byte :=
  l.zipIdx.map (fun bi =>
    if bi.2 = 1 then bi.1 ||| 0x33
    else if bi.2 = 10 ∨ bi.2 = 11 ∨ bi.2 = 12 ∨ (20 ≤ bi.2 ∧ bi.2 ≤ 23) ∨ bi.2 = 30 ∨ bi.2 = 31 then 0xFF else bi.1)

/-- [R220] the ICRC a packet should carry. -/
def icrcOf (p : Pkt) : BitVec 32 := crc32c (icrcView (encPkt p))

/-- [R216] the LENGTH of a packet with this body: headers, payload, pad to 64 and ICRC. -/
def lenOf (b : Body) : Nat := max 64 (32 + (encBody b).length + 4)

/-- Build a packet: LENGTH, HDR_CRC and ICRC filled in. -/
def mkPkt (h : FabHdr) (b : Body) : Pkt :=
  let h1 := { h with len := lenOf b }
  let h2 := { h1 with hdrCrc := hdrCrcOf h1 }
  let p : Pkt := { hdr := h2, body := b }
  { p with icrc := icrcOf p }

/-- [R216] all LENGTH bytes of a packet: the ICRC ends it. -/
def pktBytes (p : Pkt) : List Byte := encPkt p ++ beBytes 4 p.icrc.toNat

/-! ### Link transfer blocks -/

/-- [R187] the type codes, and whether the type is sequenced. -/
def LtbBody.code : LtbBody → Nat
  | .idle => 0
  | .data _ => 1
  | .ctrl _ _ => 2
  | .init _ => 3
  | .laneMap _ _ _ => 4
  | .hint _ => 5
  | .time _ _ => 6
def LtbBody.sequenced (b : LtbBody) : Bool := b.code == 1 || b.code == 2

/-- A flag as the bit of weight `w`. -/
def flagBit (b : Bool) (w : Nat) : Nat := if b then w else 0

/-- [R197] bytes 8 to 117 of an INIT LTB. -/
def encInit (i : InitMsg) : List Byte :=
  beBytes 1 i.initVer ++ beBytes 1 (flagBit i.partnerSeen 1 + flagBit i.groupManager 2 + flagBit i.timeValid 4 + flagBit i.split 8) ++
  beBytes 1 i.profile ++ beBytes 1 (i.laneIdx % 8 * 32 + i.width % 4 * 8) ++ beBytes 3 i.fea.toNat ++ beBytes 2 i.port ++ i.serial ++
  beBytes 4 i.partHash.toNat ++ beBytes 10 i.ft ++ beBytes 2 i.maxPacket ++ beBytes 1 i.rxMap.toNat ++
  beBytes 4 (BitVec.ofInt 32 i.sharedAvail).toNat ++ i.vcReserve.flatMap (beBytes 2) ++ i.vcAvail.flatMap (beBytes 2) ++ beBytes 4 i.creditTmoUs

/-- [R144] bytes 8 to 52 of a TIME LTB. -/
def encTime (msg : Nat) (t : TimeMsg) : List Byte :=
  beBytes 1 msg ++ beBytes 1 (flagBit t.locked 1 + flagBit t.holdover 2 + flagBit t.valid 4 + flagBit t.outOfCycle 8) ++
  beBytes 2 t.exchSeq.toNat ++ beBytes 10 t.tA.toNat ++ beBytes 10 t.tB.toNat ++ beBytes 3 t.sourceFea.toNat ++
  beBytes 1 (t.cls.toNat * 64 + t.hops.toNat) ++ beBytes 1 t.stepSeq.toNat ++ beBytes 8 t.stepFt.toNat ++ beBytes 8 t.stepNs.toNat

/-- [R236] bytes 8 to 143 of a LOAD_HINT LTB. -/
def encHint (m : HintMsg) : List Byte :=
  beBytes 1 m.ver ++ beBytes 1 (m.block % 32) ++ (List.range 4).flatMap (fun i => beBytes 1 (m.slLoad.getD i 0)) ++ beBytes 2 0 ++
  (List.range 128).flatMap (fun i => beBytes 1 (m.groupLoad.getD i 0))

/-- [R187 R188 R191 R208] the payload of an LTB before its pad of zeros. -/
def LtbBody.payload : LtbBody → List Byte
  | .idle => []
  | .data b => b
  | .ctrl op mask => beBytes 1 op ++ beBytes 2 mask.toNat
  | .init i => encInit i
  | .laneMap q m echo => beBytes 1 q.toNat ++ beBytes 1 m.toNat ++ beBytes 1 (flagBit echo 1)
  | .hint m => encHint m
  | .time msg t => encTime msg t

/-- [R186] a credit field: the VC and the credits returned for it; 0 where there is no return. -/
def creditField (l : List (Nat × Nat)) (i : Nat) : List Byte :=
  beBytes 2 (match l[i]? with | some o => o.1 % 16 * 4096 + o.2 % 4096 | none => 0)

/-- [R186] bytes 0 to 251 of an LTB. -/
def ltbBytes (h : LtbTx) (b : LtbBody) : List Byte :=
  beBytes 2 h.seq.toNat ++ beBytes 2 h.ack.toNat ++ beBytes 1 (b.code + flagBit h.abortEnd 64 + flagBit h.nak 128) ++ beBytes 1 h.startOff ++
  creditField h.credits 0 ++ (b.payload ++ List.replicate 240 0).take 240 ++ creditField h.credits 1 ++ beBytes 2 (BitVec.ofInt 16 h.shared).toNat

/-- [R186] the 256 bytes of an LTB: LTB_CRC32 ends it. -/
def encLtb (h : LtbTx) (b : LtbBody) : List Byte := ltbBytes h b ++ beBytes 4 (crc32c (ltbBytes h b)).toNat

/-- [R218] recompute HDR_CRC after changing mutable fields. -/
def sealHdr (p : Pkt) : Pkt := { p with hdr := { p.hdr with hdrCrc := hdrCrcOf p.hdr } }

/-- [R198] credits a packet needs. -/
def creditsOf (p : Pkt) : Nat := (p.hdr.len + 63) / 64

/-- [R233] the VC of a packet: SL * 4 + STAGE. -/
def vcOf (h : FabHdr) : Nat := h.sl % 4 * 4 + h.stage % 4

/-- [R465] the 32 B of an event record. -/
def encRecord (r : EvRec) : List Byte :=
  leBytes 2 r.code.toNat ++
  leBytes 1 (r.sev * 16 + (if r.keeper then 1 else 0) + (if r.summary then 2 else 0) + (if r.carried then 4 else 0)) ++
  leBytes 1 (r.die * 32 + r.unit) ++ leBytes 4 r.seq.toNat ++ leBytes 8 r.time.toNat ++ leBytes 4 r.p0.toNat ++
  leBytes 4 r.p1.toNat ++ leBytes 4 r.p2.toNat ++ leBytes 4 r.p3.toNat

/-- [R465] an event record from its 32 B. -/
def decRecord (l : List Byte) : EvRec :=
  { code := BitVec.ofNat 16 (leAt l 0 2), sev := byteAt l 2 / 16, keeper := byteAt l 2 % 2 == 1,
    summary := byteAt l 2 / 2 % 2 == 1, carried := byteAt l 2 / 4 % 2 == 1, die := byteAt l 3 / 32, unit := byteAt l 3 % 32,
    seq := BitVec.ofNat 32 (leAt l 4 4), time := BitVec.ofNat 64 (leAt l 8 8), p0 := BitVec.ofNat 32 (leAt l 16 4),
    p1 := BitVec.ofNat 32 (leAt l 20 4), p2 := BitVec.ofNat 32 (leAt l 24 4), p3 := BitVec.ofNat 32 (leAt l 28 4) }

/-- [R270] an 8 B record: INDEX, EPOCH, PARKED and ERR. -/
def encDbRec (index : BitVec 32) (epoch : BitVec 30) (parked err : Bool) : List Byte :=
  leBytes 4 index.toNat ++ leBytes 4 (epoch.toNat + (if parked then 2 ^ 30 else 0) + (if err then 2 ^ 31 else 0))

/-- [R14 R270] a doorbell or head record from its 8 B; bits [31:30] of the second word are ignored. -/
def decDbRec (l : List Byte) : DbRec := { index := BitVec.ofNat 32 (leAt l 0 4), epoch := BitVec.ofNat 30 (leAt l 4 4) }

/-- [R14 R136] extents from the whole 16 B of a list: address and length. -/
def decExtents (l : List Byte) : List (Nat × Nat) := (List.range (l.length / 16)).map (fun i => (leAt l (16 * i) 8, leAt l (16 * i + 8) 8))

/-- [R120] the status codes. -/
def stSUCCESS := 0x0000
def stACCEPTED := 0x0001
def stALREADY_DONE := 0x0002
def stALREADY_MATCHED := 0x0003
def stINVALID_OPCODE := 0x0010
def stINVALID_FIELD := 0x0011
def stACCESS_DENIED := 0x0012
def stFUNCTION_NOT_ALLOWED := 0x0013
def stFW_RESTARTED := 0x0014
def stBUSY := 0x0015
def stNOT_FOUND := 0x0016
def stWRONG_STATE := 0x0017
def stIN_USE := 0x0018
def stNO_RESOURCES := 0x0019
def stQUOTA_EXCEEDED := 0x001A
def stSEQUENCE_ERROR := 0x001B
def stSTAGING_BUSY := 0x001C
def stWIDTH_ALIGN := 0x0100
def stPORT_OVERLAP := 0x0101
def stNOT_QUIESCED := 0x0102
def stROLE_RATE_CONFLICT := 0x0103
def stROLE_WIDTH_CONFLICT := 0x0104
def stLEGACY_PARTNER := 0x0105
def stGATE_NOT_ALLOWED := 0x0106
def stNO_TIME_LOCK := 0x0107
def stBIFURCATION_LIMIT := 0x0108
def stMODE_CONFLICT := 0x0109
def stROUTE_MODE_ILLEGAL := 0x010A
def stQUADRANT_LAST_SERVICE := 0x010B
def stHOST_ACTIVE := 0x010C
def stTREES_HOMED := 0x010D
def stNO_REHOME_SPACE := 0x010E
def stTREE_QUADRANT_DOWN := 0x010F
def stLOOPBACK_UNAVAILABLE := 0x0110
def stINVALID_VECTOR := 0x0111
def stEPOCH_STALE := 0x0200
def stADOPT_PENDING := 0x0201
def stADOPT_FT_PAST := 0x0202
def stACCESS_FIXED := 0x0700
def stACCESS_SELF_LOCK := 0x0701
def stVARIANT_MISMATCH := 0x0702
def stTOKEN_INVALID := 0x0703
def stTOKEN_STALE := 0x0704
def stIMAGE_INVALID := 0x0705
def stROLLBACK_REFUSED := 0x0706
def stRELAY_TIMEOUT := 0x0800
def stFLUSHED := 0x1000
def stABORTED := 0x1001
def stMALFORMED := 0x1002
def stSGL_LIMIT := 0x1003
def stHOST_TIMEOUT := 0x1004
def stATOMIC_UNAVAILABLE := 0x1005
def stTARGET_UNAVAILABLE := 0x1006
def stARITH_MISMATCH := 0x1007
def stREMOTE_ACCESS := 0x1008
def stRETRY_EXCEEDED := 0x1009
def stCOLL_MISMATCH := 0x100A
def stCOLL_ROOT := 0x100B
def stTREE_MEMBER_LOST := 0x100C
def stCOLL_ABORTED := 0x100D
def stCOLL_NOT_MEMBER := 0x100E
def stCOLL_STALLED := 0x100F
def stCONTEXT_LOST := 0x1010

end Sys2Proof.Machine
end

