-- ==== Sys2Proof/Machine/Ops.lean ====
section
/-! DEFINITION. The named operations every family shares: access to the parts of the state, identity and addressing, interrupt
causes, event records with their rate limits, and outputs. -/

namespace Sys2Proof.Machine

/-- The answer of a meaning that goes on. -/
abbrev Res := Host.Outcome State Fault Refusal

/-- A meaning whose operand names a resource the device has: go on, else fault (log 2). -/
def guardRes (ok : Bool) (t : State) : Res := if ok then .next t else .fault .noSuchResource

/-- A free value has been drawn: the counter goes on (log 7). -/
def drawn (s : State) : State := { s with free := s.free + 1 }

/-! ### Access to the parts of the state -/

def State.lane (s : State) (l : Nat) : Lane := s.lanes.get l
def State.octet (s : State) (o : Nat) : Octet := s.octets.get o
def State.port (s : State) (p : Nat) : Port := s.ports.get p
def State.quad (s : State) (q : Nat) : Quad := s.quads.get q
def State.hostEp (s : State) (e : Nat) : HostEp := s.eps.get e
def State.fn (s : State) (m : Nat) : Fn := s.fns.get m
def State.inst (s : State) (m : Nat) : Inst := s.insts.get m
def State.master (s : State) (m : Nat) : Master := s.masters.get m

def updLane (s : State) (l : Nat) (f : Lane → Lane) : State := { s with lanes := s.lanes.upd l f }
def updOctet (s : State) (o : Nat) (f : Octet → Octet) : State := { s with octets := s.octets.upd o f }
def updPort (s : State) (p : Nat) (f : Port → Port) : State := { s with ports := s.ports.upd p f }
def updQuad (s : State) (q : Nat) (f : Quad → Quad) : State := { s with quads := s.quads.upd q f }
def updHost (s : State) (e : Nat) (f : HostEp → HostEp) : State := { s with eps := s.eps.upd e f }
def updFn (s : State) (m : Nat) (f : Fn → Fn) : State := { s with fns := s.fns.upd m f }
def updInst (s : State) (m : Nat) (f : Inst → Inst) : State := { s with insts := s.insts.upd m f }
def updMaster (s : State) (m : Nat) (f : Master → Master) : State := { s with masters := s.masters.upd m f }

/-- Append one output to the trace (log 4). -/
def emit (s : State) (o : Out) : State := { s with out := s.out ++ [o] }

/-- Fold an operation over a list of numbers. -/
def foldS (l : List Nat) (s : State) (f : State → Nat → State) : State := l.foldl f s

/-- Insert by an order, and sort by insertion (structural, so that it evaluates). -/
def insertBy {α : Type} (le : α → α → Bool) (a : α) : List α → List α
  | [] => [a]
  | b :: rest => if le a b then a :: b :: rest else b :: insertBy le a rest
def sortBy {α : Type} (le : α → α → Bool) : List α → List α
  | [] => []
  | a :: rest => insertBy le a (sortBy le rest)

/-! ### Identity, quadrants, host ports and functions -/

/-- [R18] the quadrant and octet of a lane. -/
def quadOfLane (l : Nat) : Nat := l / 128
def octetOfLane (l : Nat) : Nat := l / 8

/-- [R72] the quadrant is ACTIVE. -/
def quadActive (s : State) (q : Nat) : Bool := (s.quad q).st == 0

/-- [R23] the quadrant of a host port, and of a host endpoint (host port * 2 + half). -/
def quadOfHost (h : Nat) : Nat := h / 2
def quadOfEp (e : Nat) : Nat := e / 4

/-- [R65] split numbering applies while a host port is PCIE_X8X8. -/
def splitNumbering (s : State) : Bool := (List.range 8).any (fun h => s.hostMode.get h == 1)

/-- [R62] the host endpoint exists: half B only under PCIE_X8X8, and never behind a RETIRED quadrant. -/
def epExists (s : State) (e : Nat) : Bool :=
  decide (e < 16) && (e % 2 == 0 || s.hostMode.get (e / 2) == 1) && (s.quad (quadOfEp e)).st != 2

/-- [R65] the endpoint number of a host endpoint. -/
def endpointOf (s : State) (e : Nat) : Nat := if splitNumbering s then e else e / 2

/-- [R65] the host endpoint an endpoint number names, if a host stands behind it. -/
def epOfEndpoint (s : State) (n : Nat) : Option Nat :=
  let e := if splitNumbering s then n else 2 * n
  if epExists s e && decide (n < 15) then some e else none

/-- [R110] host port and function number of a function's master ID. -/
def hostOfFn (m : Nat) : Nat := (m - 0x100) / 0x80
def numOfFn (m : Nat) : Nat := (m - 0x100) % 0x80

/-- [R63] the half a function belongs to, and its host endpoint. -/
def epOfFn (s : State) (m : Nat) : Nat :=
  2 * hostOfFn m + (if s.hostMode.get (hostOfFn m) == 1 && decide (64 ≤ numOfFn m) then 1 else 0)

/-- [R60 R63] the function exists. -/
def fnExists (s : State) (m : Nat) : Bool :=
  decide (0x100 ≤ m) && decide (m < 0x500) && (s.quad (quadOfHost (hostOfFn m))).st != 2 &&
    (if s.hostMode.get (hostOfFn m) == 1
     then decide (numOfFn m < 34) || (decide (64 ≤ numOfFn m) && decide (numOfFn m < 98))
     else decide (numOfFn m < 66))

/-- [R63] the function is a PF0, a PF1. -/
def isPf0 (s : State) (m : Nat) : Bool := fnExists s m && (numOfFn m == 0 || (s.hostMode.get (hostOfFn m) == 1 && numOfFn m == 64))
def isPf1 (s : State) (m : Nat) : Bool := fnExists s m && (numOfFn m == 1 || (s.hostMode.get (hostOfFn m) == 1 && numOfFn m == 65))
def isVf (s : State) (m : Nat) : Bool := fnExists s m && !isPf0 s m && !isPf1 s m

/-- [R63] the PF0 of a host endpoint, and every function of it. -/
def pf0Of (e : Nat) : Nat := 0x100 + (e / 2) * 0x80 + (e % 2) * 64
def fnsOfEp (s : State) (e : Nat) : List Nat :=
  if epExists s e then
    (List.range (if s.hostMode.get (e / 2) == 1 then 34 else 66)).map (fun k => pf0Of e + k)
  else []

/-- [R97] every instance that has a mailbox and the full STATUS block: PF0s, PF1s, JTAG, the chain and the BMC. -/
def fullInsts (s : State) : List Nat :=
  ((List.range 16).filter (epExists s)).flatMap (fun e => [pf0Of e, pf0Of e + 1]) ++ [0x20, 0x21, 0x22]

/-- Every function of the device. -/
def allFns (s : State) : List Nat := ((List.range 16).filter (epExists s)).flatMap (fnsOfEp s)

/-- [R214] the parts of an FEA. -/
def feaGroup (f : BitVec 24) : Nat := f.toNat / 4096
def feaRouter (f : BitVec 24) : Nat := f.toNat / 16 % 256
def feaEndpoint (f : BitVec 24) : Nat := f.toNat % 16

/-- [R88] the router FEA with an endpoint field; zero bits while none is valid. -/
def routerFea (s : State) (endpoint : Nat) : BitVec 24 :=
  match s.routes.fea with
  | some f => BitVec.ofNat 24 (f.toNat * 16 + endpoint % 16)
  | none => BitVec.ofNat 24 (endpoint % 16)

/-- [R88] the router's FEA with endpoint field 0, as comparisons take it. -/
def myFea (s : State) : BitVec 24 := routerFea s 0

/-! ### Ports and lanes -/

/-- [R50] lanes of a width code, and the lanes of a port. -/
def widthLanes (w : Nat) : Nat := 2 ^ w
def portLanes (s : State) (p : Nat) : List Nat := (List.range (widthLanes (s.port p).width)).map (p + ·)

/-- [R50] the configured port a lane lies in, by its first lane. -/
def portOfLane (s : State) (l : Nat) : Option Nat :=
  ((List.range 8).map (fun i => l / 8 * 8 + i)).find?
    (fun p => (s.port p).exists_ && decide (p ≤ l) && decide (l < p + widthLanes (s.port p).width))

/-- The configured ports, in ascending order. -/
def portsOf (s : State) : List Nat := (s.ports.cells.filter (fun kv => kv.2.exists_)).map (·.1)

/-- [R51] the port is FABRIC, is EDGE_LEGACY, or runs a link at all. -/
def isFabric (s : State) (p : Nat) : Bool := (s.port p).exists_ && (s.port p).role == 0
def isLegacy (s : State) (p : Nat) : Bool := (s.port p).exists_ && (s.port p).role == 1
def runsLink (s : State) (p : Nat) : Bool := isFabric s p || isLegacy s p

/-- [R211] PORT.LINK.PROFILE: 0 none, 1 FULL, 2 LEGACY. -/
def portProfile (s : State) (p : Nat) : Nat := if isFabric s p then 1 else if isLegacy s p then 2 else 0

/-- [R209] DEGRADED: a map is short of the width while the link runs (ACTIVE or DRAIN), until the echo of a restored lane's map has come. -/
def degraded (s : State) (p : Nat) : Bool :=
  let full := 2 ^ widthLanes (s.port p).width - 1
  ((s.port p).link == .active || (s.port p).link == .drain) && ((s.port p).rxMap.toNat != full || (s.port p).txMap.toNat != full || (s.port p).restoring != 0)

/-! ### Interrupts -/

/-- [R91 R460] send an MSI-X message, or hold it pending while masked or while bus-master enable is clear (log 8). -/
def sendMsix (s : State) (f vec : Nat) : State :=
  if (s.fn f).msixFnMask || (s.fn f).msixMask.get vec || !(s.fn f).bme then
    updFn s f (fun x => { x with msixPend := x.msixPend.set vec true })
  else emit s (.msix f vec)

/-- [R90] the causes that are set and not masked. -/
def liveCauses (i : Inst) : BitVec 9 := i.cause &&& ~~~ i.mask

/-- [R90] change an instance's CAUSE or MASK and send vector 0 when the unmasked causes become non-zero. -/
def changeStatus (s : State) (m : Nat) (f : Inst → Inst) : State :=
  let t := updInst s m f
  if liveCauses (s.inst m) = 0 ∧ liveCauses (t.inst m) ≠ 0 ∧ fnExists s m then sendMsix t m 0 else t

/-- [R89] set CAUSE bits of one instance; a VF has AQ_ERR and FW_STATE only. -/
def raiseCause (s : State) (m : Nat) (bits : BitVec 9) : State :=
  changeStatus s m (fun i => { i with cause := i.cause ||| (if isVf s m then bits &&& 0xA else bits) })

/-- [R89] set CAUSE bits in every instance that has them. -/
def raiseAll (s : State) (bits : BitVec 9) : State :=
  (if bits &&& 0xA = 0 then fullInsts s else allFns s ++ [0x20, 0x21, 0x22]).foldl (fun t m => raiseCause t m bits) s

def causeMbDone : BitVec 9 := 0x001
def causeAqErr : BitVec 9 := 0x002
def causeEvent : BitVec 9 := 0x004
def causeFwState : BitVec 9 := 0x008
def causeTime : BitVec 9 := 0x010
def causePort : BitVec 9 := 0x020
def causeThermal : BitVec 9 := 0x040
def causeSelErr : BitVec 9 := 0x080
def causeAccErr : BitVec 9 := 0x100

/-- [R89] set STATUS.DEV.ACC_ERR, which sets CAUSE.ACC_ERR. -/
def setAccErr (s : State) (m : Nat) : State := raiseCause (updInst s m (fun i => { i with accErr := true })) m causeAccErr
/-- [R89] set STATUS.DEV.SEL_ERR, which sets CAUSE.SEL_ERR. -/
def setSelErr (s : State) (m : Nat) : State := raiseCause (updInst s m (fun i => { i with selErr := true })) m causeSelErr

/-! ### Event records -/

/-- [R467] CLASS and NUMBER of an event. -/
def Ev.code : Ev → Nat
  | .accessDenied => 0x1001
  | .almanacNotAdopted => 0x1002
  | .cmdDone => 0x1003
  | .configImported => 0x1004
  | .importGradeDiffers => 0x1005
  | .legacyOversize => 0x1006
  | .lifeTempExceeded => 0x1007
  | .logCleared => 0x1008
  | .modeFallback => 0x1009
  | .profileFallback => 0x100A
  | .quadGated => 0x100B
  | .ppsLost => 0x2001
  | .timeLock => 0x2002
  | .timeSlew => 0x2003
  | .timeSourceChange => 0x2004
  | .timeStep => 0x2005
  | .timeUnlock => 0x2006
  | .laneLockLost => 0x3001
  | .laneNoLock => 0x3002
  | .laneRetrainFail => 0x3003
  | .laneWakeFail => 0x3004
  | .octetPllUnlock => 0x3005
  | .refclkNetLost => 0x3006
  | .creditLoss => 0x4001
  | .laneRestored => 0x4002
  | .laneShed => 0x4003
  | .linkDown => 0x4004
  | .linkFlush => 0x4005
  | .linkInitMismatch => 0x4006
  | .linkPartMismatch => 0x4007
  | .linkReserveClamp => 0x4008
  | .linkUp => 0x4009
  | .replayLimit => 0x400A
  | .noRoute => 0x5001
  | .packetTrace => 0x5002
  | .pkeyViolation => 0x5003
  | .gateClosed => 0x6001
  | .gateHoldover => 0x6002
  | .gateNofit => 0x6003
  | .gateResumed => 0x6004
  | .timeEdge => 0x6005
  | .cqOverflow => 0x7001
  | .noQp => 0x7002
  | .qpResync => 0x7003
  | .queueError => 0x7004
  | .reorderFull => 0x8001
  | .unexpectedFull => 0x8002
  | .collAbort => 0x9001
  | .treeBroken => 0x9002
  | .backingCorrupt => 0xA001
  | .contextLost => 0xA002
  | .hbmRowRepair => 0xA003
  | .hbmUe => 0xA004
  | .onyxNoVictim => 0xA005
  | .chainAddrChanged => 0xB001
  | .chainBreak => 0xB002
  | .chainEnum => 0xB003
  | .chainOrphan => 0xB004
  | .chainTwoHeads => 0xB005
  | .feaAssigned => 0xB006
  | .feaDuplicate => 0xB007
  | .feaStrapRange => 0xB008
  | .groupMemberLost => 0xB009
  | .groupMgrConflict => 0xB00A
  | .groupMgrElected => 0xB00B
  | .groupMgrLost => 0xB00C
  | .groupMgrYield => 0xB00D
  | .isolated => 0xB00E
  | .mgmtDenied => 0xB00F
  | .remoteEvent => 0xB010
  | .snapWorkerMissed => 0xB011
  | .bootFailed => 0xC001
  | .bootImageRejected => 0xC002
  | .bootSrcReserved => 0xC003
  | .fwDown => 0xC004
  | .fwRestart => 0xC005
  | .safeMode => 0xC006
  | .warmAsCold => 0xC007
  | .eventLost => 0xD001
  | .mramRemap => 0xD002
  | .mramSpareLow => 0xD003
  | .powerFail => 0xD004
  | .snapMissed => 0xD005
  | .vigilLost => 0xD006
  | .pstepAckStuck => 0xE001
  | .railOutOfRange => 0xE002
  | .refclkCoreLost => 0xE003
  | .thermalThrottle => 0xE004
  | .thermalTrip => 0xE005
  | .thermalWarn => 0xE006

/-- [R468 R506] the severity of an event whose severity does not depend on its parameters. -/
def Ev.severity : Ev → Nat
  | .packetTrace => 0
  | .remoteEvent => 2
  | .almanacNotAdopted | .importGradeDiffers | .legacyOversize | .lifeTempExceeded | .modeFallback | .profileFallback => 3
  | .timeStep | .laneLockLost | .laneNoLock | .laneWakeFail | .laneShed | .linkFlush => 3
  | .linkInitMismatch | .linkPartMismatch | .linkReserveClamp | .noRoute | .pkeyViolation | .gateHoldover => 3
  | .gateNofit | .timeEdge | .noQp | .reorderFull | .unexpectedFull | .collAbort => 3
  | .hbmRowRepair | .onyxNoVictim | .chainOrphan | .feaStrapRange | .groupMgrLost | .isolated => 3
  | .mgmtDenied | .snapWorkerMissed | .bootSrcReserved | .warmAsCold | .eventLost | .mramRemap => 3
  | .snapMissed | .vigilLost | .pstepAckStuck | .thermalThrottle | .thermalWarn => 3
  | .ppsLost | .timeUnlock | .laneRetrainFail | .octetPllUnlock | .creditLoss | .replayLimit => 4
  | .gateClosed | .cqOverflow | .queueError | .treeBroken | .backingCorrupt | .chainBreak => 4
  | .chainTwoHeads | .feaDuplicate | .groupMemberLost | .groupMgrConflict | .bootImageRejected | .mramSpareLow => 4
  | .railOutOfRange => 4
  | .refclkNetLost | .contextLost | .hbmUe | .bootFailed | .fwDown | .safeMode => 5
  | .powerFail | .refclkCoreLost | .thermalTrip => 5
  | _ => 1

/-- [R465] the UNIT that raises an event (log 10). -/
def Ev.unit : Ev → Nat
  | .legacyOversize | .noRoute | .packetTrace | .pkeyViolation => 0
  | .laneLockLost | .laneNoLock | .laneRetrainFail | .laneWakeFail | .octetPllUnlock | .refclkNetLost => 1
  | .creditLoss | .laneRestored | .laneShed | .linkDown | .linkFlush | .linkInitMismatch => 1
  | .linkPartMismatch | .linkReserveClamp | .linkUp | .replayLimit => 1
  | .almanacNotAdopted | .gateClosed | .gateHoldover | .gateNofit | .gateResumed | .timeEdge => 2
  | .cqOverflow | .queueError => 3
  | .noQp | .qpResync => 4
  | .reorderFull | .unexpectedFull => 5
  | .collAbort | .treeBroken => 6
  | .backingCorrupt | .contextLost | .onyxNoVictim => 7
  | .hbmRowRepair | .hbmUe => 8
  | .ppsLost | .timeLock | .timeSlew | .timeSourceChange | .timeStep | .timeUnlock => 9
  | .accessDenied | .cmdDone | .configImported | .importGradeDiffers | .lifeTempExceeded | .logCleared => 16
  | .modeFallback | .profileFallback | .quadGated | .feaAssigned | .feaDuplicate | .feaStrapRange => 16
  | .groupMemberLost | .groupMgrConflict | .groupMgrElected | .groupMgrLost | .groupMgrYield | .isolated => 16
  | .mgmtDenied | .remoteEvent | .snapWorkerMissed | .fwRestart | .mramRemap | .mramSpareLow => 16
  | .bootFailed | .bootImageRejected | .bootSrcReserved | .safeMode | .warmAsCold => 17
  | .chainAddrChanged | .chainBreak | .chainEnum | .chainOrphan | .chainTwoHeads => 19
  | .eventLost | .snapMissed => 20
  | .pstepAckStuck | .railOutOfRange | .refclkCoreLost | .thermalThrottle | .thermalTrip | .thermalWarn => 21
  | .powerFail | .vigilLost => 22
  | .fwDown => 23

/-- [R468] the severity of a record, from its event and its first two parameters. -/
def severityOf (e : Ev) (p0 p1 : Nat) : Nat :=
  match e with
  | .accessDenied => if 0x001 ≤ p0 ∧ p0 ≤ 0x01F then 4 else 3
  | .linkDown => if p1 ≤ 3 then 4 else 1
  | .fwRestart => if p0 = 0 then 4 else 1
  | _ => e.severity

/-- [R429] the manager a worker follows: of those it hears, the lowest FEA among the configured, else among the elected. -/
def followed (s : State) : Option (BitVec 24) :=
  let ms := s.grp.heard.filter (fun h => !h.candidate)
  let pool := if ms.any (·.configured) then ms.filter (·.configured) else ms
  (sortBy (fun a b => decide (a.fea.toNat ≤ b.fea.toNat)) pool).head?.map (·.fea)

/-- [R426] a management packet of this device: SL3, STAGE 0, the management P_KEY. -/
def mgmtPkt (s : State) (type : Nat) (dest : BitVec 24) (mh : MgmtHdr) (body : List Byte) : Pkt :=
  mkPkt { type := type, sl := 3, rmode := s.routes.active.mode.get 3, pkey := s.boot.mgmtPkey, dest := dest, src := routerFea s 15, intGroup := BitVec.ofNat 12 (feaGroup dest) } (.mgmt mh body)

/-- [R431] a worker sends a record of severity ERROR or higher to the manager it follows, at most 64 in a second. -/
def remoteReport (s : State) (r : EvRec) : State :=
  match if decide (4 ≤ r.sev) && !s.grp.manager && s.routes.fea.isSome then followed s else none with
  | none => s
  | some d =>
    let fresh := decide (s.grp.fwdAt + 1000000000 ≤ s.clk.now) || s.grp.fwdCount == 0
    let s := if fresh then { s with grp := { s.grp with fwdAt := s.clk.now, fwdCount := 0 } } else s
    if s.grp.fwdCount < 64 then
      { s with grp := { s.grp with
          fwdCount := s.grp.fwdCount + 1, mtag := (s.grp.mtag + 1) % 65536,
          tx := s.grp.tx ++ [(none, mgmtPkt s 0x12 (d ||| 0xF) { mtag := s.grp.mtag % 65536 } (encRecord r))] } }
    else count s .device 0 .eventFwdSuppressed

/-- [R469] give a record its RECORD_SEQ as it enters the service-die buffer, which holds 2,048 unflushed records (R470). -/
def enterService (s : State) (r : EvRec) : State :=
  let r' := { r with seq := s.recd.next }
  let t := { s with recd := { s.recd with buf := s.recd.buf ++ [r'], next := s.recd.next + 1 } }
  let t := remoteReport (count t .device 0 .eventRecorded) r'
  if 2048 < t.recd.buf.length then
    count { t with recd := { t.recd with buf := t.recd.buf.drop 1, lost := t.recd.lost + 1 } } .device 0 .eventLost
  else t

/-- [R465 R142] the record of an event: FT where it is valid, Vigil seconds otherwise. -/
def mkRecord (s : State) (e : Ev) (die p0 p1 p2 p3 : Nat) (summary : Bool) : EvRec :=
  { code := BitVec.ofNat 16 e.code, sev := severityOf e p0 p1, keeper := !s.tu.valid, summary := summary, carried := false,
    die := die, unit := e.unit, seq := 0,
    time := if s.tu.valid then s.clk.ft else s.clk.vigil.zeroExtend 64,
    p0 := BitVec.ofNat 32 p0, p1 := BitVec.ofNat 32 p1, p2 := BitVec.ofNat 32 p2, p3 := BitVec.ofNat 32 p3 }

/-- [R470] put a record into its die's buffer: a quadrant's (2,048 records, the oldest overwritten) or the service die's. -/
def place (s : State) (r : EvRec) : State :=
  if r.die < 4 then
    if (s.quad r.die).evBuf.length < 2048 then updQuad s r.die (fun q => { q with evBuf := q.evBuf ++ [r] })
    else count (updQuad s r.die (fun q => { q with evBuf := q.evBuf.drop 1 ++ [r], evLost := q.evLost + 1 })) .quadrant r.die .eventLost
  else enterService s r

/-- Record an event: the record enters its buffer, and a severity of ERROR or higher sets CAUSE.EVENT (R89, R466). -/
def recordEv (s : State) (e : Ev) (die : Nat) (p0 : Nat := 0) (p1 : Nat := 0) (p2 : Nat := 0) (p3 : Nat := 0)
    (summary : Bool := false) : State :=
  let r := mkRecord s e die p0 p1 p2 p3 summary
  let t := place s r
  if 4 ≤ r.sev then raiseAll t causeEvent else t

/-- The service die's DIE code (R465). -/
def svcDie : Nat := 4

/-- The key of an event's rate limit for one object. -/
def limitKey (e : Ev) (obj : Nat) : Nat := e.code * 2 ^ 32 + obj

/-- A rate-limited event: at most one record per object per `period` ns, made by `mk` from the count since the last record. -/
def limited (s : State) (e : Ev) (obj period : Nat) (mk : State → Nat → Bool → State) : State :=
  let l := s.recd.limits.get (limitKey e obj)
  let due := match l.last with
    | none => true
    | some t => decide (t + period ≤ s.clk.now)
  if due then
    mk { s with recd := { s.recd with limits := s.recd.limits.set (limitKey e obj) { last := some s.clk.now, count := 0 } } }
      (l.count + 1) (decide (0 < l.count))
  else
    { s with recd := { s.recd with limits := s.recd.limits.set (limitKey e obj) { l with count := l.count + 1 } } }

/-- One second of model time, in ns. -/
def oneSec : Nat := 1000000000

/-- Signed 32-bit encoding of an integer parameter. -/
def s32 (i : Int) : Nat := (BitVec.ofInt 32 i).toNat

end Sys2Proof.Machine
end

