-- ==== Sys2Proof/Machine/Rights.lean ====
section
/-! DEFINITION. Access tables: which access a target grants, what a denial does, and the accesses of quadrant engines and service-die
agents to HBM regions and MRAM partitions (R38, R110, R112 to R114, R118, R386, R522). -/

namespace Sys2Proof.Machine

/-- [R112] the target carries an access table. -/
def isTarget (t : Nat) : Bool := decide (t ≤ 0xB) || (decide (0x10 ≤ t) && decide (t ≤ 0x4F)) || (decide (0x50 ≤ t) && decide (t ≤ 0x55))

def tgtPORT := 0
def tgtLANE := 1
def tgtOCTET := 2
def tgtHOST := 3
def tgtSHAPER := 4
def tgtCOUNTER := 5
def tgtTIME := 6
def tgtEVENT := 7
def tgtFLASH := 8
def tgtKEY := 9
def tgtSWITCH := 0xA
def tgtDEVICE := 0xB
def tgtEVENT_RING := 0x50
def tgtCONFIG := 0x51
def tgtCALIB := 0x52
def tgtSECURE := 0x53
def tgtLIFE := 0x54
def tgtSPARE := 0x55

/-- [R114] the valid matching entry with the lowest number decides; no match denies. -/
def granted (es : List AccEntry) (m : Nat) (w : Bool) : Bool :=
  match es.find? (fun e => e.valid && (m &&& e.mask) == (e.id &&& e.mask)) with
  | some e => if w then e.write else e.read
  | none => false

def allowed (s : State) (m target : Nat) (w : Bool) : Bool := granted (s.access.get target) m w

/-- [R118 R522] a denial: counted at the target, with its rate-limited event. -/
def denied (s : State) (m target : Nat) : State :=
  limited (count s .target target .accessDenied) .accessDenied target oneSec
    (fun t n more => recordEv t .accessDenied svcDie m target n 0 more)

/-! ### Engines and agents -/

/-- [R110] the master ID of an engine of a quadrant: 0 host engine, 1 transport and remote access, 2 Garnet and Opal, 3 Onyx. -/
def engineMaster (quad eng : Nat) : Nat := 0x010 + quad * 4 + eng
def engHost := 0
def engTransport := 1
def engGarnet := 2
def engOnyx := 3

/-- [R110] the event recorder among the service-die agents 0x001 to 0x00F (which of them it is, the rule leaves open: log 104). -/
def recorderMaster : Nat := 0x001

/-- [R110] Molzu. -/
def molzuMaster : Nat := 0x000

/-- [R483] a write to the partition (0 EVENT_RING, 1 CONFIG, 2 CALIB, 3 SECURE, 4 LIFE, 5 SPARE) can be made. -/
def partOk (s : State) (k : Nat) : Bool := !s.mram.failed.getLsbD k

/-- [R38 R118 R483] an agent of the service die accesses an MRAM partition: a denied access is not performed (which agent it is for each
partition, the rules leave open: log 104). -/
def agentRead (s : State) (m part : Nat) : State := if allowed s m (tgtEVENT_RING + part) false then s else denied s m (tgtEVENT_RING + part)
def agentWrite (s : State) (m part : Nat) (f : State → State) : State :=
  if !allowed s m (tgtEVENT_RING + part) true then denied s m (tgtEVENT_RING + part) else if partOk s part then f s else s

/-- [R112] the target of a region of a stack. -/
def hbmTarget (stack region : Nat) : Nat := 0x10 + stack * 16 + region

/-- [R386] the region of a stack that a queue-pair slot lies in: slots of 48 KiB from the stack's first byte. -/
def slotRegion (s : State) (slot : Nat) : Nat := slot / (if s.ident.h96 then 32768 else 16384)

/-- [R386] the regions of the area a context line lies in, by the line's kind: a queue pair's own slot, the window area, the unexpected
pool, or the tables. -/
def lineRegions (s : State) (l : LineId) : List Nat :=
  match l.kind with
  | 0 => match s.ep.qps.get l.num with
    | some x => [slotRegion s x.slot]
    | none => []
  | 2 => if s.ident.h96 then [8] else [8, 9]
  | 6 => []
  | 8 => if s.ident.h96 then [9] else [10, 11]
  | _ => if s.ident.h96 then [10] else [12]

/-- [R114 R118] the first target that denies a master's access to any of some regions of a stack; where the rules leave open which region
of an area a line lies in, each must grant it (log 104). -/
def deniedAt (s : State) (m stack : Nat) (regions : List Nat) (w : Bool) : Option Nat :=
  (regions.map (hbmTarget stack)).find? (fun t => !allowed s m t w)

end Sys2Proof.Machine
end

