-- ==== Sys2Proof/Machine/Egress.lean ====
section
/-! DEFINITION. Shared operations of the link and egress side: credit returns, CTRL LTBs, wake requests, tokens and buckets,
Almanac windows, and putting a packet into an egress queue (R174, R198, R201, R246 to R261). -/

namespace Sys2Proof.Machine

/-! ### Tokens and buckets -/

/-- [R250] a shaper's tokens at model time `now`, in 1/8000 B: RATE Mbit/s gains RATE of them per ns, capped at BURST. -/
def Shaper.tokensAt (h : Shaper) (now : Nat) : Int :=
  min ((h.burst * 8000 : Nat) : Int) (h.tok + ((h.rate * (now - h.at_) : Nat) : Int))

/-- [R250] a packet of `len` bytes may start. -/
def Shaper.allows (h : Shaper) (now len : Nat) : Bool :=
  h.rate == 0 || decide (((len * 8000 : Nat) : Int) ≤ h.tokensAt now)

/-- [R250] deduct LENGTH, saturating at -16,777,216 B; a disabled shaper keeps no tokens. -/
def Shaper.take (h : Shaper) (now len : Nat) : Shaper :=
  if h.rate = 0 then h
  else { h with tok := max (-16777216 * 8000) (h.tokensAt now - ((len * 8000 : Nat) : Int)), at_ := now }

/-- [R252] set T to zero. -/
def Shaper.zero (h : Shaper) (now : Nat) : Shaper := { h with tok := 0, at_ := now }

/-- [R254] a policer's committed and peak buckets at model time `now`. -/
def Policer.tcAt (c : Policer) (now : Nat) : Nat := min (c.cbs * 8000) (c.tc + c.cir * (now - c.at_))
def Policer.tpAt (c : Policer) (now : Nat) : Nat := min (c.pbs * 8000) (c.tp + c.pir * (now - c.at_))

/-- [R255] both buckets full. -/
def Policer.fill (c : Policer) (now : Nat) : Policer := { c with tc := c.cbs * 8000, tp := c.pbs * 8000, at_ := now }

/-- [R254] meter a packet of `b` bytes whose DP is `dp`: the new DP and the policer after it. -/
def Policer.mark (c : Policer) (now b dp : Nat) : Nat × Policer :=
  if !c.enable then (dp, c)
  else
    let n := b * 8000
    let tc := c.tcAt now
    let tp := c.tpAt now
    if c.aware && decide (2 ≤ dp) then (2, { c with tc := tc, tp := tp, at_ := now })
    else if tp < n then (2, { c with tc := tc, tp := tp, at_ := now })
    else if (c.aware && dp == 1) || decide (tc < n) then (1, { c with tc := tc, tp := tp - n, at_ := now })
    else (0, { c with tc := tc - n, tp := tp - n, at_ := now })

/-! ### Almanac windows -/

/-- [R257] the active bank. -/
def Gate.bank (g : Gate) : AlmBank := if g.active then g.bank1 else g.bank0
/-- [R257] the bank that is not active. -/
def Gate.otherBank (g : Gate) : AlmBank := if g.active then g.bank0 else g.bank1

/-- [R257] CYCLE_NS. -/
def AlmBank.cycle (b : AlmBank) : Nat := (b.entries.map (·.1)).foldl (· + ·) 0

/-- [R257] the index of the entry in force at position `pos` of the cycle, and the position it began at. -/
def entryAt : List (Nat × BitVec 16) → Nat → Nat → Nat → Nat × Nat
  | [], _, i, start => (i, start)
  | (d, _) :: rest, pos, i, start => if pos < start + d ∨ rest = [] then (i, start) else entryAt rest pos (i + 1) (start + d)

/-- [R257] the position in the cycle at fabric time `ft`. -/
def AlmBank.pos (b : AlmBank) (ft : BitVec 64) : Nat := if b.cycle = 0 then 0 else (ft - b.ft).toNat % b.cycle

/-- [R257] the entry in force. -/
def AlmBank.entry (b : AlmBank) (ft : BitVec 64) : Nat := (entryAt b.entries (b.pos ft) 0 0).1

/-- [R257] a VC is gated when its bit is clear in at least one entry. -/
def AlmBank.gated (b : AlmBank) (vc : Nat) : Bool := b.entries.any (fun e => !e.2.getLsbD vc)

/-- [R264] the VCs of a port that are gated now. -/
def Gate.gatedVc (g : Gate) (vc : Nat) : Bool := g.gating && g.bank.gated vc

/-- [R257 R264] the VC is open now. -/
def Gate.openVc (g : Gate) (ft : BitVec 64) (vc : Nat) : Bool :=
  !g.gating || !g.bank.gated vc || (!g.forced && ((g.bank.entries.getD (g.bank.entry ft) (0, 0xFFFF)).2.getLsbD vc))

/-- [R257] length of the run of consecutive entries, from index `i` on and across the wrap, that open the VC. -/
def runOpen (es : List (Nat × BitVec 16)) (vc i : Nat) : Nat → Nat
  | 0 => 0
  | k + 1 =>
    let e := es.getD (i % es.length) (0, 0)
    if e.2.getLsbD vc then e.1 + runOpen es vc (i + 1) k else 0

/-- [R257] length of the run of consecutive entries, from index `i` on and across the wrap, that close the VC. -/
def runClosed (es : List (Nat × BitVec 16)) (vc i : Nat) : Nat → Nat
  | 0 => 0
  | k + 1 =>
    let e := es.getD (i % es.length) (0, 0)
    if e.2.getLsbD vc then 0 else e.1 + runClosed es vc (i + 1) k

/-- [R257] how long the VC's window still lasts from now; 0 while it is closed. -/
def AlmBank.left (b : AlmBank) (ft : BitVec 64) (vc : Nat) : Nat :=
  let pos := b.pos ft
  let e := entryAt b.entries pos 0 0
  if (b.entries.getD e.1 (0, 0)).2.getLsbD vc then
    runOpen b.entries vc e.1 b.entries.length - (pos - e.2)
  else 0

/-- [R257] how long the VC still stays closed from now; 0 while it is open. -/
def AlmBank.closedLeft (b : AlmBank) (ft : BitVec 64) (vc : Nat) : Nat :=
  let pos := b.pos ft
  let e := entryAt b.entries pos 0 0
  runClosed b.entries vc e.1 b.entries.length - (pos - e.2)

/-- [R257 R261] how long until the VC's next window opens, one that is open now not counted. -/
def AlmBank.nextOpen (b : AlmBank) (ft : BitVec 64) (vc : Nat) : Nat :=
  let l := b.left ft vc
  l + b.closedLeft (ft + BitVec.ofNat 64 l) vc

/-- [R257] the VC's windows in one cycle: position and length of each, the one that wraps at the position it begins at. -/
def AlmBank.windows (b : AlmBank) (vc : Nat) : List (Nat × Nat) :=
  let n := b.entries.length
  (List.range n).filterMap (fun i =>
    if (b.entries.getD i (0, 0)).2.getLsbD vc && !(b.entries.getD ((i + n - 1) % n) (0, 0)).2.getLsbD vc then
      some (((b.entries.take i).map (·.1)).foldl (· + ·) 0, runOpen b.entries vc i n)
    else none)

/-- [R260] the VC's longest window. -/
def AlmBank.longest (b : AlmBank) (vc : Nat) : Nat :=
  ((List.range b.entries.length).map (fun i => runOpen b.entries vc i b.entries.length)).foldl max 0

/-- [R161] packet throughput per lane, in units of 100 Mbit/s. -/
def laneRate (rate : Nat) : Nat := match rate with | 0 => 1980 | 1 => 990 | 2 => 495 | _ => 247

/-- The lanes of a map. -/
def mapCount (m : BitVec 8) : Nat := ((List.range 8).filter (fun i => m.getLsbD i)).length

/-- [R194] a port's packet throughput on its transmit map, and on its receive map, in units of 100 Mbit/s. -/
def portRate (s : State) (p : Nat) : Nat := laneRate (s.octet (octetOfLane p)).rate * mapCount (s.port p).txMap
def portRxRate (s : State) (p : Nat) : Nat := laneRate (s.octet (octetOfLane p)).rate * mapCount (s.port p).rxMap

/-- [R259] t_last - t_start for a packet, in ns rounded up. -/
def sendTime (s : State) (p len : Nat) : Nat :=
  if portRate s p = 0 then 0 else ((len + 256) * 80 + portRate s p - 1) / portRate s p

/-! ### Queues, credits and wakes -/

/-- [R210] the VC a packet uses on a port: SL * 4 + STAGE under FULL, the legacy VC under LEGACY. -/
def vcOnPort (s : State) (p : Nat) (h : FabHdr) : Nat :=
  if isLegacy s p then h.sl % 4 * 2 + (if 1 ≤ h.stage then 1 else 0) else vcOf h

/-- [R243] PORT.QDEPTH: credits queued on all VCs. -/
def qdepth (s : State) (p : Nat) : Nat :=
  ((s.port p).vcq.cells.map (fun kv => (kv.2.map (fun q => creditsOf q.pkt)).foldl (· + ·) 0)).foldl (· + ·) 0

/-- [R177] a wake or training request, keeping the better class and the older time. -/
def betterReq (old : Option (Nat × Nat)) (cls now : Nat) : Option (Nat × Nat) :=
  match old with
  | none => some (cls, now)
  | some (c, t) => some (min c cls, t)

/-- Show what a lane's transmitter does. -/
def laneTx (s : State) (l what : Nat) : State := emit s (.laneTx l what)

/-- [R178 R181] what a DIAG lane sends: what it receives under far-end loopback, else the pattern while the generator is on, else its
ordinary codewords (log 93). -/
def diagTx (x : Lane) : Nat := if x.loopback = 3 then 6 else if x.prbsGen then 5 else 2

/-- [R174 R175 R190] what the transmitter of a lane that carries its port's link sends: the idle sequence, nothing, the exit burst, IDLE LTBs
where the transmit map excludes it, else codewords with the port's LTBs. -/
def linkTx (x : Port) (i : Nat) : Nat :=
  match x.txIdle with
  | 1 => 3
  | 2 => 0
  | 3 => 4
  | _ => if (x.link == .active || x.link == .drain) && !x.txMap.getLsbD i then 7 else 2

/-- [R169 R180 R209] what a lane's transmitter sends now. The squelch of LANE_DROP comes before all else; a lane that retrains only in receive,
its link ACTIVE or in DRAIN, goes on transmitting. -/
def laneNow (s : State) (l : Nat) : Nat :=
  let x := s.lane l
  if x.dropping then 0
  else match x.st with
    | .off | .parked | .eidle => 0
    | .train => 1
    | .wake => 4
    | .diag => diagTx x
    | .up => match portOfLane s l with | some p => linkTx (s.port p) (l - p) | none => 2
    | .retrain => match portOfLane s l with
      | some p => if (s.port p).link == .active || (s.port p).link == .drain then linkTx (s.port p) (l - p) else 1
      | none => 1

/-- Show what a lane's transmitter sends now. -/
def showLane (s : State) (l : Nat) : State := laneTx s l (laneNow s l)

/-- [R175 R176] a port that must send: a running idle sequence stops at once and codewords go on; a squelched transmitter asks for a
wake. -/
def requestWake (s : State) (p cls : Nat) : State :=
  if (s.port p).txIdle = 1 then foldS (portLanes s p) (updPort s p (fun x => { x with txIdle := 0 })) showLane
  else updPort s p (fun x => if x.txIdle = 2 then { x with wakeReq := betterReq x.wakeReq cls s.clk.now } else x)

/-- [R177] the wake class of an SL's traffic. -/
def wakeClass (sl : Nat) : Nat := if sl = 3 then 1 else if sl = 1 then 2 else 3

/-- [R203] room for `n` more sequenced LTBs. -/
def replayRoom (s : State) (p n : Nat) : Bool :=
  decide ((s.port p).held.length + (s.port p).txq.length + n ≤ 256 * widthLanes (s.port p).width)

/-- [R190] the positions of a map's lanes, ascending. -/
def mapLanes (m : BitVec 8) : List Nat := (List.range 8).filter (fun i => m.getLsbD i)

/-- [R190] the lane whose slot the next LTB takes: the next of the transmit map in ascending order, then a new round. -/
def slotLane (x : Port) : Nat := ((mapLanes x.txMap).find? (fun i => decide (x.txSlot ≤ i))).getD ((mapLanes x.txMap).headD 0)

/-- [R145 R190] the lane TIME LTBs travel on: the lowest of the transmit map. -/
def lowLane (x : Port) : Nat := (mapLanes x.txMap).headD 0

/-- [R186] the header of an LTB that is not sequenced: LTB_SEQ of the last sequenced one. -/
def plainHdr (x : Port) : LtbTx := { seq := x.nextSeq - 1, ack := x.ackSeq }

/-- [R189 R212] one LTB of 240 payload bytes, in tenths of a bit. -/
def slotBits : Int := 19200

/-- [R190 R203 R212] an LTB leaves, on a named lane or in the next slot; it carries the current ACK_SEQ. -/
def putLtb (s : State) (p : Nat) (lane : Option Nat) (h : LtbTx) (b : LtbBody) : State :=
  let x := s.port p
  let l := lane.getD (slotLane x)
  count (emit (updPort s p (fun y => { y with txSlot := l + 1, slotAcc := y.slotAcc - slotBits })) (.ltb p l { h with ack := x.ackSeq } b)) .port p .ltbTx

/-- [R175] send an LTB; from a squelched transmitter it leaves after the wake, which is asked for in class `cls`. -/
def sendLtb (s : State) (p : Nat) (lane : Option Nat) (cls : Nat) (h : LtbTx) (b : LtbBody) : State :=
  if 2 ≤ (s.port p).txIdle then updPort (requestWake s p cls) p (fun y => { y with txWait := y.txWait ++ [(lane, h, b)] })
  else putLtb (requestWake s p cls) p lane h b

/-- [R186 R201] the returns an LTB takes from those owed, two VCs and 4,095 credits of each at most, and what stays owed. -/
def takeOwed (l : List (Nat × Nat)) : List (Nat × Nat) × List (Nat × Nat) :=
  ((l.take 2).map (fun o => (o.1, min 4095 o.2)),
   ((l.take 2).filter (fun o => decide (4095 < o.2))).map (fun o => (o.1, o.2 - 4095)) ++ l.drop 2)

/-- [R186] the SHARED change one LTB carries. -/
def sharedField (v : Int) : Int := max (-32768) (min 32767 v)

/-- [R187 R201 R203] send a sequenced LTB: it takes the next LTB_SEQ, carries what is owed and is held for replay. -/
def sendSeq (s : State) (p : Nat) (abortEnd : Bool) (startOff : Nat) (b : LtbBody) : State :=
  let x := s.port p
  let o := takeOwed x.owed
  let h : LtbTx := { seq := x.nextSeq, ack := x.ackSeq, abortEnd := abortEnd, startOff := startOff, credits := o.1, shared := sharedField x.owedShared }
  sendLtb (updPort s p (fun y => { y with
    nextSeq := y.nextSeq + 1, held := y.held ++ [{ seq := x.nextSeq, h := h, body := b }], owed := o.2,
    owedShared := y.owedShared - sharedField y.owedShared, heldAt := o.1.foldl (fun t c => t.set c.1 s.clk.now) y.heldAt })) p none 3 h b

/-- [R188] send one CTRL LTB. -/
def sendCtrl (s : State) (p op : Nat) (mask : BitVec 16) : State := sendSeq s p false 0xFF (.ctrl op mask)

/-- [R191 R205] send one DATA LTB: the packets that end in it know its number. -/
def sendData (s : State) (p : Nat) (d : DataLtb) : State :=
  let seq := (s.port p).nextSeq
  updPort (sendSeq s p d.abortEnd d.startOff (.data d.bytes)) p (fun y => { y with leaving := y.leaving.map (fun t =>
    if t.left = 0 then t else { t with left := t.left - 1, lastSeq := if t.left = 1 then seq else t.lastSeq }) })

/-- [R191] send the first `n` DATA LTBs that wait. -/
def sendQueued (s : State) (p : Nat) : Nat → State
  | 0 => s
  | n + 1 =>
    match (s.port p).txq with
    | [] => s
    | d :: rest => sendQueued (sendData (updPort s p (fun y => { y with txq := rest })) p d) p n

/-- [R191] no packet follows: the DATA LTB being filled leaves, the rest of its payload pad. -/
def closeLtb (s : State) (p : Nat) : State := sendQueued (updPort s p (fun y => { y with txFill := 0 })) p (s.port p).txq.length

/-- [R201] CTRL CREDIT LTBs until nothing is owed or the replay buffer is full. -/
def creditLtbs (s : State) (p : Nat) : Nat → State
  | 0 => s
  | n + 1 =>
    if (!(s.port p).owed.isEmpty || (s.port p).owedShared != 0) && replayRoom s p 1 then creditLtbs (sendCtrl s p 0 0) p n else s

/-- [R201] send owed credits, unless a DATA LTB still to be sent will carry them. -/
def sendCredits (s : State) (p : Nat) : State :=
  let x := s.port p
  if (x.link == .active || x.link == .drain) && (!x.owed.isEmpty || x.owedShared != 0) && x.leaving.all (·.departed) && x.txq.isEmpty then
    if 2 ≤ x.txIdle then requestWake s p 3 else creditLtbs s p 300
  else s

/-- Add credits to return for a VC, keeping the order in which VCs became pending (R201). -/
def oweCredit (l : List (Nat × Nat)) (vc n : Nat) : List (Nat × Nat) :=
  if l.any (fun o => o.1 == vc) then l.map (fun o => if o.1 = vc then (vc, o.2 + n) else o) else l ++ [(vc, n)]

/-- [R29 R198 R201] a packet has left the device's buffers: its space is free; its credits are owed to its arrival port, or return to
the internal port it came by. -/
def freeOrigin (s : State) (o : Origin) : State :=
  if o.credits = 0 then s
  else match o.src with
  | .net p =>
    sendCredits (updPort s p (fun x => { x with heldV := x.heldV.upd o.vc (· - o.credits), owed := oweCredit x.owed o.vc o.credits })) p
  | _ => updQuad s o.vc (fun x => { x with intUsed := x.intUsed - o.credits })

/-- [R194] the packet is still arriving at its arrival port. -/
def stillArriving (s : State) (o : Origin) : Bool :=
  match o.src with
  | .net a => decide (o.no ≠ 0) && o.no == (s.port a).rxNo && (s.port a).rxCur.isSome
  | _ => false

/-- [R256] enqueue a packet for a port: colour admission, then the VC's queue, then a wake of an idle transmitter. -/
def enqueue (s : State) (p : Nat) (q : QPkt) : State :=
  let x := s.port p
  let h := q.pkt.hdr
  let exempt := h.sl == 3 || h.rmode == 3
  if !exempt && h.dp == 1 && decide (x.yellow ≠ 0xFFFF) && decide (x.yellow ≤ qdepth s p) then
    freeOrigin (count s .port p .dpDropYellow) q.orig
  else if !exempt && decide (2 ≤ h.dp) && decide (x.red ≠ 0xFFFF) && decide (x.red ≤ qdepth s p) then
    freeOrigin (count s .port p .dpDropRed) q.orig
  else
    let vc := vcOnPort s p h
    let t := updPort s p (fun y => { y with vcq := y.vcq.upd vc (· ++ [q]) })
    if x.gate.openVc s.clk.ft vc then requestWake t p (wakeClass h.sl) else t

/-! ### The receive pool -/

/-- [R199] VCs of a port's profile. -/
def vcsOf (s : State) (p : Nat) : List Nat := List.range (if isLegacy s p then 8 else 16)

/-- [R199] the partner's shared use. -/
def sharedUse (s : State) (p : Nat) : Nat :=
  let x := s.port p
  ((vcsOf s p).map (fun v => x.heldV.get v - x.resNow.get v)).foldl (· + ·) 0

/-- [R199] the pool credits a port takes: reserves and grant, or what earlier traffic still holds. -/
def portPool (s : State) (p : Nat) : Nat :=
  let x := s.port p
  if x.allotted then ((vcsOf s p).map x.resNow.get).foldl (· + ·) 0 + max x.grant (sharedUse s p)
  else ((vcsOf s p).map x.heldV.get).foldl (· + ·) 0

/-- [R199] unallocated credits of a quadrant's pool, leaving one port's own share out; what packets from internal ports occupy is taken. -/
def poolLeft (s : State) (q except : Nat) : Nat :=
  524288 - (s.quad q).poolUsed - (s.quad q).intUsed - (((portsOf s).filter (fun p => quadOfLane p == q && p != except)).map (portPool s)).foldl (· + ·) 0

/-! ### Links between the dies -/

/-- Sum of a list. -/
def sumL (l : List Nat) : Nat := l.foldl (· + ·) 0

/-- [R21] what queues hold after `n` bytes of them have been sent, the first queues first. -/
def drainList : Nat → List Nat → List Nat
  | _, [] => []
  | n, b :: rest => (b - n) :: drainList (n - b) rest

/-- [R19] bytes a link between two dies carries per ns in each direction: 8.0 Tbit/s, or 256 Gbit/s to the service die (4). -/
def linkRate (a b : Nat) : Nat := if a = 4 ∨ b = 4 then 32 else 1000

/-- [R21] a direction at model time `now`: coherence and service messages that wait get an eighth of it at least, fabric packets all
that those leave. -/
def MeshDir.upTo (m : MeshDir) (rate now : Nat) : MeshDir :=
  let cap := rate * (now - m.at_)
  let cs := sumL m.coh + m.svc
  let f := min (sumL m.fab) (cap - min cs (cap / 8))
  let c := min cs (cap - f)
  { fab := drainList f m.fab, coh := drainList c m.coh, svc := m.svc - (c - sumL m.coh), at_ := now }

/-- The direction from one die to another; 4 is the service die. -/
def meshDir (s : State) (a b : Nat) : MeshDir := (if a = 4 then (s.quad b).svcIn else (s.quad a).mesh.get b).upTo (linkRate a b) s.clk.now
def setMesh (s : State) (a b : Nat) (m : MeshDir) : State :=
  if a = 4 then updQuad s b (fun x => { x with svcIn := m }) else updQuad s a (fun x => { x with mesh := x.mesh.set b m })

/-- Add to one queue of a list. -/
def addAt (l : List Nat) (i n : Nat) : List Nat := l.set i (l.getD i 0 + n)

/-- [R20 R21 R29] a fabric packet crosses from one quadrant to another by their direct link, in its VC's buffers. -/
def cross (s : State) (a b : Nat) (h : FabHdr) : State :=
  if a = b then s
  else
    let m := meshDir s a b
    emit (setMesh s a b { m with fab := addAt m.fab (vcOf h) h.len }) (.meshCross a b)

/-- [R21 R22] a service message of `n` bytes crosses a link. -/
def crossSvc (s : State) (a b n : Nat) : State :=
  if a = b then s
  else
    let m := meshDir s a b
    emit (setMesh s a b { m with svc := m.svc + n }) (.meshCross a b)

/-- [R22] the quadrant whose narrow link a quadrant's service messages use: its own where it has one and is ACTIVE, else Q0's while Q0
is ACTIVE (DESIGN CHOICE for Q1 and Q3, log 21), else Q2's. -/
def svcVia (s : State) (q : Nat) : Nat := if q % 2 = 0 ∧ quadActive s q = true then q else if quadActive s 0 then 0 else 2

/-- [R22] a service message from a quadrant to the service die, and back. -/
def toService (s : State) (q n : Nat) : State := crossSvc (crossSvc s q (svcVia s q) n) (svcVia s q) 4 n
def fromService (s : State) (q n : Nat) : State := crossSvc (crossSvc s 4 (svcVia s q) n) (svcVia s q) q n

/-- [R22] a mailbox command of a function travels to the service die, and its answer back, as service messages of the quadrant of its host port;
the mailboxes of JTAG, the chain and the BMC lie on the service die. -/
def mbToService (s : State) (m n : Nat) : State := if fnExists s m then toService s (quadOfHost (hostOfFn m)) n else s
def mbFromService (s : State) (m n : Nat) : State := if fnExists s m then fromService s (quadOfHost (hostOfFn m)) n else s

/-- [R28 R232] credits queued on the link from one quadrant towards another. -/
def meshCredits (s : State) (a b : Nat) : Nat := if a = b then 0 else (sumL (meshDir s a b).fab + 63) / 64

/-- Throw away every packet queued for a port: the packets and the state without them (R206); no head packet's wait is counted any more
(R267). -/
def takeQueued (s : State) (p : Nat) : List QPkt × State :=
  ((s.port p).vcq.cells.flatMap (·.2), updPort s p (fun x => { x with vcq := { x.vcq with cells := [] }, guardSeen := 0, shapSeen := 0 }))

end Sys2Proof.Machine
end

