-- ==== Sys2Proof/Config.lean ====
section
/-! DEFINITION. The free values: constants without a body that stand for every value the spec leaves open. Nothing in the
model or in a proof can see what they are. Each is applied to the draw counter of the state (or to the operands it depends on),
so that every draw may differ. -/

namespace Sys2Proof.Config

/-- [R231 R307] The values a quadrant's LFSR gives at each advance: the spec fixes neither polynomial nor seed (log 7). -/
opaque lfsr : Nat → BitVec 32

/-- [R172] The receiver coefficients a lane trains from where CALIB holds none for the rate and reach: the preset, which the spec does
not give, in the form of LANE.RX_EQ (log 7). -/
opaque rxPreset : Nat → Nat → BitVec 32

/-- [R130] The bytes of a clear nonce: the spec calls them fresh and says no more (log 7). -/
opaque nonce : Nat → BitVec 128

/-- [R149] The integral gain of the servo: the term that tracks the frequency difference, from the old term and the offset
(log 31). -/
opaque servoIntegral : Int → Int → Int

/-- [R289 R298] the STATUS of a queue error whose cause the spec gives no status (log 7). -/
opaque openStatus : Nat → BitVec 16

/-- [R366 R373] sign and payload of a quiet NaN that MIN, MAX or a NATIVE SUM gives, from the two operands (log 7). -/
opaque nanPayload : Nat → Nat → BitVec 64

/-- [R373] the E4M3 a NATIVE SUM gives when it overflows: the type has no infinity and the rule names no value (log 7). -/
opaque nativeE4m3 : Nat → Nat → BitVec 8

/-- [R311] SRTT and RTTVAR after the first sample, which the rule does not give (log 7). -/
opaque rttFirst : Nat → Nat × Nat

/-- [R386 R388] where Onyx has put a line of a context: the address divided by 32 that EV_HBM_UE names. The spec lays out the
areas of a stack, not which entry a context takes (log 7). -/
opaque lineAddress : Nat → BitVec 32

/-- [R396] the bytes of a queue pair's control block: the rule gives its size and what it holds, not its layout (log 17). -/
opaque controlBlock : Nat → Nat → BitVec 8

/-- [R403] the bytes a coherence message takes on a mesh link, by its number (log 7). -/
opaque cohBytes : Nat → Nat

/-- [R41 R410] what lies at the address a patrol read meets: kind, number and line of a context, or nothing (log 7). -/
opaque patrolContext : Nat → Nat → Option (Nat × Nat × Nat)

/-- [R496 R498] the amperes of a step the device forecasts, from the amount of work that starts or ends (log 7). -/
opaque stepAmps : Nat → Nat → Nat

/-- [R417 R424] VALUE of the REG_RSP that answers a write that was made: the rule gives VALUE for reads and for failures (log 7). -/
opaque regRspValue : Nat → BitVec 32

/-- [R434] the ports of another router that a walk goes on by: the rule visits Local ports and does not say how the manager knows another
router's (log 7). -/
opaque walkPorts : Nat → List Nat

/-- [R101 R459] whether Molzu is in the middle of the command at the head of the queue when it is stopped: mailbox commands of class S are
one command of the model, so their inside is not seen (log 97). -/
opaque molzuExecuting : Nat → Bool

/-- [R140 R145] the quarter of a nanosecond in which a TIME LTB of this device leaves the land (log 7). -/
opaque sendPhase : Nat → BitVec 2

/-- [R140 R153] the quarter of a nanosecond in which an edge of PPS_IN arrives (log 7). -/
opaque ppsPhase : Nat → BitVec 2

/-- [R179] the bits and the errors a PRBS checker has counted since its lock when a command ends that lock (log 7). -/
opaque prbsSince : Nat → Nat × Nat

/-- [R399] the set of a context cache that a line falls in: the rule gives 16 ways and no mapping (log 7). -/
opaque cacheSet : Nat → Nat

end Sys2Proof.Config
end

