-- ==== Sys2Proof/Machine/Opal.lean ====
section
/-! DEFINITION. Opal's arithmetic as pure functions: the floating-point formats, the exact grid, the native sum, minimum and
maximum, block encodings and the root's rounding (R365 to R373). -/

namespace Sys2Proof.Machine

/-- A floating-point format: exponent and mantissa bits, bias, largest finite magnitude, and whether it has infinities. -/
structure Fmt where
  eb : Nat
  mb : Nat
  bias : Nat
  maxFin : Nat
  inf : Bool
  deriving DecidableEq, Repr

/-- [R365] the format of a floating-point DTYPE. -/
def fmtOf (d : Nat) : Fmt :=
  match d with
  | 5 => ⟨5, 10, 15, 0x7BFF, true⟩
  | 6 => ⟨8, 7, 127, 0x7F7F, true⟩
  | 7 => ⟨8, 23, 127, 0x7F7FFFFF, true⟩
  | 8 => ⟨11, 52, 1023, 0x7FEFFFFFFFFFFFFF, true⟩
  | 9 => ⟨4, 3, 7, 0x7E, false⟩
  | _ => ⟨5, 2, 15, 0x7B, true⟩

def Fmt.bits (f : Fmt) : Nat := 1 + f.eb + f.mb

/-- [R365] an integer DTYPE, a signed one. -/
def isIntType (d : Nat) : Bool := decide (1 ≤ d) && decide (d ≤ 4)
def isSigned (d : Nat) : Bool := d == 1 || d == 3
def intBits (d : Nat) : Nat := if d ≤ 2 then 32 else 64

/-- What an encoded floating-point number is. -/
inductive Fp where
  | nan (signalling : Bool)
  | inf (neg : Bool)
  /-- `m` * 2^`e`; `neg` keeps the sign of a zero -/
  | fin (neg : Bool) (m : Nat) (e : Int)
  deriving DecidableEq, Repr

/-- Decode a number of a format. -/
def Fmt.decode (f : Fmt) (x : Nat) : Fp :=
  let neg := (x / 2 ^ (f.eb + f.mb)) % 2 == 1
  let mag := x % 2 ^ (f.eb + f.mb)
  let ex := mag / 2 ^ f.mb
  let man := mag % 2 ^ f.mb
  if f.maxFin < mag then
    if f.inf && man == 0 then .inf neg else .nan (f.inf && decide (man < 2 ^ (f.mb - 1)))
  else if ex = 0 then .fin neg man (1 - (f.bias : Int) - f.mb)
  else .fin neg (man + 2 ^ f.mb) ((ex : Int) - f.bias - f.mb)

/-- `n` / 2^`k`, rounded half to even. -/
def rneShift (n k : Nat) : Nat :=
  let q := n / 2 ^ k
  let r := n % 2 ^ k
  if r * 2 < 2 ^ k ∨ (r * 2 = 2 ^ k ∧ q % 2 = 0) then q else q + 1

/-- The magnitude bits of `n` * 2^`e`, rounded half to even to the format, without a bound. -/
def Fmt.roundMag (f : Fmt) (n : Nat) (e : Int) : Nat :=
  if n = 0 then 0
  else
    let low : Int := 1 - (f.bias : Int) - f.mb
    let u := max low ((Nat.log2 n : Int) + e - f.mb)
    let m := if u ≤ e then n * 2 ^ (e - u).toNat else rneShift n (u - e).toNat
    m + (u - low).toNat * 2 ^ f.mb

/-- Sign bit over a magnitude. -/
def Fmt.pack (f : Fmt) (neg : Bool) (mag : Nat) : Nat := (if neg then 2 ^ (f.eb + f.mb) else 0) + mag

/-- [R369] the canonical quiet NaN of a type: sign clear, quiet bit alone set (PRESUMED, log 15). -/
def Fmt.canonNan (f : Fmt) : Nat :=
  if f.inf then (2 ^ f.eb - 1) * 2 ^ f.mb + 2 ^ (f.mb - 1) else 2 ^ (f.eb + f.mb) - 1

/-- [R366 R373] a quiet NaN whose sign and payload the spec leaves open (a free value of the operands, log 7). -/
def Fmt.freeNan (f : Fmt) (a b : Nat) : Nat :=
  let p := (Config.nanPayload a b).toNat
  if f.inf then f.pack (p % 2 == 1) ((2 ^ f.eb - 1) * 2 ^ f.mb + 2 ^ (f.mb - 1) + p / 2 % 2 ^ (f.mb - 1))
  else f.pack (p % 2 == 1) (2 ^ (f.eb + f.mb) - 1)

/-- [R369] the infinity of a sign, or the largest finite value with OVERFLOW where the type has none. -/
def Fmt.infinity (f : Fmt) (neg : Bool) : Nat × Bool :=
  if f.inf then (f.pack neg ((2 ^ f.eb - 1) * 2 ^ f.mb), false) else (f.pack neg f.maxFin, true)

/-- The signed integer of a magnitude. -/
def signed (neg : Bool) (n : Nat) : Int := if neg then -(n : Int) else n

/-! ### One member's contribution -/

/-- Elements as a contribution: on the grid with special codes, or in the input format. -/
structure Contrib where
  acc : List Int := []
  code : List Nat := []
  raw : List Nat := []
  inexact : Bool := false
  overflow : Bool := false
  deriving DecidableEq, Repr

/-- [R367 R373] the sum is held on the grid: an integer SUM, or an EXACT floating-point SUM. -/
def onGrid (op d : Nat) (native : Bool) : Bool := op == 2 && (isIntType d || !native)

/-- [R367] the grid exponent. -/
def gridOf (d : Nat) (ebase : Int) : Int := if isIntType d then 0 else if d = 8 then ebase else -149

/-- [R368 R371] the bound of an FP64 input and result on its grid. -/
def fp64Bound : Int := 2 ^ 360 - 1

/-- [R367 R368 R369] one element on the grid: I, its special code, INEXACT, OVERFLOW. -/
def toGrid (d : Nat) (ebase : Int) (x : Nat) : Int × Nat × Bool × Bool :=
  if isIntType d then
    ((if isSigned d && decide (2 ^ (intBits d - 1) ≤ x) then (x : Int) - 2 ^ intBits d else x), 0, false, false)
  else match (fmtOf d).decode x with
    | .nan _ => (0, 3, false, false)
    | .inf neg => (0, if neg then 2 else 1, false, false)
    | .fin neg m e =>
      let g := gridOf d ebase
      if g ≤ e then
        let i := m * 2 ^ (e - g).toNat
        if d = 8 ∧ fp64Bound < (i : Int) then (signed neg fp64Bound.toNat, 0, false, true) else (signed neg i, 0, false, false)
      else
        let k := (g - e).toNat
        (signed neg (rneShift m k), 0, decide (m % 2 ^ k ≠ 0), false)

/-- [R368] a member's elements as its contribution. -/
def contribOf (op d : Nat) (native : Bool) (ebase : Int) (xs : List Nat) : Contrib :=
  if onGrid op d native then
    let l := xs.map (toGrid d ebase)
    { acc := l.map (·.1), code := l.map (·.2.1), inexact := l.any (·.2.2.1), overflow := l.any (·.2.2.2) }
  else { raw := xs }

/-! ### Combining -/

/-- [R366] the order MIN and MAX use: −0 below +0. -/
def Fmt.key (f : Fmt) (x : Nat) : Int :=
  let mag := x % 2 ^ (f.eb + f.mb)
  if (x / 2 ^ (f.eb + f.mb)) % 2 = 1 then -(mag : Int) - 1 else mag

def Fp.isNan : Fp → Bool
  | .nan _ => true
  | _ => false

/-- A signalling NaN. -/
def Fp.signals : Fp → Bool
  | .nan s => s
  | _ => false

/-- [R366] minimum (`small`) or maximum of two elements. -/
def minMax (d : Nat) (small : Bool) (a b : Nat) : Nat :=
  if isIntType d then
    let key := fun x => (toGrid d 0 x).1
    if small then (if key b < key a then b else a) else (if key a < key b then b else a)
  else
    let f := fmtOf d
    if (f.decode a).isNan || (f.decode b).isNan then f.freeNan a b
    else if small then (if f.key b < f.key a then b else a) else (if f.key a < f.key b then b else a)

/-- [R373] the native sum of two elements: the result, OVERFLOW, INVALID. A sum of an E4M3 overflow is open (log 7). -/
def nativeAdd (d : Nat) (a b : Nat) : Nat × Bool × Bool :=
  let f := fmtOf d
  match f.decode a, f.decode b with
  | .nan s, y => (f.freeNan a b, false, s || y == .nan true)
  | _, .nan s => (f.freeNan a b, false, s)
  | .inf n, .inf m => if n = m then (a, false, false) else (f.freeNan a b, false, true)
  | .inf _, _ => (a, false, false)
  | _, .inf _ => (b, false, false)
  | .fin n x e, .fin m y g =>
    let lo := min e g
    let t := signed n (x * 2 ^ (e - lo).toNat) + signed m (y * 2 ^ (g - lo).toNat)
    if t = 0 then (f.pack (n && m && x == 0 && y == 0) 0, false, false)
    else
      let mag := f.roundMag t.natAbs lo
      if f.maxFin < mag then
        if f.inf then (f.pack (decide (t < 0)) ((2 ^ f.eb - 1) * 2 ^ f.mb), true, false)
        else ((Config.nativeE4m3 a b).toNat, true, false)
      else (f.pack (decide (t < 0)) mag, false, false)

/-- [R366 R372] the element is a signalling NaN of a floating-point type. -/
def signals (d x : Nat) : Bool := !isIntType d && ((fmtOf d).decode x).signals

/-- [R366] a NaN among MIN's or MAX's inputs gives a quiet one, be it the only input: its quiet form is open (log 7). -/
def quieted (op d x : Nat) : Nat := if (op = 3 ∨ op = 4) ∧ signals d x = true then (fmtOf d).freeNan x x else x

/-- [R369] elements whose special code is not 0 carry I = 0. -/
def unSpecial (acc : List Int) (code : List Nat) : List Int := (acc.zip code).map (fun p => if p.2 = 0 then p.1 else 0)

/-- [R366 R373] combine two raw elements under an operation: the result, OVERFLOW, INVALID. -/
def rawCombine (op d : Nat) (a b : Nat) : Nat × Bool × Bool :=
  match op with
  | 2 => nativeAdd d a b
  | 3 => (minMax d true a b, false, signals d a || signals d b)
  | 4 => (minMax d false a b, false, signals d a || signals d b)
  | 5 => (a &&& b, false, false)
  | 6 => (a ||| b, false, false)
  | 7 => (a ^^^ b, false, false)
  | _ => (b, false, false)

/-- [R369 R374] add a contribution to a block: the block, OVERFLOW, INVALID. -/
def blkAdd (op d : Nat) (native : Bool) (blk : Blk) (c : Contrib) : Blk × Bool × Bool :=
  if !blk.started then
    ({ blk with acc := unSpecial c.acc c.code, code := c.code, raw := c.raw.map (quieted op d), started := true }, false,
     (op == 3 || op == 4) && c.raw.any (signals d))
  else if onGrid op d native then
    let code := (blk.code.zip c.code).map (fun p => p.1 ||| p.2)
    ({ blk with acc := unSpecial ((blk.acc.zip c.acc).map (fun p => p.1 + p.2)) code, code := code }, false, false)
  else
    let l := (blk.raw.zip c.raw).map (fun p => rawCombine op d p.1 p.2)
    ({ blk with raw := l.map (·.1) }, l.any (·.2.1), l.any (·.2.2))

/-! ### The root -/

/-- [R366 R369 R371] one element of the result: bits, OVERFLOW, INVALID. -/
def fromGrid (d : Nat) (ebase : Int) (i : Int) (code : Nat) : Nat × Bool × Bool :=
  if isIntType d then
    let n := intBits d
    let inRange := if isSigned d then decide (-(2 ^ (n - 1) : Int) ≤ i) && decide (i < 2 ^ (n - 1)) else decide (0 ≤ i) && decide (i < 2 ^ n)
    ((i % 2 ^ n).toNat, !inRange, false)
  else
    let f := fmtOf d
    if code = 3 then (f.canonNan, false, true)
    else if code = 1 ∨ code = 2 then let r := f.infinity (code = 2); (r.1, r.2, false)
    else
      let clip := d = 8 ∧ fp64Bound < (i.natAbs : Int)
      let n := if clip then fp64Bound.toNat else i.natAbs
      let mag := f.roundMag n (gridOf d ebase)
      if f.maxFin < mag then (f.pack (decide (i < 0)) f.maxFin, true, false) else (f.pack (decide (i < 0)) mag, decide clip, false)

/-- [R371] the result block in the output format: elements, OVERFLOW, INVALID. -/
def blkResult (op d : Nat) (native : Bool) (ebase : Int) (blk : Blk) : List Nat × Bool × Bool :=
  if onGrid op d native then
    let l := (blk.acc.zip blk.code).map (fun p => fromGrid d ebase p.1 p.2)
    (l.map (·.1), l.any (·.2.1), l.any (·.2.2))
  else (blk.raw, false, false)

/-! ### Block encodings -/

/-- Elements in the input format as bytes, as they lie in host memory (log 16). -/
def rawBytes (d : Nat) (xs : List Nat) (size : Nat) : List Byte := xs.flatMap (fun x => leBytes size x) |>.take (if d = 0 then 0 else xs.length * size)

/-- Elements of `size` bytes each. -/
def rawElems (size : Nat) : Nat → List Byte → List Nat
  | 0, _ => []
  | n + 1, l => leAt l 0 size :: rawElems size n (l.drop size)

/-- The power of two that divides `n`, up to `fuel`. -/
def twos : Nat → Nat → Nat
  | 0, _ => 0
  | k + 1, n => if n % 2 = 0 then twos k (n / 2) + 1 else 0

/-- [R370] the largest SHIFT every element allows; 0 for a block of zeros (log 16). -/
def blkShift (acc : List Int) : Nat :=
  match (acc.filter (fun i => i != 0)).map (fun i => twos 400 i.natAbs) with
  | [] => 0
  | a :: l => l.foldl min a

/-- An integer fits `n` bits, two's complement. -/
def fits (n : Nat) (i : Int) : Bool := decide (-(2 ^ (n - 1) : Int) ≤ i) && decide (i < 2 ^ (n - 1))

/-- [R370] the narrowest encoding that holds the block: 1 P64, 2 P128, 3 P384. -/
def blkEnc (acc : List Int) : Nat :=
  let j := acc.map (fun i => i / 2 ^ blkShift acc)
  if j.all (fits 64) then 1 else if j.all (fits 128) then 2 else 3

def encWidth (enc : Nat) : Nat := match enc with | 1 => 8 | 2 => 16 | _ => 48

/-- [R370] special codes, 2 bits per element, element 0 most significant, padded to 8 B. -/
def codeBytes (code : List Nat) : List Byte :=
  let n := (code.length + 31) / 32 * 8
  let v := code.foldl (fun a c => a * 4 + c % 4) 0
  beBytes n (v * 4 ^ (n * 4 - code.length))

/-- [R370] a block as it travels up. -/
def encBlk (op d : Nat) (native : Bool) (size : Nat) (blk : Blk) : List Byte :=
  if op = 2 ∧ !native then
    let sh := blkShift blk.acc
    let enc := blkEnc blk.acc
    let special := blk.code.any (· != 0)
    beBytes 1 enc ++ beBytes 1 (if special then 1 else 0) ++ beBytes 2 sh ++ beBytes 4 0 ++ (if special then codeBytes blk.code else []) ++
      blk.acc.flatMap (fun i => beBytes (encWidth enc) ((i / 2 ^ sh) % 2 ^ (encWidth enc * 8)).toNat)
  else
    beBytes 8 0 ++ rawBytes d (if onGrid op d native then (blkResult op d native 0 blk).1 else blk.raw) size

/-- [R370] read one block of `n` elements that travelled up: its contribution and the bytes left. A SHIFT below 0 leaves whole steps of the
grid only (log 16). -/
def decBlk (op d : Nat) (native : Bool) (size n : Nat) (l : List Byte) : Contrib × List Byte :=
  let enc := byteAt l 0
  let special := byteAt l 1 % 2 == 1
  let sh := (BitVec.ofNat 16 (beNat ((l.drop 2).take 2))).toInt
  let body := l.drop 8
  if enc = 0 then
    (contribOf op d (native && !isIntType d) 0 (rawElems size n body), body.drop (n * size))
  else
    let cb := (n + 31) / 32 * 8
    let codes := if special then (List.range n).map (fun i => beNat (body.take cb) / 4 ^ (cb * 4 - 1 - i) % 4) else List.replicate n 0
    let body := if special then body.drop cb else body
    let w := encWidth enc
    ({ acc := (List.range n).map (fun i =>
         let v := beNat ((body.drop (i * w)).take w)
         let j : Int := if 2 ^ (w * 8 - 1) ≤ v then (v : Int) - 2 ^ (w * 8) else v
         if 0 ≤ sh then j * 2 ^ sh.toNat else j / 2 ^ (-sh).toNat),
       code := codes }, body.drop (n * w))

end Sys2Proof.Machine
end

