-- ==== Sys2Proof/Machine/PowerOps.lean ====
section
/-! DEFINITION. Power-step signalling: notices, strobes and grants (R496 to R498). -/

namespace Sys2Proof.Machine

/-! ### Power steps -/

/-- The two PSTEP groups: 0 C, 1 S (R496). -/
def getStep (s : State) (g : Nat) : PStep := if g = 0 then s.pstepC else s.pstepS
def updStep (s : State) (g : Nat) (f : PStep → PStep) : State :=
  if g = 0 then { s with pstepC := f s.pstepC } else { s with pstepS := f s.pstepS }

def stepPin (g : Nat) : String := if g = 0 then "PSTEP_C" else "PSTEP_S"
def stbPin (g : Nat) : String := if g = 0 then "PSTEP_C_STB" else "PSTEP_S_STB"

/-- [R496] drive a code and its strobe. -/
def driveCode (s : State) (g c : Nat) : State := emit (emit (emit s (.pin (stepPin g) c)) (.pin (stbPin g) 1)) (.pin (stbPin g) 0)

/-- [R496] the code of a rise in amperes. -/
def riseCode (amps : Nat) : Nat := if amps ≤ 50 then 1 else if amps ≤ 100 then 2 else if amps ≤ 200 then 3 else 4

/-- [R496] the code is one of a rise. -/
def isRise (c : Nat) : Bool := decide (1 ≤ c) && decide (c ≤ 4)

/-- [R497 R505] send a rise notice: a strobe ends any grant, and only a rise of ACK after it counts. -/
def sendRise (s : State) (g c : Nat) : State :=
  let t := updStep s g (fun x => { x with code := c, stbAt := s.clk.now, armLow := x.ack, grant := none, used := false })
  count (driveCode t g c) .device 0 (if g = 0 then .pstepNoticeC else .pstepNoticeS)

/-- [R498] a rise is forecast: it merges with a notice that is pending and ungranted, and waits behind one that is granted. -/
def notifyRise (s : State) (g amps : Nat) : State :=
  if amps = 0 then s
  else
    let x := getStep s g
    let t := updStep s g (fun y => { y with rise := y.rise + amps })
    if isRise x.code && x.grant.isSome then t
    else sendRise t g (max (if isRise x.code then x.code else 0) (riseCode (x.rise + amps)))

/-- [R498] a fall is notified, and delayed for nothing. -/
def notifyFall (s : State) (g amps : Nat) : State :=
  if amps = 0 then s
  else
    let c := if amps ≤ 100 then 5 else 6
    driveCode (updStep s g (fun x => { x with code := c, stbAt := s.clk.now, grant := none })) g c


/-- [R496 R498] the amperes the device forecasts for a step: the spec gives no figures, so they are a free value (log 7). -/
def forecast (s : State) (g amount : Nat) : State := notifyRise (drawn s) g (Config.stepAmps s.free amount)
def forecastFall (s : State) (g amount : Nat) : State := notifyFall (drawn s) g (Config.stepAmps s.free amount)

/-- [R496] amperes a notice of a code covers. -/
def codeAmps (c : Nat) : Nat := match c with | 1 => 50 | 2 => 100 | 3 => 200 | _ => 400

/-- [R497 R498] the notified step is done: code 0 ends it, and what is left of a rise takes the next notice. -/
def endStep (s : State) (g : Nat) : State :=
  let x := getStep s g
  if x.code = 0 ∧ x.rise = 0 then s
  else
    let s := if x.rise = 0 ∨ x.used then s else count s .device 0 .pstepSelfLimited
    let left := x.rise - codeAmps x.code
    let t := driveCode (updStep s g (fun x => { x with code := 0, stbAt := s.clk.now, grant := none, rise := left, used := false })) g 0
    if left = 0 then t else sendRise t g (riseCode left)

end Sys2Proof.Machine
end

