-- ==== Sys2Proof/Machine/Lines.lean ====
section
/-! DEFINITION. The endpoint's tables, and context lines: their homes, the directory, requests of a cache at the home, look-ups, and an
engine's use of a line (R34, R38, R118, R389, R390, R399 to R406). -/

namespace Sys2Proof.Machine

/-! ### Access to the endpoint's tables -/

def getQp (s : State) (q : Nat) : Option Qp := s.ep.qps.get q
def getSrq (s : State) (q : Nat) : Option Srq := s.ep.srqs.get q
def getCq (s : State) (c : Nat) : Option Cq := s.ep.cqs.get c

def updEp (s : State) (f : Endpoint → Endpoint) : State := { s with ep := f s.ep }
def updQp (s : State) (q : Nat) (f : Qp → Qp) : State := updEp s (fun e => { e with qps := e.qps.upd q (Option.map f) })
def updSrq (s : State) (q : Nat) (f : Srq → Srq) : State := updEp s (fun e => { e with srqs := e.srqs.upd q (Option.map f) })
def updCq (s : State) (c : Nat) (f : Cq → Cq) : State := updEp s (fun e => { e with cqs := e.cqs.upd c (Option.map f) })
def updEq (s : State) (c : Nat) (f : Eq → Eq) : State := updEp s (fun e => { e with eqs := e.eqs.upd c (Option.map f) })

/-! ### Lines and their homes -/

/-- The key of a line in the directory: kind, number and line. -/
def lineKey (l : LineId) : Nat := (l.kind * 2 ^ 26 + l.num) * 2 ^ 64 + l.idx
/-- The key of a line in a quadrant's cache. -/
def cacheKey (c : Nat) (l : LineId) : Nat := c * 2 ^ 100 + lineKey l

/-- [R389] the stack that holds the queue map stripe of a number: the number's own, or the next ACTIVE one after it. -/
def stripeHome (s : State) (n : Nat) : Nat := (((List.range 4).map (fun i => (n + i) % 4)).find? (quadActive s)).getD (n % 4)

/-- [R390] the home of a context; none where there is no such context. Kinds: the rows of R388 from 0, then 6 a host line, named by
its host port, 7 the posted receives of an SRQ, 8 the unexpected messages of an SRQ, 9 a queue map entry. -/
def lineHome (s : State) (l : LineId) : Option Nat :=
  match l.kind with
  | 0 => (getQp s l.num).map (·.home)
  | 4 => (getQp s l.num).map (·.strm)
  | 1 =>
    match getSrq s l.num, getCq s l.num with
    | some r, _ => some r.home
    | _, some c => some c.home
    | _, _ => (s.ep.eqs.get l.num).map (·.home)
  | 2 => (s.ep.wins.get l.num).win.map (·.home)
  | 3 => (s.ep.pds.get l.num).map (·.home)
  | 5 => (s.ep.trees.get l.num).map (fun _ => l.num % 4)
  | 6 => if l.num < 8 && s.hostMode.get l.num == 2 then some (quadOfHost l.num) else none
  | 7 | 8 => (getSrq s l.num).map (·.home)
  | 9 => if s.ep.kinds.get l.num = .none then none else some (stripeHome s l.num)
  | _ => none

def getLine (s : State) (c : Nat) (l : LineId) : CLine := s.ep.cache.get (cacheKey c l)
def updLine (s : State) (c : Nat) (l : LineId) (f : CLine → CLine) : State :=
  updEp s (fun e => { e with cache := e.cache.upd (cacheKey c l) f })
def getDir (s : State) (l : LineId) : Dir := s.ep.dir.get (lineKey l)
def updDir (s : State) (l : LineId) (f : Dir → Dir) : State := updEp s (fun e => { e with dir := e.dir.upd (lineKey l) f })

/-- [R319 R400] drop every cached line and directory entry of a context, without write-back. -/
def dropLines (s : State) (kind num : Nat) : State :=
  let hit (k : Nat) : Bool := k / 2 ^ 64 % 2 ^ 36 == kind * 2 ^ 26 + num
  updEp s (fun e => { e with cache := e.cache.eraseIf (fun k _ => hit k), dir := e.dir.eraseIf (fun k _ => hit k) })

/-- A mask of one requester. -/
def bit5 (c : Nat) : BitVec 5 := BitVec.ofNat 5 (2 ^ c)
/-- [R402] the caches of a sharer mask, but for the named ones; the host class holds no copy while the device holds the line (R406). -/
def sharersBut (m : BitVec 5) (except : List Nat) : List Nat :=
  (List.range 4).filter (fun i => m.getLsbD i && !except.contains i)

/-- [R402 R406] the sharer mask when one cache alone holds the line; the host class keeps its bit while the device holds a host line. -/
def Dir.onlyFor (d : Dir) (req : Nat) : BitVec 5 := bit5 req ||| (d.sharers &&& bit5 4)

/-- The line a directory key names. -/
def lineOfKey (k : Nat) : LineId := { kind := k / 2 ^ 64 / 2 ^ 26, num := k / 2 ^ 64 % 2 ^ 26, idx := k % 2 ^ 64 }

/-! ### Messages (R403): numbers in the order the rule lists them -/

def mGET_S := 0
def mGET_M := 1
def mUPGRADE := 2
def mPUT := 3
def mPUT_CLEAN := 4
def mFWD_S := 5
def mFWD_M := 6
def mINV := 7
def mACK := 8
def mPUT_ACK := 9
def mGRANT := 10
def mDATA := 11

/-- [R403] the class of a message: REQ, FWD, RSP, DAT. -/
def cohClass (msg : Nat) : Nat := if msg ≤ 4 then 0 else if msg ≤ 7 then 1 else if msg ≤ 10 then 2 else 3

/-- [R21 R403] send a coherence message; between quadrants it crosses their link in its class's buffers. -/
def cohSend (s : State) (msg src dst : Nat) (l : LineId) (acks : Nat) : State :=
  let t :=
    if src = dst ∨ 4 ≤ dst then s
    else
      let m := meshDir s src dst
      setMesh s src dst { m with coh := addAt m.coh (cohClass msg) (Config.cohBytes msg) }
  emit t (.coh msg src dst l acks)

/-- [R412] send a FWD from a home. -/
def sendFwd (s : State) (home msg dst : Nat) (l : LineId) (acks : Nat) : State :=
  count (cohSend s msg home dst l acks) .quadrant home .cohFwd

/-- [R404] INV to every sharer but the named ones. -/
def invSharers (s : State) (home : Nat) (l : LineId) (who : List Nat) : State :=
  who.foldl (fun s c => sendFwd s home mINV c l 0) s

/-- [R407] recall one line: FWD_M to a cache that owns it, INV to each that shares it; their answers come back to the home. -/
def recallLine (s : State) (home : Nat) (l : LineId) : State :=
  let d := getDir s l
  let own := match d.st with | .e | .m | .o => [d.owner] | _ => []
  let t := own.foldl (fun t c => cohSend (sendFwd t home mFWD_M c l 0) mDATA c home l 0) s
  (sharersBut d.sharers own).foldl (fun t c => cohSend (sendFwd t home mINV c l 0) mACK c home l 0) t

/-- [R407] recall every line of a context that a cache holds, and drop it from the caches and the directory. -/
def recallLines (s : State) (home kind num : Nat) : State :=
  dropLines ((s.ep.dir.cells.filter (fun kv => kv.1 / 2 ^ 64 == kind * 2 ^ 26 + num)).foldl (fun t kv => recallLine t home (lineOfKey kv.1)) s) kind num

/-- [R404] the home's answer to a GET_S. -/
def homeGetS (s : State) (home req : Nat) (l : LineId) : State :=
  let d := getDir s l
  match d.st with
  | .i =>
    let s := count (cohSend s mDATA home req l 0) .quadrant req .ccFromHbm
    updDir s l (fun d => { d with st := .e, owner := req, sharers := d.sharers ||| bit5 req, busy := true, acks := 0 })
  | .s =>
    let s := count (cohSend s mDATA home req l 0) .quadrant req .ccFromHbm
    updDir s l (fun d => { d with sharers := d.sharers ||| bit5 req, busy := true, acks := 0 })
  | _ =>
    let s := count (sendFwd s home mFWD_S d.owner l 0) .quadrant req .ccFromPeer
    updDir s l (fun d => { d with sharers := d.sharers ||| bit5 req, busy := true, acks := 0 })

/-- [R404] the home's answer to a GET_M. -/
def homeGetM (s : State) (home req : Nat) (l : LineId) : State :=
  let d := getDir s l
  let owned := match d.st with
    | .e | .m | .o => d.owner != req
    | _ => false
  let who := sharersBut d.sharers (if owned then [req, d.owner] else [req])
  let s := invSharers s home l who
  let s := if owned then count (sendFwd s home mFWD_M d.owner l who.length) .quadrant req .ccFromPeer
           else count (cohSend s mDATA home req l who.length) .quadrant req .ccFromHbm
  updDir s l (fun d => { d with st := .m, owner := req, sharers := d.onlyFor req, busy := true, acks := who.length })

/-- [R404] the home's answer to an UPGRADE: treated as GET_M where another cache owns the line, or where the requester no longer
shares it. -/
def homeUpgrade (s : State) (home req : Nat) (l : LineId) : State :=
  let d := getDir s l
  let other := match d.st with
    | .e | .m | .o => d.owner != req
    | _ => false
  if other || !d.sharers.getLsbD req then homeGetM s home req l
  else
    let who := sharersBut d.sharers [req]
    let s := cohSend (invSharers s home l who) mGRANT home req l who.length
    updDir s l (fun d => { d with st := .m, owner := req, sharers := d.onlyFor req, busy := true, acks := who.length })

/-- [R404] the state a line has at the home when `req` gives it up. -/
def Dir.without (d : Dir) (req : Nat) : Dir :=
  let m := d.sharers &&& ~~~ bit5 req
  let owns := match d.st with
    | .e | .m | .o => d.owner == req
    | _ => false
  { d with sharers := m, st := if m = 0 then .i else if owns then .s else d.st, owner := if owns then 0 else d.owner }

/-- [R321 R406] what a cache holds of a host line goes to the host. -/
def lineOut (s : State) (c : Nat) (l : LineId) : State :=
  let x := getLine s c l
  if l.kind = 6 ∧ x.dirty = true then emit s (.cxlLine l.num (l.idx * 64) x.data) else s

/-- [R404] the home's answer to a PUT or PUT_CLEAN. -/
def homePut (s : State) (home req : Nat) (l : LineId) : State :=
  let s := lineOut s req l
  cohSend (updDir s l (fun d => (if l.kind = 6 then { d with sharers := d.sharers &&& ~~~ bit5 4 } else d).without req)) mPUT_ACK home req l 0

/-- [R402 R404] a request at the home: it waits while the line is BUSY. -/
def homeServe (s : State) (home : Nat) (k : CohReq) (req : Nat) (l : LineId) : State :=
  if (getDir s l).busy then updDir s l (fun d => { d with wait := d.wait ++ [(k, req)] })
  else match k with
    | .getS => homeGetS s home req l
    | .getM => homeGetM s home req l
    | .upgrade => homeUpgrade s home req l
    | .put | .putClean => homePut s home req l

/-- [R402] the open transaction has ended: the home serves what waits, up to the next request that makes the line BUSY. -/
def homeNext (s : State) (home : Nat) (l : LineId) : Nat → State
  | 0 => s
  | n + 1 =>
    let d := getDir s l
    if d.busy then s
    else match d.wait with
      | [] => s
      | (k, req) :: rest => homeNext (homeServe (updDir s l (fun d => { d with wait := rest })) home k req l) home l n

def endBusy (s : State) (l : LineId) : State :=
  match lineHome s l with
  | none => s
  | some home => homeNext (updDir s l (fun d => { d with busy := false, acks := 0 })) home l ((getDir s l).wait.length)

/-! ### The requester -/

def CohReq.msg : CohReq → Nat
  | .getS => mGET_S
  | .getM => mGET_M
  | .upgrade => mUPGRADE
  | .put => mPUT
  | .putClean => mPUT_CLEAN

/-- [R403] send a REQ of a cache to the home. -/
def sendReq (s : State) (home : Nat) (k : CohReq) (c : Nat) (l : LineId) : State :=
  homeServe (count (cohSend s k.msg c home l 0) .quadrant c .cohReq) home k c l

/-- [R404] the state a cache needs for a request to hit. -/
def CohReq.hit (k : CohReq) (st : Moesi) : Bool :=
  match k, st with
  | .getS, .i => false
  | .getS, _ => true
  | _, .e | _, .m => true
  | _, _ => false

/-- [R399] lines of a quadrant's cache, its ways, and the set of a line: which lines share one, the rule leaves open (log 7). -/
def cacheLines : Nat := 262144
def cacheWays : Nat := 16
def cacheSet (key : Nat) : Nat := Config.cacheSet (key % 2 ^ 100) % (cacheLines / cacheWays)

/-- [R399] a new line in a full set marks the set's least recently used line. -/
def markVictim (s : State) (c : Nat) (keep : LineId) : State :=
  let mine := s.ep.cache.cells.filter (fun kv =>
    decide (kv.1 / 2 ^ 100 = c) && decide (kv.2.st ≠ .i) && cacheSet kv.1 == cacheSet (cacheKey c keep))
  if mine.length ≤ cacheWays then s
  else
    let cand := mine.filter (fun kv => decide (kv.2.phase = 0) && kv.2.req.isNone && decide (kv.1 ≠ cacheKey c keep))
    match cand.foldl (fun (a : Option (Nat × Nat)) kv =>
        match a with
        | none => some (kv.1, kv.2.touched)
        | some (k, t) => if kv.2.touched < t then some (kv.1, kv.2.touched) else some (k, t)) none with
    | none => s
    | some (k, _) => updEp s (fun e => { e with cache := e.cache.upd k (fun x => { x with phase := 1 }) })

/-- [R34 R400 R404] a cache needs a line: a hit, a stall while it is being written back, or a request to the home. -/
def lookup (s : State) (k : CohReq) (c : Nat) (l : LineId) : State :=
  match lineHome s l with
  | none => s
  | some home =>
    let x := getLine s c l
    if x.phase = 2 then
      count (updLine s c l (fun x => { x with req := some k })) .quadrant c .evictStall
    else if x.req.isSome then s
    else if k.hit x.st then
      let s := count s .quadrant c .ccHit
      let s := if x.phase = 1 then count s .quadrant c .evictCancel else s
      updLine s c l (fun x =>
        { x with phase := 0, touched := s.clk.now, st := if k = .getS then x.st else .m, dirty := if k = .getS then x.dirty else true })
    else
      let s := count s .quadrant c .ccMiss
      let s := if x.phase = 1 then count s .quadrant c .evictCancel else s
      let s := updLine s c l (fun x => { x with phase := 0, req := some k, acksDue := 0, acks := 0, answered := false, target := .i })
      sendReq s home k c l

/-- [R34 R38 R118 R405] an engine's use of a context line: refused by the access table of a region it lies in, or looked for in the
quadrant's cache; a line held in S or O is upgraded before it is written. The engine's operation itself goes on in the same command
(log 63). -/
def engineUse (s : State) (quad eng : Nat) (w : Bool) (l : LineId) : Sum State State :=
  match lineHome s l with
  | none => .inr s
  | some home =>
    match deniedAt s (engineMaster quad eng) home (lineRegions s l) w with
    | some t => .inl (denied s (engineMaster quad eng) t)
    | none =>
      let st := (getLine s quad l).st
      .inr (lookup s (if !w then .getS else if st == .s || st == .o then .upgrade else .getM) quad l)

/-- [R34 R38] an engine of a function's quadrant uses a context line. -/
def useLine (s : State) (f eng : Nat) (w : Bool) (kind num : Nat) : Sum State State :=
  engineUse s (quadOfHost (hostOfFn f)) eng w { kind := kind, num := num, idx := 0 }

/-- [R34 R318] an engine reads the header lines of the windows that some elements name. -/
def useWins (s : State) (f eng : Nat) : List Sge → Sum State State
  | [] => .inr s
  | e :: rest =>
    match useLine s f eng false 2 (e.key.toNat / 256) with
    | .inl t => .inl t
    | .inr t => useWins t f eng rest

/-- [R34 R344] Garnet uses an SRQ's posted receives and unexpected messages: the first line of each stands for those a walk examines
(DESIGN CHOICE, log 63). -/
def useStores (s : State) (f srq : Nat) : Sum State State :=
  match useLine s f engGarnet true 7 srq with
  | .inl t => .inl t
  | .inr t => useLine t f engGarnet true 8 srq

end Sys2Proof.Machine
end

