-- ==== Sys2Proof/Machine/Host.lean ====
section
/-! DEFINITION. Shared operations on the host side: DMA, vectors with their holdoff, event-queue and completion-queue entries,
windows and their checks, and putting a transport packet onto the internal port (R286 to R289, R300 to R320). -/

namespace Sys2Proof.Machine

/-- [R158] FT[31:0]. -/
def ft32 (s : State) : BitVec 32 := s.clk.ft.setWidth 32

/-- [R289 R298] a status the spec leaves open: a free value (log 7). -/
def openStatus (s : State) : Nat := (Config.openStatus s.free).toNat

/-! ### DMA and vectors -/

/-- A write into host memory through a function. -/
def dma (s : State) (f addr : Nat) (bytes : List Byte) : State := if bytes.isEmpty then s else emit s (.dmaWrite f addr bytes)

/-- [R462] host reads outstanding of an endpoint. -/
def readOut (s : State) (f addr len q : Nat) : State :=
  updHost (emit s (.dmaRead f addr len q)) (epOfFn s f) (fun h => { h with outstanding := h.outstanding + 1 })

/-- One outstanding host read of an endpoint has returned. -/
def readBack (s : State) (f : Nat) : State := updHost s (epOfFn s f) (fun h => { h with outstanding := h.outstanding - 1 })

/-- [R289] signal a vector: at most one message per holdoff. -/
def signalVec (s : State) (f vec : Nat) : State :=
  if (s.fn f).holdoff.get vec = 0 then updFn (sendMsix s f vec) f (fun x => { x with holdoff := x.holdoff.set vec 1 })
  else updFn s f (fun x => { x with holdoff := x.holdoff.set vec 2 })

/-! ### Event queues -/

/-- [R289] the primary EQ of a function: its lowest-numbered one. -/
def primaryEq (s : State) (f : Nat) : Option (Nat × Eq) :=
  (s.ep.eqs.cells.filterMap (fun kv => kv.2.bind (fun e => if e.fn = f then some (kv.1, e) else none))).head?

/-- [R272] the generation bit, as the value of byte 31 or 63, of entry `i` of a ring of 2^`log2`. -/
def genByte (i : BitVec 32) (log2 : Nat) : Byte := if (i.toNat / 2 ^ log2) % 2 = 0 then 0x80 else 0

/-- [R289] write one entry to the primary EQ of a function, if it has one that writes (EQ_SEQ is the entry's index, log 11). -/
def writeEq (s : State) (f kind status qkind num : Nat) (wqe : BitVec 16) : State :=
  match primaryEq s f with
  | none => s
  | some (n, e) =>
    if e.lost || e.quiesced || (s.fn f).quiesced then s
    else match useLine s f engHost true 1 n with
    | .inl t => t
    | .inr s =>
      let bytes := leBytes 2 kind ++ leBytes 2 status ++ leBytes 4 (qkind * 2 ^ 24 + num % 2 ^ 24) ++ leBytes 2 wqe.toNat ++
        leBytes 2 e.written.toNat ++ leBytes 4 (ft32 s).toNat ++ leBytes 15 0 ++ [genByte e.written e.log2]
      let t := dma s f (e.base + e.written.toNat % 2 ^ e.log2 * 32) bytes
      let t := updEq t n (fun e => { e with written := e.written + 1 })
      count (signalVec t f e.vector) .host (epOfFn s f) .eqWrite

/-! ### Completion queues -/

/-- [R287] a CQ entry without TS and GEN, which are filled in when it is written. -/
def cqEntry (wqe : BitVec 16) (status qpn opcode bytes : Nat) (extra : List Byte) : CqEnt :=
  leBytes 2 wqe.toNat ++ leBytes 2 status ++ leBytes 3 qpn ++ leBytes 1 opcode ++ leBytes 4 bytes ++ leBytes 4 0 ++
    (extra ++ List.replicate 15 0).take 15

/-- [R287] the 32 B written: TS is FT[31:0] at the write. -/
def sealCqe (s : State) (e : CqEnt) (gen : Byte) : List Byte := e.take 12 ++ leBytes 4 (ft32 s).toNat ++ (e.drop 16).take 15 ++ [gen]

/-- [R288] the CQ is full. -/
def Cq.full (c : Cq) : Bool := decide (2 ^ c.log2 ≤ (c.written - c.head).toNat)

/-- [R287 R289] write one entry into the CQ ring; `solicit` signals without the holdoff (R308). -/
def putCqe (s : State) (n : Nat) (c : Cq) (e : CqEnt) (solicit : Bool) : State :=
  let t := dma s c.fn (c.base + c.written.toNat % 2 ^ c.log2 * 32) (sealCqe s e (genByte c.written c.log2))
  let t := updCq t n (fun c =>
    let c := { c with written := c.written + 1 }
    if c.full && c.fullAt.isNone then { c with fullAt := some s.clk.now } else c)
  if solicit then sendMsix t c.fn c.vector else signalVec t c.fn c.vector

/-- [R34 R286 R288] a completion for a CQ, whose context the host engine uses: written, held while the CQ is full, or dropped and counted when it is in ERROR. -/
def cqComplete (s : State) (n : Nat) (e : CqEnt) (solicit : Bool := false) : State :=
  match getCq s n with
  | none => s
  | some c =>
    if c.quiesced || (s.fn c.fn).quiesced || c.mode == 0 then s
    else if c.err then count s .host (epOfFn s c.fn) .cqDrop
    else match useLine s c.fn engHost true 1 n with
    | .inl t => t
    | .inr s =>
    if c.full || !c.waiting.isEmpty then updCq s n (fun c => { c with waiting := c.waiting ++ [e] })
    else putCqe s n c e solicit

/-- [R308 R326] the receive completion of a SOLICIT message. -/
def solicited (e : CqEnt) : Bool := byteAt e 7 == 0x05 && byteAt e 23 % 2 == 1

/-- [R288] write waiting completions while there is room. -/
def cqRelease (s : State) (n : Nat) : Nat → State
  | 0 => s
  | k + 1 =>
    match getCq s n with
    | none => s
    | some c =>
      if c.full || c.err then s
      else match c.waiting with
        | [] => s
        | e :: rest => cqRelease (putCqe (updCq s n (fun c => { c with waiting := rest })) n c e (solicited e)) n k

/-! ### Windows -/

/-- [R136] the window a key names. -/
def winOf (s : State) (key : BitVec 32) : Option Win :=
  let w := s.ep.wins.get (key.toNat / 256)
  if w.gen.toNat = key.toNat % 256 then w.win else none

/-- [R315] length of a window. -/
def Win.len (w : Win) : Nat := (w.extents.map (·.2)).foldl (· + ·) 0

/-- [R315] the host stretches that `n` bytes from offset `o` fall on, split at extent boundaries. -/
def translate : List (Nat × Nat) → Nat → Nat → List (Nat × Nat)
  | [], _, _ => []
  | (a, l) :: rest, o, n =>
    if n = 0 then []
    else if l ≤ o then translate rest (o - l) n
    else (a + o, min n (l - o)) :: translate rest 0 (n - min n (l - o))

/-- [R317] a queue pair reaches the window's domain. -/
def admits (x : Qp) (w : Win) : Bool := w.pd == x.pd || (x.kernel && w.fn == x.fn && w.rights.getLsbD 3)

/-- [R316] steps 1 to 5 for a request at the target; `align` is 1 where step 5 does not apply. -/
def targetCheck (s : State) (x : Qp) (key : BitVec 32) (right o n align : Nat) : Option Win :=
  match winOf s key with
  | none => none
  | some w => if admits x w && w.rights.getLsbD right && decide (o + n ≤ w.len) && decide (o % align = 0) then some w else none

/-- [R318] the local check of one element against a function's domain: the status it gives, 0 when it passes (log 12). -/
def localStatus (s : State) (f pd : Nat) (kernel : Bool) (e : Sge) (right : Nat) : Nat :=
  match winOf s e.key with
  | none => stNOT_FOUND
  | some w =>
    if !(w.pd == pd || (kernel && w.fn == f && w.rights.getLsbD 3)) then (if kernel && w.fn == f then stREMOTE_ACCESS else stNOT_FOUND)
    else if w.rights.getLsbD right && decide (e.off.toNat + e.len ≤ w.len) then stSUCCESS else stREMOTE_ACCESS

def localCheck (s : State) (x : Qp) (e : Sge) (right : Nat) : Nat := localStatus s x.fn x.pd x.kernel e right

/-- The first status that is not SUCCESS among the elements. -/
def localChecks (s : State) (x : Qp) (right : Nat) : List Sge → Nat
  | [] => stSUCCESS
  | e :: rest => if localCheck s x e right = stSUCCESS then localChecks s x right rest else localCheck s x e right

/-- [R276] the sum of the elements' lengths. -/
def sgeLen (l : List Sge) : Nat := (l.map (·.len)).foldl (· + ·) 0

/-- The part of the elements that holds bytes `o` to `o + n - 1` of the operation. -/
def sgeSlice : List Sge → Nat → Nat → List Sge
  | [], _, _ => []
  | e :: rest, o, n =>
    if n = 0 then []
    else if e.len ≤ o then sgeSlice rest (o - e.len) n
    else { e with len := min n (e.len - o), off := e.off + BitVec.ofNat 64 o } :: sgeSlice rest 0 (n - min n (e.len - o))

/-- [R320] a cached translation serves a stretch of a window's domain. -/
def Xlat.serves (c : Xlat) (w : Win) (al : Nat × Nat) : Bool :=
  c.pd == w.pd && decide (c.addr ≤ al.1) && decide (al.1 + al.2 ≤ c.addr + c.len)

/-- [R320] the bus address of a stretch of a window: with ATS on, where its cached translation puts it. -/
def busOf (s : State) (w : Win) (al : Nat × Nat) : Nat :=
  if (s.fn w.fn).ats then
    match (s.fn w.fn).atsCache.find? (fun c => c.serves w al) with
    | some c => c.bus + (al.1 - c.addr)
    | none => al.1
  else al.1

/-- [R315 R320] the host stretches that `n` bytes from offset `o` of a window fall on, with their function. -/
def winHost (s : State) (w : Win) (o n : Nat) : List (Nat × Nat × Nat) := (translate w.extents o n).map (fun al => (w.fn, busOf s w al, al.2))

/-- Host stretches of a list of elements, by function. -/
def sgeHost (s : State) (l : List Sge) : List (Nat × Nat × Nat) :=
  l.flatMap (fun e => match winOf s e.key with
    | none => []
    | some w => winHost s w e.off.toNat e.len)

/-- Write bytes over a list of host stretches. -/
def dmaScatter (s : State) : List (Nat × Nat × Nat) → List Byte → State
  | [], _ => s
  | (f, a, l) :: rest, bytes => dmaScatter (dma s f a (bytes.take l)) rest (bytes.drop l)

/-- Read a list of host stretches for what `d` says; they count as one outstanding read (log 18). -/
def dataRead (s : State) (ep q : Nat) (l : List (Nat × Nat × Nat)) (d : DataRead) : State :=
  let t := l.foldl (fun t fal => emit t (.dmaRead fal.1 fal.2.1 fal.2.2 q)) s
  let t := updHost t ep (fun h => { h with outstanding := h.outstanding + 1 })
  updEp t (fun e => { e with reads := e.reads.upd ep (· ++ [d]) })

/-- [R308 R343] place bytes through a window into host memory. -/
def placeWin (s : State) (w : Win) (o : Nat) (bytes : List Byte) : State :=
  dmaScatter s (winHost s w o bytes.length) bytes

/-! ### ATS -/

/-- [R320] with ATS on, a stretch that has no cached translation in the window's domain. -/
def atsMiss (s : State) (w : Win) (o n : Nat) : Option Nat :=
  if (s.fn w.fn).ats then
    ((translate w.extents o n).find? (fun al => !(s.fn w.fn).atsCache.any (fun c => c.serves w al))).map (·.1)
  else none

/-- [R320] ask for a translation and let `what` wait for it. -/
def atsAsk (s : State) (w : Win) (addr : Nat) (what : AtsWait) : State :=
  updEp (emit s (.atsRequest w.fn addr)) (fun e => { e with ats := e.ats ++ [{ fn := w.fn, addr := addr, pd := w.pd, what := what }] })

/-- [R320] the first element stretch that waits for a translation. -/
def sgesMiss (s : State) : List Sge → Option (Win × Nat)
  | [] => none
  | e :: rest =>
    match winOf s e.key with
    | none => sgesMiss s rest
    | some w => match atsMiss s w e.off.toNat e.len with
      | some a => some (w, a)
      | none => sgesMiss s rest

/-! ### Packets from the transport engine -/

/-- [R224] a packet key matches a table key. -/
def keyMatch (p k : BitVec 16) : Bool := (p &&& 0x7FFF) == (k &&& 0x7FFF) && (p.msb || k.msb)

/-- [R224] a packet key is valid and matches an entry of the table. -/
def keyInTable (t : Tbl (BitVec 16)) (n : Nat) (p : BitVec 16) : Bool :=
  (p &&& 0x7FFF) != 0 && (List.range n).any (fun i => t.get i != 0 && keyMatch p (t.get i))

/-- [R226] a partition failure: counted, with its rate-limited event. -/
def pkeyFail (s : State) (die obj : Nat) (key : BitVec 16) : State :=
  limited s .pkeyViolation obj oneSec (fun t n more => recordEv t .pkeyViolation die obj key.toNat n 0 more)

/-- [R251] the key of the partition shaper of a function and P_KEY index: quadrant * 4096 + n. -/
def shaperKey (f pkIdx : Nat) : Nat :=
  quadOfHost (hostOfFn f) * 4096 + (hostOfFn f % 2) * 2048 + (numOfFn f * 16 + pkIdx) % 2048

/-- [R217 R218] the fabric header of a packet a queue pair sends; RMODE is the active bank's mode of its SL (log 13). -/
def qpHdr (s : State) (x : Qp) (entropy : BitVec 16) : FabHdr :=
  let dest := (x.remote.map (·.2)).getD 0
  { type := 0x01, sl := x.sl, rmode := s.routes.active.mode.get x.sl, pkey := (s.fn x.fn).pkeys.get x.pkIdx,
    dest := dest, src := routerFea s (endpointOf s (epOfFn s x.fn)), intGroup := BitVec.ofNat 12 (feaGroup dest), entropy := entropy }

/-- [R253 R256] a packet passes the partition policer of its function and P_KEY and reaches the endpoint's internal port. -/
def policed (s : State) (ep k : Nat) (p : Pkt) : State :=
  if p.hdr.sl = 3 then updHost s ep (fun y => { y with inject := y.inject ++ [p] })
  else
    let m := (s.ep.policers.get k).mark s.clk.now p.hdr.len 0
    let t := if (s.ep.policers.get k).enable then
        count (updEp s (fun e => { e with policers := e.policers.set k m.2 })) .shaper k
          (if m.1 = 0 then .polGreen else if m.1 = 1 then .polYellow else .polRed)
      else s
    updHost t ep (fun y => { y with inject := y.inject ++ [sealHdr { p with hdr := { p.hdr with dp := m.1 } }] })

/-- [R250 R251] a packet takes its tokens from the partition shaper and goes on. -/
def takeTokens (s : State) (ep k : Nat) (p : Pkt) : State :=
  policed (updEp s (fun e => { e with shapers := e.shapers.upd k (fun h => h.take s.clk.now p.hdr.len) })) ep k p

/-- [R251] the shaper lets a packet of `len` bytes start, and none waits before it. -/
def shaperFree (s : State) (k len : Nat) : Bool := (s.ep.shaped.get k).isEmpty && (s.ep.shapers.get k).allows s.clk.now len

/-- [R251] packets that wait for a partition shaper go on as far as its tokens do. -/
def pumpShaped (s : State) (k : Nat) : Nat → State
  | 0 => s
  | n + 1 =>
    match s.ep.shaped.get k with
    | [] => s
    | (ep, p) :: rest =>
      if (s.ep.shapers.get k).allows s.clk.now p.hdr.len then
        pumpShaped (takeTokens (updEp s (fun e => { e with shaped := e.shaped.set k rest })) ep k p) k n
      else s

/-- [R251] every partition shaper with packets that wait. -/
def pumpShapers (s : State) : State := foldS (s.ep.shaped.cells.map (·.1)) s (fun s k => pumpShaped s k (s.ep.shaped.get k).length)

/-- Packets of a queue pair that wait for tokens, but for those the predicate keeps, are not sent. -/
def dropShaped (s : State) (q : Nat) (drop : BitVec 32 → Bool) : State :=
  updEp s (fun e => { e with shaped := e.shaped.mapCells (fun _ l => l.filter (fun p => match p.2.body with
    | .transport th _ _ => !(th.srcQpn == q && drop th.psn)
    | _ => true)) })

/-- [R225 R251 R267] inject a TRANSPORT packet of queue pair `q`: the partition check, the partition shaper (not for ACKs), where it waits for
tokens behind those that wait already, and the partition policer. A wait is counted once. -/
def inject (s : State) (q : Nat) (x : Qp) (entropy : BitVec 16) (th : TransHdr) (e : Ext) (payload : List Byte) : State :=
  let ep := epOfFn s x.fn
  let key := (s.fn x.fn).pkeys.get x.pkIdx
  if key &&& 0x7FFF = 0 then
    pkeyFail (count s .host ep .pkeyInjectDrop) (quadOfEp ep) x.fn key
  else
    let h := qpHdr s x entropy
    let p := mkPkt h (.transport { th with srcQpn := q, destQpn := (x.remote.map (·.1)).getD 0 } e payload)
    let k := shaperKey x.fn x.pkIdx
    if th.opcode = 8 then policed s ep k p
    else if shaperFree s k p.hdr.len then takeTokens s ep k p
    else
      let t := updEp s (fun e => { e with shaped := e.shaped.upd k (· ++ [(ep, p)]) })
      if x.pend.any (fun y => y.psn == th.psn && y.shapSeen && y.lastAt == y.firstAt) then t else count t .shaper k .shaperWait

/-- [R307] the next value of the path set, and the queue pair with the rotation moved on. -/
def Qp.nextPath (x : Qp) : BitVec 16 := x.paths.getD (x.pathNext % 16) 0

/-- [R305] the SACK bitmap from the receive bitmap: bit 0, the most significant, is PSN + 1. -/
def sackOf (b : BitVec 4096) : BitVec 256 :=
  BitVec.ofNat 256 ((List.range 256).foldl (fun a i => 2 * a + (if b.getLsbD i then 1 else 0)) 0)

/-- [R305] the PSN of an ACK: the last one received without a gap. A receiver that has synchronised on no packet has received none: its NAK
names one far enough below NAK_PSN that neither PSN nor SACK covers a request the sender may have outstanding (DESIGN CHOICE, log 110). -/
def ackPsn (x : Qp) (nakPsn : BitVec 32) : BitVec 32 := if x.synced then x.expPsn - 1 else nakPsn - 4608

/-- [R305 R310] send an ACK, with a NAK code when `code` is not 0. -/
def sendAck (s : State) (q : Nat) (code : Nat) (nakPsn : BitVec 32) (retry : Nat) : State :=
  match getQp s q with
  | none => s
  | some x =>
    let ep := epOfFn s x.fn
    let t := inject s q x x.nextPath { opcode := 8, destQpn := 0, srcQpn := 0, psn := ackPsn x nakPsn, ts := x.ackTs }
      (.ack (sackOf x.bitmap) code (min x.ackQd 255) retry nakPsn) []
    let t := updQp t q (fun x => { x with ackDue := 0, pathNext := (x.pathNext + 1) % 16 })
    let t := count t .host ep .ackTx
    if code = 1 then count t .host ep .rnrTx
    else if code = 3 then count t .host ep .targetUnavailNak
    else t

/-- [R303] send one request packet of a queue pair, with SYN until the first ACK. -/
def sendRequest (s : State) (q : Nat) (th : TransHdr) (e : Ext) (payload : List Byte) (path : Nat) : State :=
  match getQp s q with
  | none => s
  | some x =>
    let t := inject s q x (x.paths.getD path 0) { th with syn := x.syn, ts := ft32 s } e payload
    count t .host (epOfFn s x.fn) .txPkt

end Sys2Proof.Machine
end

