-- ==== Sys2Proof/Machine/Queues.lean ====
section
/-! DEFINITION. Shared operations on rings and queues: parsing and checking entries, fetching, head records, completions, TAG_FIN,
and what entering ERROR does (R272 to R294, R325, R340, R349). -/

namespace Sys2Proof.Machine

/-! ### Rings -/

/-- The function and ring of a send queue or SRQ. -/
def ringOf (s : State) (q : Nat) : Option (Nat × Ring) :=
  match getQp s q with
  | some x => some (x.fn, x.ring)
  | none => (getSrq s q).map (fun r => (r.fn, r.ring))

/-- Whether a queue number names an SRQ. -/
def isSrq (s : State) (q : Nat) : Bool := (getSrq s q).isSome

/-- Change the ring of a send queue or SRQ. -/
def updRing (s : State) (q : Nat) (f : Ring → Ring) : State :=
  updSrq (updQp s q (fun x => { x with ring := f x.ring })) q (fun x => { x with ring := f x.ring })

/-- [R290 R291] the queue is in ERROR; [R460] it is QUIESCED. -/
def queueErr (s : State) (q : Nat) : Bool :=
  (getQp s q).any (fun x => x.st == 2) || (getSrq s q).any (fun x => x.err)
def queueQuiesced (s : State) (q : Nat) : Bool :=
  (getQp s q).any (fun x => x.st == 3) || (getSrq s q).any (fun x => x.quiesced)

/-- [R272] a slot's GEN agrees with its place. -/
def genOk (log2 : Nat) (i : BitVec 32) (slot : List Byte) : Bool :=
  decide (byteAt slot 63 / 128 = (genByte i log2).toNat / 128)

/-- [R275] one element; bit 63 of OFFSET is ignored. -/
def sgeAt (l : List Byte) (i : Nat) : Sge :=
  { key := BitVec.ofNat 32 (leAt l i 4), len := leAt l (i + 4) 4, off := BitVec.ofNat 64 (leAt l (i + 8) 8 % 2 ^ 63) }

/-- [R275] a CHAIN element. -/
def isChain (e : Sge) : Bool := e.key == 0xFFFFFFFF

/-- [R274] the element positions of an entry. -/
def entSges (slots : List (List Byte)) (n : Nat) : List Sge :=
  ((slots.drop 1).flatMap (fun l => [sgeAt l 0, sgeAt l 16, sgeAt l 32, sgeAt l 48])).take n

/-- [R274] the inline bytes of an entry. -/
def entInline (slots : List (List Byte)) (n : Nat) : List Byte := ((slots.drop 1).flatMap (fun l => l.take 63)).take n

/-- [R302 R330 R361] the bytes of the OP area (offset, length) an opcode names. -/
def opFields (op : Nat) : List (Nat × Nat) :=
  match op with
  | 0x01 => [(8, 4), (16, 8)]
  | 0x02 => [(8, 4), (16, 8), (24, 1)]
  | 0x03 => [(8, 4), (16, 8)]
  | 0x05 => [(8, 4), (16, 8), (24, 8)]
  | 0x06 => [(8, 4), (16, 8), (24, 8), (32, 8)]
  | 0x07 => [(8, 4), (16, 8), (24, 16), (40, 16)]
  | 0x08 => [(8, 1), (9, 1), (16, 8)]
  | 0x09 => [(8, 1), (9, 1)]
  | 0x10 => [(8, 2), (12, 4), (16, 8)]
  | 0x20 => [(8, 4), (12, 4), (16, 1), (17, 1), (18, 1), (20, 2), (24, 4)]
  | 0x41 => [(8, 2), (12, 4), (16, 8), (24, 8), (32, 8)]
  | _ => []

/-- [R274] every byte of the OP area that the opcode does not name is zero. -/
def opAreaClean (op : Nat) (slot : List Byte) : Bool :=
  (List.range 55).all (fun i => (opFields op).any (fun f => decide (f.1 ≤ 8 + i) && decide (8 + i < f.1 + f.2)) || byteAt slot (8 + i) == 0)

/-- [R365] element size of a DTYPE and elements per block. -/
def dtypeSize (d : Nat) : Nat := match d with | 1 | 2 | 7 => 4 | 3 | 4 | 8 => 8 | 5 | 6 => 2 | 9 | 10 => 1 | _ => 0
def dtypeBlock (d : Nat) : Nat := match d with | 5 => 128 | 9 | 10 => 256 | _ => 64

/-- [R365] the legal combinations of OP and DTYPE. -/
def opDtypeOk (op d veclen : Nat) : Bool :=
  match op with
  | 0 => d == 0 && veclen == 0
  | 1 | 2 | 3 | 4 => decide (1 ≤ d) && decide (d ≤ 10)
  | 5 | 6 | 7 => decide (1 ≤ d) && decide (d ≤ 4)
  | _ => false

/-- A signed 16-bit field. -/
def s16 (n : Nat) : Int := (BitVec.ofNat 16 n).toInt

/-- [R302 R330 R361 R362] the rules of one opcode's entry. -/
def opEntOk (op : Nat) (slot : List Byte) (inl : Bool) (sges : List Sge) : Bool :=
  match op with
  | 0x01 | 0x04 => true
  | 0x02 => decide (byteAt slot 24 ≤ 15)
  | 0x03 => !inl
  | 0x05 | 0x06 => !inl && decide (sges.length ≤ 1) && sges.all (fun e => e.len == 8 && !isChain e)
  | 0x07 => !inl && decide (sges.length ≤ 1) && sges.all (fun e => e.len == 16 && !isChain e)
  | 0x08 => !inl
  | 0x09 => !inl && decide (byteAt slot 8 ≤ 15) && decide (byteAt slot 9 ≤ 1)
  | 0x10 => decide (leAt slot 12 4 ≠ 0xFFFFFFFF)
  | 0x20 =>
    let cop := byteAt slot 16
    let d := byteAt slot 17
    let fl := byteAt slot 18
    let vec := leAt slot 24 4
    let eb := s16 (leAt slot 20 2)
    let size := vec * dtypeSize d
    let src := if cop == 0 || (cop == 1 && fl / 2 % 2 == 0) then 0 else size
    let fp := cop == 2 && d == 8 && fl % 2 == 0
    !inl && sges.length == 2 && !sges.any (fun e => isChain e) && byteAt slot 11 == 0 && decide (fl ≤ 3) &&
      decide (vec ≤ 268435456) && opDtypeOk cop d vec && (if fp then decide (-1074 ≤ eb) && decide (eb ≤ 663) else decide (eb = 0)) &&
      (sges.map (·.len)).getD 0 0 == src && ((sges.map (·.len)).getD 1 0 == size || (sges.map (·.len)).getD 1 0 == 0)
  | 0x40 => true
  | 0x41 => !inl && decide (sges.length ≤ 1) && !sges.any (fun e => isChain e)
  | _ => false

/-- [R301 R329] the opcodes a queue kind takes. -/
def opKnown (srq garnet : Bool) (op : Nat) : Bool :=
  if srq then op == (if garnet then 0x41 else 0x40)
  else (decide (1 ≤ op) && decide (op ≤ 9)) || (op == 0x10 && garnet) || op == 0x20

/-- [R14 R275 R276] the elements of a list, from its whole 16 B. -/
def decSges (l : List Byte) : List Sge := (List.range (l.length / 16)).map (fun i => sgeAt l (16 * i))

/-- [R275] a list whose only CHAIN element, if any, is its last; a CHAIN's LENGTH and address are legal (log 14). -/
def chainOk : List Sge → Bool
  | [] => true
  | [e] => !isChain e || (decide (1 ≤ e.len) && decide (e.len ≤ 1024) && decide (e.off.toNat % 16 = 0))
  | e :: rest => !isChain e && chainOk rest

/-- [R274 R275] the entry breaks no rule of R273 to R275. -/
def entOk (srq garnet : Bool) (slots : List (List Byte)) : Bool :=
  let s0 := slots.headD []
  let op := byteAt s0 0
  let n := byteAt s0 1
  let fl := byteAt s0 2
  let inl := fl / 4 % 2 == 1
  let cnt := byteAt s0 3
  let il := leAt s0 6 2
  let sges := entSges slots cnt
  let all := entSges slots ((n - 1) * 4)
  decide (1 ≤ n) && decide (n ≤ 8) && decide (fl < 16) && byteAt s0 63 % 128 == 0 && opKnown srq garnet op && opAreaClean op s0 &&
    (if inl then cnt == 0 && decide (il ≤ 441) && n == 1 + (il + 62) / 63 && (slots.drop 1).all (fun l => byteAt l 63 % 128 == 0)
     else il == 0 && decide (cnt ≤ 28) && n == 1 + (cnt + 3) / 4 &&
       (all.drop cnt).all (fun e => e.key == 0 && e.len == 0 && e.off == 0) && chainOk sges) &&
    opEntOk op s0 inl sges

/-- [R273] an entry from its slots; STATUS MALFORMED where a rule is broken. -/
def parseEnt (srq garnet : Bool) (idx : BitVec 32) (slots : List (List Byte)) : Ent :=
  let s0 := slots.headD []
  let fl := byteAt s0 2
  let sges := entSges slots (byteAt s0 3)
  let last := sges.getLast?
  let chained := last.any (fun e => isChain e)
  { idx := idx, nslots := max 1 slots.length, slots := slots, wqe := BitVec.ofNat 16 (leAt s0 4 2), op := byteAt s0 0,
    signal := fl % 2 == 1, fence := fl / 2 % 2 == 1, inline := fl / 4 % 2 == 1, solicit := fl / 8 % 2 == 1,
    sges := if chained then sges.dropLast else sges,
    chain := if chained then last.map (fun e => (e.off.toNat, e.len)) else none,
    hops := 0, elems := sges.length, inlineData := entInline slots (leAt s0 6 2),
    status := if entOk srq garnet slots then stSUCCESS else stMALFORMED }

/-! ### Fetching -/

/-- [R277] slots of fetched entries that have not started: no packet of theirs has been handed over. -/
def Ring.waitingSlots (r : Ring) : Nat := ((r.ents.filter (fun e => decide (e.st ≤ 1) && !e.handed)).map (·.nslots)).foldl (· + ·) 0

/-- [R277] the ring index of the first slot in `partial_`. -/
def Ring.base0 (r : Ring) : BitVec 32 := r.fetch - BitVec.ofNat 32 (r.fetching + r.partial_.length)

/-- [R277] slots to ask for now: up to 32 beyond the last started entry; in ERROR one slot 0 at a time (R290). -/
def Ring.want (r : Ring) (err : Bool) : Nat :=
  if r.stopped then 0
  else if err then (if r.fetching = 0 && r.partial_.isEmpty && r.index != r.fetch && r.held != some r.index then 1 else 0)
  else min (r.index - r.fetch).toNat (32 - (r.waitingSlots + r.fetching + r.partial_.length))

/-- [R277] requests for `n` contiguous slots from index `i`: at most 512 B each, none across the ring's end. -/
def slotReqs (log2 : Nat) : Nat → BitVec 32 → Nat → List (Nat × Nat)
  | 0, _, _ => []
  | k + 1, i, n =>
    if n = 0 then []
    else
      let pos := i.toNat % 2 ^ log2
      let m := min n (min 8 (2 ^ log2 - pos))
      (pos, m) :: slotReqs log2 k (i + BitVec.ofNat 32 m) (n - m)

/-- Slots of a ring that lie in the prefetch buffer, or are on their way into it. -/
def Ring.prefetched (r : Ring) : Nat := r.waitingSlots + r.fetching + r.partial_.length

/-- [R277] slots of a quadrant's prefetch buffer of 8,192 in use. -/
def prefetchUsed (s : State) (quad : Nat) : Nat :=
  let mine (f : Nat) (r : Ring) : Nat := if quadOfHost (hostOfFn f) = quad then r.prefetched else 0
  (s.ep.qps.cells.map (fun kv => kv.2.elim 0 (fun x => mine x.fn x.ring))).foldl (· + ·) 0 +
    (s.ep.srqs.cells.map (fun kv => kv.2.elim 0 (fun x => mine x.fn x.ring))).foldl (· + ·) 0
def prefetchTop : Nat := 8192

/-- [R277] ask for the slots wanted now, as far as the quadrant's prefetch buffer has room. -/
def issueFetch (s : State) (q : Nat) : State :=
  match ringOf s q with
  | none => s
  | some (f, r) =>
    let n := min (r.want (queueErr s q)) (prefetchTop - prefetchUsed s (quadOfHost (hostOfFn f)))
    if n = 0 || queueQuiesced s q then s
    else
      let t := (slotReqs r.log2 32 r.fetch n).foldl (fun t pm => readOut t f (r.base + pm.1 * 64) (pm.2 * 64) q) s
      updRing t q (fun r => { r with fetch := r.fetch + BitVec.ofNat 32 n, fetching := r.fetching + n })

/-- The first slot of a stretch whose GEN disagrees. -/
def badGen (log2 : Nat) (i : BitVec 32) : List (List Byte) → Nat → Option Nat
  | [], _ => none
  | l :: rest, k => if genOk log2 (i + BitVec.ofNat 32 k) l then badGen log2 i rest (k + 1) else some k

/-- [R273] slots the entry at the head of `partial_` takes. -/
def Ring.headSlots (r : Ring) : Nat := max 1 (min 8 (byteAt (r.partial_.headD []) 1 % 16))

/-- [R277 R279] take whole entries out of `partial_`: each joins the fetched entries; a slot whose GEN disagrees starts
SLOT_WAIT. The number of entries taken is counted in the second component. -/
def Ring.assemble (srq garnet : Bool) : Nat → Ring → Ring × Nat
  | 0, r => (r, 0)
  | k + 1, r =>
    if r.partial_.isEmpty || r.slotWait.isSome then (r, 0)
    else if !genOk r.log2 r.base0 (r.partial_.headD []) then ({ r with slotWait := some 0 }, 0)
    else
      let n := r.headSlots
      if r.partial_.length < n then (r, 0)
      else match badGen r.log2 r.base0 (r.partial_.take n) 0 with
        | some b => ({ r with slotWait := some b }, 0)
        | none =>
          let e := parseEnt srq garnet r.base0 (r.partial_.take n)
          let x := Ring.assemble srq garnet k { r with partial_ := r.partial_.drop n, ents := r.ents ++ [e] }
          (x.1, x.2 + 1)

/-- [R290] in ERROR: take slot 0 of each entry the INDEX covers whole; the entry is only there to be flushed. One that INDEX covers in part is
read again when INDEX has moved. -/
def Ring.assembleErr (srq garnet : Bool) : Nat → Ring → Ring
  | 0, r => r
  | k + 1, r =>
    if r.partial_.isEmpty || r.slotWait.isSome || r.fetching != 0 then r
    else if !genOk r.log2 r.base0 (r.partial_.headD []) then { r with slotWait := some 0 }
    else
      let n := r.headSlots
      let i := r.base0
      if (r.index - i).toNat < n then { r with partial_ := [], fetch := i, held := some r.index }
      else
        let e := { parseEnt srq garnet i (r.partial_.take 1) with nslots := n, status := stFLUSHED }
        Ring.assembleErr srq garnet k
          (if r.partial_.length < n then { r with partial_ := [], fetch := i + BitVec.ofNat 32 n, ents := r.ents ++ [e] }
           else { r with partial_ := r.partial_.drop n, ents := r.ents ++ [e] })

/-- [R279] emit the reread of the slot SLOT_WAIT runs for. -/
def rereadSlot (s : State) (q : Nat) : State :=
  match ringOf s q with
  | none => s
  | some (f, r) =>
    match r.slotWait with
    | none => s
    | some k => readOut s f (r.base + (r.base0 + BitVec.ofNat 32 k).toNat % 2 ^ r.log2 * 64) 64 q

/-! ### Head records and completions of send entries -/

/-- [R286] write the head record of a send queue now. -/
def writeHead (s : State) (q : Nat) : State :=
  match getQp s q with
  | none => s
  | some x =>
    let t := dma s x.fn x.headAddr (encDbRec x.ring.head x.ring.epoch x.ring.parkedBit (x.st == 2))
    let t := updRing t q (fun r => { r with headDue := false })
    match getCq s x.sendCq with
    | some c => if c.mode = 0 then signalVec t c.fn c.vector else t
    | none => t

/-- [R286] move the head over the completed prefix; under HEAD and HYBRID the record owes a write. -/
def Ring.advance (ringMode : Bool) : List Ent → Ring → Ring
  | [], r => { r with ents := [] }
  | e :: rest, r =>
    if e.st = 2 then Ring.advance ringMode rest { r with head := r.head + BitVec.ofNat 32 e.nslots, headDue := r.headDue || !ringMode }
    else { r with ents := e :: rest }

/-- [R137 R348] an entry of that WQE_ID (and completion tag) has completed; whether a message had matched it. -/
def Ring.noteDone (r : Ring) (wqe : BitVec 16) (ctag : BitVec 64) (matched : Bool) : Ring :=
  { r with done := ((wqe, ctag, matched) :: r.done).take (2 ^ r.log2) }

/-- [R382] bytes 16 to 30 of a COLLECTIVE completion. -/
def collExtra (id : Nat) (seq : BitVec 32) (flags : Nat) : List Byte := leBytes 4 seq.toNat ++ leBytes 3 id ++ leBytes 1 flags

/-- [R382] bytes 16 to 30 of an entry that ends before its operation gives them: a COLLECTIVE names its collective all the same. -/
def Ent.ownExtra (e : Ent) : List Byte :=
  if e.op = 0x20 then collExtra (leAt (e.slots.headD []) 8 4) (BitVec.ofNat 32 (leAt (e.slots.headD []) 12 4)) 0 else []

/-- Count a status in its host counter. -/
def countStatus (s : State) (ep status : Nat) : State :=
  if status = stMALFORMED then count s .host ep .malformed
  else if status = stSGL_LIMIT then count s .host ep .sglLimit
  else if status = stHOST_TIMEOUT then count s .host ep .hostTimeout
  else s

/-- [R286 R287] report a send-queue status by the mode of the send CQ. -/
def reportSend (s : State) (q : Nat) (x : Qp) (wqe : BitVec 16) (signal : Bool) (op status bytes : Nat) (extra : List Byte) : State :=
  let t := countStatus s (epOfFn s x.fn) status
  match getCq s x.sendCq with
  | none => t
  | some c =>
    if c.mode = 0 then (if status = stSUCCESS then t else writeEq t x.fn 2 status 0 q wqe)
    else if c.mode = 1 || signal || status != stSUCCESS then cqComplete t x.sendCq (cqEntry wqe status q op bytes extra)
    else t

/-- [R286] complete the entry that begins at `idx`, if it is still open, and advance the head. -/
def completeEnt (s : State) (q : Nat) (idx : BitVec 32) (status bytes : Nat) (extra : List Byte := []) : State :=
  match getQp s q with
  | none => s
  | some x =>
    match x.ring.ents.find? (fun e => e.idx == idx && e.st != 2) with
    | none => s
    | some e =>
      let ringMode := (getCq s x.sendCq).any (fun c => c.mode == 1)
      let t := reportSend s q x e.wqe e.signal e.op status bytes (if extra.isEmpty then e.ownExtra else extra)
      updRing t q (fun r =>
        let es := r.ents.map (fun e => if e.idx = idx then { e with st := 2, status := status } else e)
        (Ring.advance ringMode es { r with ents := es }).noteDone e.wqe 0 false)

/-! ### Receive completions -/

/-- [R330] COMPLETION_TAG of a TRECV entry; 0 for a RECV. -/
def Ent.recvTag (e : Ent) : BitVec 64 := if e.op = 0x41 then BitVec.ofNat 64 (leAt (e.slots.headD []) 32 8) else 0

/-- [R301 R287] complete an untagged or tagged receive of an SRQ to its CQ; `matched` where a message had matched it (R348). -/
def completeRecv (s : State) (srq : Nat) (wqe : BitVec 16) (qpn op status bytes : Nat) (extra : List Byte) (solicit : Bool := false)
    (ctag : BitVec 64 := 0) (matched : Bool := false) : State :=
  match getSrq s srq with
  | none => s
  | some r =>
    let t := updRing (countStatus s (epOfFn s r.fn) status) srq (fun y => y.noteDone wqe ctag matched)
    cqComplete t r.cq (cqEntry wqe status qpn op bytes extra) solicit

/-- [R137 R308] an untagged receive that a message on a queue pair has taken completes to the queue pair's CQ. -/
def completeQpRecv (s : State) (x : Qp) (wqe : BitVec 16) (qpn op status bytes : Nat) (extra : List Byte) (solicit : Bool) : State :=
  let t := match x.srq with
    | some srq => if op = 0x05 then updRing s srq (fun y => y.noteDone wqe 0 true) else s
    | none => s
  cqComplete (countStatus t (epOfFn s x.fn) status) x.recvCq (cqEntry wqe status qpn op bytes extra) solicit

/-! ### Garnet's pool and store -/

/-- [R333 R387] store entries and context-list entries an SRQ holds. -/
def Srq.entries (r : Srq) : Nat := r.posted.length + r.unexp.length
def Posted.wild (p : Posted) : Bool := p.rank == 0xFFFFFFFF || p.ignore != 0
def Srq.ctxs (r : Srq) : List Nat := ((r.posted.filter Posted.wild).map (·.ctx) ++ r.unexp.map (·.msg.ctx)).eraseDups

/-- Change an SRQ, keeping the counts of its home quadrant's store and context lists. -/
def updSrqStore (s : State) (q : Nat) (f : Srq → Srq) : State :=
  match getSrq s q with
  | none => s
  | some r =>
    let r' := f r
    let t := updSrq s q f
    updQuad t r.home (fun y =>
      { y with storeUsed := y.storeUsed + r'.entries - r.entries, ctxListUsed := y.ctxListUsed + r'.ctxs.length - r.ctxs.length })

/-- The lowest `n` numbers that are not in a list. -/
def lowestFree (used : List Nat) (n : Nat) : List Nat := ((List.range (used.length + n)).filter (fun i => !used.contains i)).take n

/-- [R344] the chunks of a quadrant's pool that messages hold, unexpected or waiting for release. -/
def usedChunks (s : State) (home : Nat) : List Nat :=
  (s.ep.srqs.cells.flatMap (fun kv => kv.2.elim [] (fun r => if r.home = home then r.unexp.flatMap (·.pool) else []))) ++
    (s.ep.qps.cells.flatMap (fun kv => kv.2.elim [] (fun x =>
      if (x.srq.bind (getSrq s)).any (fun r => r.home == home) then x.waiting.flatMap (·.pool) else [])))

/-- [R344 R401] the chunks given next: the lowest-numbered free ones (DESIGN CHOICE, log 110). -/
def freshChunks (s : State) (home n : Nat) : List Nat := lowestFree (usedChunks s home) n

/-- [R333] the entries of a quadrant's receive store in use. -/
def usedEntries (s : State) (home : Nat) : List Nat :=
  s.ep.srqs.cells.flatMap (fun kv => kv.2.elim [] (fun r => if r.home = home then r.posted.map (·.idx) ++ r.unexp.map (·.idx) else []))

/-- [R333 R401] the entry of a quadrant's receive store given next: the lowest-numbered free one (DESIGN CHOICE, log 110). -/
def freshEntry (s : State) (home : Nat) : Nat := (lowestFree (usedEntries s home) 1).headD 0

/-- [R344] take or free chunks of the unexpected pool of a quadrant, charged to a function. -/
def takeChunks (s : State) (home f n : Nat) : State :=
  updFn (updQuad s home (fun y => { y with chunksUsed := y.chunksUsed + n })) f (fun y => { y with unexpUse := y.unexpUse + n })
def freeChunks (s : State) (home f n : Nat) : State :=
  updFn (updQuad s home (fun y => { y with chunksUsed := y.chunksUsed - n })) f (fun y => { y with unexpUse := y.unexpUse - n })

/-- The endpoint that keeps a host port's reorder store. -/
def reorderEp (ep : Nat) : Nat := ep / 2 * 2

/-- [R340] discard a stream's waiting headers and free their chunks. -/
def dropWaiting (s : State) (q : Nat) : State :=
  match getQp s q with
  | none => s
  | some x =>
    let n := (x.waiting.flatMap (·.pool)).length
    let home := (x.srq.bind (getSrq s)).map (·.home)
    let t := updHost s (reorderEp (epOfFn s x.fn)) (fun h => { h with reorderUsed := h.reorderUsed - x.waiting.length })
    let t := match home with
      | some h => if n = 0 then t else freeChunks t h x.fn n
      | none => t
    updQp t q (fun x => { x with waiting := [] })

/-! ### PSNs and TAG_FIN -/

/-- [R309] PSNs the sender may still use. -/
def Qp.psnRoom (x : Qp) : Nat :=
  match x.pend with
  | [] => 4096
  | p :: _ => 4096 - (x.psn - p.psn).toNat

/-- [R313] payload bytes outstanding. -/
def Qp.outstanding (x : Qp) : Nat := ((x.pend.filter (fun p => !p.acked)).map (·.pay)).foldl (· + ·) 0

/-- [R313] the window in force. -/
def Qp.window (x : Qp) : Nat := if x.sl = 3 then 65536 else x.cwnd

/-- Take the next PSN for a request and remember it. -/
def addPend (s : State) (q : Nat) (p : Pend) : State :=
  updQp s q (fun x => { x with psn := x.psn + 1, pend := x.pend ++ [p], pathNext := (x.pathNext + 1) % 16, shapSeen := false })

/-- [R313 R331 R341] send the TAG_FINs owed, while PSNs last and the bytes outstanding are within W. -/
def pumpFins (s : State) (q : Nat) : Nat → State
  | 0 => s
  | k + 1 =>
    match getQp s q with
    | none => s
    | some x =>
      match x.finOwed with
      | [] => s
      | (m, n, st) :: rest =>
        if x.st != 1 || x.psnRoom == 0 || x.window < x.outstanding then s
        else
          let p : Pend := { psn := x.psn, owner := .fin, shapSeen := x.shapSeen, op := 0x12, off := 0, len := 0, firstAt := s.clk.now, lastAt := s.clk.now,
                            msn := x.msn - 1, path := x.pathNext % 16, fin := some (m.ctx, m.msn, m.tag, n, st) }
          let t := sendRequest s q { opcode := 0x12, destQpn := 0, srcQpn := 0, ackReq := true, last := true, psn := x.psn, msn := x.msn - 1 }
            (.fin m.ctx m.msn m.tag n st) [] (x.pathNext % 16)
          pumpFins (updQp (addPend t q p) q (fun x => { x with finOwed := rest })) q k

/-- [R342 R349] owe a TAG_FIN and send what may leave. -/
def sendFin (s : State) (q : Nat) (m : TagMsg) (bytes status : Nat) : State :=
  pumpFins (updQp s q (fun x => { x with finOwed := x.finOwed ++ [(m, bytes, status)] })) q 4

/-! ### ERROR -/

/-- [R296] EV_QUEUE_ERROR, at most one per function per second. -/
def queueErrorEvent (s : State) (f kind num status : Nat) (wqe : BitVec 16) : State :=
  limited s .queueError f oneSec (fun t n more =>
    recordEv t .queueError (quadOfHost (hostOfFn f)) f (kind * 2 ^ 24 + num) status (wqe.toNat + n * 65536) more)

/-- [R290 R325] complete every open entry of a send queue with FLUSHED, in ring order. -/
def flushEnts (s : State) (q : Nat) (l : List Ent) : State :=
  l.foldl (fun t e => completeEnt t q e.idx stFLUSHED 0) s

/-- [R352] bytes 16 to 30 of a matched receive's CQ entry. -/
def matchExtra (m : TagMsg) (flags : Nat) : List Byte := leBytes 8 m.tag.toNat ++ leBytes 4 m.rank.toNat ++ leBytes 2 m.ctx ++ leBytes 1 flags

/-- [R352] FLAGS of a matched receive. -/
def Matched.flags (m : Matched) (truncated : Bool) : Nat :=
  (if m.buffered then 1 else 0) + (if m.msg.rts.isSome then 2 else 0) + (if truncated then 4 else 0) + (if m.unexp then 8 else 0)

/-- [R352] write the completion of a matched receive. -/
def completeMatched (s : State) (q : Nat) (m : Matched) (status bytes : Nat) (truncated : Bool) : State :=
  match (getQp s q).bind (·.srq) with
  | none => s
  | some srq =>
    completeRecv s srq m.wqe (if status = stFLUSHED then 0 else q) (if m.msg.rts.isSome then 0x11 else 0x10) status bytes
      (matchExtra m.msg (m.flags truncated)) false m.ctag true

/-- [R342 R325] end every rendezvous receive of a queue pair whose read will not finish. -/
def endRdvs (s : State) (q status : Nat) : State :=
  match getQp s q with
  | none => s
  | some x =>
    let t := (x.matched.filter (fun m => m.msg.rts.isSome)).foldl (fun t m => completeMatched t q m status m.placed false) s
    updQp t q (fun x => { x with matched := x.matched.filter (fun m => m.msg.rts.isNone) })

/-- [R291 R349] an SRQ's unstarted entries and posted receives complete with FLUSHED; its unexpected messages are freed or answered. -/
def flushSrq (s : State) (q : Nat) : State :=
  match getSrq s q with
  | none => s
  | some r =>
    let open_ := r.ring.ents.filter (fun e => e.st == 0)
    let t := open_.foldl (fun t e => completeRecv t q e.wqe 0 e.op stFLUSHED 0 [] false e.recvTag) s
    let t := r.recvs.foldl (fun t e => completeRecv t q e.wqe 0 0x40 stFLUSHED 0 []) t
    let t := r.posted.foldl (fun t e => completeRecv t q e.wqe 0 0x41 stFLUSHED 0 [] false e.ctag) t
    let t := freeChunks t r.home r.fn (r.unexp.flatMap (·.pool)).length
    let t := (r.unexp.filter (fun u => u.msg.rts.isSome)).foldl (fun t u =>
      if (getQp t u.msg.qp).any (fun x => x.st == 1) then sendFin t u.msg.qp u.msg 0 stTARGET_UNAVAILABLE else t) t
    let t := updSrqStore t q (fun r => { r with posted := [], unexp := [], recvs := [] })
    updRing t q (fun r => { r with head := r.head + BitVec.ofNat 32 r.waitingSlots, ents := [] })

/-- [R279] SLOT_WAIT starts: the slot is read again. -/
def waitSlot (s : State) (f q : Nat) : State :=
  rereadSlot (count (updRing s q (fun r => { r with waitAt := s.clk.now })) .host (epOfFn s f) .slotWaitHit) q

/-- [R290 R291] a queue in ERROR: the entries that slot 0 has come for are counted as fetched and flushed. -/
def flushPartial (s : State) (q : Nat) : State :=
  match ringOf s q with
  | none => s
  | some (f, r) =>
    let srq := isSrq s q
    let r' := Ring.assembleErr srq ((getQp s q).any (·.garnet) || (getSrq s q).any (·.garnet)) 40 r
    let new := r'.ents.filter (fun e => e.st == 0)
    let t := count (updRing s q (fun _ => r')) .host (epOfFn s f) .wqeFetched new.length
    let t := if r'.slotWait.isSome && r.slotWait.isNone then waitSlot t f q else t
    if srq then flushSrq t q else flushEnts t q new

/-- [R290 R325 R340] what ending a queue pair's work does: outstanding PSNs abandoned, its stream's headers dropped, every open
entry flushed, the rest fetched to be flushed. -/
def drainQp (s : State) (q : Nat) : State :=
  match getQp s q with
  | none => s
  | some x =>
    let t := updQp s q (fun x => { x with pend := [], finOwed := [], rnrPsn := none, ring := { x.ring with slotWait := none } })
    let t := dropWaiting (dropShaped t q (fun _ => true)) q
    let t := endRdvs t q stFLUSHED
    let t := flushEnts t q (x.ring.ents.filter (fun e => e.st != 2))
    issueFetch (flushPartial t q) q

/-- [R290 R325] a queue pair enters ERROR: QUEUE_ERROR, ERR in the head record, its work ended, polling kept up (its collectives
are ended first, see Trees). -/
def errorQp (s : State) (q status : Nat) (wqe : BitVec 16) : State :=
  match getQp s q with
  | none => s
  | some x =>
    if x.st = 2 || x.st = 3 then s
    else
      let t := updQp s q (fun x => { x with st := 2, ring := { x.ring with headDue := true } })
      let t := writeEq t x.fn 1 status 0 q wqe
      drainQp (queueErrorEvent t x.fn 0 q status wqe) q

/-- [R291 R349] an SRQ enters ERROR: SRQ_ERROR, and its work is flushed. -/
def errorSrq (s : State) (q status : Nat) (wqe : BitVec 16) : State :=
  match getSrq s q with
  | none => s
  | some r =>
    if r.err || r.quiesced then s
    else
      let t := updSrq s q (fun r => { r with err := true, ring := { r.ring with slotWait := none } })
      let t := writeEq t r.fn 4 status 1 q wqe
      let t := queueErrorEvent t r.fn 1 q status wqe
      issueFetch (flushPartial (flushSrq t q) q) q

end Sys2Proof.Machine
end

