-- ==== Sys2Proof/Machine/Trees.lean ====
section
/-! DEFINITION. Shared operations on collective trees: edges and their credits, contributions, finished blocks, DOWN packets,
ending a collective, breaking a tree; and entering ERROR with the collectives it ends (R355 to R382). -/

namespace Sys2Proof.Machine

def getTree (s : State) (id : Nat) : Option Tree := s.ep.trees.get id
def updTree (s : State) (id : Nat) (f : Tree → Tree) : State := updEp s (fun e => { e with trees := e.trees.upd id (Option.map f) })
/-- [R31] the quadrant a tree is homed in. -/
def treeQuad (id : Nat) : Nat := id % 4

def Tree.coll (t : Tree) (seq : BitVec 32) : Option Coll := t.colls.find? (fun c => c.seq == seq)
def getColl (s : State) (id : Nat) (seq : BitVec 32) : Option Coll := (getTree s id).bind (fun t => t.coll seq)
def updColl (s : State) (id : Nat) (seq : BitVec 32) (f : Coll → Coll) : State :=
  updTree s id (fun t => { t with colls := t.colls.map (fun c => if c.seq = seq then f c else c) })

/-- [R355] the edge numbers: 0 the parent, 1 + i child i. -/
def Tree.childEdges (t : Tree) : List Nat := (List.range t.children.length).map (· + 1)
def Tree.allEdges (t : Tree) : List Nat := (if t.parent.isSome then [0] else []) ++ t.childEdges
def Tree.edgeTo (t : Tree) (e : Nat) : Option EdgeTo :=
  if e = 0 then t.parent.map EdgeTo.port else t.children[e - 1]?
/-- The network port an edge leads to. -/
def Tree.edgePort (t : Tree) (e : Nat) : Option Nat :=
  match t.edgeTo e with
  | some (.port p) => some p
  | _ => none
/-- The edge a network port or local endpoint is. -/
def Tree.edgeOf (t : Tree) (dest : EdgeTo) : Option Nat := t.allEdges.find? (fun e => t.edgeTo e == some dest)

def Tree.edge (t : Tree) (e : Nat) : Edge := (t.edges.get e).getD { dest := .port 0 }
def updEdge (s : State) (id e : Nat) (f : Edge → Edge) : State :=
  updTree s id (fun t => { t with edges := t.edges.set e (some (f { t.edge e with dest := (t.edgeTo e).getD (.port 0) })) })

/-- [R365] blocks of a collective; one of no elements stands for a collective without data. -/
def blocksOf (d vec : Nat) : Nat := max 1 ((vec + dtypeBlock d - 1) / dtypeBlock d)
/-- Elements of one block. -/
def blockElems (d vec b : Nat) : Nat := min (dtypeBlock d) (vec - b * dtypeBlock d)

/-- [R364] put a packet of the tree into the collective port's queue for a network port. -/
def sendTree (s : State) (id : Nat) (t : Tree) (p : Nat) (c : CollHdr) (payload : List Byte) : State :=
  let dest := BitVec.ofNat 24 ((s.port p).partner.fea.toNat / 16 * 16 + 14)
  let h : FabHdr := { type := 0x08, sl := t.sl, rmode := 3, pkey := t.pkey, dest := dest, src := routerFea s 14,
                      intGroup := BitVec.ofNat 12 (feaGroup dest), treeId := BitVec.ofNat 24 id }
  updEp s (fun e => { e with collTx := e.collTx.upd (treeQuad id) (· ++ [(p, mkPkt h (.coll c payload))]) })

/-- [R31 R376] data between a member's quadrant and the one the tree is homed in crosses the mesh once: a contribution (`up`), or a result
(DEDUCED, log 107). -/
def crossOpal (s : State) (f id n : Nat) (up : Bool) : State :=
  let a := quadOfHost (hostOfFn f)
  let h : FabHdr := { sl := ((getTree s id).map (·.sl)).getD 0, len := 64 + n }
  if up then cross s a (treeQuad id) h else cross s (treeQuad id) a h

/-- [R359] grant or return `n` credits on a network edge. -/
def sendTreeCredit (s : State) (id e n : Nat) : State :=
  match getTree s id with
  | none => s
  | some t => match t.edgePort e with
    | none => s
    | some p => sendTree s id t p { kind := 3, credits := n } []

/-- [R359] an edge whose link is ACTIVE for the first time after setup gets WINDOW and is live. -/
def edgeUp (s : State) (id e : Nat) : State :=
  match getTree s id with
  | none => s
  | some t =>
    if (t.edge e).granted || t.broken then s
    else match t.edgePort e with
      | some p =>
        if (s.port p).link == .active then sendTreeCredit (updEdge s id e (fun x => { x with live := true, granted := true })) id e t.window else s
      | none => updEdge s id e (fun x => { x with live := true, granted := true })

/-- The trees set up here. -/
def treesOf (s : State) : List Nat := (s.ep.trees.cells.filter (fun kv => kv.2.isSome)).map (·.1)

/-- [R359] every edge of a port that has just become ACTIVE. -/
def portEdgesUp (s : State) (p : Nat) : State :=
  foldS (treesOf s) s (fun s id =>
    match getTree s id with
    | none => s
    | some t => foldS (t.allEdges.filter (fun e => t.edgePort e == some p)) s (fun s e => edgeUp s id e))

/-- [R363 R379] remember how a collective ended. A number a quarter of the sequence or more away is one of another round of COLL_SEQ (DESIGN
CHOICE, log 51). -/
def Tree.recordEnd (t : Tree) (seq : BitVec 32) (st : Nat) : Tree :=
  if t.ended.any (fun x => x.1 == seq) then t
  else { t with ended := (t.ended.filter (fun x => decide ((seq - x.1).toNat < 2 ^ 30) || decide ((x.1 - seq).toNat < 2 ^ 30))) ++ [(seq, st)] }

/-- [R382] FLAGS of a COLLECTIVE completion. -/
def Coll.flags (c : Coll) : Nat := (if c.inexact then 1 else 0) + (if c.overflow then 2 else 0) + (if c.invalid then 4 else 0)

/-- [R383] a collective has ended at the root with these flags. -/
def countFlags (s : State) (id : Nat) (t : Tree) (c : Coll) : State :=
  if t.parent.isSome then s
  else
    let s := if c.inexact then count s .quadrant (treeQuad id) .collInexact else s
    if c.overflow then count s .quadrant (treeQuad id) .collOverflow else s

/-- [R384] EV_COLL_ABORT. -/
def collAbortEvent (s : State) (id : Nat) (seq : BitVec 32) (st : Nat) : State :=
  limited s .collAbort id oneSec (fun t n more => recordEv t .collAbort (treeQuad id) id seq.toNat st n more)

/-- [R379] end a collective with a status: record it, ABORT on every other edge, complete local members, discard its blocks
and return their credits. A collective that has ended here is left alone. -/
def endColl (s : State) (id : Nat) (seq : BitVec 32) (st : Nat) (from_ : Option Nat) : State :=
  match getTree s id with
  | none => s
  | some t =>
    if t.ended.any (fun x => x.1 == seq) then s
    else
      let c := t.coll seq
      let s := foldS (t.allEdges.filter (fun e => some e != from_)) s (fun s e =>
        match t.edgePort e with
        | some p => sendTree s id t p { kind := 4, seq := seq, status := st } []
        | none => s)
      let s := match c with
        | none => s
        | some c =>
          let s := c.members.foldl (fun s m => completeEnt s m.qp m.idx st 0 (collExtra id seq c.flags)) (countFlags s id t c)
          if t.parent.isSome then
            let n := (c.downQ.map (fun x => match x.2.body with
              | .coll h _ => h.blockFirst
              | _ => 0)).eraseDups.length
            if n = 0 then s else sendTreeCredit s id 0 n
          else s
      let held := t.hold.filter (fun h => match h.2.body with
        | .coll hd _ => hd.seq == seq
        | _ => false)
      let s := held.foldl (fun s h => sendTreeCredit s id h.1 1) s
      let s := updTree s id (fun t =>
        { t.recordEnd seq st with
          colls := t.colls.filter (fun c => c.seq != seq),
          hold := t.hold.filter (fun h => match h.2.body with
            | .coll hd _ => hd.seq != seq
            | _ => true) })
      collAbortEvent (count s .quadrant (treeQuad id) .collAbort) id seq st

/-- [R377 R383] a collective has ended here with SUCCESS: every DOWN block sent and placed. -/
def finishColl (s : State) (id : Nat) (seq : BitVec 32) : State :=
  match getTree s id with
  | none => s
  | some t => match t.coll seq with
    | none => s
    | some c =>
      if blocksOf c.dtype c.vecLen ≤ c.downBlocks.length ∧ c.downQ = [] ∧ c.members.all (fun m => decide (blocksOf c.dtype c.vecLen ≤ m.blocks)) then
        let q := treeQuad id
        let s := updTree s id (fun t => { t.recordEnd seq stSUCCESS with colls := t.colls.filter (fun c => c.seq != seq) })
        countFlags (count s .quadrant q .collDone) id t c
      else s

/-- [R374] the DOWN packets owed to an edge that follow block after block on `h`, as far as 4,096 B of payload go. -/
def downRun (e : Nat) : CollHdr → List Byte → List (Nat × Pkt) → List (Nat × Pkt)
  | _, _, [] => []
  | h, l, x :: rest =>
    match x.2.body with
    | .coll h2 l2 =>
      if x.1 = e ∧ h2.blockFirst = h.blockFirst + h.blockCount ∧ l.length + l2.length ≤ 4096 then
        x :: downRun e { h with blockCount := h.blockCount + h2.blockCount } (l ++ l2) rest
      else downRun e h l rest
    | _ => downRun e h l rest

/-- [R374] the payload of a DOWN packet, and of those packed behind it. -/
def downBytes (l : List (Nat × Pkt)) : List Byte := l.flatMap (fun x => match x.2.body with | .coll _ p => p | _ => [])

/-- [R359 R372 R374] send one DOWN packet that an edge's counter allows, consecutive blocks packed at the root under the flags the collective
has there; the parent's credit goes back with the last copy. -/
def pumpDown (s : State) (id : Nat) : Nat → State
  | 0 => s
  | k + 1 =>
    match getTree s id with
    | none => s
    | some t =>
      match t.colls.findSome? (fun c => (c.downQ.find? (fun x => (t.edge x.1).live && decide (0 < (t.edge x.1).ctr))).map (fun x => (c, x))) with
      | none => s
      | some (c, x) =>
        match t.edgePort x.1, x.2.body with
        | some p, .coll h payload =>
          let more := if t.parent.isNone then downRun x.1 h payload (c.downQ.erase x) else []
          let rest := more.foldl (fun l y => l.erase y) (c.downQ.erase x)
          let h := { h with blockCount := h.blockCount + more.length }
          let h := if t.parent.isNone then { h with inexact := c.inexact, overflow := c.overflow, invalid := c.invalid } else h
          let s := sendTree s id t p h (payload ++ downBytes more)
          let s := updEdge s id x.1 (fun e => { e with ctr := e.ctr - 1 })
          let s := updColl s id c.seq (fun c => { c with downQ := rest })
          let s := if t.parent.isSome && !rest.any (fun y => y.2 == x.2) then sendTreeCredit s id 0 1 else s
          pumpDown (finishColl s id c.seq) id k
        | _, _ => s

/-- [R383] an UP block is sent in an encoding. -/
def countEnc (s : State) (id : Nat) (payload : List Byte) : State :=
  match byteAt payload 0 with
  | 1 => count s .quadrant (treeQuad id) .encP64
  | 2 => count s .quadrant (treeQuad id) .encP128
  | 3 => count s .quadrant (treeQuad id) .encP384
  | _ => s

/-- [R359 R377] send UP packets on the parent edge in COLL_SEQ order while its counter allows. -/
def pumpUp (s : State) (id : Nat) : Nat → State
  | 0 => s
  | k + 1 =>
    match getTree s id with
    | none => s
    | some t =>
      match t.colls.find? (fun c => decide (0 < c.upLeft)), t.parent with
      | some c, some p =>
        match c.upQ with
        | [] => s
        | pk :: rest =>
          if (t.edge 0).live && decide (0 < (t.edge 0).ctr) then
            match pk.body with
            | .coll h payload =>
              let s := countEnc (sendTree s id t p h payload) id payload
              let s := updEdge s id 0 (fun e => { e with ctr := e.ctr - 1 })
              pumpUp (updColl s id c.seq (fun c => { c with upQ := rest, upLeft := c.upLeft - 1 })) id k
            | _ => s
          else s
      | _, _ => s

/-- How many packets one pump may send: more than an edge's counters can allow. -/
def pumpFuel : Nat := 20000

/-- [R376] place a block's bytes at a member; its entry completes with its last block. -/
def placeMember (s : State) (id : Nat) (seq : BitVec 32) (m : Member) (off : Nat) (bytes : List Byte) (blocks : Nat) : State :=
  let sge := ((getQp s m.qp).bind (fun x => x.ring.ents.find? (fun e => e.idx == m.idx))).bind (fun e => e.sges[1]?)
  let s := match sge with
    | some e =>
      if m.dst = 0 then s
      else dmaScatter (crossOpal s (((getQp s m.qp).map (·.fn)).getD 0) id bytes.length false) (sgeHost s (sgeSlice [e] off bytes.length)) bytes
    | none => s
  let n := if m.dst = 0 then 0 else bytes.length
  let s := updColl s id seq (fun c => { c with members := c.members.map (fun y =>
    if y.child = m.child then { y with placed := y.placed + n, blocks := y.blocks + blocks } else y) })
  match getColl s id seq with
  | none => s
  | some c =>
    if m.blocks + blocks = blocksOf c.dtype c.vecLen then
      completeEnt s m.qp m.idx stSUCCESS (m.placed + n) (collExtra id seq c.flags)
    else s

/-- [R374] results go down: to every live child network edge and to every local member. -/
def goDown (s : State) (id : Nat) (seq : BitVec 32) (first n : Nat) (bytes : List Byte) : State :=
  match getTree s id, getColl s id seq with
  | some t, some c =>
    let h : CollHdr := { kind := 2, op := c.op, native := c.native, dtype := c.dtype, inexact := c.inexact, overflow := c.overflow,
                         invalid := c.invalid, seq := seq, blockFirst := first, blockCount := n, ebase := c.ebase, vecLen := c.vecLen }
    let nets := t.childEdges.filter (fun e => (t.edgePort e).isSome)
    let pk : Pkt := { hdr := {}, body := .coll h bytes }
    let s := updColl s id seq (fun c => { c with
      downQ := c.downQ ++ nets.map (fun e => (e, pk)),
      downBlocks := c.downBlocks ++ (if n = 0 then [0] else (List.range n).map (first + ·)) })
    let s := c.members.foldl (fun s m => placeMember s id seq m (first * dtypeBlock c.dtype * dtypeSize c.dtype) bytes (max 1 n)) s
    let s := if t.parent.isSome && nets.isEmpty then sendTreeCredit s id 0 1 else s
    finishColl (pumpDown s id pumpFuel) id seq
  | _, _ => s

/-- [R374] every child has delivered block `b` or sent EMPTY. -/
def blockComplete (t : Tree) (c : Coll) (b : Nat) : Bool :=
  t.childEdges.all (fun e => c.empty.contains e || ((c.blocks.get b).from_.contains e))

/-- [R374 R375] a complete block leaves: up to the parent, or, at the root, rounded and down. A NATIVE integer SUM travels in its own format
(R370), so OVERFLOW is raised where a partial sum leaves the range (DESIGN CHOICE, log 16). -/
def finishBlock (s : State) (id : Nat) (seq : BitVec 32) (b : Nat) : State :=
  match getTree s id, getColl s id seq with
  | some t, some c =>
    let blk := c.blocks.get b
    if blk.done || !blockComplete t c b || decide (blocksOf c.dtype c.vecLen ≤ b) then s
    else if t.parent.isNone && c.op == 1 && c.rootCount != 1 then endColl s id seq stCOLL_ROOT none
    else
      let s := updColl s id seq (fun c => { c with blocks := c.blocks.upd b (fun x => { x with done := true }) })
      let nb := if c.vecLen = 0 then 0 else 1
      if t.parent.isSome then
        let wrapped := c.native && onGrid c.op c.dtype true && (blkResult c.op c.dtype true c.ebase blk).2.1
        let s := updColl s id seq (fun c => { c with overflow := c.overflow || wrapped })
        let h : CollHdr := { kind := 1, op := c.op, native := c.native, dtype := c.dtype, inexact := c.inexact, overflow := c.overflow || wrapped,
                             invalid := c.invalid, seq := seq, blockFirst := b, blockCount := nb, ebase := c.ebase, vecLen := c.vecLen,
                             rootCount := c.rootCount }
        let payload := if nb = 0 then [] else encBlk c.op c.dtype c.native (dtypeSize c.dtype) blk
        pumpUp (updColl s id seq (fun c => { c with upQ := c.upQ ++ [{ hdr := {}, body := .coll h payload }] })) id pumpFuel
      else
        let r := blkResult c.op c.dtype c.native c.ebase blk
        let s := updColl s id seq (fun c => { c with overflow := c.overflow || r.2.1, invalid := c.invalid || r.2.2 })
        goDown s id seq b nb (if nb = 0 then [] else rawBytes c.dtype r.1 (dtypeSize c.dtype))
  | _, _ => s

/-- [R375] every child has sent EMPTY: an EMPTY goes up, and at the root the BROADCAST has no source. -/
def allEmpty (s : State) (id : Nat) (seq : BitVec 32) : State :=
  match getTree s id, getColl s id seq with
  | some t, some c =>
    if c.vecLen ≠ 0 ∧ t.childEdges.all (fun e => c.empty.contains e) ∧ 0 < c.upLeft then
      if t.parent.isNone then endColl s id seq stCOLL_ROOT none
      else
        let h : CollHdr := { kind := 1, op := c.op, native := c.native, dtype := c.dtype, empty := true, seq := seq, ebase := c.ebase,
                             vecLen := c.vecLen }
        pumpUp (updColl s id seq (fun c => { c with upQ := c.upQ ++ [{ hdr := {}, body := .coll h [] }], upLeft := 1 })) id pumpFuel
    else s
  | _, _ => s

/-- [R377] four collectives are active already and this is not one of them. -/
def mustHold (t : Tree) (seq : BitVec 32) : Bool := (t.coll seq).isNone && decide (4 ≤ t.colls.length)

/-- [R377 R498] a collective becomes active with its first contribution; a rise of VCORE is forecast. -/
def activate (s : State) (id : Nat) (h : CollHdr) : State :=
  if (getColl s id h.seq).isSome then s
  else
    let c : Coll := { seq := h.seq, op := h.op, dtype := h.dtype, native := h.native, ebase := h.ebase, vecLen := h.vecLen,
                      upLeft := blocksOf h.dtype h.vecLen, progress := s.clk.now }
    forecast (count (updTree s id (fun t => { t with colls := t.colls ++ [c] })) .quadrant (treeQuad id) .collStarted) 0 1

/-- [R71 R379] the status a first contribution that differs ends the collective with; 0 where it agrees. -/
def mismatch (c : Coll) (h : CollHdr) : Nat :=
  if c.native != h.native then stARITH_MISMATCH
  else if c.op != h.op || c.dtype != h.dtype || c.ebase != h.ebase || c.vecLen != h.vecLen then stCOLL_MISMATCH
  else stSUCCESS

/-- [R374] the blocks of one UP contribution, one after another. -/
def addBlocks (s : State) (id : Nat) (seq : BitVec 32) (edge : Nat) : List Contrib → Nat → State
  | [], _ => s
  | x :: rest, b =>
    match getColl s id seq with
    | none => s
    | some c =>
      if (c.blocks.get b).from_.contains edge then addBlocks s id seq edge rest (b + 1)
      else
        let r := blkAdd c.op c.dtype c.native (c.blocks.get b) x
        let s := updColl s id seq (fun c =>
          { c with blocks := c.blocks.set b { r.1 with from_ := r.1.from_ ++ [edge] }, inexact := c.inexact || x.inexact,
                   overflow := c.overflow || x.overflow || r.2.1, invalid := c.invalid || r.2.2, progress := s.clk.now })
        addBlocks (count s .quadrant (treeQuad id) .blocksReduced) id seq edge rest (b + 1)

/-- [R374 R375 R379] a contribution from child edge `edge`: comparison, ROOT_COUNT, EMPTY, blocks; data-less blocks finish at
once, others when Opal is done with them. -/
def contribute (s : State) (id edge : Nat) (h : CollHdr) (xs : List Contrib) (bytes : Nat) : State :=
  let s := activate s id h
  match getColl s id h.seq with
  | none => s
  | some c =>
    let fresh := !c.seen.contains edge
    let m := if fresh then mismatch c h else stSUCCESS
    if m ≠ stSUCCESS then endColl s id h.seq m none
    else
      let s := updColl s id h.seq (fun c =>
        { c with seen := if fresh then c.seen ++ [edge] else c.seen, rootCount := if fresh then c.rootCount + h.rootCount else c.rootCount,
                 inexact := c.inexact || h.inexact, overflow := c.overflow || h.overflow, invalid := c.invalid || h.invalid,
                 empty := if h.empty then c.empty ++ [edge] else c.empty, progress := s.clk.now })
      let s := count s .quadrant (treeQuad id) .opalInBytes bytes
      if h.empty then
        let s := allEmpty s id h.seq
        s
      else if h.vecLen = 0 then
        finishBlock (addBlocks s id h.seq edge [{}] 0) id h.seq 0
      else addBlocks s id h.seq edge xs h.blockFirst

/-- [R370] the contributions an UP packet's payload holds. -/
def upContribs (h : CollHdr) : Nat → Nat → List Byte → List Contrib
  | 0, _, _ => []
  | n + 1, b, l =>
    let r := decBlk h.op h.dtype h.native (dtypeSize h.dtype) (blockElems h.dtype h.vecLen b) l
    r.1 :: upContribs h n (b + 1) r.2

/-- [R359 R374] take in an UP packet of edge `edge`; its blocks are added and its credit goes back. -/
def takeUp (s : State) (id edge : Nat) (h : CollHdr) (payload : List Byte) : State :=
  match getTree s id with
  | none => s
  | some t =>
    if t.ended.any (fun x => x.1 == h.seq) || t.broken then sendTreeCredit s id edge 1
    else sendTreeCredit (contribute s id edge h (upContribs h h.blockCount h.blockFirst payload) payload.length) id edge 1

/-- [R377] held UP packets whose collective may now become active, oldest first. -/
def releaseHold (s : State) (id : Nat) : Nat → State
  | 0 => s
  | k + 1 =>
    match getTree s id with
    | none => s
    | some t =>
      match t.hold.find? (fun x => match x.2.body with
        | .coll h _ => !mustHold t h.seq
        | _ => true) with
      | none => s
      | some x =>
        let s := updTree s id (fun t => { t with hold := t.hold.erase x })
        match x.2.body with
        | .coll h payload => releaseHold (takeUp s id x.1 h payload) id k
        | _ => releaseHold s id k

/-- Released packets of one event: at most what the edges' windows hold. -/
def holdFuel : Nat := 10000

/-- [R380] every DOWN block of the collective has come: a lost edge no longer ends it. -/
def Coll.allDown (c : Coll) : Bool := decide (blocksOf c.dtype c.vecLen ≤ c.downBlocks.length)

/-- [R380 R410] a tree breaks at this router, by its edge `e` or (no edge of that number) by a lost context: active collectives
end with `st`, later entries too; an edge lost below finished results only loses them. -/
def breakTree (s : State) (id e st : Nat) : State :=
  match getTree s id with
  | none => s
  | some t =>
    if t.broken then s
    else
      let own := (t.colls.flatMap (·.downQ)).filter (fun x => x.1 == e && !(t.colls.flatMap (·.downQ)).any (fun y => y.1 != e && y.2 == x.2))
      let s := if t.parent.isSome && e != 0 && !own.isEmpty then sendTreeCredit s id 0 own.length else s
      let s := updTree s id (fun t =>
        { t with broken := true, brokenSt := st, colls := t.colls.map (fun c => { c with downQ := c.downQ.filter (fun x => x.1 != e) }) })
      let s := if (t.edgeTo e).isSome then updEdge s id e (fun x => { x with live := false }) else s
      let s := t.colls.foldl (fun s c => if c.allDown then finishColl s id c.seq else endColl s id c.seq st (some e)) s
      let s := t.hold.foldl (fun s h => sendTreeCredit s id h.1 1) s
      let s := updTree s id (fun t => { t with hold := [] })
      let word := match t.edgeTo e with
        | some (.port p) => if e = 0 then 0xFFFF else p
        | some (.host n) => 0x8000 + n
        | none => 0xFFFF
      recordEv s .treeBroken (treeQuad id) id word

/-- [R380] a port's link has left ACTIVE, or a local member's host is gone. -/
def edgeLost (s : State) (dest : EdgeTo) : State :=
  foldS (treesOf s) s (fun s id =>
    match getTree s id with
    | none => s
    | some t => foldS (t.allEdges.filter (fun e => t.edgeTo e == some dest && (t.edge e).live)) s (fun s e => breakTree s id e stTREE_MEMBER_LOST))

/-- [R381] end the collectives of a queue pair's started COLLECTIVE entries. -/
def abortColls (s : State) (q : Nat) : State :=
  foldS (treesOf s) s (fun s id =>
    match getTree s id with
    | none => s
    | some t =>
      (t.colls.filter (fun c => c.members.any (fun m => m.qp == q && decide (m.blocks < blocksOf c.dtype c.vecLen)))).foldl
        (fun s c => releaseHold (endColl s id c.seq stCOLL_ABORTED none) id holdFuel) s)

/-- [R325 R381] a queue pair enters ERROR. -/
def enterError (s : State) (q status : Nat) (wqe : BitVec 16 := 0xFFFF) : State :=
  match getQp s q with
  | none => s
  | some x => if x.st = 2 || x.st = 3 then s else errorQp (abortColls s q) q status wqe

/-- [R291 R325] a queue, of either kind, enters ERROR. -/
def queueToError (s : State) (q status : Nat) (wqe : BitVec 16 := 0xFFFF) : State :=
  if isSrq s q then errorSrq s q status wqe else enterError s q status wqe

/-- The entry of a queue pair ends with `status`, and the queue pair enters ERROR (R325). -/
def failEnt (s : State) (q : Nat) (idx : BitVec 32) (status : Nat) : State :=
  let wqe := ((getQp s q).bind (fun x => x.ring.ents.find? (fun e => e.idx == idx))).map (·.wqe)
  enterError (completeEnt (abortColls s q) q idx status 0) q status (wqe.getD 0xFFFF)

/-- [R288] queues bound to a CQ. -/
def boundQps (s : State) (c : Nat) : List Nat :=
  (s.ep.qps.cells.filter (fun kv => kv.2.any (fun x => x.sendCq == c || x.recvCq == c))).map (·.1)
def boundSrqs (s : State) (c : Nat) : List Nat := (s.ep.srqs.cells.filter (fun kv => kv.2.any (fun x => x.cq == c))).map (·.1)

/-- [R288 R294] a CQ enters ERROR with a status: EV_CQ_OVERFLOW and CQ_OVERFLOW, waiting completions dropped and counted, every
queue bound to it enters ERROR. -/
def errorCqWith (s : State) (n st : Nat) : State :=
  match getCq s n with
  | none => s
  | some c =>
    if c.err then s
    else
      let s := updCq s n (fun c => { c with err := true, waiting := [], fullAt := none })
      let s := count s .host (epOfFn s c.fn) .cqDrop c.waiting.length
      let s := recordEv s .cqOverflow (quadOfHost (hostOfFn c.fn)) c.fn n c.waiting.length
      let s := writeEq s c.fn 3 st 2 n 0xFFFF
      foldS (boundQps s n ++ boundSrqs s n) s (fun s q => queueToError s q st)

/-- [R288 R294] a CQ enters ERROR for want of room or of its host: the status is the spec's to choose (log 7). -/
def errorCq (s : State) (n : Nat) : State := errorCqWith (drawn s) n (openStatus s)

end Sys2Proof.Machine
end

