-- ==== Sys2Proof/Machine/Send.lean ====
section
/-! DEFINITION. Starting send-queue entries and sending their packets: chain lists, local checks, cutting messages, READ requests,
atomics, tagged sends, collectives, and resending a PSN (R276, R302 to R313, R341, R362, R391). -/

namespace Sys2Proof.Machine

/-- Change the open entry at `idx`. -/
def updEnt (s : State) (q : Nat) (idx : BitVec 32) (f : Ent → Ent) : State :=
  updRing s q (fun r => { r with ents := r.ents.map (fun e => if e.idx = idx ∧ e.st ≠ 2 then f e else e) })

/-- An entry of a queue pair that has not completed. -/
def Qp.ent (x : Qp) (idx : BitVec 32) : Option Ent := x.ring.ents.find? (fun e => e.idx == idx && e.st != 2)

/-- The next entry that has not started. -/
def Ring.next (r : Ring) : Option Ent := r.ents.find? (fun e => e.st == 0)

/-- [R273] FENCE: every earlier entry has completed. -/
def fenceOk (r : Ring) (e : Ent) : Bool := !e.fence || (r.ents.takeWhile (fun y => y.idx != e.idx)).all (fun y => y.st == 2)

/-- [R391] queue pairs of a stack that hold started or outstanding work, other than `q`. -/
def workingOn (s : State) (stack q : Nat) : Nat :=
  (s.ep.qps.cells.filter (fun kv => kv.1 != q && kv.2.any (fun x => x.home == stack && x.resident &&
    (!x.pend.isEmpty || x.ring.ents.any (fun e => e.st == 1))))).length

/-- [R386 R391] queue-pair slots of a stack, and queue pairs that may be working on it. -/
def qpSlots (s : State) : Nat := if s.ident.h96 then 262144 else 131072
def mayWork (s : State) (q : Nat) (x : Qp) : Bool := decide (workingOn s x.home q < qpSlots s - 1024)

/-- [R301] the fields of slot 0 an operation names. -/
def Ent.slot0 (e : Ent) : List Byte := e.slots.headD []
def Ent.remoteKey (e : Ent) : BitVec 32 := BitVec.ofNat 32 (leAt e.slot0 8 4)
def Ent.remoteOff (e : Ent) : BitVec 64 := BitVec.ofNat 64 (leAt e.slot0 16 8)

/-- [R304] the atomic extension and the payload of an atomic entry. -/
def Ent.atomicExt (e : Ent) : Ext × List Byte :=
  match e.op with
  | 0x05 => (.atomic 1 0 (BitVec.ofNat 128 (leAt e.slot0 24 8)), [])
  | 0x06 => (.atomic 2 0 (BitVec.ofNat 128 (leAt e.slot0 24 8)), beBytes 8 (leAt e.slot0 32 8))
  | _ => (.atomic 3 0 (BitVec.ofNat 128 (leAt e.slot0 24 16)), beBytes 16 (leAt e.slot0 40 16))

/-- [R303 R331] the transport header and extension of the request packet a PSN stands for. -/
def reqOf (e : Ent) (p : Pend) (retx : Bool) : TransHdr × Ext :=
  let base : TransHdr := { opcode := p.op, destQpn := 0, srcQpn := 0, ackReq := p.last, last := p.last, solicit := e.solicit, retx := retx,
                           psn := p.psn, msn := p.msn }
  match p.op with
  | 0x02 => ({ base with windowKey := e.remoteKey, remoteOffset := e.remoteOff + BitVec.ofNat 64 p.off }, .atomic 4 (byteAt e.slot0 24) 0)
  | 0x05 => ({ base with msn := e.msn, windowKey := BitVec.ofNat 32 e.len, remoteOffset := BitVec.ofNat 64 p.off }, .none)
  | 0x06 => ({ base with windowKey := e.remoteKey, remoteOffset := e.remoteOff }, e.atomicExt.1)
  | 0x10 => ({ base with msn := e.msn, windowKey := BitVec.ofNat 32 e.len, remoteOffset := BitVec.ofNat 64 p.off },
      .eager (leAt e.slot0 8 2) (BitVec.ofNat 32 (leAt e.slot0 12 4)) (BitVec.ofNat 64 (leAt e.slot0 16 8)) e.len)
  | 0x11 => ({ base with msn := e.msn },
      .rts (leAt e.slot0 8 2) (BitVec.ofNat 32 (leAt e.slot0 12 4)) (BitVec.ofNat 64 (leAt e.slot0 16 8)) e.len
        ((e.sges.map (·.key)).getD 0 0) ((e.sges.map (·.off)).getD 0 0))
  | _ => ({ base with windowKey := e.remoteKey, remoteOffset := e.remoteOff + BitVec.ofNat 64 p.off }, .none)

/-- [R301] the wire opcode of a WQE opcode whose packets carry its data. -/
def wireOp (op : Nat) : Nat := match op with | 0x01 => 0x01 | 0x02 => 0x02 | 0x04 => 0x05 | _ => 0x10

/-- [R216] LENGTH of a request packet with `n` payload bytes. -/
def reqLen (op n : Nat) : Nat := max 64 (68 + n + (match op with | 0x02 | 0x06 => 24 | 0x10 | 0x11 | 0x12 => 32 | _ => 0))

/-- [R251] the partition shaper of the queue pair allows a packet. -/
def shaperOk (s : State) (x : Qp) (len : Nat) : Bool := shaperFree s (shaperKey x.fn x.pkIdx) len

/-- [R276 R341] bytes of an entry's operation, and whether it is a rendezvous send. -/
def Ent.opLen (e : Ent) : Nat := if e.inline then e.inlineData.length else sgeLen e.sges
def Ent.rdv (e : Ent) (s : State) (x : Qp) : Bool := e.op == 0x10 && !e.inline && decide ((s.hostEp (epOfFn s x.fn)).eagerMax < e.opLen)

/-- [R301 R304] the entry is an atomic. -/
def Ent.atomic (e : Ent) : Bool := e.op == 0x05 || e.op == 0x06 || e.op == 0x07

/-- [R303] wire opcode and payload of the next packet an entry sends; none for one that ends or acts without a packet of its own. -/
def nextPkt (s : State) (x : Qp) (e : Ent) : Option (Nat × Nat) :=
  if e.status ≠ stSUCCESS ∨ e.chain.isSome ∨ e.op = 0x08 ∨ e.op = 0x09 ∨ e.op = 0x20 then none
  else if e.op = 0x03 then some (0x03, 4)
  else if e.atomic then some (0x06, e.atomicExt.2.length)
  else if e.rdv s x then some (0x11, 0)
  else some (wireOp e.op, min 4096 (e.opLen - e.sent))

/-- [R251 R309 R312 R313] PSNs, window, tokens and the limit of 16 atomics let that packet go. -/
def mayPass (s : State) (x : Qp) : Option (Nat × Nat) → Bool
  | none => true
  | some (op, n) =>
    x.psnRoom != 0 && decide (x.outstanding + n ≤ x.window) && shaperOk s x (reqLen op n) &&
      !(op == 0x06 && decide (16 ≤ (x.pend.filter (fun p => p.op == 0x06)).length))

/-- [R267] the next packet's start is delayed by the queue pair's partition shaper: counted once. -/
def noteShaper (s : State) (q : Nat) (x : Qp) (e : Ent) : State :=
  match nextPkt s x e with
  | none => s
  | some (op, n) =>
    if shaperOk s x (reqLen op n) || x.shapSeen then s
    else count (updQp s q (fun x => { x with shapSeen := true })) .shaper (shaperKey x.fn x.pkIdx) .shaperWait

/-- [R391] a queue pair whose next entry could start but for the stack's count of working queue pairs: the entry's wait is counted
once. -/
def noteWorking (s : State) (q : Nat) (x : Qp) : State :=
  match x.ring.next with
  | none => s
  | some e =>
    if x.st == 1 && x.resident && fenceOk x.ring e && !e.chainRead && !e.waited && !mayWork s q x then
      count (updEnt s q e.idx (fun e => { e with waited := true })) .quadrant x.home .onyxActiveWait
    else s

/-- [R277] the entry's first packet has been handed over. -/
def handOver (s : State) (q : Nat) (idx : BitVec 32) : State := updEnt s q idx (fun e => { e with handed := true })

/-- [R277 R307 R309] send the request packet of a PSN with its payload bytes. -/
def sendPend (s : State) (q : Nat) (e : Ent) (p : Pend) (data : List Byte) (retx : Bool) : State :=
  let r := reqOf e p retx
  sendRequest (handOver s q e.idx) q r.1 r.2 data p.path

/-- [R388] elements of a queue pair's element store. -/
def elemStore : Nat := 768

/-- [R388] a retransmission needs elements beyond those the element store holds: they are read again from the ring and the chain lists. -/
def rereadElems (s : State) (q : Nat) (x : Qp) (e : Ent) (upTo : Nat) : State :=
  let before := ((x.ring.ents.takeWhile (fun y => y.idx != e.idx)).filter (fun y => y.st == 1)).map (·.sges.length) |>.foldl (· + ·) 0
  let need := (sgeSlice e.sges 0 upTo).length
  if before + need ≤ elemStore then s
  else
    let t := (slotReqs x.ring.log2 8 e.idx e.nslots).foldl (fun t pm => emit t (.dmaRead x.fn (x.ring.base + pm.1 * 64) (pm.2 * 64) q)) s
    e.lists.foldl (fun t l => emit t (.dmaRead x.fn l.1 (l.2 * 16) q)) t

/-- The payload of a PSN of an entry: inline data at once, otherwise read from host memory first, after the check of R318 for the part it takes. -/
def fetchSend (s : State) (q : Nat) (x : Qp) (e : Ent) (p : Pend) (retx : Bool) : State :=
  if p.op = 0x06 then sendPend s q e p e.atomicExt.2 retx
  else if p.op = 0x11 ∨ p.len = 0 then sendPend s q e p [] retx
  else if e.inline then sendPend s q e p ((e.inlineData.drop p.off).take p.len) retx
  else
    let l := sgeSlice e.sges p.off p.len
    match useWins s x.fn engTransport l with
    | .inl t => t
    | .inr s =>
      if localChecks s x 0 l ≠ stSUCCESS then failEnt s q e.idx (localChecks s x 0 l)
      else match sgesMiss s l with
        | some (w, a) => atsAsk s w a (.send q p.psn retx)
        | none =>
          let s := if retx then rereadElems s q x e (p.off + p.len) else s
          dataRead s (epOfFn s x.fn) q (sgeHost s l) (.send q p.psn retx)

/-- [R303] a READ_REQ for `len` bytes at offset `off` of a read, with the first PSN of its responses. -/
def sendReadReq (s : State) (q : Nat) (psn msn : BitVec 32) (key : BitVec 32) (off : BitVec 64) (len : Nat) (last retx solicit : Bool) (path : Nat) : State :=
  sendRequest s q { opcode := 3, destQpn := 0, srcQpn := 0, ackReq := last, last := last, solicit := solicit, retx := retx, psn := psn, msn := msn,
                    windowKey := key, remoteOffset := off } .none (beBytes 4 len) path

/-- [R301] the outstanding PSNs of a READ: one per response packet. -/
def readPends (now : Nat) (owner : Owner) (psn msn : BitVec 32) (off len path : Nat) (last seen : Bool) : List Pend :=
  let n := max 1 ((len + 4095) / 4096)
  (List.range n).map (fun i =>
    { psn := psn + BitVec.ofNat 32 i, owner := owner, op := 3, off := off + i * 4096, len := min 4096 (len - i * 4096),
      pay := if i = 0 then 4 else 0, msn := msn, shapSeen := seen, firstAt := now,
      lastAt := now, path := path, last := last && i + 1 == n })

/-- Ask for the next stretch of a read: as much as free PSNs cover. -/
def askRead (s : State) (q : Nat) (owner : Owner) (key : BitVec 32) (base : BitVec 64) (done total : Nat) (solicit : Bool) : State × Nat :=
  match getQp s q with
  | none => (s, 0)
  | some x =>
    let n := min (total - done) (x.psnRoom * 4096)
    if x.psnRoom = 0 then (s, 0)
    else
      let last := done + n == total
      let path := x.pathNext % 16
      let ps := readPends s.clk.now owner x.psn (x.msn - 1) done n path last x.shapSeen
      let t := updQp s q (fun x =>
        { x with psn := x.psn + BitVec.ofNat 32 ps.length, pend := x.pend ++ ps, pathNext := (x.pathNext + 1) % 16, shapSeen := false })
      (sendReadReq t q x.psn (x.msn - 1) key (base + BitVec.ofNat 64 done) n last false solicit path, n)

/-- [R313 R309 R251] send the next packet of a started entry; `none` when it has none or may not send now. -/
def sendOne (s : State) (q : Nat) (x : Qp) (e : Ent) : Option (State × Nat) :=
  if e.cut || e.st != 1 then none
  else if e.op = 0x03 then
    if !mayPass s x (some (0x03, 4)) then none
    else
      let r := askRead s q (.ent e.idx) e.remoteKey e.remoteOff e.sent e.len e.solicit
      some (updEnt r.1 q e.idx (fun e => { e with sent := e.sent + r.2, cut := decide (e.len ≤ e.sent + r.2), handed := true }), 64)
  else if e.op = 0x20 then none
  else
    let op := if e.atomic then 0x06 else if e.awaitFin then 0x11 else wireOp e.op
    let n := if e.atomic || e.awaitFin then 0 else min 4096 (e.len - e.sent)
    let wire := if e.atomic then e.atomicExt.2.length else n
    if !mayPass s x (some (op, wire)) then none
    else
      let last := e.atomic || e.awaitFin || decide (e.len ≤ e.sent + n)
      let p : Pend := { psn := x.psn, owner := .ent e.idx, op := op, off := e.sent, len := if e.atomic then wire else n, pay := wire, msn := x.msn - 1,
                        shapSeen := x.shapSeen,
                        firstAt := s.clk.now, lastAt := s.clk.now, path := x.pathNext % 16, last := last }
      let t := updEnt (addPend s q p) q e.idx (fun e => { e with sent := e.sent + n, cut := last })
      some (fetchSend t q x e p false, if n = 0 then 64 else n)

/-- [R285] send packets of the started entries in ring order until the turn's budget, the entry or a limit ends it. -/
def sendTurn (s : State) (q : Nat) : Nat → Nat → State
  | 0, _ => s
  | k + 1, budget =>
    match getQp s q with
    | none => s
    | some x =>
      if x.st != 1 || budget == 0 then s
      else
        match x.ring.ents.find? (fun e => e.st == 1 && !e.cut && e.op != 0x20) with
        | none => s
        | some e =>
          match sendOne s q x e with
          | none => noteShaper s q x e
          | some (t, n) => if (getQp t q).any (fun y => (y.ent e.idx).any (fun f => f.cut)) then t else sendTurn t q k (budget - n)

/-! ### Starting entries -/

/-- [R276] read the chain list an entry names, or end it where a limit is passed. -/
def followChain (s : State) (q f : Nat) (e : Ent) (addr n : Nat) (fail : State → Nat → State) : State :=
  if 32 ≤ e.hops ∨ 1024 < e.elems + n then fail s stSGL_LIMIT
  else
    updRing (updEnt (readOut s f addr (n * 16) q) q e.idx (fun e =>
      { e with hops := e.hops + 1, elems := e.elems + n, chainRead := true, lists := e.lists ++ [(addr, n)] })) q
      (fun r => { r with chainQ := r.chainQ ++ [(e.idx, false)] })

/-- [R318] the right a WQE opcode needs of its local elements: 0 READ of a source, 1 WRITE of a destination. -/
def localRight (op : Nat) : Nat := if op = 0x03 ∨ op = 0x05 ∨ op = 0x06 ∨ op = 0x07 then 1 else 0

/-- [R362] a COLLECTIVE entry's fields as the header of its contribution. -/
def Ent.collHdr (e : Ent) (empty : Bool) (root : Nat) : CollHdr :=
  { kind := 1, op := byteAt e.slot0 16, native := byteAt e.slot0 18 % 2 == 1, dtype := byteAt e.slot0 17, empty := empty,
    seq := BitVec.ofNat 32 (leAt e.slot0 12 4), ebase := s16 (leAt e.slot0 20 2), vecLen := leAt e.slot0 24 4, rootCount := root }
def Ent.treeId (e : Ent) : Nat := leAt e.slot0 8 4

/-- [R318 R374] ask for the next stretch of a member's contribution: whole blocks, up to 4,096 B. -/
def askColl (s : State) (q : Nat) (x : Qp) (e : Ent) (first : Nat) : State :=
  let d := byteAt e.slot0 17
  let vec := leAt e.slot0 24 4
  let n := min (max 1 (4096 / (dtypeBlock d * dtypeSize d))) (blocksOf d vec - first)
  let off := first * dtypeBlock d * dtypeSize d
  let len := min (n * dtypeBlock d * dtypeSize d) (vec * dtypeSize d - off)
  if localChecks s x 0 (e.sges.take 1) ≠ stSUCCESS then failEnt s q e.idx (localChecks s x 0 (e.sges.take 1)) else
  dataRead s (epOfFn s x.fn) q (sgeHost s (sgeSlice (e.sges.take 1) off len))
    (.coll q e.idx (BitVec.ofNat 24 e.treeId) (BitVec.ofNat 32 (leAt e.slot0 12 4)) first n)

/-- [R375] ROOT of a COLLECTIVE entry: the source of a BROADCAST. -/
def Ent.collRoot (e : Ent) : Nat := if byteAt e.slot0 16 = 1 then byteAt e.slot0 18 / 2 % 2 else 0

/-- [R362 R363 R379 R380] what a COLLECTIVE entry meets at its tree before its first contribution: the state after it where it goes no further
(it has ended, or a fifth collective waits), else the tree and the member's edge. -/
def collAdmit (s : State) (q : Nat) (x : Qp) (e : Ent) : Sum State (Tree × Nat) :=
  let id := e.treeId
  let seq := (e.collHdr false 0).seq
  let ends (s : State) (st : Nat) : Sum State (Tree × Nat) := .inl (completeEnt s q e.idx st 0 (collExtra id seq 0))
  match getTree s id, (getTree s id).bind (fun t => t.edgeOf (.host (endpointOf s (epOfFn s x.fn)))) with
  | some t, some c =>
    if !keyMatch ((s.fn x.fn).pkeys.get x.pkIdx) t.pkey then ends s stCOLL_NOT_MEMBER
    else if t.broken then ends s t.brokenSt
    else if t.next.get c ≠ seq then ends s stCOLL_MISMATCH
    else match t.ended.find? (fun y => y.1 == seq) with
      | some y => ends (updTree s id (fun t => { t with next := t.next.set c (seq + 1) })) y.2
      | none => if mustHold t seq then .inl (updEnt s q e.idx (fun e => { e with st := 0, cut := false })) else .inr (t, c)
  | _, _ => ends s stCOLL_NOT_MEMBER

/-- [R363 R376 R377] a member's first contribution: the entry is past its commit point, the collective is active and the member is in it. -/
def collJoin (s : State) (q : Nat) (e : Ent) (c : Nat) : State :=
  let id := e.treeId
  let h := e.collHdr false 0
  let dst := (((e.sges.drop 1).take 1).map (·.len)).getD 0 0
  let s := updEnt s q e.idx (fun e => { e with st := 1, len := dst, cut := true, handed := true })
  let s := activate (updTree s id (fun t => { t with next := t.next.set c (h.seq + 1) })) id h
  updColl s id h.seq (fun y => { y with members := y.members ++ [{ child := c, qp := q, idx := e.idx, dst := dst }] })

/-- [R318 R362 R363 R377] start a COLLECTIVE entry: its source is read, or, where it has none, it contributes at once. -/
def startColl (s : State) (q : Nat) (x : Qp) (e : Ent) : State :=
  let h := e.collHdr false e.collRoot
  let src := (e.sges.take 1)
  let dst := (e.sges.drop 1).take 1
  match useWins s x.fn engGarnet e.sges with
  | .inl t => t
  | .inr s =>
    let st := if localChecks s x 0 src ≠ stSUCCESS then localChecks s x 0 src else localChecks s x 1 dst
    if 2 ^ 32 ≤ sgeLen e.sges then failEnt s q e.idx stSGL_LIMIT
    else if st ≠ stSUCCESS then failEnt s q e.idx st
    else if let some (w, a) := sgesMiss s e.sges then atsAsk s w a (.queue q)
    else
      match collAdmit s q x e with
      | .inl t => t
      | .inr (_, c) =>
        if h.vecLen = 0 then contribute (crossOpal (collJoin s q e c) x.fn e.treeId 0 true) e.treeId c h [{}] 0
        else if h.op = 1 ∧ e.collRoot = 0 then contribute (crossOpal (collJoin s q e c) x.fn e.treeId 0 true) e.treeId c (e.collHdr true 0) [] 0
        else askColl (updEnt s q e.idx (fun e => { e with st := 1, cut := true })) q x e 0

/-- [R322] COUNTER_FETCH. -/
def startCounterFetch (s : State) (q : Nat) (x : Qp) (e : Ent) : State :=
  let c := byteAt e.slot0 8
  let v := x.ctrs.get c
  let t := if byteAt e.slot0 9 % 2 = 1 then updQp s q (fun x => { x with ctrs := x.ctrs.set c 0 }) else s
  completeEnt t q e.idx stSUCCESS 0 (leBytes 8 v.toNat)

/-- [R277 R302 R318 R341] start the next entry of a queue pair if it may start: an entry that breaks a rule completes with its
status, chain lists are read, elements are checked, local operations complete, the others become started. BIND_WINDOW asks for its list of
extents, which its own command brings. -/
def startNext (s : State) (q : Nat) : State :=
  match getQp s q with
  | none => s
  | some x =>
    match x.ring.next with
    | none => s
    | some e =>
      if x.st != 1 || !x.resident || !fenceOk x.ring e || !mayWork s q x || e.chainRead then noteWorking s q x
      else if e.status ≠ stSUCCESS then failEnt s q e.idx e.status
      else
        match e.chain with
        | some (addr, n) => followChain s q x.fn e addr n (fun t st => failEnt t q e.idx st)
        | none =>
          if e.op = 0x08 then
            updRing (updEnt (readOut s x.fn (leAt e.slot0 16 8) (16 * byteAt e.slot0 9) q) q e.idx (fun e => { e with chainRead := true })) q
              (fun r => { r with chainQ := r.chainQ ++ [(e.idx, true)] })
          else if e.op = 0x09 then startCounterFetch s q x e
          else if e.op = 0x20 then startColl s q x e
          else
            let len := e.opLen
            let rdv := e.rdv s x
            match useWins s x.fn engTransport e.sges with
            | .inl t => t
            | .inr s =>
            let st := localChecks s x (localRight e.op) e.sges
            if 2 ^ 32 ≤ len then failEnt s q e.idx stSGL_LIMIT
            else if rdv && e.sges.length != 1 then failEnt s q e.idx stMALFORMED
            else if st ≠ stSUCCESS then failEnt s q e.idx st
            else match sgesMiss s e.sges with
              | some (w, a) => atsAsk s w a (.queue q)
              | none =>
                let cls := e.op = 0x04 ∨ e.op = 0x10
                let t := updEnt s q e.idx (fun e => { e with st := 1, len := len, msn := x.msn, awaitFin := rdv })
                if cls then updQp t q (fun x => { x with msn := x.msn + 1 }) else t

/-- The next entry of the queue is of this opcode. -/
def nextIs (s : State) (q op : Nat) : Bool := (getQp s q).any (fun x => x.ring.next.any (fun e => e.op == op))

/-- [R285] payload of one turn. -/
def turnBytes : Nat := 16384

/-- Start the next entry and send its first turn. -/
def startAndSend (s : State) (q : Nat) : State := issueFetch (sendTurn (startNext s q) q 300 turnBytes) q

/-! ### Completion of what was sent -/

/-- [R286] an entry whose packets are all acknowledged or answered completes with SUCCESS. -/
def entMaybeDone (s : State) (q : Nat) (idx : BitVec 32) : State :=
  match getQp s q with
  | none => s
  | some x =>
    match x.ent idx with
    | none => s
    | some e =>
      if e.st == 1 && e.cut && !e.awaitFin && e.op != 0x20 && !x.pend.any (fun p => p.owner == .ent idx) then
        completeEnt s q idx stSUCCESS e.len
      else s

/-- The rendezvous receive of one message (R342). -/
def Matched.isRdv (m : Matched) (msn : BitVec 32) (gen : Nat) : Bool := m.msg.msn == msn && m.msg.gen == gen && m.msg.rts.isSome

/-- [R313 R342] ask for what the rendezvous reads of a queue pair still need, while W allows a request. -/
def pumpRdvs (s : State) (q : Nat) : State :=
  match getQp s q with
  | none => s
  | some x =>
    if x.st != 1 then s
    else x.matched.foldl (fun s m =>
      match m.msg.rts with
      | none => s
      | some (k, o) =>
        let total := min m.msg.len m.cap
        if m.asked ≥ total + 1 ∨ (0 < m.asked ∧ m.asked = total) then s
        else
          let r := askRead s q (.rdv m.msg.msn m.msg.gen) k o m.asked total false
          if (getQp s q).any (fun x => x.psnRoom == 0 || decide (x.window < x.outstanding + 4)) then s
          else updQp r.1 q (fun x => { x with matched := x.matched.map (fun y =>
            if y.isRdv m.msg.msn m.msg.gen then { y with asked := if total = 0 then 1 else y.asked + r.2 } else y) })) s

/-- [R312] the PSNs of a read that follow without a gap from `n` on. -/
def contRun : BitVec 32 → List Pend → List Pend
  | _, [] => []
  | n, p :: rest => if p.psn = n then p :: contRun (n + 1) rest else []

/-- [R311] the PSN has not been sent again in this instant. -/
def stale (s : State) (q : Nat) (psn : BitVec 32) : Bool :=
  (getQp s q).any (fun x => x.pend.any (fun y => y.psn == psn && (y.op != 3 || y.lastAt != s.clk.now)))

/-- [R311 R312] resend the PSN `p` stands for; a READ_REQ asks for all that is missing without a gap from there on. -/
def resend (s : State) (q : Nat) (p : Pend) : State :=
  match getQp s q with
  | none => s
  | some x =>
    let run := if p.op = 3 then contRun p.psn ((x.pend.dropWhile (fun y => y.psn != p.psn)).takeWhile (fun y => y.owner == p.owner && y.op == 3)) else [p]
    let s := updQp s q (fun x => { x with pend := x.pend.map (fun y => if run.any (fun z => z.psn == y.psn) then { y with lastAt := s.clk.now } else y) })
    if p.op = 3 then
      let len := (run.map (·.len)).foldl (· + ·) 0
      let last := run.any (fun y => y.last)
      match p.owner with
      | .ent idx => match x.ent idx with
        | some e => sendReadReq s q p.psn p.msn e.remoteKey (e.remoteOff + BitVec.ofNat 64 p.off) len last true e.solicit p.path
        | none => s
      | .rdv m g => match x.matched.find? (fun y => y.isRdv m g) with
        | some y => match y.msg.rts with
          | some (k, o) => sendReadReq s q p.psn p.msn k (o + BitVec.ofNat 64 p.off) len last true false p.path
          | none => s
        | none => s
      | .fin => s
    else match p.owner with
      | .ent idx => match x.ent idx with
        | some e => fetchSend s q x e p true
        | none => s
      | .rdv _ _ => s
      | .fin => match p.fin with
        | some (c, m, t, n, st) =>
          sendRequest s q { opcode := 0x12, destQpn := 0, srcQpn := 0, ackReq := true, last := true, retx := true, psn := p.psn, msn := p.msn }
            (.fin c m t n st) [] p.path
        | none => s

/-- [R325] the operation a PSN belongs to fails with a status, and the queue pair enters ERROR. -/
def failOwner (s : State) (q : Nat) (o : Owner) (status : Nat) : State :=
  match o with
  | .ent idx => failEnt s q idx status
  | .rdv m g =>
    match (getQp s q).bind (fun x => x.matched.find? (fun y => y.isRdv m g)) with
    | some y =>
      let t := completeMatched s q y status y.placed false
      enterError (updQp t q (fun x => { x with matched := x.matched.filter (fun z => !z.isRdv m g) })) q status
    | none => enterError s q status
  | .fin => enterError s q status

end Sys2Proof.Machine
end

