-- ==== Sys2Proof/Machine/Residency.lean ====
section
/-! DEFINITION. Shared operations of Onyx on queue-pair slots: choosing a victim, page-in, cancelling an eviction (R391 to R400). -/

namespace Sys2Proof.Machine

/-- The endpoint of a queue pair, and the PF0 that owns its backing store. -/
def qpEp (s : State) (x : Qp) : Nat := epOfFn s x.fn
def qpPf0 (s : State) (x : Qp) : Nat := pf0Of (qpEp s x)

/-- [R395] a free slot of an endpoint's backing store. -/
def freeBackSlot (s : State) (ep : Nat) : Option Nat :=
  let h := s.hostEp ep
  let used := (h.images.cells.filter (fun kv => kv.2.isSome)).map (·.1)
  ((List.range (used.length + 1)).find? (fun i => !used.contains i)).bind (fun i => if i < h.backSlots then some i else none)

/-- [R392 R401] the slot of a stack that is given next: the lowest-numbered free one (DESIGN CHOICE, log 104). -/
def freeSlotOf (s : State) (stack : Nat) : Nat :=
  let held := s.ep.qps.cells.filterMap (fun kv => kv.2.bind (fun x =>
    if x.home == stack && (x.resident || x.paging == 2) then some x.slot else none))
  ((List.range (held.length + 1)).find? (fun i => !held.contains i)).getD 0

/-- [R38 R118] Onyx's access to a queue pair's slot that is denied: the target. -/
def slotDenied (s : State) (x : Qp) (w : Bool) : Option Nat := deniedAt s (engineMaster x.home engOnyx) x.home [slotRegion s x.slot] w

/-- [R391] the queue pair is idle: no entry fetched or outstanding. -/
def Qp.idle (x : Qp) : Bool := x.ring.ents.isEmpty && x.pend.isEmpty

/-- [R393 R398] the queue pair can be a victim. -/
def evictable (s : State) (x : Qp) : Bool :=
  x.resident && x.idle && !x.marked && x.paging == 0 && (freeBackSlot s (qpEp s x)).isSome && (s.fn (qpPf0 s x)).bme

/-- The cell with the least value of a key. -/
def leastBy (key : Qp → Nat) : List (Nat × Qp) → Option Nat
  | [] => none
  | (q, x) :: rest =>
    match leastBy key rest with
    | none => some q
    | some r => if (rest.find? (fun y => y.1 == r)).any (fun y => decide (key y.2 < key x)) then some r else some q

/-- [R393] the victim of a stack: the longest parked, else the idle one whose last work is oldest. -/
def victimOf (s : State) (stack : Nat) : Option Nat :=
  let c := s.ep.qps.cells.filterMap (fun kv => kv.2.bind (fun x => if x.home == stack && evictable s x then some (kv.1, x) else none))
  match leastBy (fun x => x.ring.parkedAt) (c.filter (fun y => y.2.ring.poll == .parked)) with
  | some q => some q
  | none => leastBy (fun x => x.ring.lastWork) c

/-- [R396 R397] read the image of a queue pair that has been given a slot. -/
def readImage (s : State) (q : Nat) : State :=
  match getQp s q with
  | none => s
  | some x =>
    let h := s.hostEp (qpEp s x)
    readOut (updQp s q (fun x => { x with paging := 2 })) (qpPf0 s x) (h.backBase.toNat + (x.image.getD 0) * 4096) 4096 q

/-- [R393 R398] page-ins of a stack that wait and whose store may be used, in the order they were requested. -/
def waitingIns (s : State) (stack : Nat) : List Nat :=
  (s.quad stack).pageInWait.filter (fun q => (getQp s q).any (fun x => (s.fn (qpPf0 s x)).bme))

/-- [R393] queue pairs of a stack that are leaving it. -/
def leavingQps (s : State) (stack : Nat) : Nat := (s.ep.qps.cells.filter (fun kv => kv.2.any (fun x => x.home == stack && x.marked))).length

/-- [R393] mark victims of a stack, one for each page-in that waits without one. -/
def markQps (s : State) (stack : Nat) : Nat → State
  | 0 => s
  | n + 1 =>
    if (waitingIns s stack).length ≤ leavingQps s stack then s
    else match victimOf s stack with
      | some v => markQps (updQp s v (fun x => { x with marked := true })) stack n
      | none => s

/-- [R393] give the free slots of a stack to the page-ins that wait, and mark a victim for each of the others. -/
def servePageIns (s : State) (stack : Nat) : Nat → State
  | 0 => s
  | n + 1 =>
    match waitingIns s stack with
    | [] => s
    | q :: _ =>
      if (s.quad stack).slotsUsed < qpSlots s then
        let slot := freeSlotOf s stack
        servePageIns (readImage (updQp (updQuad s stack (fun y =>
          { y with slotsUsed := y.slotsUsed + 1, pageInWait := y.pageInWait.filter (· != q) })) q (fun x => { x with slot := slot })) q) stack n
      else markQps s stack (n + 1)
def servePageIn (s : State) (stack : Nat) : State := servePageIns s stack (s.quad stack).pageInWait.length

/-- [R393] start a page-in of a queue pair that is not resident; one that finds no evictable victim is counted. -/
def startPageIn (s : State) (q : Nat) : State :=
  match getQp s q with
  | none => s
  | some x =>
    if x.resident || x.paging != 0 then s
    else
      let st := x.home
      let full := decide (qpSlots s ≤ (s.quad st).slotsUsed)
      let none_ := full && (victimOf s st).isNone
      let t := updQp s q (fun x => { x with paging := 1 })
      let t := updQuad t st (fun y => { y with pageInWait := y.pageInWait ++ [q] })
      let t := if none_ then
          limited (count t .quadrant st .onyxNoVictim) .onyxNoVictim st oneSec (fun t n more => recordEv t .onyxNoVictim st st n 0 0 more)
        else t
      servePageIn t st

/-- [R400] a hit on a MARKED slot cancels the eviction. -/
def touchQp (s : State) (q : Nat) : State :=
  match getQp s q with
  | none => s
  | some x =>
    if x.marked && x.paging != 3 then
      servePageIn (count (updQp s q (fun x => { x with marked := false })) .quadrant x.home .evictCancel) x.home
    else s

/-- [R400] the queue pair's slot is being read out of HBM: a use stalls until the page-out ends. -/
def inWriteback (s : State) (q : Nat) : Bool := (getQp s q).any (fun x => x.marked && x.resident && x.paging == 3)
def stallUse (s : State) (q : Nat) : State := count s .quadrant (((getQp s q).map (·.home)).getD 0) .evictStall

/-- [R398] the page-outs of a PF0's store that may not go on: their victims stay. -/
def unmarkFor (s : State) (pf0 : Nat) : State :=
  foldS ((s.ep.qps.cells.filter (fun kv => kv.2.any (fun x => x.marked && qpPf0 s x == pf0))).map (·.1)) s
    (fun s q => updQp s q (fun x => { x with marked := false, paging := 0 }))

/-- [R400] WRITEBACK begins for every marked slot: the first byte of its image is read (a nanosecond after the mark: DESIGN CHOICE, log 110). -/
def beginWritebacks (s : State) : State :=
  foldS ((s.ep.qps.cells.filter (fun kv => kv.2.any (fun x => x.marked && x.resident && x.paging == 0))).map (·.1)) s
    (fun s q => updQp s q (fun x => { x with paging := 3 }))

/-- [R396] the image of a queue pair: the control block, whose bytes 0 to 4,063 no rule lays out (log 17), and the trailer with its CRC. While VALID
is 0 FT is stamped nowhere (R142) and the trailer carries zero (DESIGN CHOICE, log 100). -/
def imageOf (s : State) (q : Nat) (x : Qp) : List Byte :=
  let l := (List.range 4064).map (Config.controlBlock s.free) ++ leBytes 4 0x4F4E5958 ++ leBytes 3 q ++ leBytes 1 0 ++
    leBytes 4 x.ring.epoch.toNat ++ leBytes 8 (if s.tu.valid then s.clk.ft.toNat else 0) ++ leBytes 8 0
  l ++ leBytes 4 (crc32c l).toNat

/-- [R393 R396 R398] a resident queue pair's image is written to a slot of the store, while its PF0 may master the bus, and its stack slot is
free. An image that Onyx may not read is not written. -/
def pageOut (s : State) (q : Nat) : State :=
  match getQp s q with
  | none => s
  | some x =>
    match if (s.fn (qpPf0 s x)).bme then freeBackSlot s (qpEp s x) else none, slotDenied s x false with
    | some _, some t => denied (updQp s q (fun x => { x with marked := false, paging := 0 })) (engineMaster x.home engOnyx) t
    | some slot, none =>
      let addr := (s.hostEp (qpEp s x)).backBase.toNat + slot * 4096
      let t := drawn (dma s (qpPf0 s x) addr (imageOf s q x))
      let t := updHost t (qpEp s x) (fun h => { h with images := h.images.set slot (some q) })
      let t := updQp t q (fun x => { x with marked := false, paging := 0, resident := false, image := some slot })
      let t := count t .quadrant x.home .pageOut
      updQuad t x.home (fun y => { y with slotsUsed := y.slotsUsed - 1 })
    | none, _ => updQp s q (fun x => { x with marked := false, paging := 0 })

/-- [R393 R400] the page-out of a marked victim has ended: page-ins that wait take the slot, and a use that stalled behind it pages the queue
pair in again. -/
def evictDone (s : State) (q : Nat) : State :=
  match getQp s q with
  | none => s
  | some x =>
    if x.marked && x.resident then
      let t := servePageIn (pageOut s q) x.home
      if x.stalled then startPageIn (updQp t q (fun x => { x with stalled := false })) q else t
    else s

/-- The nudged or woken queue polls at once: ACTIVE at POLL_ACTIVE, one read of the doorbell record (R280, R282), after the one that is
outstanding where there is one. -/
def pollNow (s : State) (q : Nat) : State :=
  match ringOf s q with
  | none => s
  | some (f, r) =>
    if r.stopped || queueQuiesced s q then s
    else if r.reading then updRing s q (fun r => { r with again := true })
    else
      let t := readOut s f r.db 8 q
      let t := updRing t q (fun r => { r with reading := true, pollAt := s.clk.now })
      count t .host (epOfFn s f) .dbPoll

/-- [R301] an SRQ entry that meets an error of its own (R291). -/
def failRecv (s : State) (srq : Nat) (e : Ent) (status : Nat) : State :=
  let t := completeRecv s srq e.wqe 0 e.op status 0 [] false e.recvTag
  let t := updRing t srq (fun r => { r with ents := r.ents.filter (fun y => y.idx != e.idx), head := r.head + BitVec.ofNat 32 e.nslots })
  errorSrq t srq status e.wqe

end Sys2Proof.Machine
end

