-- ==== Sys2Proof/Machine/CohOps.lean ====
section
/-! DEFINITION. Shared operations of Onyx and the coherence directory: number spaces, engines' uses of queues and trees,
answers at a requester, revoking a window (R34, R319, R389, R399 to R405). -/

namespace Sys2Proof.Machine

/-! ### Number spaces -/

/-- [R389] the next number of a space whose numbers end before `top`: never-assigned ones first, in ascending order, then the one
freed longest ago whose quarantine has ended. -/
def NumSpace.take (n : NumSpace) (top : Nat) : Option (Nat × NumSpace) :=
  if n.fresh < top then some (n.fresh, { n with fresh := n.fresh + 1 })
  else (n.freed.find? (fun x => x.2)).map (fun x => (x.1, { n with freed := n.freed.erase x }))

/-- [R389] a number is freed; `ready` where the space has no quarantine. -/
def NumSpace.give (n : NumSpace) (num : Nat) (ready : Bool) : NumSpace := { n with freed := n.freed ++ [(num, ready)] }

/-- [R389] the quarantine of a number has ended. -/
def NumSpace.endQuarantine (n : NumSpace) (num : Nat) : NumSpace :=
  { n with freed := n.freed.map (fun x => if x.1 = num then (num, true) else x) }

/-! ### Uses of lines by engines -/

/-- [R34 R392] the line a queue is used through: a resident queue pair's context, the map entry of one that is not, a small queue's context. -/
def queueLine (s : State) (q : Nat) : LineId :=
  match getQp s q with
  | some x => { kind := if x.resident then 0 else 9, num := q, idx := 0 }
  | none => { kind := 1, num := q, idx := 0 }

/-- [R34 R400] an engine of its quadrant uses a queue: a denied use is not performed, one that meets the slot's page-out stalls, and a hit on a
slot marked for eviction keeps it. -/
def useQueue (s : State) (f q eng : Nat) : Sum State State :=
  if inWriteback s q then .inl (stallUse s q)
  else match engineUse s (quadOfHost (hostOfFn f)) eng true (queueLine s q) with
  | .inl t => .inl t
  | .inr t => .inr (touchQp t q)

/-- [R23 R31 R39 R355] Opal uses a tree's entry: a denied use is not performed; the tree cache of the tree's quadrant takes the entry, the last
used first, 4,096 at most. -/
def useTree (s : State) (id : Nat) : Sum State State :=
  match engineUse s (treeQuad id) engGarnet true { kind := 5, num := id, idx := 0 } with
  | .inl t => .inl t
  | .inr t => .inr (updQuad t (treeQuad id) (fun x => { x with treeCache := (id :: x.treeCache.filter (· != id)).take 4096 }))

/-- [R404] a requester that has its answer and every ACK holds the line, and the home's transaction ends. -/
def finishReq (s : State) (c : Nat) (l : LineId) : State :=
  let x := getLine s c l
  if x.req.isSome && x.answered && decide (x.acksDue ≤ x.acks) then
    let s := updLine s c l (fun x =>
      { x with st := x.target, dirty := if x.target = .m then true else x.dirty, req := none, acksDue := 0, acks := 0, answered := false,
               target := .i, touched := s.clk.now })
    endBusy (markVictim s c l) l
  else s

/-- [R404] DATA or GRANT reaches its requester. -/
def answerReqst (s : State) (c : Nat) (l : LineId) (acks : Nat) (target : Moesi) : State :=
  let x := getLine s c l
  if x.req.isSome && !x.answered && decide (x.phase ≠ 2) then
    finishReq (updLine s c l (fun x => { x with acksDue := acks, answered := true, target := target })) c l
  else s

/-! ### Windows -/

/-- [R319] revoke a window: no cache keeps it, its generation moves on, its index goes into quarantine. -/
def revokeWindow (s : State) (i : Nat) : State :=
  match (s.ep.wins.get i).win with
  | none => s
  | some w =>
    let s := dropLines s 2 i
    let s := updEp s (fun e => { e with wins := e.wins.upd i (fun y => { gen := y.gen + 1, win := none }), wnums := e.wnums.give i false })
    let s := updFn s w.fn (fun y => { y with winUse := y.winUse - 1 })
    let s := updQuad s w.home (fun y => { y with winUsed := y.winUsed - 1 })
    count s .host (epOfFn s w.fn) .revoke

end Sys2Proof.Machine
end

