-- ==== Sys2Proof/Machine/AdminOps.lean ====
section
/-! DEFINITION. Shared operations of the admin queues: starting commands in order, completions, assigning and freeing numbers,
nudge indices and contexts, destruction that waits, registering a window (R87, R104 to R106, R134 to R139, R292, R389). -/

namespace Sys2Proof.Machine

/-! ### Admin slots -/

def aqOp (e : List Byte) : Nat := leAt e 0 2
def aqTag (e : List Byte) : Nat := leAt e 2 2
def aqFence (e : List Byte) : Bool := byteAt e 4 % 2 == 1

/-- [R134] commands Molzu executes, and the opcodes there are. -/
def aqMolzu (op : Nat) : Bool := op == 0x10 || op == 0x11
def aqKnown (op : Nat) : Bool := decide (1 ≤ op) && decide (op ≤ 0x11)

/-- [R135] the bytes (offset, length) of an admin slot that a command names; the top byte of an identifier is reserved. -/
def aqFields (op : Nat) : List (Nat × Nat) :=
  match op with
  | 0x01 => [(8, 3), (12, 3), (16, 3), (20, 3), (24, 1), (25, 1), (26, 2), (28, 1), (32, 8), (40, 8), (48, 8)]
  | 0x02 => [(8, 3), (12, 1), (13, 1), (16, 3), (20, 3), (24, 3), (28, 3)]
  | 0x04 => [(8, 3), (12, 3), (16, 1), (17, 1), (24, 8), (32, 8)]
  | 0x06 => [(8, 1), (9, 1), (10, 2), (16, 8), (24, 8)]
  | 0x08 => [(9, 1), (10, 2), (16, 8)]
  | 0x0A => [(8, 1)]
  | 0x0C => [(8, 3), (12, 1), (13, 1), (16, 8)]
  | 0x0D => [(8, 4)]
  | 0x0E => [(8, 1), (12, 3), (16, 8), (24, 8)]
  | 0x0F => [(8, 1), (12, 3), (16, 2), (24, 8)]
  | 0x10 => [(8, 4), (12, 4), (16, 4), (20, 4), (24, 4)]
  | 0x11 => [(8, 4)]
  | _ => [(8, 3)]

/-- [R16 R104 R135] every reserved byte and flag bit of a slot is zero. -/
def aqClean (e : List Byte) : Bool :=
  decide (byteAt e 4 < 2) && zeroAt e 5 3 &&
    (List.range 56).all (fun i => (aqFields (aqOp e)).any (fun f => decide (f.1 ≤ 8 + i) && decide (8 + i < f.1 + f.2)) || byteAt e (8 + i) == 0)

/-- [R105] of the fetched commands, in order: the next one hardware starts, and those handed to Molzu. `clear`: no earlier command
of the queue is still to complete. A FENCE waits for that, and holds back all that follows it. -/
def aqWalk : Bool → List (List Byte) → Option (List Byte) × List (List Byte)
  | _, [] => (none, [])
  | clear, e :: rest =>
    if aqFence e && !clear then (none, [])
    else if aqMolzu (aqOp e) then ((aqWalk false rest).1, e :: (aqWalk false rest).2)
    else (some e, [])

/-- [R292 R293 R319] a command of this function's queue that has started and waits. -/
def aqDestroys (s : State) (f : Nat) : Bool :=
  s.ep.aqWaits.any (fun w => w.fn == f) ||
  s.ep.qps.cells.any (fun kv => kv.2.any (fun x => x.destroy.any (fun d => d.1 == f))) ||
  s.ep.srqs.cells.any (fun kv => kv.2.any (fun x => x.destroy.any (fun d => d.1 == f)))

def updAq (s : State) (f : Nat) (g : AdminQ → AdminQ) : State := updFn s f (fun x => { x with aq := g x.aq })

/-- [R106] with ENABLE clear and nothing started left, the queue is DISABLED. -/
def aqSettle (s : State) (f : Nat) : State :=
  let a := (s.fn f).aq
  if !a.enable && a.state == 1 && a.fetched.isEmpty && !aqDestroys s f then updAq s f (fun a => { a with state := 0 }) else s

/-- [R104] write one completion, and signal vector 1 where asked. -/
def aqComplete (s : State) (f tag status r0 r1 : Nat) : State :=
  let a := (s.fn f).aq
  if a.state = 3 then s
  else
    let n := 2 ^ a.log2
    let s := dma s f (a.cqBase.toNat + a.cqTail % n * 16)
      (leBytes 2 tag ++ leBytes 2 status ++ leBytes 4 r0 ++ leBytes 4 r1 ++ leBytes 3 0 ++ [if a.cqTail / n % 2 = 0 then 0x80 else 0])
    let s := updAq s f (fun a => { a with cqTail := (a.cqTail + 1) % (2 * n) })
    aqSettle (if a.irqEn then sendMsix s f 1 else s) f

/-- [R105] complete commands of no opcode, when their turn comes. -/
def aqSweep (s : State) (f : Nat) : Nat → State
  | 0 => s
  | k + 1 =>
    match (aqWalk (!aqDestroys s f) (s.fn f).aq.fetched).1 with
    | none => s
    | some e =>
      if aqKnown (aqOp e) then s
      else aqSweep (aqComplete (updAq s f (fun a => { a with fetched := a.fetched.erase e })) f (aqTag e) stINVALID_OPCODE 0 0) f k

def aqSweepAll (s : State) (f : Nat) : State := aqSweep s f (s.fn f).aq.fetched.length

/-- What a command answers: its status and results, or nothing yet. -/
abbrev AqAnswer := Option (Nat × Nat × Nat)
def aqSay (status : Nat) : AqAnswer := some (status, 0, 0)

/-- [R105] the fetched command of opcode `op` whose turn has come (Molzu's also need Molzu). -/
def aqTurn (s : State) (f op : Nat) : Option (List Byte) :=
  let a := (s.fn f).aq
  let w := aqWalk (!aqDestroys s f) a.fetched
  if aqMolzu op then (if s.boot.fwReady && a.state != 3 then w.2.find? (fun e => aqOp e == op) else none)
  else if a.state != 1 then none
  else
    w.1.bind (fun e => if aqOp e = op then some e else none)

/-- A fetched command leaves the queue as it starts. -/
def aqTaken (s : State) (f : Nat) (e : List Byte) : State := updAq s f (fun a => { a with fetched := a.fetched.erase e })

/-- [R105] start the command `op` of a function's queue, if its turn has come, and complete it. -/
def runAq (s : State) (f op : Nat) (act : State → List Byte → State × AqAnswer) : State :=
  match aqTurn s f op with
  | none => s
  | some e =>
    let r := if aqClean e then act (aqTaken s f e) e else (aqTaken s f e, aqSay stINVALID_FIELD)
    match r.2 with
    | some (st, r0, r1) => aqSweepAll (aqComplete r.1 f (aqTag e) st r0 r1) f
    | none => aqSweepAll r.1 f

/-- [R106] commands fetched but not started complete with FLUSHED; those Molzu has taken stay, to complete. -/
def aqFlush (s : State) (f : Nat) : State :=
  let a := (s.fn f).aq
  let w := aqWalk (!aqDestroys s f) a.fetched
  (a.fetched.filter (fun e => !w.2.contains e)).foldl (fun s e => aqComplete s f (aqTag e) stFLUSHED 0 0)
    (updAq s f (fun a => { a with fetched := w.2 }))

/-- [R106] the queue goes to ERROR. -/
def aqError (s : State) (f status : Nat) : State :=
  raiseCause (updAq (aqFlush s f) f (fun a => { a with state := 2, errCode := status })) f causeAqErr

/-! ### Numbers, quotas and places -/

/-- [R389] how many numbers each space has. -/
def queueTop : Nat := 0xFFFFFF
def windowTop : Nat := 0xFFFFFF
def pdTop : Nat := 0x100000

/-- [R139] a VF's limit; PFs have none. -/
def within (s : State) (f use limit : Nat) : Bool := !isVf s f || limit == 0xFFFFFFFF || decide (use < limit)

/-- [R388] entries per stack. -/
def smallMax : Nat := 1048576
def winMax : Nat := 4194304
def pdMax : Nat := 262144
def streamMax : Nat := 1048576

/-- [R91] vectors of a function. -/
def vectorsOf (s : State) (f : Nat) : Nat := if isPf0 s f then 2048 else 64
def vectorOk (s : State) (f v : Nat) : Bool := decide (2 ≤ v) && decide (v < vectorsOf s f)

/-- [R390] the home of a new context of a function. -/
def homeOf (f : Nat) : Nat := quadOfHost (hostOfFn f)

/-- The protection domain of a queue. -/
def pdOfQueue (s : State) (q : Nat) : Option Nat :=
  match getQp s q with
  | some x => some x.pd
  | none => (getSrq s q).map (·.pd)

/-- [R87] pages of a function's BAR2. -/
def nudgePages (s : State) (f : Nat) : Nat := if isPf0 s f then 16384 else 256

/-- [R87] a free nudge index of a function whose page belongs to no other domain: the lowest. -/
def nudgeIndex (s : State) (f pd : Nat) : Option Nat :=
  let mine := s.ep.nudges.cells.filterMap (fun kv => if kv.1 / 2 ^ 23 = f then kv.2.map (fun q => (kv.1 % 2 ^ 23, q)) else none)
  let cand := (List.range (min (nudgePages s f) (mine.length + 1))).find? (fun p =>
    let here := mine.filter (fun iq => iq.1 / 512 == p)
    decide (here.length < 512) && here.all (fun iq => pdOfQueue s iq.2 == some pd))
  cand.bind (fun p => ((List.range 512).find? (fun i => !mine.any (fun iq => iq.1 == p * 512 + i))).map (p * 512 + ·))

/-! ### Freeing contexts -/

/-- [R389 R400] a queue number is freed, with its nudge slot and its map entry's line. -/
def freeNumber (s : State) (q : Nat) : State :=
  updEp (dropLines s 9 q) (fun e => { e with kinds := e.kinds.set q .none, qnums := e.qnums.give q false,
                                             nudges := e.nudges.eraseIf (fun _ v => v == some q) })

/-- The queue pair whose own work waits for a translation. -/
def AtsWait.qpOf : AtsWait → Option Nat
  | .pkt _ _ => none
  | .queue q => some q
  | .send q _ _ => some q

/-- A queue pair's context is freed, wherever it lies; its slot may serve a waiting page-in. -/
def freeQp (s : State) (q : Nat) : State :=
  match getQp s q with
  | none => s
  | some x =>
    let ep := qpEp s x
    let s := dropShaped (dropWaiting s q) q (fun _ => true)
    let s := match x.srq with
      | some srq => updSrq s srq (fun r => { r with orphans := r.orphans ++ x.matched })
      | none => s
    let s := match x.image with
      | some i => if x.resident then s else updHost s ep (fun h => { h with images := h.images.set i none })
      | none => s
    let s := updQuad s x.home (fun y =>
      { y with slotsUsed := if x.resident || x.paging == 2 then y.slotsUsed - 1 else y.slotsUsed,
               pageInWait := y.pageInWait.filter (· != q) })
    let s := updQuad s x.strm (fun y => { y with streamUsed := if x.garnet then y.streamUsed - 1 else y.streamUsed })
    let s := updFn s x.fn (fun y => { y with qUse := y.qUse - 1 })
    let s := dropLines (dropLines s 0 q) 4 q
    let s := freeNumber (updEp s (fun e => { e with qps := e.qps.set q none, ats := e.ats.filter (fun a => a.what.qpOf != some q) })) q
    servePageIn s x.home

/-- [R340 R400] an SRQ's context is freed, with what it holds; queue pairs that named it have none. -/
def freeSrq (s : State) (q : Nat) : State :=
  match getSrq s q with
  | none => s
  | some r =>
    let s := freeChunks s r.home r.fn (r.unexp.flatMap (·.pool)).length
    let s := foldS ((s.ep.qps.cells.filter (fun kv => kv.2.any (fun x => x.srq == some q))).map (·.1)) s (fun s n => updQp (dropWaiting s n) n (fun x => { x with srq := none }))
    let s := updSrqStore s q (fun r => { r with posted := [], unexp := [], recvs := [] })
    let s := updQuad s r.home (fun y => { y with smallUsed := y.smallUsed - 1 })
    let s := updFn s r.fn (fun y => { y with qUse := y.qUse - 1 })
    freeNumber (updEp (dropLines (dropLines (dropLines s 1 q) 7 q) 8 q) (fun e => { e with srqs := e.srqs.set q none })) q

def freeCq (s : State) (q : Nat) : State :=
  match getCq s q with
  | none => s
  | some c =>
    let s := updQuad s c.home (fun y => { y with smallUsed := y.smallUsed - 1 })
    let s := updFn s c.fn (fun y => { y with cqUse := y.cqUse - 1 })
    freeNumber (updEp (dropLines s 1 q) (fun e => { e with cqs := e.cqs.set q none })) q

def freeEq (s : State) (q : Nat) : State :=
  match s.ep.eqs.get q with
  | none => s
  | some c =>
    let s := updQuad s c.home (fun y => { y with smallUsed := y.smallUsed - 1 })
    freeNumber (updEp (dropLines s 1 q) (fun e => { e with eqs := e.eqs.set q none })) q

/-- PDIDs have no quarantine (R389). -/
def freePd (s : State) (d : Nat) : State :=
  match s.ep.pds.get d with
  | none => s
  | some c =>
    let s := updQuad s c.home (fun y => { y with pdUsed := y.pdUsed - 1 })
    updEp (dropLines s 3 d) (fun e => { e with pds := e.pds.set d none, pnums := e.pnums.give d true })

/-- The numbers of a table whose value satisfies `p`. -/
def numsOf {α : Type} (t : Tbl (Option α)) (p : α → Bool) : List Nat := (t.cells.filter (fun kv => kv.2.any p)).map (·.1)

/-- [R398 R461] every context of a function is destroyed, with nothing written to its host. -/
def destroyFn (s : State) (f : Nat) : State :=
  let s := foldS (numsOf s.ep.qps (fun x => x.fn == f)) s freeQp
  let s := foldS (numsOf s.ep.srqs (fun x => x.fn == f)) s freeSrq
  let s := foldS (numsOf s.ep.cqs (fun x => x.fn == f)) s freeCq
  let s := foldS (numsOf s.ep.eqs (fun x => x.fn == f)) s freeEq
  let s := foldS ((s.ep.wins.cells.filter (fun kv => kv.2.win.any (fun w => w.fn == f))).map (·.1)) s revokeWindow
  let s := updEp s (fun e => { e with aqWaits := e.aqWaits.filter (fun w => w.fn != f) })
  foldS (numsOf s.ep.pds (fun x => x.fn == f)) s freePd

/-! ### Destruction that waits (R292) -/

/-- The queue pair a data read serves. -/
def DataRead.qpOf : DataRead → Nat
  | .send q _ _ => q
  | .resp q _ _ _ _ _ _ => q
  | .coll q _ _ _ _ _ => q

/-- No host read of the ring is outstanding and nothing it covers is left to flush. -/
def Ring.quiet (r : Ring) : Bool :=
  !r.reading && r.fetching == 0 && (r.stopped || (r.partial_.isEmpty && r.index == r.fetch && r.slotWait.isNone)) &&
    r.chainQ.isEmpty

/-- A completion of the queue, or (number 0) a FLUSHED receive, still waits for room in a CQ. -/
def owesCq (s : State) (cq q : Nat) : Bool :=
  (getCq s cq).any (fun c => c.waiting.any (fun e => leAt e 4 3 == q && (q != 0 || leAt e 2 2 == stFLUSHED)))

def qpQuiet (s : State) (q : Nat) (x : Qp) : Bool :=
  x.ring.quiet && !owesCq s x.sendCq q && x.paging != 2 && !x.ring.headDue &&
    !(s.ep.reads.get (qpEp s x)).any (fun d => d.qpOf == q) && !(s.hostEp (qpEp s x)).atomics.any (fun a => a.qp == q)

def finishDestroy (s : State) (q : Nat) : State :=
  match getQp s q with
  | some x =>
    match x.destroy with
    | some (f, tag) => if qpQuiet s q x then aqSweepAll (aqComplete (freeQp s q) f tag.toNat stSUCCESS 0 0) f else s
    | none => s
  | none =>
    match getSrq s q with
    | some r =>
      match r.destroy with
      | some (f, tag) =>
        if r.ring.quiet && !owesCq s r.cq 0 then aqSweepAll (aqComplete (freeSrq s q) f tag.toNat stSUCCESS 0 0) f else s
      | none => s
    | none => s

/-! ### Abort (R137, R293, R348) -/

/-- [R293] entries up to an INDEX are still to be fetched. -/
def Ring.unread (r : Ring) (upTo : BitVec 32) : Bool :=
  !r.stopped && (r.fetching != 0 || r.slotWait.isSome || (r.fetch != upTo && decide ((upTo - r.fetch).toNat < 2 ^ 31)))

/-- [R137 R293 R348 R363] AQ_ABORT of a send entry: the oldest one fetched whose WQE_ID matches (log 99); a tagged send or a collective that
has been handed over is past its commit point. -/
def abortSend (s : State) (q : Nat) (x : Qp) (wqe : BitVec 16) : State × AqAnswer :=
  match x.ring.ents.find? (fun e => e.wqe == wqe && e.st != 2) with
  | none => (s, aqSay (if x.ring.ents.any (fun e => e.wqe == wqe) || x.ring.done.any (fun d => d.1 == wqe) then stALREADY_DONE else stNOT_FOUND))
  | some e =>
    if (e.op = 0x10 ∨ e.op = 0x20) ∧ e.handed = true then (s, aqSay stALREADY_DONE) else
    let mine := x.pend.filter (fun p => p.owner == .ent e.idx)
    let s := dropShaped s q (fun n => mine.any (fun p => p.psn == n))
    let s := updQp s q (fun x => { x with pend := x.pend.filter (fun p => p.owner != .ent e.idx) })
    (issueFetch (completeEnt s q e.idx stABORTED 0) q, aqSay stSUCCESS)

/-- [R348] a message has matched the receive: its data arrives, or its queue pair has gone. -/
def recvMatched (s : State) (q : Nat) (r : Srq) (wqe : BitVec 16) (tag : BitVec 64) : Bool :=
  let named (m : Matched) : Bool := m.wqe == wqe && m.ctag == tag
  r.orphans.any named || s.ep.qps.cells.any (fun kv => kv.2.any (fun x => x.srq == some q &&
    (x.matched.any named || (!r.garnet && x.rxMsgs.any (fun m => m.wqe == wqe && !m.refused)))))

/-- [R137 R348] AQ_ABORT of a receive, posted or still in its ring, named by WQE_ID and, for a tagged one, its completion tag. -/
def abortRecv (s : State) (q : Nat) (r : Srq) (wqe : BitVec 16) (tag : BitVec 64) : State × AqAnswer :=
  let fetched := r.ring.ents.find? (fun e => e.st == 0 && e.wqe == wqe && (!r.garnet || e.recvTag == tag))
  match r.posted.find? (fun p => p.wqe == wqe && p.ctag == tag), r.recvs.find? (fun p => p.wqe == wqe), fetched with
  | some p, _, _ =>
    let s := updSrqStore s q (fun r => { r with posted := r.posted.erase p })
    (completeRecv s q wqe 0 0x41 stABORTED 0 [] false tag, aqSay stSUCCESS)
  | _, some p, _ =>
    let s := updSrq s q (fun r => { r with recvs := r.recvs.erase p })
    (completeRecv s q wqe 0 0x40 stABORTED 0 [], aqSay stSUCCESS)
  | _, _, some e =>
    let s := updRing s q (fun r => { r with ents := r.ents.filter (fun y => y.idx != e.idx), head := r.head + BitVec.ofNat 32 e.nslots })
    (issueFetch (completeRecv s q wqe 0 e.op stABORTED 0 [] false e.recvTag) q, aqSay stSUCCESS)
  | _, _, _ =>
    if recvMatched s q r wqe tag then (s, aqSay stALREADY_MATCHED)
    else match r.ring.done.find? (fun d => d.1 == wqe && (!r.garnet || d.2.1 == tag)) with
      | some d => (s, aqSay (if r.garnet && d.2.2 then stALREADY_MATCHED else stALREADY_DONE))
      | none => (s, aqSay stNOT_FOUND)

/-- [R137] AQ_ABORT of an entry of a queue that the function owns. -/
def abortAny (s : State) (f : Nat) (send : Bool) (q : Nat) (wqe : BitVec 16) (tag : BitVec 64) : State × AqAnswer :=
  if send then
    match (getQp s q).bind (fun x => if x.fn = f then some x else none) with
    | some x => abortSend s q x wqe
    | none => (s, aqSay stNOT_FOUND)
  else
    match (getSrq s q).bind (fun x => if x.fn = f then some x else none) with
    | some r => abortRecv s q r wqe tag
    | none => (s, aqSay stNOT_FOUND)

/-! ### Admin commands that wait -/

/-- [R319] an atomic that has passed a window's translation is still to be made on host memory. -/
def winBusy (s : State) (w : Nat) : Bool := (List.range 16).any (fun e => (s.hostEp e).atomics.any (fun h => h.cxl && h.win == w))

/-- A command of a function's queue waits. -/
def aqWait (s : State) (f : Nat) (e : List Byte) (what : AqPend) : State :=
  let w : AqWait := { fn := f, tag := BitVec.ofNat 16 (aqTag e), what := what }
  updEp s (fun p => { p with aqWaits := p.aqWaits ++ [w] })

/-- [R293 R319] an admin command that waits ends when what it waits for has come: the entry has been fetched or every entry INDEX covered has,
or the window's last atomic is made. -/
def finishWait (s : State) (w : AqWait) : State :=
  let ends (t : State) (st : Nat) : State :=
    aqSweepAll (aqComplete (updEp t (fun e => { e with aqWaits := e.aqWaits.erase w })) w.fn w.tag.toNat st 0 0) w.fn
  match w.what with
  | .revoke i => if winBusy s i then s else ends s stSUCCESS
  | .abort q wqe tag upTo =>
    let r := abortAny s w.fn (!isSrq s q) q wqe tag
    match r.2 with
    | some (st, _, _) => if st = stNOT_FOUND ∧ (ringOf s q).any (fun fr => fr.2.unread upTo) then s else ends r.1 st
    | none => s

/-- Finish every destroy and every waiting command that waits for nothing more. -/
def finishDestroys (s : State) : State :=
  let s := s.ep.aqWaits.foldl finishWait s
  foldS (numsOf s.ep.qps (fun x => x.destroy.isSome) ++ numsOf s.ep.srqs (fun x => x.destroy.isSome)) s finishDestroy

/-! ### Windows -/

/-- [R136 R315] rights, count or extents that a window may not have. -/
def windowBad (rights count : Nat) (extents : List (Nat × Nat)) : Bool :=
  let ex := extents.take count
  decide (rights > 15) || count == 0 || decide (6 < count) || ex.length != count ||
    ex.any (fun al => al.1 % 4096 != 0 || al.2 % 4096 != 0) || decide (2 ^ 63 - 1 < (ex.map (·.2)).foldl (· + ·) 0)

/-- [R136 R315 R138 R139] register a window in a domain: a status, and the key. -/
def registerWindow (s : State) (f pd rights count : Nat) (extents : List (Nat × Nat)) : State × Nat × Nat :=
  let ex := extents.take count
  if windowBad rights count extents then (s, stINVALID_FIELD, 0)
  else if !(s.ep.pds.get pd).any (fun d => d.fn == f) then (s, stNOT_FOUND, 0)
  else if !within s f (s.fn f).winUse (s.fn f).quota.windows then (s, stQUOTA_EXCEEDED, 0)
  else
    let home := homeOf f
    if winMax ≤ (s.quad home).winUsed then (s, stNO_RESOURCES, 0)
    else match s.ep.wnums.take windowTop with
      | none => (s, stNO_RESOURCES, 0)
      | some (i, n) =>
        let w : Win := { fn := f, pd := pd, rights := BitVec.ofNat 4 rights, extents := ex, home := home }
        let gen := (s.ep.wins.get i).gen
        let s := updEp s (fun e => { e with wnums := n, wins := e.wins.set i { gen := gen, win := some w } })
        let s := updQuad s home (fun y => { y with winUsed := y.winUsed + 1 })
        (updFn s f (fun y => { y with winUse := y.winUse + 1 }), stSUCCESS, i * 256 + gen.toNat)

end Sys2Proof.Machine
end

