-- ==== Sys2Proof/Machine/Admin.lean ====
section
/-! DEFINITION. The meanings of the admin queue and of the admin commands (R68, R69, R84, R91, R103 to R106, R134 to R139, R292,
R293, R297 to R299, R302, R319, R320, R329). -/

namespace Sys2Proof.Machine

/-! ### The admin queue's registers -/

/-- [R105] slots the device may fetch now. -/
def AdminQ.room (a : AdminQ) : Nat :=
  let n := 2 * 2 ^ a.log2
  min ((a.sqTail + n - a.sqHead) % n) (2 ^ a.log2 - (a.sqHead + n - a.cqHead) % n)

/-- [R103 R105] AQ.SQ_TAIL is written; what it covers is asked for. -/
def execAqSqTailWrite (fn : Nat) (val : Word32) (s : State) : Res :=
  guardRes (fnExists s fn) (updAq s fn (fun a => { a with sqTail := val.toNat % (2 * 2 ^ a.log2) }))

/-- [R103 R105] AQ.CQ_HEAD is written; free completion slots let fetching resume. -/
def execAqCqHeadWrite (fn : Nat) (val : Word32) (s : State) : Res :=
  guardRes (fnExists s fn) (updAq s fn (fun a => { a with cqHead := val.toNat % (2 * 2 ^ a.log2) }))

/-- [R103 R106 R460] AQ.CTRL is written with ENABLE 1: the queue runs, leaving DISABLED or ERROR, or QUIESCED once bus-master enable
is set again. ERR_CODE, kept while ENABLE is clear, returns to 0 as the queue runs again (DESIGN CHOICE, log 109). -/
def setAqEnable (s : State) (fn : Nat) (irqEn : Bool) : State :=
  updAq s fn (fun a => { a with
    irqEn := irqEn, enable := true,
    state := if a.enable || (a.state == 3 && !(s.fn fn).bme) then a.state else 1,
    errCode := if a.enable || (a.state == 3 && !(s.fn fn).bme) then a.errCode else 0 })
def execAqEnableSet (fn : Nat) (irqEn : Bool) (s : State) : Res := guardRes (fnExists s fn) (setAqEnable s fn irqEn)

/-- [R106] AQ.CTRL is written with ENABLE 0: fetching stops, what has started completes, what has not is FLUSHED, and STATE becomes
DISABLED. -/
def clearAqEnable (s : State) (fn : Nat) (irqEn : Bool) : State :=
  let s := updAq s fn (fun a => { a with irqEn := irqEn, enable := false })
  let a := (s.fn fn).aq
  if a.state = 1 then aqSettle (aqFlush s fn) fn
  else if a.state = 2 then updAq s fn (fun a => { a with state := 0 })
  else s
def execAqEnableClear (fn : Nat) (irqEn : Bool) (s : State) : Res := guardRes (fnExists s fn) (clearAqEnable s fn irqEn)

/-- [R105 R106] command slots arrive in ring order; the command ring cannot be read, or the completion ring has turned out unwritable. -/
def execAqCommandFetch (fn : Nat) (r : AqFetch) (s : State) : Res :=
  guardRes (fnExists s fn)
    (let a := (s.fn fn).aq
     if a.state != 1 || !a.enable || !(s.fn fn).bme then s
     else if !r.cqOk then aqError s fn stHOST_TIMEOUT
     else if a.room == 0 then s
     else
       let s := emit s (.dmaRead fn (a.sqBase.toNat + a.sqHead % 2 ^ a.log2 * 64) 64 0)
       match r.slots with
       | none => aqError s fn stHOST_TIMEOUT
       | some l =>
         let l := l.take a.room
         aqSweepAll (updAq s fn (fun a => { a with sqHead := (a.sqHead + l.length) % (2 * 2 ^ a.log2), fetched := a.fetched ++ l })) fn)

/-! ### Creation -/

def aligned (n k : Nat) : Bool := n % k == 0

/-- [R84] PF1 creates and destroys event queues only. -/
def pf1Denied (s : State) (f op : Nat) : Bool := isPf1 s f && [0x01, 0x04, 0x06, 0x0A, 0x0C].contains op

/-- A CQ of the function. -/
def ownCq (s : State) (f c : Nat) : Bool := (getCq s c).any (fun c => c.fn == f)

/-- [R69] a CQ that is not HYBRID would take both matched receives (of a GARNET SRQ bound to it) and completions of RDMA writes
(of a send queue bound to it). -/
def conflictSend (s : State) (c : Nat) : Bool :=
  (getCq s c).any (fun y => y.mode != 2) && s.ep.srqs.cells.any (fun kv => kv.2.any (fun r => r.garnet && r.cq == c))
def conflictRecv (s : State) (c : Nat) : Bool :=
  (getCq s c).any (fun y => y.mode != 2) && s.ep.qps.cells.any (fun kv => kv.2.any (fun x => x.sendCq == c))

/-- [R286] a HEAD CQ takes no receive completions. -/
def headCq (s : State) (c : Nat) : Bool := (getCq s c).any (fun y => y.mode == 0)

/-- [R393 R394] a slot of a stack for a new queue pair, evicting a victim when none is free. -/
def takeSlot (s : State) (stack : Nat) : Option State :=
  let take (s : State) : State := updQuad s stack (fun y => { y with slotsUsed := y.slotsUsed + 1 })
  if (s.quad stack).slotsUsed < qpSlots s then some (take s)
  else
    match victimOf s stack with
    | none => none
    | some v =>
      let t := pageOut s v
      if (t.quad stack).slotsUsed < qpSlots s then some (take t) else none

/-- [R134 R135 R138 R139 R297 R298 R317 R329] AQ_CREATE_QP. -/
def createQp (s : State) (f : Nat) (e : List Byte) (db : DbRec) : State × AqAnswer :=
  let pd := leAt e 8 3
  let scq := leAt e 12 3
  let rcq := leAt e 16 3
  let srqN := leAt e 20 3
  let garnet := byteAt e 24 % 2 == 1
  let kernel := byteAt e 24 / 2 % 2 == 1
  let sq := leAt e 32 8
  let pdv := (s.ep.pds.get pd).bind (fun d => if d.fn = f then some d else none)
  let srqv := (getSrq s srqN).bind (fun r => if r.fn = f then some r else none)
  let home := homeOf f
  if decide (3 < byteAt e 24) || decide (3 < byteAt e 25) || decide (15 < leAt e 26 2) || decide (byteAt e 28 < 6) || decide (16 < byteAt e 28) ||
      !aligned sq 4096 || !aligned (leAt e 40 8) 8 || !aligned (leAt e 48 8) 8 || (garnet && srqN == 0xFFFFFF) ||
      (garnet && srqv.any (fun r => !r.garnet)) || (kernel && pdv.any (fun d => !d.kernel)) then (s, aqSay stINVALID_FIELD)
  else if pf1Denied s f 0x01 then (s, aqSay stFUNCTION_NOT_ALLOWED)
  else if pdv.isNone || !ownCq s f scq || !ownCq s f rcq || (srqN != 0xFFFFFF && srqv.isNone) then (s, aqSay stNOT_FOUND)
  else if conflictSend s scq || (srqN != 0xFFFFFF && headCq s rcq) then (s, aqSay stMODE_CONFLICT)
  else if !within s f (s.fn f).qUse (s.fn f).quota.queues then (s, aqSay stQUOTA_EXCEEDED)
  else if garnet && decide (streamMax ≤ (s.quad home).streamUsed) then (s, aqSay stNO_RESOURCES)
  else
    match s.ep.qnums.take queueTop, nudgeIndex s f pd, takeSlot s home with
    | some (q, n), some i, some s =>
      let ring : Ring := { log2 := byteAt e 28, base := sq, db := leAt e 40 8, epoch := db.epoch, nudge := i,
                           interval := (s.hostEp (epOfFn s f)).pollActive, lastWork := s.clk.now }
      let x : Qp := { fn := f, pd := pd, sendCq := scq, recvCq := rcq, srq := if srqN = 0xFFFFFF then none else some srqN, garnet := garnet,
                      kernel := kernel, sl := byteAt e 25, pkIdx := leAt e 26 2, headAddr := leAt e 48 8, ring := ring, home := home, strm := home,
                      slot := freeSlotOf s home, gen := s.ep.gens, born := s.ep.gens }
      let s := emit s (.dmaRead f (leAt e 40 8) 8 q)
      let s := updEp s (fun p => { p with gens := p.gens + 1, qnums := n, kinds := p.kinds.set q .qp, qps := p.qps.set q (some x),
                                          nudges := p.nudges.set (f * 2 ^ 23 + i) (some q) })
      let s := updQuad s home (fun y => { y with streamUsed := if garnet then y.streamUsed + 1 else y.streamUsed })
      (updFn s f (fun y => { y with qUse := y.qUse + 1 }), some (stSUCCESS, q, i))
    | _, _, _ => (s, aqSay stNO_RESOURCES)

def execAqCreateQp (fn : Nat) (db : List Byte) (s : State) : Res :=
  guardRes (fnExists s fn) (runAq s fn 0x01 (fun s e => createQp s fn e (decDbRec db)))

/-- [R134 R135 R269 R283 R329] AQ_CREATE_SRQ: its polling starts at once. -/
def createSrq (s : State) (f : Nat) (e : List Byte) (db : DbRec) : State × AqAnswer :=
  let pd := leAt e 8 3
  let cq := leAt e 12 3
  let garnet := byteAt e 16 == 1
  let home := homeOf f
  if decide (1 < byteAt e 16) || decide (byteAt e 17 < 6) || decide (16 < byteAt e 17) || !aligned (leAt e 24 8) 4096 || !aligned (leAt e 32 8) 8 then
    (s, aqSay stINVALID_FIELD)
  else if pf1Denied s f 0x04 then (s, aqSay stFUNCTION_NOT_ALLOWED)
  else if !(s.ep.pds.get pd).any (fun d => d.fn == f) || !ownCq s f cq then (s, aqSay stNOT_FOUND)
  else if headCq s cq || (garnet && conflictRecv s cq) then (s, aqSay stMODE_CONFLICT)
  else if !within s f (s.fn f).qUse (s.fn f).quota.queues then (s, aqSay stQUOTA_EXCEEDED)
  else if smallMax ≤ (s.quad home).smallUsed then (s, aqSay stNO_RESOURCES)
  else
    match s.ep.qnums.take queueTop, nudgeIndex s f pd with
    | some (q, n), some i =>
      let ring : Ring := { log2 := byteAt e 17, base := leAt e 24 8, db := leAt e 32 8, epoch := db.epoch, nudge := i, poll := .active,
                           interval := (s.hostEp (epOfFn s f)).pollActive, lastWork := s.clk.now }
      let r : Srq := { fn := f, pd := pd, cq := cq, garnet := garnet, ring := ring, home := home }
      let s := emit s (.dmaRead f (leAt e 32 8) 8 q)
      let s := updEp s (fun p => { p with qnums := n, kinds := p.kinds.set q .srq, srqs := p.srqs.set q (some r),
                                          nudges := p.nudges.set (f * 2 ^ 23 + i) (some q) })
      let s := updQuad s home (fun y => { y with smallUsed := y.smallUsed + 1 })
      (updFn s f (fun y => { y with qUse := y.qUse + 1 }), some (stSUCCESS, q, i))
    | _, _ => (s, aqSay stNO_RESOURCES)

def execAqCreateSrq (fn : Nat) (db : List Byte) (s : State) : Res :=
  guardRes (fnExists s fn) (runAq s fn 0x04 (fun s e => createSrq s fn e (decDbRec db)))

/-- [R68 R91 R134 R135 R271 R286] AQ_CREATE_CQ: the head record of a HEAD CQ is never read. -/
def createCq (s : State) (f : Nat) (e : List Byte) (head : DbRec) : State × AqAnswer :=
  let home := homeOf f
  if decide (2 < byteAt e 8) || decide (byteAt e 9 < 6) || decide (20 < byteAt e 9) || !aligned (leAt e 16 8) 4096 || !aligned (leAt e 24 8) 8 then
    (s, aqSay stINVALID_FIELD)
  else if pf1Denied s f 0x06 then (s, aqSay stFUNCTION_NOT_ALLOWED)
  else if !vectorOk s f (leAt e 10 2) then (s, aqSay stINVALID_VECTOR)
  else if !within s f (s.fn f).cqUse (s.fn f).quota.cqs then (s, aqSay stQUOTA_EXCEEDED)
  else if smallMax ≤ (s.quad home).smallUsed then (s, aqSay stNO_RESOURCES)
  else
    match s.ep.qnums.take queueTop with
    | some (q, n) =>
      let c : Cq := { fn := f, mode := byteAt e 8, log2 := byteAt e 9, vector := leAt e 10 2, base := leAt e 16 8, headAddr := leAt e 24 8,
                      epoch := if byteAt e 8 = 0 then 0 else head.epoch, home := home }
      let s := if byteAt e 8 = 0 then s else emit s (.dmaRead f (leAt e 24 8) 8 q)
      let s := updEp s (fun p => { p with qnums := n, kinds := p.kinds.set q .cq, cqs := p.cqs.set q (some c) })
      let s := updQuad s home (fun y => { y with smallUsed := y.smallUsed + 1 })
      (updFn s f (fun y => { y with cqUse := y.cqUse + 1 }), some (stSUCCESS, q, 0))
    | none => (s, aqSay stNO_RESOURCES)

def execAqCreateCq (fn : Nat) (head : List Byte) (s : State) : Res :=
  guardRes (fnExists s fn) (runAq s fn 0x06 (fun s e => createCq s fn e (decDbRec head)))

/-- [R91 R134 R135] AQ_CREATE_EQ. -/
def createEq (s : State) (f : Nat) (e : List Byte) : State × AqAnswer :=
  let home := homeOf f
  if decide (byteAt e 9 < 6) || decide (16 < byteAt e 9) || !aligned (leAt e 16 8) 4096 then (s, aqSay stINVALID_FIELD)
  else if !vectorOk s f (leAt e 10 2) then (s, aqSay stINVALID_VECTOR)
  else if smallMax ≤ (s.quad home).smallUsed then (s, aqSay stNO_RESOURCES)
  else
    match s.ep.qnums.take queueTop with
    | some (q, n) =>
      let c : Eq := { fn := f, log2 := byteAt e 9, vector := leAt e 10 2, base := leAt e 16 8, home := home }
      let s := updEp s (fun p => { p with qnums := n, kinds := p.kinds.set q .eq, eqs := p.eqs.set q (some c) })
      (updQuad s home (fun y => { y with smallUsed := y.smallUsed + 1 }), some (stSUCCESS, q, 0))
    | none => (s, aqSay stNO_RESOURCES)

def execAqCreateEq (fn : Nat) (s : State) : Res := guardRes (fnExists s fn) (runAq s fn 0x08 (fun s e => createEq s fn e))

/-- [R134 R135 R389] AQ_CREATE_PD. -/
def createPd (s : State) (f : Nat) (e : List Byte) : State × AqAnswer :=
  let home := homeOf f
  if 1 < byteAt e 8 then (s, aqSay stINVALID_FIELD)
  else if pf1Denied s f 0x0A then (s, aqSay stFUNCTION_NOT_ALLOWED)
  else if pdMax ≤ (s.quad home).pdUsed then (s, aqSay stNO_RESOURCES)
  else
    match s.ep.pnums.take pdTop with
    | some (d, n) =>
      let s := updEp s (fun p => { p with pnums := n, pds := p.pds.set d (some { fn := f, kernel := byteAt e 8 == 1, home := home }) })
      (updQuad s home (fun y => { y with pdUsed := y.pdUsed + 1 }), some (stSUCCESS, d, 0))
    | none => (s, aqSay stNO_RESOURCES)

def execAqCreatePd (fn : Nat) (s : State) : Res := guardRes (fnExists s fn) (runAq s fn 0x0A (fun s e => createPd s fn e))

/-! ### AQ_MODIFY_QP -/

/-- [R300 R307] entering READY: the initial PSN, a path set, and polling. -/
def becomeReady (s : State) (q : Nat) : State :=
  match getQp s q with
  | none => s
  | some x =>
    let a := x.home
    let pos := (s.quad a).lfsr
    let paths := (List.range 16).map (fun i => (Config.lfsr (a * 2 ^ 64 + pos + i)).setWidth 16)
    let s := updQuad s a (fun y => { y with lfsr := y.lfsr + 16 })
    let s := updQp s q (fun x =>
      { x with st := 1, psn := ft32 s, syn := true, paths := paths, pathNext := 0,
               ring := { x.ring with poll := .active, interval := (s.hostEp (epOfFn s x.fn)).pollActive, empty := 0, lastWork := s.clk.now,
                                     stopped := false, held := none } })
    pollNow s q

/-- [R298 R340] ERROR to INIT: transport state discarded, counters zero, polling off until READY. Receives that messages have matched stay
matched. -/
def backToInit (s : State) (q : Nat) : State :=
  updQp s q (fun x =>
    { x with st := 0, psn := 0, syn := true, msn := 0, pend := [], rtt := none, backoff := 0, rnr := 0, rnrPsn := none, cwnd := 262144,
             cutAt := none, paths := [], pathNext := 0, synced := false, expPsn := 0, bitmap := 0, ackDue := 0, ackTs := 0, ackQd := 0,
             rxMsgs := [], rxNext := 0, atomics := [], ctrs := { dflt := 0 }, expMsn := 0, waiting := [], finOwed := [],
             shapSeen := false, ring := { x.ring with poll := .none, headDue := true, stopped := false, held := none } })

/-- [R298 R299] the status of a STATE change. -/
def stateCheck (s : State) (q : Nat) (x : Qp) (new : Nat) (remote : Bool) : Nat :=
  if new = 1 then (if x.st == 0 && (x.remote.isSome || remote) then stSUCCESS else stWRONG_STATE)
  else if new = 2 then (if x.st == 0 || x.st == 1 then stSUCCESS else stWRONG_STATE)
  else (if x.st == 2 && x.ring.quiet && !owesCq s x.sendCq q && x.destroy.isNone then stSUCCESS else stWRONG_STATE)

def modifyQp (s : State) (f : Nat) (e : List Byte) : State × AqAnswer :=
  let q := leAt e 8 3
  let m := byteAt e 12
  let doSt := m % 2 == 1
  let doRem := m / 2 % 2 == 1
  let doCq := m / 4 % 2 == 1
  let new := byteAt e 13
  let scq := leAt e 24 3
  let rcq := leAt e 28 3
  if decide (7 < m) || (doSt && decide (2 < new)) then (s, aqSay stINVALID_FIELD)
  else
    match (getQp s q).bind (fun x => if x.fn = f && x.destroy.isNone then some x else none) with
    | none => (s, aqSay stNOT_FOUND)
    | some x =>
      let st := if doSt then stateCheck s q x new doRem else stSUCCESS
      if st ≠ stSUCCESS then (s, aqSay st)
      else if (doRem || doCq) && x.st != 0 then (s, aqSay stWRONG_STATE)
      else if doCq && (!ownCq s f scq || !ownCq s f rcq) then (s, aqSay stNOT_FOUND)
      else if doCq && (conflictSend s scq || (x.srq.isSome && headCq s rcq)) then (s, aqSay stMODE_CONFLICT)
      else
        let s := if doRem then updQp s q (fun x => { x with remote := some (leAt e 16 3, BitVec.ofNat 24 (leAt e 20 3)) }) else s
        let s := if doCq then updQp s q (fun x => { x with sendCq := scq, recvCq := rcq }) else s
        let s := if !doSt then s
                 else if new = 1 then becomeReady s q
                 else if new = 2 then enterError (drawn s) q (openStatus s)
                 else backToInit s q
        (s, aqSay stSUCCESS)

def execAqModifyQp (fn : Nat) (s : State) : Res := guardRes (fnExists s fn) (runAq s fn 0x02 (fun s e => modifyQp s fn e))

/-! ### Destruction -/

/-- [R138 R292 R381 R460] AQ_DESTROY_QP: its work is ended, and the command completes when its reads, completions and head record are through. A
QUIESCED one makes no further access and is freed at once. -/
def destroyQp (s : State) (f : Nat) (e : List Byte) : State × AqAnswer :=
  let q := leAt e 8 3
  match (getQp s q).bind (fun x => if x.fn = f && x.destroy.isNone then some x else none) with
  | none => (s, aqSay stNOT_FOUND)
  | some x =>
    if x.st = 3 then (freeQp s q, aqSay stSUCCESS) else
    let s := updQp s q (fun x => { x with st := 2, destroy := some (f, BitVec.ofNat 16 (aqTag e)), paging := if x.paging == 2 then 2 else 0,
                                          marked := false, ring := { x.ring with poll := .none, parking := false } })
    let s := updQuad s x.home (fun y => { y with pageInWait := y.pageInWait.filter (· != q) })
    let s := drainQp (abortColls s q) q
    (s, none)

def execAqDestroyQp (fn : Nat) (s : State) : Res :=
  guardRes (fnExists s fn) (finishDestroys (runAq s fn 0x03 (fun s e => destroyQp s fn e)))

/-- [R138 R292 R349] AQ_DESTROY_SRQ. R138 lists no reference that keeps an SRQ: queue pairs that name it lose it (log 39). -/
def destroySrq (s : State) (f : Nat) (e : List Byte) : State × AqAnswer :=
  let q := leAt e 8 3
  match (getSrq s q).bind (fun x => if x.fn = f && x.destroy.isNone then some x else none) with
  | none => (s, aqSay stNOT_FOUND)
  | some _ =>
    let s := updSrq s q (fun x => { x with err := true, destroy := some (f, BitVec.ofNat 16 (aqTag e)),
                                           ring := { x.ring with poll := .none, slotWait := none } })
    (issueFetch (flushPartial (flushSrq s q) q) q, none)

def execAqDestroySrq (fn : Nat) (s : State) : Res :=
  guardRes (fnExists s fn) (finishDestroys (runAq s fn 0x05 (fun s e => destroySrq s fn e)))

/-- [R138] AQ_DESTROY_CQ. -/
def destroyCq (s : State) (f : Nat) (e : List Byte) : State × AqAnswer :=
  let q := leAt e 8 3
  if !ownCq s f q then (s, aqSay stNOT_FOUND)
  else if !(boundQps s q ++ boundSrqs s q).isEmpty then (s, aqSay stIN_USE)
  else (freeCq s q, aqSay stSUCCESS)

def execAqDestroyCq (fn : Nat) (s : State) : Res := guardRes (fnExists s fn) (runAq s fn 0x07 (fun s e => destroyCq s fn e))

/-- [R138] AQ_DESTROY_EQ. No queue is bound to an EQ. -/
def destroyEq (s : State) (f : Nat) (e : List Byte) : State × AqAnswer :=
  let q := leAt e 8 3
  if (s.ep.eqs.get q).any (fun y => y.fn == f) then (freeEq s q, aqSay stSUCCESS) else (s, aqSay stNOT_FOUND)

def execAqDestroyEq (fn : Nat) (s : State) : Res := guardRes (fnExists s fn) (runAq s fn 0x09 (fun s e => destroyEq s fn e))

/-- [R138] AQ_DESTROY_PD. -/
def destroyPd (s : State) (f : Nat) (e : List Byte) : State × AqAnswer :=
  let d := leAt e 8 3
  if !(s.ep.pds.get d).any (fun y => y.fn == f) then (s, aqSay stNOT_FOUND)
  else if s.ep.qps.cells.any (fun kv => kv.2.any (fun x => x.pd == d)) || s.ep.srqs.cells.any (fun kv => kv.2.any (fun x => x.pd == d)) ||
      s.ep.wins.cells.any (fun kv => kv.2.win.any (fun w => w.pd == d)) then (s, aqSay stIN_USE)
  else (freePd s d, aqSay stSUCCESS)

def execAqDestroyPd (fn : Nat) (s : State) : Res := guardRes (fnExists s fn) (runAq s fn 0x0B (fun s e => destroyPd s fn e))

/-! ### Windows and translations -/

/-- [R121 R136] AQ_REGISTER_WINDOW; the list is read once, during the command, and its fields are judged before the function is. -/
def execAqRegisterWindow (fn : Nat) (extents : List Byte) (s : State) : Res :=
  guardRes (fnExists s fn) (runAq s fn 0x0C (fun s e =>
    if decide (15 < byteAt e 12) || byteAt e 13 == 0 || decide (6 < byteAt e 13) then (s, aqSay stINVALID_FIELD)
    else
      let s := emit s (.dmaRead fn (leAt e 16 8) (16 * byteAt e 13) 0)
      if windowBad (byteAt e 12) (byteAt e 13) (decExtents extents) then (s, aqSay stINVALID_FIELD)
      else if pf1Denied s fn 0x0C then (s, aqSay stFUNCTION_NOT_ALLOWED)
      else
      let r := registerWindow s fn (leAt e 8 3) (byteAt e 12) (byteAt e 13) (decExtents extents)
      (r.1, some (r.2.1, r.2.2, 0))))

/-- [R136 R319] AQ_REVOKE_WINDOW: the window is gone at once; the command completes when no atomic that had passed it is still to be made. -/
def execAqRevokeWindow (fn : Nat) (s : State) : Res :=
  guardRes (fnExists s fn) (runAq s fn 0x0D (fun s e =>
    let key := BitVec.ofNat 32 (leAt e 8 4)
    let i := key.toNat / 256
    if !(winOf s key).any (fun w => w.fn == fn) then (s, aqSay stNOT_FOUND)
    else if winBusy s i then
      (aqWait (revokeWindow s i) fn e (.revoke i), none)
    else (revokeWindow s i, aqSay stSUCCESS)))

/-- [R320] AQ_INVALIDATE: drops cached translations of the function, by range and domain, by domain, or all; none with ATS off. -/
def invalidate (s : State) (f : Nat) (e : List Byte) : State × AqAnswer :=
  let mode := byteAt e 8
  let pd := leAt e 12 3
  let a := leAt e 16 8
  let n := leAt e 24 8
  let hit (c : Xlat) : Bool :=
    match mode with
    | 0 => c.pd == pd && decide (c.addr < a + n) && decide (a < c.addr + c.len)
    | 1 => c.pd == pd
    | _ => true
  if 2 < mode then (s, aqSay stINVALID_FIELD)
  else if !(s.fn f).ats then (s, aqSay stSUCCESS)
  else
    let k := ((s.fn f).atsCache.filter hit).length
    (count (updFn s f (fun x => { x with atsCache := x.atsCache.filter (fun c => !hit c) })) .host (epOfFn s f) .invalidate k, aqSay stSUCCESS)

def execAqInvalidate (fn : Nat) (s : State) : Res := guardRes (fnExists s fn) (runAq s fn 0x0E (fun s e => invalidate s fn e))

/-- [R302 R319 R326] the list of a BIND_WINDOW entry is there: a window is registered in the queue pair's domain and its key returned, or the
entry ends with the status the admin command would give. -/
def bindNow (s : State) (q : Nat) (x : Qp) (e : Ent) (extents : List (Nat × Nat)) : State :=
  let r := registerWindow s x.fn x.pd (byteAt e.slot0 8) (byteAt e.slot0 9) extents
  if r.2.1 = stSUCCESS then issueFetch (completeEnt r.1 q e.idx stSUCCESS 0 (leBytes 4 r.2.2)) q
  else completeEnt r.1 q e.idx r.2.1 0

/-- [R302 R319 R326] BIND_WINDOW: the list a turn of the host engine has asked for comes, or the next entry starts and its list is read; one that
breaks a rule of R273 to R275 ends with MALFORMED. The list of an entry that has ended meanwhile serves nothing. -/
def execBindWindow (q : Nat) (extents : List Byte) (s : State) : Res :=
  .next (finishDestroys (match getQp s q with
    | none => s
    | some x =>
      match x.ring.chainQ with
      | (i, true) :: rest =>
        let t := updRing (readBack s x.fn) q (fun r => { r with chainQ := rest })
        match x.ring.ents.find? (fun e => e.idx == i && e.chainRead && e.st == 0) with
        | some e => bindNow (updEnt t q i (fun e => { e with chainRead := false })) q x e (decExtents extents)
        | none => t
      | _ =>
        match x.ring.next with
        | none => s
        | some e =>
          if e.op != 0x08 || x.st != 1 || !x.resident || !fenceOk x.ring e || !mayWork s q x || e.chainRead then noteWorking s q x
          else if e.status ≠ stSUCCESS then failEnt s q e.idx e.status
          else bindNow (emit s (.dmaRead x.fn (leAt e.slot0 16 8) (16 * byteAt e.slot0 9) q)) q x e (decExtents extents)))

/-! ### Abort and quotas -/

/-- [R137 R293 R348] AQ_ABORT. An entry that INDEX covers and that is still to be fetched cannot be told by its WQE_ID yet: the command waits
until it has come (DEDUCED, log 62). -/
def execAqAbort (fn : Nat) (s : State) : Res :=
  guardRes (fnExists s fn) (runAq s fn 0x0F (fun s e =>
    let q := leAt e 12 3
    let wqe := BitVec.ofNat 16 (leAt e 16 2)
    let tag := BitVec.ofNat 64 (leAt e 24 8)
    if 1 < byteAt e 8 then (s, aqSay stINVALID_FIELD)
    else
      let r := abortAny s fn (byteAt e 8 == 0) q wqe tag
      let unread := (ringOf s q).any (fun fr => fr.1 == fn && fr.2.unread fr.2.index)
      if r.2 = aqSay stNOT_FOUND ∧ unread = true ∧ isSrq s q = (byteAt e 8 == 1) then
        (aqWait s fn e (.abort q wqe tag (((ringOf s q).map (·.2.index)).getD 0)), none)
      else r))

/-- [R63 R139] the VF of the issuer's own endpoint that a function number names. -/
def ownVf (s : State) (f n : Nat) : Option Nat :=
  let v := 0x100 + hostOfFn f * 0x80 + n
  if n < 128 && isVf s v && epOfFn s v == epOfFn s f then some v else none

/-- [R139] AQ_SET_QUOTA. -/
def execAqSetQuota (fn : Nat) (s : State) : Res :=
  guardRes (fnExists s fn) (runAq s fn 0x10 (fun s e =>
    if !isPf0 s fn then (s, aqSay stFUNCTION_NOT_ALLOWED)
    else match ownVf s fn (leAt e 8 4) with
      | none => (s, aqSay stNOT_FOUND)
      | some v => (updFn s v (fun y =>
          { y with quota := { queues := leAt e 12 4, cqs := leAt e 16 4, windows := leAt e 20 4, unexp := leAt e 24 4 } }), aqSay stSUCCESS)))

/-- [R134] AQ_QUERY_QUOTA: queues and windows in use. -/
def execAqQueryQuota (fn : Nat) (s : State) : Res :=
  guardRes (fnExists s fn) (runAq s fn 0x11 (fun s e =>
    match ownVf s fn (leAt e 8 4) with
    | none => (s, aqSay stNOT_FOUND)
    | some v => (s, some (stSUCCESS, (s.fn v).qUse, (s.fn v).winUse))))

end Sys2Proof.Machine
end

