-- ==== Sys2Proof/Machine/Arrive.lean ====
section
/-! DEFINITION. Shared operations on arriving TRANSPORT packets: the checks of R324, synchronisation, the receive bitmap and
acknowledgement, and answering a verdict (R300, R306, R309, R310, R324, R394). -/

namespace Sys2Proof.Machine

/-- A TRANSPORT packet taken from an endpoint's internal port. -/
structure Arrival where
  p : Pkt
  th : TransHdr
  ext : Ext
  payload : List Byte
  deriving DecidableEq, Repr

/-- [R24 R29] the engine takes the packet at an endpoint's internal port, once it is whole: its buffer space is free. -/
def takeHead (s : State) (ep : Nat) : Option (Pkt × State) :=
  match (s.hostEp ep).rx with
  | [] => none
  | q :: rest => if stillArriving s q.orig then none else some (q.pkt, freeOrigin (updHost s ep (fun h => { h with rx := rest })) q.orig)

/-- [R301 R331] the wire opcodes of TRANSPORT packets. -/
def knownOpcode (op : Nat) : Bool := (decide (1 ≤ op) && decide (op ≤ 8)) || (decide (0x10 ≤ op) && decide (op ≤ 0x12))

/-- [R220 R234] packets of a reserved OPCODE at the front of an endpoint's internal port are consumed: one with a bad ICRC is counted, and no
rule gives another effect (log 103). -/
def consumeReserved (s : State) (ep : Nat) : Nat → State
  | 0 => s
  | n + 1 =>
    match takeHead s ep with
    | none => s
    | some (p, t) =>
      let reserved := match p.body with | .transport th _ _ => !knownOpcode th.opcode | _ => true
      if reserved then consumeReserved (if p.icrc != icrcOf p then count t .host ep .icrcErr else t) ep n else s

/-- [R24] the first packet waiting at an endpoint, once reserved ones before it are consumed, if it is a TRANSPORT packet of wire opcode `op`;
taken out. -/
def takeRx (s : State) (ep op : Nat) : Option (Arrival × State) :=
  match takeHead (consumeReserved s ep (s.hostEp ep).rx.length) ep with
  | none => none
  | some (p, t) =>
    match p.body with
    | .transport th ext payload => if th.opcode = op then some (⟨p, th, ext, payload⟩, t) else none
    | _ => none

/-- [R324 R226] the checks up to the partition check: the queue pair, or the state after the discard. -/
def arrivalChecks (s : State) (ep : Nat) (a : Arrival) : Sum State (Nat × Qp) :=
  let q := a.th.destQpn
  if a.p.icrc != icrcOf a.p then .inl (count s .host ep .icrcErr)
  else match getQp s q with
    | none => .inl (limited (count s .host ep .noQp) .noQp ep oneSec (fun t n more => recordEv t .noQp (quadOfEp ep) (endpointOf s ep) q n 0 more))
    | some x =>
      if epOfFn s x.fn ≠ ep then
        .inl (limited (count s .host ep .noQp) .noQp ep oneSec (fun t n more => recordEv t .noQp (quadOfEp ep) (endpointOf s ep) q n 0 more))
      else if x.remote ≠ some (a.th.srcQpn, a.p.hdr.src) then .inl (count s .host ep .srcMismatch)
      else if !keyInTable (s.fn x.fn).pkeys 16 a.p.hdr.pkey then
        .inl (pkeyFail (count s .host ep .pkeyDeliverDrop) (quadOfEp ep) x.fn a.p.hdr.pkey)
      else .inr (q, x)

/-- [R309] the bitmap with `n` bits set from `d` on. -/
def setBits (b : BitVec 4096) (d n : Nat) : BitVec 4096 := b ||| ((BitVec.ofNat 4096 (2 ^ n - 1)) <<< d)

/-- [R309] advance expected past every set bit. -/
def advanceExp : Nat → BitVec 32 → BitVec 4096 → BitVec 32 × BitVec 4096
  | 0, e, b => (e, b)
  | k + 1, e, b => if b.getLsbD 0 then advanceExp k (e + 1) (b >>> 1) else (e, b)

/-- [R309 R310] a request's PSNs are received: the bitmap, and an ACK at once or after ACK_COALESCE requests. -/
def acceptPsn (s : State) (q : Nat) (a : Arrival) (n : Nat) : State :=
  match getQp s q with
  | none => s
  | some x =>
    let d := (a.th.psn - x.expPsn).toNat
    let filled := d == 0 && x.bitmap != 0
    let e := advanceExp 4096 x.expPsn (setBits x.bitmap d n)
    let ep := epOfFn s x.fn
    let t := updQp s q (fun x =>
      { x with expPsn := e.1, bitmap := e.2, ackDue := x.ackDue + 1, ackAt := if x.ackDue = 0 then s.clk.now else x.ackAt, ackTs := a.th.ts, ackQd := a.p.hdr.qdelay.toNat })
    let t := count t .host ep .rxPkt
    if d != 0 || filled || a.th.ackReq || a.th.syn || decide ((s.hostEp ep).ackCoalesce ≤ x.ackDue + 1) then sendAck t q 0 0 0 else t

/-- Remember the TS and QDELAY_MAX an answer echoes. -/
def noteEcho (s : State) (q : Nat) (a : Arrival) : State :=
  updQp s q (fun x => { x with ackTs := a.th.ts, ackQd := a.p.hdr.qdelay.toNat })

/-- [R306] refuse a request with a NAK code. -/
def refuse (s : State) (q : Nat) (a : Arrival) (code : Nat) : State :=
  let hint := (getQp s q).elim 0 (fun x => (s.hostEp (epOfFn s x.fn)).rnrHint)
  sendAck (noteEcho s q a) q code a.th.psn (if code = 1 then hint else 0)

/-- [R309] a duplicate request: discarded, counted, answered by an ACK. -/
def duplicate (s : State) (q : Nat) (a : Arrival) : State :=
  match getQp s q with
  | none => s
  | some x => sendAck (noteEcho (count s .host (epOfFn s x.fn) .dupRx) q a) q 0 0 0

/-- [R300 R340] the first MSN a resynchronised stream awaits. -/
def resyncMsn (a : Arrival) (cls : Bool) : BitVec 32 := if cls then a.th.msn else a.th.msn + 1

/-- [R300 R340] discard the receive state and resynchronise on this packet. -/
def resync (s : State) (q : Nat) (x : Qp) (a : Arrival) : State :=
  let tagged := a.th.opcode == 0x10 || a.th.opcode == 0x11
  let t := dropWaiting s q
  let t := updEp (updQp t q (fun x => { x with gen := s.ep.gens })) (fun e => { e with gens := e.gens + 1 })
  let t := updQp t q (fun x =>
    { x with expPsn := a.th.psn, bitmap := 0, ackDue := 0, rxMsgs := [], rxNext := resyncMsn a (a.th.opcode == 0x05), atomics := [],
             expMsn := resyncMsn a tagged })
  let t := writeEq t x.fn 0x0100 stSUCCESS 0 q 0xFFFF
  recordEv t .qpResync (quadOfHost (hostOfFn x.fn)) x.fn q a.th.psn.toNat

/-- [R300] the receiver's synchronisation: the state to go on with, or the state after the discard. -/
def synchronise (s : State) (q : Nat) (x : Qp) (a : Arrival) : Sum State State :=
  if !x.synced then
    if a.th.syn then .inr (updQp s q (fun x => { x with synced := true, expPsn := a.th.psn, bitmap := 0, ackDue := 0 }))
    else .inl (count s .host (epOfFn s x.fn) .unsyncDrop)
  else if a.th.syn && decide (4096 ≤ (a.th.psn - x.expPsn).toNat) then .inr (resync s q x a)
  else .inr s

/-- What a request meets in the bitmap (R309). -/
inductive PsnClass where
  | fresh | dup | beyond
  deriving DecidableEq, Repr

def psnClass (x : Qp) (psn : BitVec 32) : PsnClass :=
  let d := (psn - x.expPsn).toNat
  if 2 ^ 31 ≤ d then .dup else if 4096 ≤ d then .beyond else if x.bitmap.getLsbD d then .dup else .fresh

/-- [R23 R110] the engine a wire opcode is for: Garnet's for the tagged ones, else transport and remote access. -/
def engineOf (op : Nat) : Nat := if 0x10 ≤ op then engGarnet else engTransport

/-- [R324 R394 R300 R309] a request at its target: checks, residency, READY, synchronisation and bitmap; then `fresh` gives the
state and a NAK code (a packet that meets its queue pair's page-out stays at the port, R400; 0: accepted, 255: it waits for a translation) with the PSNs it takes, `again` what a duplicate does. -/
def onRequest (s : State) (ep op : Nat) (npsn : Arrival → Nat) (fresh : State → Nat → Qp → Arrival → State × Nat)
    (again : State → Nat → Qp → Arrival → State) : State :=
  match takeRx s ep op with
  | none => s
  | some (a, t) =>
    match arrivalChecks t ep a with
    | .inl u => u
    | .inr (q, x) =>
      if x.st != 1 then refuse t q a 3
      else if !x.resident then refuse (count (startPageIn t q) .quadrant x.home .onyxRnr) q a 1
      else if inWriteback t q then stallUse s q
      else
        match useQueue t x.fn q (engineOf op) with
        | .inl t => t
        | .inr s =>
        match synchronise s q x a with
        | .inl t => t
        | .inr s =>
          match getQp s q with
          | none => s
          | some x =>
            match psnClass x a.th.psn with
            | .beyond => count s .host ep .windowDrop
            | .dup => again s q x a
            | .fresh =>
              let r := fresh s q x a
              if r.2 = 0 then acceptPsn r.1 q a (npsn a) else if r.2 = 255 then r.1 else refuse r.1 q a r.2

/-- [R300 R324 R400] a response at the requester: checks only; one that meets its queue pair's page-out stays at the port. -/
def onResponse (s : State) (ep op : Nat) (f : State → Nat → Qp → Arrival → State) : State :=
  match takeRx s ep op with
  | none => s
  | some (a, t) =>
    match arrivalChecks t ep a with
    | .inl u => u
    | .inr (q, x) =>
      if x.st != 1 || !x.resident then t
      else if inWriteback t q then stallUse s q
      else
        match useQueue t x.fn q (engineOf op) with
        | .inl t => t
        | .inr s => f s q x a

/-- [R34 R38 R118] the transport engine reads a window's header line; a request whose window it may not read goes no further, and nothing
answers it (log 104). -/
def withWin (s : State) (ep : Nat) (key : BitVec 32) (k : State → State × Nat) : State × Nat :=
  match engineUse s (quadOfEp ep) engTransport false { kind := 2, num := key.toNat / 256, idx := 0 } with
  | .inl t => (t, 255)
  | .inr t => k t

/-- [R316] a refusal by the window checks is counted. -/
def accessNak (s : State) (ep : Nat) : State × Nat := (count s .host ep .remoteAccessNak, 2)

/-- [R24] a packet that must wait is again the first at the internal port; its buffer space is already free. -/
def putBack (s : State) (ep : Nat) (p : Pkt) : State :=
  updHost s ep (fun h => { h with rx := { pkt := p, orig := { src := .host ep, vc := 0, credits := 0 }, at_ := s.clk.now } :: h.rx })

/-- [R320] a request whose window has no translation yet: it waits at the internal port. -/
def waitAts (s : State) (ep : Nat) (w : Win) (addr : Nat) (p : Pkt) : State := atsAsk s w addr (.pkt ep p)

end Sys2Proof.Machine
end

