-- ==== Sys2Proof/Machine/Transport.lean ====
section
/-! DEFINITION. The meanings of arriving requests, responses and ACKs, of the transport's timers, of host data and atomics coming
back, of translations, and of RECV (R301 to R322). -/

namespace Sys2Proof.Machine

/-! ### Requests at the target -/

/-- [R316 R320] check a window for a request and place its payload. -/
def placeRequest (s : State) (x : Qp) (a : Arrival) (done : State → State) : State × Nat :=
  let ep := epOfFn s x.fn
  withWin s ep a.th.windowKey (fun s =>
  match targetCheck s x a.th.windowKey 1 a.th.remoteOffset.toNat a.payload.length 1 with
  | none => accessNak s ep
  | some w => match atsMiss s w a.th.remoteOffset.toNat a.payload.length with
    | some addr => (waitAts s ep w addr a.p, 255)
    | none => (done (placeWin s w a.th.remoteOffset.toNat a.payload), 0))

/-- [R308] a WRITE packet. -/
def execWriteRx (ep : Nat) (s : State) : Res :=
  guardRes (epExists s ep)
    (onRequest s ep 0x01 (fun _ => 1) (fun s _ x a => placeRequest s x a id) (fun s q _ a => duplicate s q a))

/-- [R322] add a WRITE_COUNT packet's bytes to its counter, and notify a SOLICIT packet. -/
def countBytes (s : State) (q : Nat) (x : Qp) (a : Arrival) : State :=
  let c := match a.ext with
    | .atomic _ c _ => c % 16
    | _ => 0
  let v := x.ctrs.get c + BitVec.ofNat 64 a.payload.length
  let t := updQp s q (fun x => { x with ctrs := x.ctrs.set c v })
  if a.th.solicit && (getCq s x.recvCq).any (fun c => c.mode != 0) then
    completeQpRecv t x 0xFFFF q 0x02 stSUCCESS a.payload.length (leBytes 8 v.toNat ++ leBytes 1 c) false
  else t

/-- [R322] a WRITE_COUNT packet. -/
def execWriteCountRx (ep : Nat) (s : State) : Res :=
  guardRes (epExists s ep)
    (onRequest s ep 0x02 (fun _ => 1) (fun s q x a => placeRequest s x a (fun t => countBytes t q x a)) (fun s q _ a => duplicate s q a))

/-- [R303] the length of a READ_REQ and the PSNs of its responses. -/
def readLen (a : Arrival) : Nat := beNat (a.payload.take 4)
def readPsns (a : Arrival) : Nat := min 4096 (max 1 ((readLen a + 4095) / 4096))

/-- [R307] a response leaves on the next value of the path set, and the rotation moves on. -/
def sendResp (s : State) (q : Nat) (th : TransHdr) (payload : List Byte) : State :=
  match getQp s q with
  | none => s
  | some x => inject (updQp s q (fun x => { x with pathNext := (x.pathNext + 1) % 16 })) q x x.nextPath th .none payload

/-- [R312] read host memory for each response of a READ_REQ; a read of nothing is answered at once. -/
def readResponses (s : State) (q : Nat) (x : Qp) (w : Win) (a : Arrival) : State :=
  let n := readLen a
  (List.range (readPsns a)).foldl (fun s i =>
    let off := i * 4096
    let len := min 4096 (n - off)
    let last := i + 1 == readPsns a
    if len = 0 then
      sendResp s q { opcode := 4, destQpn := 0, srcQpn := 0, last := last, psn := a.th.psn + BitVec.ofNat 32 i, ts := ft32 s } []
    else
      dataRead s (epOfFn s x.fn) q (winHost s w (a.th.remoteOffset.toNat + off) len)
        (.resp q (a.th.psn + BitVec.ofNat 32 i) off len last a.th.ts a.p.hdr.qdelay.toNat)) s

/-- [R316 R312] a READ_REQ, new or repeated. -/
def doRead (s : State) (q : Nat) (x : Qp) (a : Arrival) : State × Nat :=
  let ep := epOfFn s x.fn
  withWin s ep a.th.windowKey (fun s =>
  match targetCheck s x a.th.windowKey 0 a.th.remoteOffset.toNat (readLen a) 1 with
  | none => accessNak s ep
  | some w => match atsMiss s w a.th.remoteOffset.toNat (readLen a) with
    | some addr => (waitAts s ep w addr a.p, 255)
    | none => (readResponses s q x w a, 0))

/-- [R309 R312] a READ_REQ: host memory is read, again for a repeated one, which counts as a duplicate and is acknowledged as well. -/
def execReadReqRx (ep : Nat) (s : State) : Res :=
  guardRes (epExists s ep)
    (onRequest s ep 0x03 readPsns doRead (fun s q x a =>
      let r := doRead s q x a
      if r.2 = 2 then refuse (count r.1 .host ep .dupRx) q a 2 else if r.2 = 255 then r.1 else duplicate r.1 q a))

/-- [R301 R308 R318] assign receive entries to every unassigned MSN up to `m`, while the SRQ has any. -/
def assignRecvs (s : State) (q srq : Nat) (m : BitVec 32) : Nat → State
  | 0 => s
  | k + 1 =>
    match getQp s q, getSrq s srq with
    | some x, some r =>
      if 2 ^ 31 ≤ (m - x.rxNext).toNat || r.err then s
      else match r.recvs with
        | [] => s
        | e :: rest =>
          let t := updSrq s srq (fun r => { r with recvs := rest })
          let t := updQp t q (fun x =>
            { x with rxNext := x.rxNext + 1, rxMsgs := x.rxMsgs ++ [{ msn := x.rxNext, wqe := e.wqe, sges := e.sges, cap := sgeLen e.sges }] })
          assignRecvs t q srq m k
    | _, _ => s

/-- [R326] bytes 16 to 30 of a SEND's receive completion. -/
def sendExtra (x : Qp) (m : RxMsg) : List Byte :=
  let r := x.remote.getD (0, 0)
  leBytes 4 r.2.toNat ++ leBytes 3 r.1 ++ leBytes 1 (if m.solicit then 1 else 0) ++ leBytes 4 m.msn.toNat

/-- Change the message of one MSN. -/
def updRxMsg (s : State) (q : Nat) (m : BitVec 32) (f : RxMsg → RxMsg) : State :=
  updQp s q (fun x => { x with rxMsgs := x.rxMsgs.map (fun y => if y.msn = m then f y else y) })
def dropRxMsg (s : State) (q : Nat) (m : BitVec 32) : State :=
  updQp s q (fun x => { x with rxMsgs := x.rxMsgs.filter (fun y => y.msn != m) })

/-- [R308] a SEND packet of a message that has its receive entry. -/
def placeSend (s : State) (q : Nat) (x : Qp) (a : Arrival) (m : RxMsg) : State × Nat :=
  let len := a.th.windowKey.toNat
  let m := { m with solicit := m.solicit || a.th.solicit }
  if m.refused then (s, 2)
  else if m.cap < len then
    (updRxMsg (completeQpRecv s x m.wqe q 0x05 stREMOTE_ACCESS 0 (sendExtra x m) m.solicit) q m.msn (fun y => { y with refused := true }), 2)
  else match useWins s x.fn engTransport m.sges with
  | .inl t => (t, 255)
  | .inr s =>
    let st := localChecks s x 1 m.sges
    if st ≠ stSUCCESS then
      (enterError (dropRxMsg (completeQpRecv s x m.wqe q 0x05 st 0 (sendExtra x m) m.solicit) q m.msn) q st m.wqe, 3)
    else match sgesMiss s m.sges with
      | some (w, addr) => (waitAts s (epOfFn s x.fn) w addr a.p, 255)
      | none =>
        let t := dmaScatter s (sgeHost s (sgeSlice m.sges a.th.remoteOffset.toNat a.payload.length)) a.payload
        let m' := { m with got := m.got + a.payload.length, len := some len }
        let t := updRxMsg t q m.msn (fun _ => m')
        if len ≤ m'.got then (completeQpRecv (dropRxMsg t q m.msn) x m.wqe q 0x05 stSUCCESS len (sendExtra x m') m'.solicit, 0)
        else (t, 0)

/-- [R306 R308] a SEND packet. -/
def doSend (s : State) (q : Nat) (x : Qp) (a : Arrival) : State × Nat :=
  match x.srq, x.garnet with
  | some srq, false =>
    let t := assignRecvs s q srq a.th.msn 4096
    match getQp t q with
    | none => (t, 0)
    | some x =>
      match x.rxMsgs.find? (fun y => y.msn == a.th.msn) with
      | some m => placeSend t q x a m
      | none => if 2 ^ 31 ≤ (a.th.msn - x.rxNext).toNat then (t, 0) else (t, 1)
  | _, _ => (s, 2)

/-- [R308] a SEND packet takes receive entries in MSN order and is placed. -/
def execSendRx (ep : Nat) (s : State) : Res :=
  guardRes (epExists s ep) (onRequest s ep 0x05 (fun _ => 1) doSend (fun s q _ a => duplicate s q a))

/-! ### Atomics -/

/-- [R304] the operands of an ATOMIC_REQ: AOP, OPERAND_A, SWAP. -/
def atomicArgs (a : Arrival) : Nat × BitVec 128 × BitVec 128 :=
  match a.ext with
  | .atomic aop _ v => (aop, v, BitVec.ofNat 128 (beNat a.payload))
  | _ => (0, 0, 0)

/-- [R304] bytes an atomic works on. -/
def aopWidth (aop : Nat) : Nat := if aop = 3 then 16 else 8

/-- [R304] the new value an atomic leaves. -/
def aopNew (aop : Nat) (orig v swap : BitVec 128) : BitVec 128 :=
  match aop with
  | 1 => BitVec.ofNat 128 ((orig.toNat + v.toNat) % 2 ^ 64)
  | _ => if orig = v then swap else orig

/-- [R304 R312] answer an atomic and keep its result for repeats. -/
def atomicResp (s : State) (q : Nat) (psn : BitVec 32) (orig : BitVec 128) (width : Nat) (keep : Bool) : State :=
  match getQp s q with
  | none => s
  | some _ =>
    let t := if keep then updQp s q (fun x => { x with atomics := ((psn, orig, width) :: x.atomics).take 16 }) else s
    sendResp t q { opcode := 7, destQpn := 0, srcQpn := 0, last := true, psn := psn, ts := ft32 s } (beBytes width orig.toNat)

/-- [R321 R405] the quadrant that serves a queue pair holds the first line of its context in M, with no request open on it. -/
def holdsCtx (s : State) (q : Nat) (x : Qp) : Bool :=
  let c := getLine s (quadOfHost (hostOfFn x.fn)) (queueLine s q)
  c.st == .m && c.req.isNone && c.phase != 2

/-- [R321 R322 R405] an atomic on the queue pair's own counters, made with the line held in M; until it is, the packet waits at the port. -/
def counterAtomic (s : State) (q : Nat) (x : Qp) (a : Arrival) (aop : Nat) (v swap : BitVec 128) : State × Nat :=
  let o := a.th.remoteOffset.toNat
  if 128 ≤ o ∨ o % aopWidth aop ≠ 0 then (s, 2)
  else if !holdsCtx s q x then (putBack s (epOfFn s x.fn) a.p, 255)
  else
    let c := o / 8
    let orig : BitVec 128 := if aop = 3 then BitVec.ofNat 128 ((x.ctrs.get c).toNat + (x.ctrs.get (c + 1)).toNat * 2 ^ 64) else (x.ctrs.get c).setWidth 128
    let new := aopNew aop orig v swap
    let t := updQp s q (fun x =>
      { x with ctrs := if aop = 3 then (x.ctrs.set c (new.setWidth 64)).set (c + 1) ((new >>> 64).setWidth 64) else x.ctrs.set c (new.setWidth 64) })
    (atomicResp (count t .host (epOfFn s x.fn) .atomicExec) q a.th.psn orig (aopWidth aop) true, 0)

/-- [R406] the host line of 64 B that an address lies in: it occupies one half of a line of the cache, and is held by itself. -/
def hostLine (ep addr : Nat) : LineId := { kind := 6, num := ep / 2, idx := addr / 64 }

/-- [R321] the bytes at a host address that the device holds in a line it owns, as a number; none where it does not hold them all. -/
def heldBytes (s : State) (ep addr n : Nat) : Option (BitVec 128) :=
  let x := getLine s (quadOfEp ep) (hostLine ep addr)
  let l := (List.range n).map (fun i => (x.data.find? (fun d => d.1 == addr % 64 + i)).map (·.2))
  if x.st == .m && x.phase != 2 && l.all (·.isSome) then some (BitVec.ofNat 128 (leAt (l.map (·.getD 0)) 0 n)) else none

/-- [R321] the device operates on a host line it owns: the new value stays in its cache, and the answer carries the original. -/
def lineAtomic (s : State) (ep : Nat) (h : HostAtomic) (orig : BitVec 128) : State :=
  let n := aopWidth h.aop
  let new := (leBytes n (aopNew h.aop orig h.a h.swap).toNat).zipIdx.map (fun bi => (h.addr % 64 + bi.2, bi.1))
  let t := updLine s (quadOfEp ep) (hostLine ep h.addr) (fun c =>
    { c with dirty := true, touched := s.clk.now, data := c.data.filter (fun d => !new.any (fun e => e.1 == d.1)) ++ new })
  atomicResp (count t .host ep .atomicExec) h.qp h.psn orig n true

/-- [R64 R316 R321] an ATOMIC_REQ: a counter, or host memory by the host port's mode. -/
def doAtomic (s : State) (q : Nat) (x : Qp) (a : Arrival) : State × Nat :=
  let ep := epOfFn s x.fn
  let (aop, v, swap) := atomicArgs a
  if aop = 0 ∨ 3 < aop then (s, 2)
  else if a.th.windowKey = 0xFFFFFFFF then counterAtomic s q x a aop v swap
  else
    let o := a.th.remoteOffset.toNat
    let n := aopWidth aop
    withWin s ep a.th.windowKey (fun s =>
    match targetCheck s x a.th.windowKey 2 o n n with
    | none => accessNak s ep
    | some w =>
      let cxl := s.hostMode.get (ep / 2) == 2
      if !cxl && !(s.fn w.fn).atomicEn then (s, 4)
      else match atsMiss s w o n with
        | some addr => (waitAts s ep w addr a.p, 255)
        | none =>
          let addr := ((winHost s w o n).map (·.2.1)).headD 0
          let h : HostAtomic := { qp := q, psn := a.th.psn, fn := w.fn, addr := addr, aop := aop, a := v, swap := swap, cxl := cxl,
                                  win := a.th.windowKey.toNat / 256 }
          match if cxl then heldBytes s ep addr n else none with
          | some orig => (lineAtomic s ep h orig, 0)
          | none =>
          (updHost (emit s (if cxl then .cxlOwn ep addr else .hostAtomic w.fn addr aop v swap)) ep (fun y => { y with atomics := y.atomics ++ [h] }), 0))

/-- [R309 R312] a repeated ATOMIC_REQ: acknowledged and answered from the store, or refused when it is older; one still under way is left to end. -/
def repeatAtomic (s : State) (q : Nat) (x : Qp) (a : Arrival) : State :=
  let ep := epOfFn s x.fn
  let t := count s .host ep .dupRx
  match x.atomics.find? (fun y => y.1 == a.th.psn) with
  | some y => sendAck (noteEcho (atomicResp t q a.th.psn y.2.1 y.2.2 false) q a) q 0 0 0
  | none => if (s.hostEp ep).atomics.any (fun h => h.qp == q && h.psn == a.th.psn) then t else refuse t q a 2

/-- [R321] an ATOMIC_REQ packet. -/
def execAtomicReqRx (ep : Nat) (s : State) : Res :=
  guardRes (epExists s ep) (onRequest s ep 0x06 (fun _ => 1) doAtomic repeatAtomic)

/-- [R306] an atomic the host will not do: NAK code 4 with its PSN. -/
def atomicRefused (s : State) (q : Nat) (psn : BitVec 32) : State := sendAck s q 4 psn 0

/-- [R321] the root complex completes the oldest AtomicOp of the endpoint, or refuses it. -/
def execHostAtomicComplete (ep : Nat) (orig : Option (BitVec 128)) (s : State) : Res :=
  guardRes (epExists s ep)
    (finishDestroys (match (s.hostEp ep).atomics.find? (fun h => !h.cxl) with
     | none => s
     | some h =>
       let t := updHost s ep (fun y => { y with atomics := y.atomics.erase h })
       if (getQp t h.qp).any (fun x => x.st == 1) then
         match orig with
         | some v => atomicResp (count t .host ep .atomicExec) h.qp h.psn v (aopWidth h.aop) true
         | none => atomicRefused t h.qp h.psn
       else t))

/-- [R321 R35] ownership of the line of the oldest CXL atomic is granted: the device operates on it. -/
def execCxlCacheOwnershipGranted (ep : Nat) (orig : BitVec 128) (s : State) : Res :=
  guardRes (epExists s ep)
    (finishDestroys (match (s.hostEp ep).atomics.find? (fun h => h.cxl) with
     | none => s
     | some h =>
       let t := updHost s ep (fun y => { y with atomics := y.atomics.erase h })
       if (getQp t h.qp).any (fun x => x.st == 1) then
         let l := hostLine ep h.addr
         let q := quadOfEp ep
         let t := updLine t q l (fun c => { c with st := .m, phase := 0, data := if c.st == .m then c.data else [] })
         lineAtomic (updDir t l (fun d => { d with st := .m, owner := q, sharers := bit5 q ||| bit5 4 })) ep h orig
       else t))

/-! ### Responses at the requester -/

/-- [R309] a response nobody awaits. -/
def strayResponse (s : State) (x : Qp) : State := count s .host (epOfFn s x.fn) .dupRx

/-- [R34 R343] place bytes of a tagged message in its receive buffer, within the buffer's length; the window is checked again, in the domain
of the receive's SRQ. A use the access table denies is not performed. -/
def placeMatched (s : State) (f pd : Nat) (m : Matched) (off : Nat) (bytes : List Byte) : Option State :=
  let n := min bytes.length (m.cap - off)
  if n = 0 then some s
  else
    let e : Sge := { key := m.key, len := n, off := m.off + BitVec.ofNat 64 off }
    match useWins s f engGarnet [e] with
    | .inl t => some t
    | .inr s => if localStatus s f pd false e 1 = stSUCCESS then some (dmaScatter s (sgeHost s [e]) (bytes.take n)) else none

/-- The domain a queue pair's receives are placed in: its SRQ's. -/
def Qp.recvPd (x : Qp) (s : State) : Nat := ((x.srq.bind (getSrq s)).map (·.pd)).getD x.pd

/-- Remove the outstanding PSN. -/
def dropPend (s : State) (q : Nat) (psn : BitVec 32) : State :=
  updQp s q (fun x => { x with pend := x.pend.filter (fun p => p.psn != psn) })

/-- [R318 R320] a response's bytes go to elements of a started entry: the elements are checked again, one that fails ends the entry, and a
translation that has been dropped is asked for anew while the packet waits. -/
def placeLocal (s : State) (q : Nat) (x : Qp) (e : Ent) (a : Arrival) (l : List Sge) (place : State → List Sge → State) : State :=
  match useWins s x.fn engTransport l with
  | .inl t => t
  | .inr s =>
    if localChecks s x 1 l ≠ stSUCCESS then failEnt s q e.idx (localChecks s x 1 l)
    else match sgesMiss s l with
      | some (w, addr) => waitAts s (epOfFn s x.fn) w addr a.p
      | none => place s l

/-- [R312] a READ_RESP is placed at the requester. -/
def doReadResp (s : State) (q : Nat) (x : Qp) (a : Arrival) : State :=
  match x.pend.find? (fun p => p.psn == a.th.psn && p.op == 3) with
  | none => strayResponse s x
  | some p =>
    let bytes := a.payload.take p.len
    match p.owner with
    | .ent idx =>
      match x.ent idx with
      | none => dropPend s q p.psn
      | some e =>
        placeLocal s q x e a (sgeSlice e.sges p.off bytes.length) (fun s l =>
          let t := dmaScatter (dropPend s q p.psn) (sgeHost s l) bytes
          entMaybeDone (updEnt t q idx (fun e => { e with got := e.got + bytes.length })) q idx)
    | .rdv m g =>
      let t := dropPend s q p.psn
      match x.matched.find? (fun y => y.isRdv m g) with
      | none => t
      | some y =>
        let r := placeMatched t x.fn (x.recvPd t) y p.off bytes
        let ok := r.isSome
        updQp (r.getD t) q (fun x => { x with matched := x.matched.map (fun z =>
          if z.isRdv m g then
            { z with got := z.got + bytes.length, placed := if ok then z.placed + bytes.length else z.placed, failed := z.failed || !ok }
          else z) })
    | .fin => dropPend s q p.psn

/-- [R312] a READ_RESP packet. -/
def execReadRespRx (ep : Nat) (s : State) : Res :=
  guardRes (epExists s ep) (onResponse s ep 0x04 (fun s q x a => pumpRdvs (pumpFins (doReadResp s q x a) q 64) q))

/-- [R304] an ATOMIC_RESP delivers the original value. -/
def execAtomicRespRx (ep : Nat) (s : State) : Res :=
  guardRes (epExists s ep) (onResponse s ep 0x07 (fun s q x a =>
    match x.pend.find? (fun p => p.psn == a.th.psn && p.op == 6) with
    | none => strayResponse s x
    | some p =>
      match p.owner with
      | .ent idx =>
        match x.ent idx with
        | none => dropPend s q p.psn
        | some e =>
          placeLocal s q x e a e.sges (fun s l =>
            entMaybeDone (dmaScatter (dropPend s q p.psn) (sgeHost s l) (leBytes a.payload.length (beNat a.payload))) q idx)
      | _ => dropPend s q p.psn))

/-! ### Acknowledgement -/

/-- [R305] the PSN is acknowledged, cumulatively or by SACK. -/
def ackCovers (cum : BitVec 32) (sack : BitVec 256) (psn : BitVec 32) : Bool :=
  let d := (psn - cum).toNat
  d == 0 || decide (2 ^ 31 ≤ d) || (decide (d ≤ 256) && sack.getMsbD (d - 1))

/-- [R311] a new RTT sample. -/
def rttSample (old : Option (Nat × Nat)) (t : Nat) : Nat × Nat :=
  match old with
  | none => Config.rttFirst t
  | some (s, v) => ((7 * s + t) / 8, (3 * v + (if s ≤ t then t - s else s - t)) / 4)

/-- [R313] the target delay of an SL in ns. -/
def ccTarget (h : HostEp) (sl : Nat) : Nat := (if sl = 0 then h.ccT0 else if sl = 1 then h.ccT1 else h.ccT2) * 1000

/-- [R313] the window after an ACK that newly acknowledges `n` bytes with sample `t`; whether it decreased. -/
def ccStep (w n t target : Nat) (mayCut : Bool) : Nat × Bool :=
  if t ≤ target then (max 4224 (min 16777216 (w + 4096 * n / w)), false)
  else if mayCut then (max 4224 (min 16777216 (w - w * (t - target) / (2 * t))), true)
  else (w, false)

/-- [R311 R313] the sender's side of an ACK: PSNs leave, the sample and the window are taken, and a PSN overtaken by one first
sent REORDER_TOL later is sent again. -/
def takeAck (s : State) (q : Nat) (x : Qp) (a : Arrival) (sack : BitVec 256) : State :=
  let ep := epOfFn s x.fn
  let h := s.hostEp ep
  let covered := x.pend.filter (fun p => !p.acked && ackCovers a.th.psn sack p.psn)
  let n := (covered.map (·.pay)).foldl (· + ·) 0
  let cum := covered.any (fun p => decide ((a.th.psn - p.psn).toNat < 2 ^ 31))
  let t := (ft32 s - a.th.ts).toNat
  let rtt := rttSample x.rtt t
  let cc := if x.sl = 3 ∨ n = 0 then (x.cwnd, false)
    else ccStep x.cwnd n t (ccTarget h x.sl) (x.cutAt.all (fun c => decide (rtt.1 ≤ (ft32 s - c).toNat)))
  let newest := (covered.map (·.firstAt)).foldl max 0
  let s := updQp s q (fun x =>
    { x with syn := false, rtt := some rtt, cwnd := cc.1, cutAt := if cc.2 then some (ft32 s) else x.cutAt, backoff := if cum then 0 else x.backoff,
             pend := (x.pend.filter (fun p => !ackCovers a.th.psn sack p.psn || p.op == 3 || p.op == 6)).map (fun p =>
               if ackCovers a.th.psn sack p.psn then { p with acked := true } else p) })
  let s := if cc.2 then count s .host ep .ccDecrease else s
  let late := if covered.isEmpty then [] else
    x.pend.filter (fun p => !p.acked && !ackCovers a.th.psn sack p.psn && decide (p.lastAt + h.reorderTol * 1000 ≤ newest))
  let s := late.foldl (fun s p => if stale s q p.psn then count (resend s q p) .host ep .retxReorder else s) s
  covered.foldl (fun s p => match p.owner with
    | .ent idx => entMaybeDone s q idx
    | _ => s) s

/-- [R306] what a NAK does at the requester. Of several refusals the earliest PSN is where sending resumes, once the last RETRY_AFTER has passed
(DEDUCED, log 110). -/
def takeNak (s : State) (q : Nat) (code : Nat) (psn : BitVec 32) (retry : Nat) : State :=
  match getQp s q with
  | none => s
  | some x =>
    let ep := epOfFn s x.fn
    let owner := ((x.pend.find? (fun p => p.psn == psn)).map (·.owner))
    match code with
    | 0 => updQp s q (fun x => { x with rnr := 0 })
    | 1 =>
      let t := count s .host ep .rnrRx
      if (s.hostEp ep).rnrLimit ≤ x.rnr + 1 then
        match owner with
        | some o => failOwner t q o stRETRY_EXCEEDED
        | none => t
      else updQp t q (fun x =>
        { x with rnr := x.rnr + 1, rnrPsn := some (match x.rnrPsn with | some n => if (psn - n).toNat < 2 ^ 31 then n else psn | none => psn),
                 rnrUntil := max x.rnrUntil (s.clk.now + (if retry = 0 then 10 else retry) * 1000) })
    | 2 => owner.elim s (fun o => failOwner s q o stREMOTE_ACCESS)
    | 3 => owner.elim s (fun o => failOwner s q o stTARGET_UNAVAILABLE)
    | 4 => owner.elim s (fun o => failOwner s q o stATOMIC_UNAVAILABLE)
    | _ => s

/-- [R305 R306 R311] an ACK. -/
def execAckRx (ep : Nat) (s : State) : Res :=
  guardRes (epExists s ep) (onResponse s ep 0x08 (fun s q x a =>
    match a.ext with
    | .ack sack code _ retry npsn =>
      let t := takeAck (count s .host ep .ackRx) q x a sack
      let t := takeNak t q code npsn retry
      pumpRdvs (pumpFins t q 64) q
    | _ => s))

/-- [R310] ACK_DELAY has passed since the oldest unacknowledged request. -/
def execAckDelayExpire (q : Nat) (s : State) : Res :=
  .next (match getQp s q with
    | none => s
    | some x =>
      let due := decide (x.ackAt + (s.hostEp (epOfFn s x.fn)).ackDelay ≤ s.clk.now)
      if x.st == 1 && decide (0 < x.ackDue) && due then sendAck s q 0 0 0 else s)

/-- [R311] RTO in ns: 100 us before the first sample; afterwards doubled for each consecutive timeout and capped at 100 ms. -/
def rtoOf (s : State) (x : Qp) : Nat :=
  match x.rtt with
  | none => 100000
  | some (srtt, var) => min 100000000 (max ((s.hostEp (epOfFn s x.fn)).rtoMin * 1000) (srtt + 4 * var) * 2 ^ x.backoff)

/-- [R307 R311 R313] a PSN's RTO has passed since its last transmission. -/
def execRtoExpire (q : Nat) (psn : BitVec 32) (s : State) : Res :=
  .next (match getQp s q with
    | none => s
    | some x =>
      match x.pend.find? (fun p => p.psn == psn && (!p.acked || p.op == 3 || p.op == 6)) with
      | none => s
      | some p =>
        let ep := epOfFn s x.fn
        if x.st != 1 || decide (s.clk.now < p.lastAt + rtoOf s x) then s
        else if (s.hostEp ep).retryLimit < p.timeouts + 1 then failOwner s q p.owner stRETRY_EXCEEDED
        else
          let p' := { p with timeouts := p.timeouts + 1 }
          let value := (Config.lfsr s.free).setWidth 16
          let t := drawn s
          let t := updQp t q (fun x =>
            { x with cwnd := 4224, backoff := x.backoff + 1, paths := x.paths.set p.path value,
                     pend := x.pend.map (fun y => if y.psn = psn then p' else y) })
          let t := if x.sl ≠ 3 ∧ 4224 < x.cwnd then count t .host ep .ccDecrease else t
          let t := count (count t .host ep .pathReplaced) .host ep .retxTimeout
          resend t q p')

/-- [R306] RETRY_AFTER of an RNR has passed: resend from NAK_PSN. -/
def execRnrRetryAfterExpire (q : Nat) (s : State) : Res :=
  .next (match getQp s q with
    | none => s
    | some x =>
      match x.rnrPsn with
      | none => s
      | some n =>
        if x.st != 1 || decide (s.clk.now < x.rnrUntil) then s
        else
          let t := updQp s q (fun x => { x with rnrPsn := none })
          let l := x.pend.filter (fun p => !p.acked && decide ((p.psn - n).toNat < 2 ^ 31))
          l.foldl (fun t p => if stale t q p.psn then resend t q p else t) t)

/-! ### Host data -/

/-- Exactly `n` bytes. -/
def exactly (n : Nat) (l : List Byte) : List Byte := (l ++ List.replicate n 0).take n

/-- [R374] blocks of a member's contribution from the bytes of its source. -/
def memberContribs (h : CollHdr) : Nat → Nat → List Byte → List Contrib
  | 0, _, _ => []
  | n + 1, b, l =>
    let k := blockElems h.dtype h.vecLen b
    contribOf h.op h.dtype h.native h.ebase (rawElems (dtypeSize h.dtype) k l) ::
      memberContribs h n (b + 1) (l.drop (k * dtypeSize h.dtype))

/-- [R370 R383] bytes of a contribution in the encoding it would travel up in. -/
def encodedLen (h : CollHdr) (xs : List Contrib) : Nat :=
  (xs.map (fun c => (encBlk h.op h.dtype h.native (dtypeSize h.dtype) { acc := c.acc, code := c.code, raw := c.raw }).length)).foldl (· + ·) 0

/-- [R374] blocks of a member's source go to Opal, and the next stretch is asked for. -/
def collBlocks (s : State) (q : Nat) (x : Qp) (e : Ent) (child first n : Nat) (l : List Byte) : State :=
  let id := e.treeId
  let h := { e.collHdr false e.collRoot with blockFirst := first, blockCount := n }
  let xs := memberContribs h n first l
  let t := contribute (crossOpal s x.fn id l.length true) id child h xs (encodedLen h xs)
  if first + n < blocksOf h.dtype h.vecLen && (getColl t id h.seq).isSome then askColl t q x e (first + n) else t

/-- [R363 R374 R377] a stretch of a member's source has come. With the first the member joins the collective, which becomes active where none of
that number is; where a fifth would, the entry waits to start again. -/
def collData (s : State) (q : Nat) (idx : BitVec 32) (id : Nat) (seq : BitVec 32) (first n : Nat) (l : List Byte) : State :=
  match (getQp s q).bind (fun x => (x.ent idx).map (fun e => (x, e))) with
  | none => s
  | some (x, e) =>
    if first = 0 then
      match collAdmit s q x e with
      | .inl t => t
      | .inr (_, c) => collBlocks (collJoin s q e c) q x e c first n l
    else match (getColl s id seq).bind (fun c => c.members.find? (fun m => m.qp == q && m.idx == idx)) with
      | some m => collBlocks s q x e m.child first n l
      | none => s

/-- [R30 R294] payload read from host memory arrives, oldest read first. A
failed read of a queue pair's own data is taken as HOST_TIMEOUT, one of a responder's is answered by nothing (log 18). -/
def execHostDataReadComplete (ep : Nat) (data : Option (List Byte)) (s : State) : Res :=
  guardRes (epExists s ep)
    (finishDestroys (match s.ep.reads.get ep with
     | [] => s
     | r :: rest =>
         let t := updEp s (fun e => { e with reads := e.reads.set ep rest })
         let t := updHost t ep (fun h => { h with outstanding := h.outstanding - 1 })
         match r, data with
         | .send q psn retx, some l =>
           match getQp t q with
           | none => t
           | some x =>
             match x.pend.find? (fun p => p.psn == psn) with
             | none => t
             | some p => match p.owner with
               | .ent idx => match x.ent idx with
                 | some e => sendPend t q e p (exactly p.len l) retx
                 | none => t
               | _ => t
         | .send q psn _, none =>
           match (getQp t q).bind (fun x => x.pend.find? (fun p => p.psn == psn)) with
           | some p => failOwner t q p.owner stHOST_TIMEOUT
           | none => t
         | .resp q psn off len last _ _, some l =>
           match getQp t q with
           | none => t
           | some x =>
             if x.st != 1 then t
             else sendResp t q { opcode := 4, destQpn := 0, srcQpn := 0, last := last, psn := psn, remoteOffset := BitVec.ofNat 64 off, ts := ft32 t } (exactly len l)
         | .resp _ _ _ _ _ _ _, none => t
         | .coll q idx tree seq first n, some l => collData t q idx tree.toNat seq first n l
         | .coll q idx _ _ _ _, none => failEnt t q idx stHOST_TIMEOUT))

/-! ### Translations -/

/-- [R320] what waited for a translation goes on. -/
def atsGoOn (s : State) : AtsWait → State
  | .queue _ => s
  | .send q psn retx =>
    match (getQp s q).bind (fun x => (x.pend.find? (fun p => p.psn == psn)).map (fun p => (x, p))) with
    | some (x, p) => match p.owner with
      | .ent idx => (x.ent idx).elim s (fun e => fetchSend s q x e p retx)
      | _ => s
    | none => s
  | .pkt ep p => putBack s ep p

/-- [R312 R320] what waited for a translation that fails meets an access failure: a local element ends its entry, a target refuses. -/
def atsFails (s : State) : AtsWait → State
  | .queue q =>
    match (getQp s q).bind (fun x => x.ring.next) with
    | some e => failEnt s q e.idx stREMOTE_ACCESS
    | none => s
  | .send q psn _ =>
    match (getQp s q).bind (fun x => x.pend.find? (fun p => p.psn == psn)) with
    | some p => failOwner s q p.owner stREMOTE_ACCESS
    | none => s
  | .pkt _ p =>
    match p.body with
    | .transport th ext pl =>
      match getQp s th.destQpn with
      | some x =>
        if x.st != 1 then s
        else if th.opcode = 4 ∨ th.opcode = 7 then
          match x.pend.find? (fun y => y.psn == th.psn) with
          | some y => failOwner s th.destQpn y.owner stREMOTE_ACCESS
          | none => s
        else refuse s th.destQpn ⟨p, th, ext, pl⟩ 2
      | none => s
    | _ => s

/-- [R320] a translation arrives: cached under the domain of the window it is for, and what waited for it goes on; a failed one is an access
failure. -/
def execAtsTranslationComplete (fn : Nat) (addr : Nat) (len : Nat) (bus : Option Nat) (s : State) : Res :=
  guardRes (fnExists s fn)
    (match s.ep.ats.find? (fun w => w.fn == fn && decide (addr ≤ w.addr) && decide (w.addr < addr + max 1 len)) with
     | none => s
     | some w =>
       let t := updEp s (fun e => { e with ats := e.ats.erase w })
       match bus with
       | some b => atsGoOn (updFn t fn (fun x => { x with atsCache := x.atsCache ++ [{ pd := w.pd, addr := addr, len := len, bus := b }] })) w.what
       | none => atsFails t w.what)

/-- [R320] a host ATS Invalidate Request. -/
def execAtsInvalidateRequest (fn : Nat) (start len : Nat) (s : State) : Res :=
  guardRes (fnExists s fn)
    (let hit := fun (c : Xlat) => decide (c.addr < start + len) && decide (start < c.addr + c.len)
     let n := ((s.fn fn).atsCache.filter hit).length
     count (updFn s fn (fun x => { x with atsCache := x.atsCache.filter (fun c => !hit c) })) .host (epOfFn s fn) .invalidate n)

/-! ### RECV -/

/-- [R273] a receive of the SRQ has started and has not completed. -/
def srqOpen (s : State) (srq : Nat) (r : Srq) : Bool :=
  !r.recvs.isEmpty || !r.posted.isEmpty || !r.orphans.isEmpty ||
    s.ep.qps.cells.any (fun kv => kv.2.any (fun x => x.srq == some srq && (!x.matched.isEmpty || x.rxMsgs.any (fun m => !m.refused))))

/-- [R273 R276 R301] an untagged receive enters the SRQ's receive list. -/
def execRecv (srq : Nat) (s : State) : Res :=
  .next (match getSrq s srq with
    | none => s
    | some r =>
      match r.ring.next with
      | none => s
      | some e =>
        if r.garnet || r.err || r.quiesced || e.chainRead || (e.fence && srqOpen s srq r) then s
        else if e.status ≠ stSUCCESS then failRecv s srq e e.status
        else match e.chain with
          | some (a, n) => followChain s srq r.fn e a n (fun t st => failRecv t srq e st)
          | none =>
            if 2 ^ 32 ≤ sgeLen e.sges then failRecv s srq e stSGL_LIMIT else
            let t := updRing s srq (fun r => { r with ents := r.ents.filter (fun y => y.idx != e.idx), head := r.head + BitVec.ofNat 32 e.nslots })
            let t := updSrq t srq (fun r => { r with recvs := r.recvs ++ [{ idx := e.idx, wqe := e.wqe, sges := e.sges }] })
            issueFetch t srq)

end Sys2Proof.Machine
end

