-- ==== Sys2Proof/Machine/Collectives.lean ====
section
/-! DEFINITION. The meanings of tree packets, of a finished Opal block and of a collective's stall (R359, R374 to R381). -/

namespace Sys2Proof.Machine

/-- The port scope a discarded packet is counted at, if it came from a network port. -/
def countAtPort (s : State) (src : ArrSrc) (c : Cn) : State :=
  match src with
  | .net p => count s .port p c
  | _ => s

/-- [R220 R360 R364] the first packet at a quadrant's collective port: discarded when its ICRC, KIND or TREE_ID is bad, handed to
`f` with the edge it came on when it is of KIND `kind`, left alone otherwise. -/
def onTree (s : State) (quad kind : Nat) (f : State → Nat → Tree → Nat → Pkt → CollHdr → List Byte → State) : State :=
  match s.ep.collRx.get quad with
  | [] => s
  | q :: rest =>
    let p := q.pkt
    let src := q.orig.src
    let t := freeOrigin (updEp s (fun e => { e with collRx := e.collRx.set quad rest })) q.orig
    let id := p.hdr.treeId.toNat
    if stillArriving s q.orig then s
    else if p.icrc != icrcOf p then t
    else match p.body with
      | .coll h payload =>
        if h.kind = 0 ∨ 4 < h.kind then countAtPort t src .badTypePkt
        else match getTree s id, src with
          | none, _ => count t .quadrant quad .noTree
          | some tr, .net port =>
            match tr.edgeOf (.port port) with
            | none => t
            | some e =>
              if h.kind ≠ kind then s
              else match useTree t id with
                | .inl u => u
                | .inr u => f u id tr e p h payload
          | some _, _ => t
      | _ => countAtPort t src .badTypePkt

/-- [R374 R377] an UP packet: its blocks join the collective; of a fifth collective it is held. -/
def execUpRx (quad : Nat) (s : State) : Res :=
  guardRes (decide (quad < 4))
    (onTree s quad 1 (fun s id t e p h payload =>
      if e = 0 then s
      else if mustHold t h.seq && !t.ended.any (fun y => y.1 == h.seq) && !t.broken then
        count (updTree s id (fun t => { t with hold := t.hold ++ [(e, p)] })) .quadrant quad .seqHold
      else releaseHold (takeUp s id e h payload) id holdFuel))

/-- [R374] Opal has finished a complete block. -/
def execOpalBlockDone (quad : Nat) (tree : BitVec 24) (seq : BitVec 32) (block : Nat) (s : State) : Res :=
  guardRes (decide (quad < 4))
    (if treeQuad tree.toNat = quad then releaseHold (finishBlock s tree.toNat seq block) tree.toNat holdFuel else s)

/-- [R374] a DOWN packet from the parent: to the children and the local members. -/
def execDownRx (quad : Nat) (s : State) : Res :=
  guardRes (decide (quad < 4))
    (onTree s quad 2 (fun s id _ e _ h payload =>
      if e ≠ 0 then s
      else match getColl s id h.seq with
        | none => sendTreeCredit s id 0 1
        | some _ =>
          let s := updColl s id h.seq (fun c =>
            { c with inexact := h.inexact, overflow := h.overflow, invalid := h.invalid, progress := s.clk.now })
          releaseHold (goDown s id h.seq h.blockFirst h.blockCount payload) id holdFuel))

/-- [R359] a CREDIT packet adds to the edge's send counter. -/
def execTreeCreditRx (quad : Nat) (s : State) : Res :=
  guardRes (decide (quad < 4))
    (onTree s quad 3 (fun s id _ e _ h _ =>
      let s := updEdge s id e (fun x => { x with ctr := x.ctr + h.credits })
      releaseHold (pumpDown (pumpUp s id pumpFuel) id pumpFuel) id holdFuel))

/-- [R379] an ABORT ends the collective with its status and goes on along the other edges. -/
def execTreeAbortRx (quad : Nat) (s : State) : Res :=
  guardRes (decide (quad < 4)) (onTree s quad 4 (fun s id _ e _ h _ => releaseHold (endColl s id h.seq h.status (some e)) id holdFuel))

/-- [R381] a collective has seen no block arrive for STALL_TMO. -/
def stalled (s : State) (id : Nat) (seq : BitVec 32) : Bool :=
  (getTree s id).any (fun t => (t.coll seq).any (fun c => decide (c.progress + t.stall * 1000000 ≤ s.clk.now)))

/-- [R381] no block for STALL_TMO. -/
def execStallTmoExpire (quad : Nat) (tree : BitVec 24) (seq : BitVec 32) (s : State) : Res :=
  guardRes (decide (quad < 4))
    (if treeQuad tree.toNat = quad && stalled s tree.toNat seq then
       releaseHold (endColl s tree.toNat seq stCOLL_STALLED none) tree.toNat holdFuel
     else s)

end Sys2Proof.Machine
end

