-- ==== Sys2Proof/Machine/Switch.lean ====
section
/-! DEFINITION. The switching step: checks, policing, delivery, the choice of a candidate, and holding (R221 to R240). -/

namespace Sys2Proof.Machine

/-! ### Classes and candidates -/

/-- [R228] PORT.ROUTE.KIND: 0 none, 1 Local, 2 Global, 3 Edge. -/
def portKind (s : State) (p : Nat) : Nat :=
  let x := s.port p
  if !x.partner.valid then 0
  else if isFabric s p then (if feaGroup x.partner.fea = feaGroup (myFea s) then 1 else 2)
  else if isLegacy s p then 3
  else 0

/-- [R228] the port may be chosen. -/
def choosable (s : State) (p : Nat) : Bool := portKind s p != 0 && (s.port p).link == .active

/-- A candidate of a route entry (R227). -/
structure Cand where
  idx : Nat
  port : Nat
  nonmin : Bool
  primary : Bool
  deriving DecidableEq, Repr

/-- [R227] the VALID candidates of an entry, in candidate order. -/
def candsOf (e : BitVec 128) : List Cand :=
  let v := e.toNat
  let wclass := v / 2 ^ 96 % 8
  ((List.range 8).filter (fun c => e.getLsbD (12 * c + 11))).map (fun c =>
    { idx := c, port := v / 2 ^ (12 * c) % 512, nonmin := e.getLsbD (12 * c + 10), primary := wclass == 0 || decide (c < wclass) })

/-- What a route decision looks at. -/
structure Lookup where
  aq : Nat
  hdr : FabHdr
  onLocal : Bool
  turned : Bool
  table : Nat
  index : Nat
  deriving DecidableEq, Repr

/-- [R230] the removals that do not depend on the link's state. -/
def skipNonmin (s : State) (l : Lookup) (c : Cand) : Bool :=
  c.nonmin && (feaGroup (s.port c.port).partner.fea == feaGroup (myFea s) || feaGroup (s.port c.port).partner.fea == feaGroup l.hdr.dest)
def oversizeEdge (s : State) (l : Lookup) (c : Cand) : Bool := isLegacy s c.port && decide (2112 < l.hdr.len)
def otherwiseOk (s : State) (l : Lookup) (c : Cand) : Bool :=
  !(portKind s c.port == 1 && l.onLocal && !l.turned) && !(isLegacy s c.port && c.nonmin) && !skipNonmin s l c

/-- [R231] secondary candidates join only when fewer than two primaries remain. -/
def joinSecondary (l : List Cand) : List Cand :=
  let p := l.filter (·.primary)
  if 2 ≤ p.length then p else l

/-- [R237] the load hint of a port for a lookup; 0 when it is stale or missing. -/
def hintOf (s : State) (l : Lookup) (p : Nat) : Nat :=
  let x := s.port p
  if l.table = 0 then
    match x.hints.get (l.index / 128) with
    | none => 0
    | some b => if s.clk.now ≤ b.at_ + x.hintAge * 1000 then b.load.getD (l.index % 128) 0 else 0
  else match x.hintSlAt with
    | some t => if s.clk.now ≤ t + x.hintAge * 1000 then x.hintSl.getD l.hdr.sl 0 else 0
    | none => 0

/-- [R28 R232] D of a port as the switch core of quadrant `aq` sees it: the credits queued at the port, and on the mesh link towards it, in units
of 4 KiB, at most 255. -/
def depthOf (s : State) (aq p : Nat) : Nat := min 255 ((qdepth s p + meshCredits s aq (quadOfLane p)) / 64)

/-- [R232] the score of a candidate. -/
def score (s : State) (l : Lookup) (c : Cand) : Nat :=
  let b := s.routes.active
  depthOf s l.aq c.port + (b.alpha.get l.hdr.sl) * hintOf s l c.port / 16 + (if c.nonmin then b.beta.get l.hdr.sl else 0)

/-- [R232] `a` is better than `b`: score, then the arrival quadrant, then minimal, then the lower index. -/
def better (s : State) (l : Lookup) (a b : Cand) : Bool :=
  let ka := (score s l a, if quadOfLane a.port = l.aq then 0 else 1, if a.nonmin then 1 else 0, a.idx)
  let kb := (score s l b, if quadOfLane b.port = l.aq then 0 else 1, if b.nonmin then 1 else 0, b.idx)
  decide (ka.1 < kb.1) || (ka.1 == kb.1 && (decide (ka.2.1 < kb.2.1) || (ka.2.1 == kb.2.1 &&
    (decide (ka.2.2.1 < kb.2.2.1) || (ka.2.2.1 == kb.2.2.1 && decide (ka.2.2.2 < kb.2.2.2))))))

/-- The best of a list. -/
def bestOf (s : State) (l : Lookup) : List Cand → Option Cand
  | [] => none
  | c :: rest =>
    match bestOf s l rest with
    | none => some c
    | some d => if better s l d c then some d else some c

/-- [R231] two distinct candidates drawn with an LFSR value (log 7). -/
def sampleTwo (l : List Cand) (v : Nat) : List Cand :=
  if l.length ≤ 2 then l
  else
    let i := v % l.length
    let j := v / l.length % (l.length - 1)
    (l[i]?).toList ++ (l[if j < i then j else j + 1]?).toList

/-- [R231] H: CRC-16 over SRC_FEA, DEST_FEA and ENTROPY. -/
def flowHash (h : FabHdr) : Nat := (crc16 (beBytes 3 h.src.toNat ++ beBytes 3 h.dest.toNat ++ beBytes 2 h.entropy.toNat)).toNat

/-- [R231] the choice among the minimal and non-minimal sets under the bank's mode of the SL. -/
def choose (s : State) (l : Lookup) (mins nons : List Cand) : Option Cand :=
  let m := joinSecondary mins
  let v := (Config.lfsr (l.aq * 2 ^ 64 + (s.quad l.aq).lfsr)).toNat
  match s.routes.active.mode.get l.hdr.sl with
  | 0 => if m.isEmpty then none else m[flowHash l.hdr % m.length]?
  | 1 => bestOf s l (sampleTwo m (v % 2 ^ 16))
  | _ =>
    let detour := l.hdr.stage == 0 && l.hdr.intGroup.toNat == feaGroup l.hdr.dest && feaGroup l.hdr.dest != feaGroup (myFea s)
    bestOf s l (sampleTwo m (v % 2 ^ 16) ++ (if detour then sampleTwo (joinSecondary nons) (v / 2 ^ 16) else []))

/-! ### Outcomes -/

/-- [R226] no candidate: NO_ROUTE and its event. -/
def noRoute (s : State) (l : Lookup) (o : Origin) : State :=
  let t := limited (count s .quadrant l.aq .noRoute) .noRoute l.aq oneSec (fun t n more => recordEv t .noRoute l.aq l.table l.index n 0 more)
  freeOrigin t o

/-- [R53] an oversize packet whose only candidates were Edge ports. -/
def legacyOversize (s : State) (p : Nat) (o : Origin) : State :=
  let t := limited (count s .port p .legacyOversize) .legacyOversize p oneSec (fun t n more => recordEv t .legacyOversize (quadOfLane p) n 0 0 0 more)
  freeOrigin t o

/-- [R222] a trace record, at most 1,000 per second. -/
def trace (s : State) (die : Nat) (h : FabHdr) (arr egr wait : Nat) : State :=
  if !h.trc then s
  else
    let fresh := decide (s.recd.traceAt + oneSec ≤ s.clk.now) || s.recd.traceCount == 0
    let s := if fresh then { s with recd := { s.recd with traceAt := s.clk.now, traceCount := 0 } } else s
    if s.recd.traceCount < 1000 then
      recordEv { s with recd := { s.recd with traceCount := s.recd.traceCount + 1 } } .packetTrace die h.src.toNat h.dest.toNat (arr + egr * 65536) wait
    else count s .device 0 .traceSuppressed

/-- [R222] the arrival port field of a source. -/
def arrField (src : ArrSrc) : Nat := match src with | .net p => p | _ => 0xFFFF

/-- [R22 R24] the quadrant whose switch core a source enters: the management agent's packets enter Q0's, or Q2's while Q0 is not ACTIVE
(log 21). -/
def srcQuad (s : State) (src : ArrSrc) : Nat :=
  match src with | .net p => quadOfLane p | .host e => quadOfEp e | .coll q => q | .service => if quadActive s 0 then 0 else 2

/-- [R24 R29 R229] deliver to the internal port of an endpoint, the collective agent or the management agent, where the packet keeps its buffer
space until the engine takes it. -/
def deliverHost (s : State) (src : ArrSrc) (p : Pkt) (o : Origin) : State :=
  let n := feaEndpoint p.hdr.dest
  match if (s.routes.active.endpoint.get n).getLsbD 127 then epOfEndpoint s n else none with
  | none => freeOrigin (count s .host (if splitNumbering s then n else 2 * n) .noEndpoint) o
  | some e =>
    let t := trace s (quadOfEp e) p.hdr (arrField src) 0xFFFF 0
    updHost (cross t (srcQuad s src) (quadOfEp e) p.hdr) e (fun h => { h with rx := h.rx ++ [{ pkt := p, orig := o, at_ := s.clk.now }] })
def deliverColl (s : State) (src : ArrSrc) (p : Pkt) (o : Origin) : State :=
  let q := treeQuad p.hdr.treeId.toNat
  let t := cross (trace s q p.hdr (arrField src) 0xFFFF 0) (srcQuad s src) q p.hdr
  updEp t (fun e => { e with collRx := e.collRx.upd q (· ++ [{ pkt := p, orig := o, at_ := s.clk.now }]) })
def deliverMgmt (s : State) (src : ArrSrc) (p : Pkt) (o : Origin) : State :=
  let t := toService (trace s (srcQuad s src) p.hdr (arrField src) 0xFFFF 0) (srcQuad s src) p.hdr.len
  { t with grp := { t.grp with rx := t.grp.rx ++ [{ pkt := p, orig := o, at_ := s.clk.now }] } }

/-- [R215] TYPEs. -/
def isMgmtType (t : Nat) : Bool := decide (0x10 ≤ t) && decide (t ≤ 0x13)
def knownType (t : Nat) : Bool := t == 0x01 || t == 0x08 || isMgmtType t

/-- [R233] STAGE and INT_GROUP on arrival: the header after it, and whether the packet turned here. Tree packets are exempt (R239). -/
def stageStep (s : State) (src : ArrSrc) (h : FabHdr) : FabHdr × Bool :=
  if h.rmode = 3 then (h, false)
  else
    let g := match src with | .net p => portKind s p == 2 | _ => false
    let h := if g then { h with stage := h.stage + 1 } else h
    if h.intGroup.toNat ≠ feaGroup h.dest ∧ h.intGroup.toNat = feaGroup (myFea s) then
      ({ h with intGroup := BitVec.ofNat 12 (feaGroup h.dest), stage := h.stage + 1 }, true)
    else (h, false)

/-- [R230 R206] no candidate is left: hold or flush, or discard. A packet held for a non-minimal candidate waits without a change of INT_GROUP,
for no choice has been made (DESIGN CHOICE, log 100). -/
def unroutable (s : State) (l : Lookup) (p : Pkt) (o : Origin) (cs : List Cand) : State :=
  let lost := cs.filter (fun c => !choosable s c.port && (s.port c.port).lost && otherwiseOk s l c && !oversizeEdge s l c)
  let usable := cs.filter (fun c => choosable s c.port)
  match lost with
  | c :: _ =>
    match lost.find? (fun c => (s.port c.port).grace) with
    | some g =>
      enqueue (cross s l.aq (quadOfLane g.port) p.hdr) g.port { pkt := p, orig := o, at_ := s.clk.now, nonmin := g.nonmin, routed := true }
    | none => freeOrigin (count s .port c.port .linkFlush) o
  | [] =>
    match usable with
    | c :: _ => if usable.all (oversizeEdge s l) then legacyOversize s c.port o else noRoute s l o
    | [] => noRoute s l o

/-- [R229 R230 R231] route a packet whose STAGE has been set for its arrival: look up, remove, choose, enqueue. -/
def route (s : State) (src : ArrSrc) (p : Pkt) (turned : Bool) (o : Origin) : State :=
  let aq := srcQuad s src
  let h := p.hdr
  let byGroup := h.intGroup.toNat != feaGroup (myFea s)
  let index := if byGroup then h.intGroup.toNat else feaRouter h.dest
  let l : Lookup := { aq := aq, hdr := h, onLocal := (match src with | .net q => portKind s q == 1 | _ => false), turned := turned,
                      table := if byGroup then 0 else 1, index := index }
  let entry := if byGroup then s.routes.active.group.get index else s.routes.active.router.get index
  let cs := candsOf entry
  let live := cs.filter (fun c => choosable s c.port && !(portKind s c.port == 1 && l.onLocal && !l.turned) && !oversizeEdge s l c &&
    !(isLegacy s c.port && c.nonmin))
  let skipped := live.filter (skipNonmin s l)
  let ok := live.filter (fun c => !skipNonmin s l c)
  let s := skipped.foldl (fun s c => count s .port c.port .nonminSkip) s
  if ok.isEmpty then unroutable s l p o cs
  else
    let c := choose s l (ok.filter (fun c => !c.nonmin)) (ok.filter (·.nonmin))
    let s := updQuad s aq (fun q => { q with lfsr := q.lfsr + 1 })
    match c with
    | none => noRoute s l o
    | some c =>
      let h := if c.nonmin then { h with intGroup := BitVec.ofNat 12 (feaGroup (s.port c.port).partner.fea) } else h
      let s := cross s aq (quadOfLane c.port) h
      enqueue s c.port { pkt := { p with hdr := h }, orig := o, at_ := s.clk.now, nonmin := c.nonmin, routed := true }

/-- [R253] the ingress policer of a port and SL. -/
def portPolicer (x : Port) (sl : Nat) : Policer := if sl = 0 then x.pol0 else if sl = 1 then x.pol1 else x.pol2
def setPortPolicer (x : Port) (sl : Nat) (c : Policer) : Port :=
  if sl = 0 then { x with pol0 := c } else if sl = 1 then { x with pol1 := c } else { x with pol2 := c }

/-- [R253 R254 R267] ingress policing: the packet's DP, whether it is discarded, and the state. -/
def police (s : State) (p : Nat) (h : FabHdr) : Nat × Bool × State :=
  let c := portPolicer (s.port p) h.sl
  if h.sl = 3 || h.rmode = 3 || !c.enable then (h.dp, false, s)
  else
    let m := c.mark s.clk.now h.len h.dp
    let t := updPort s p (fun x => setPortPolicer x h.sl m.2)
    let t := count t .port (p * 4 + h.sl) (if m.1 = 0 then .polGreen else if m.1 = 1 then .polYellow else .polRed)
    if m.1 = 2 ∧ c.dropRed then (m.1, true, count t .port (p * 4 + h.sl) .polDrop) else (m.1, false, t)

/-- [R221 R223 R233] step 5 for a packet that has passed the checks. -/
def deliverOrRoute (s : State) (src : ArrSrc) (p : Pkt) (o : Origin) : State :=
  let aq := srcQuad s src
  if s.routes.fea.isNone then
    if isMgmtType p.hdr.type then deliverMgmt s src p o else freeOrigin (count s .quadrant aq .noRoute) o
  else
    let st := stageStep s src p.hdr
    let h := st.1
    if 3 < h.stage then freeOrigin (count s .quadrant aq .stageOverflow) o
    else if h.rmode = 3 then deliverColl s src p o
    else if feaGroup h.dest = feaGroup (myFea s) ∧ feaRouter h.dest = feaRouter (myFea s) then
      let p := { p with hdr := h }
      if h.type = 0x01 then deliverHost s src p o else if h.type = 0x08 then deliverColl s src p o else deliverMgmt s src p o
    else route s src { p with hdr := h } st.2 o

/-- [R221] the packet will be delivered inside this router. -/
def deliveredHere (s : State) (h : FabHdr) : Bool :=
  if s.routes.fea.isNone then isMgmtType h.type
  else h.rmode == 3 || (feaGroup h.dest == feaGroup (myFea s) && feaRouter h.dest == feaRouter (myFea s))

/-- [R29 R198 R218] where a packet's buffer space is: its arrival port's, or the pool of the quadrant whose internal port it came by. -/
def originOf (s : State) (src : ArrSrc) (p : Pkt) (no arr : Nat) : Origin :=
  match src with
  | .net q => { src := src, vc := vcOnPort s q p.hdr, credits := creditsOf p, no := no, arr := arr }
  | _ => { src := src, vc := srcQuad s src, credits := creditsOf p, arr := arr }

/-- [R198 R199] the pool of an internal port's quadrant has room for the whole packet. -/
def poolTakes (s : State) (src : ArrSrc) (p : Pkt) : Bool := decide (creditsOf p ≤ poolLeft s (srcQuad s src) 512)

/-- [R198 R199] a packet from an internal port takes its credits from the quadrant's pool. -/
def takePool (s : State) (src : ArrSrc) (p : Pkt) : State := updQuad s (srcQuad s src) (fun x => { x with intUsed := x.intUsed + creditsOf p })

/-- [R221] the steps a packet from a network port or an internal port takes. -/
def switchPacket (s : State) (src : ArrSrc) (p : Pkt) (no arr : Nat) : State :=
  let port := match src with | .net q => some q | _ => none
  let o := originOf s src p no arr
  let drop := fun (s : State) (c : Cn) => freeOrigin (countAtPort s src c) o
  let h := p.hdr
  if hdrCrcOf h != h.hdrCrc then drop s .hdrCrcErr
  else if h.ver ≠ 1 || !knownType h.type || (h.rmode == 3 && (h.type != 0x08 || h.treeId == 0 || port.any (fun q => !isFabric s q))) then drop s .badTypePkt
  else if port.any (fun q => !keyInTable (s.port q).pkeys 64 h.pkey) then
    let q := port.getD 0
    freeOrigin (limited (count s .port q .pkeyDrop) .pkeyViolation (0x10000 + q) oneSec (fun t n more =>
      recordEv t .pkeyViolation (quadOfLane q) q h.pkey.toNat n 0 more)) o
  else
    let h := { h with dp := min 2 h.dp, stage := if port.any (isLegacy s) then 0 else h.stage }
    let r := match port with
      | some q => police s q h
      | none => (h.dp, false, s)
    if r.2.1 then freeOrigin r.2.2 o
    else
      let h := { h with dp := r.1 }
      if h.hops = 63 && !deliveredHere s h && port.isSome then freeOrigin (countAtPort r.2.2 src .hopLimit) o
      else deliverOrRoute r.2.2 src { p with hdr := h } o

/-- A packet an agent sends straight to a port's scheduler (R238, R427): it takes its credits from the pool and crosses the mesh once at most. -/
def sendStraight (s : State) (src : ArrSrc) (p : Nat) (k : Pkt) : State :=
  enqueue (cross (takePool s src k) (srcQuad s src) (quadOfLane p) k.hdr) p { pkt := k, orig := originOf s src k 0 s.clk.now, at_ := s.clk.now }

/-- [R24 R194 R198 R221] the first packet waiting at a source enters the switch core, before it is whole where it is still arriving; one from
an internal port once the pool has room for all of it. A collective or DIRECT packet goes straight to its port's scheduler. -/
def execPacketArrival (src : ArrSrc) (s : State) : Res :=
  match src with
  | .net p =>
    guardRes (decide (p < 512))
      (match (s.port p).arrived with
       | [] => s
       | k :: rest =>
         let part := rest.isEmpty && (s.port p).rxCur.any (fun r => !r.bad && !r.gone)
         let t := updPort s p (fun x => { x with arrived := rest, rxCur := if part then x.rxCur.map (fun r => { r with gone := true }) else x.rxCur })
         switchPacket t src k.1 (if part then (s.port p).rxNo else 0) k.2)
  | .host e =>
    guardRes (epExists s e)
      (match (s.hostEp e).inject with
       | [] => s
       | k :: rest =>
         if poolTakes s src k then switchPacket (takePool (updHost s e (fun h => { h with inject := rest })) src k) src k 0 s.clk.now else s)
  | .coll q =>
    guardRes (decide (q < 4))
      (match s.ep.collTx.get q with
       | [] => s
       | (p, k) :: rest => if poolTakes s src k then sendStraight (updEp s (fun e => { e with collTx := e.collTx.set q rest })) src p k else s)
  | .service =>
    .next (match s.grp.tx with
      | [] => s
      | (dst, k) :: rest =>
        let t := fromService { s with grp := { s.grp with tx := rest } } (srcQuad s src) k.hdr.len
        match dst with
        | some p =>
          if (s.port p).link != .active then count { s with grp := { s.grp with tx := rest } } .device 0 .mgmtPathDrop
          else if poolTakes s src k then sendStraight t src p k else s
        | none => if poolTakes s src k then switchPacket (takePool t src k) src k 0 s.clk.now else s)

end Sys2Proof.Machine
end

