-- ==== Sys2Proof/Machine/Adopt.lean ====
section
/-! DEFINITION. Shared operations of adoption at a stated FT: route banks, Almanac banks with the packets that never fit them, and
snapshots, in their order (R58, R108, R125, R156, R157, R227, R257, R260, R477, R478). -/

namespace Sys2Proof.Machine

/-- [R155] TIME.STATE.LOCK. -/
def timeLocked (s : State) : Bool := s.tu.st == .locked || (s.tu.st == .source && s.tu.valid)

/-! ### Packets a bank leaves no room for -/

/-- [R259] how long a packet takes, from its first byte to its estimated last one, on a port. -/
def packetTime (s : State) (p : Nat) (k : Pkt) : Nat := sendTime s p k.hdr.len

/-- [R260] the packet can never start on its gated VC. -/
def neverFits (s : State) (p vc : Nat) (k : Pkt) : Bool :=
  let g := (s.port p).gate
  g.gatedVc vc && decide (g.bank.longest vc < packetTime s p k + g.guardNs)

/-- [R260] discard the head packets of a VC that can never start. -/
def dropNofit (s : State) (p vc : Nat) : List QPkt → State
  | [] => s
  | q :: rest =>
    if neverFits s p vc q.pkt then
      let t := updPort s p (fun x => { x with vcq := x.vcq.set vc rest, guardSeen := x.guardSeen &&& ~~~ BitVec.ofNat 16 (2 ^ vc), shapSeen := x.shapSeen &&& ~~~ BitVec.ofNat 16 (2 ^ vc) })
      let t := limited (count t .port p .gateNofit) .gateNofit p oneSec (fun t n more => recordEv t .gateNofit (quadOfLane p) p vc n 0 more)
      dropNofit (freeOrigin t q.orig) p vc rest
    else s

/-- [R260] on every VC of a port. -/
def dropAllNofit (s : State) (p : Nat) : State :=
  if (s.port p).gate.gating then foldS (List.range 16) s (fun s v => dropNofit s p v ((s.port p).vcq.get v)) else s

/-! ### Adoption -/

/-- [R58 R257 R260 R264] adopt the PENDING bank of a port: a bank that turns gating on without lock is not adopted. [R127] Its
ADOPT_FT stays as it was given at the load (DESIGN CHOICE, log 109). -/
def adoptAlmanac (s : State) (p : Nat) (base : BitVec 64) : State :=
  let g := (s.port p).gate
  if g.otherBank.gating && !timeLocked s then
    recordEv (updPort s p (fun x => { x with gate := { x.gate with pending := false } })) .almanacNotAdopted (quadOfLane p)
  else
    let b := { g.otherBank with ft := base }
    let on := b.gating
    let t := updPort s p (fun x => { x with
      gate := { x.gate with bank0 := if g.active then b else g.bank0, bank1 := if g.active then g.bank1 else b, active := !g.active, pending := false,
                            gating := on, forced := on && x.gate.forced, holdTmr := on && x.gate.holdTmr } })
    dropAllNofit t p

/-- [R125 R227] switch route banks. -/
def adoptRoute (s : State) : State :=
  { s with routes := { s.routes with active := s.routes.other, other := s.routes.active, epoch := s.routes.stagedEpoch, stage := .none, lostEpoch := none },
           cmds := { s.cmds with lastAdopt := some s.clk.now } }

/-- [R108 R129] a snapshot ends MISSED: counted, and CAUSE.TIME_STATE set. One that misses at its ARM counts as one that fell due (DESIGN
CHOICE, log 98). -/
def snapMissed (s : State) : State :=
  raiseAll (count { s with snap := { s.snap with st := 3 }, cmds := { s.cmds with lastSnap := some s.clk.now } } .device 0 .snapMissed) causeTime

/-- [R477] every counter's banks change places at once: the active value is frozen, and counting starts from zero. -/
def flipBanks (s : State) : State :=
  { s with
    ctrs := s.ctrs.mapCells (fun _ x => { live := 0, frozen := x.live })
    snap := { s.snap with st := 2, bank := !s.snap.bank, seq := s.snap.seq + 1, frozenSeq := s.snap.seq + 1, folded := false }
    cmds := { s.cmds with lastSnap := some s.clk.now } }

/-- [R125 R156] adopt the route bank whose ADOPT_FT has come. -/
def routeDue (s : State) : State := if s.routes.stage = .pending ∧ s.routes.adoptFt.toNat ≤ s.clk.ft.toNat then adoptRoute s else s

/-- [R156 R257] adopt a port's Almanac bank whose ADOPT_FT has come. -/
def almanacDue (s : State) (p : Nat) : State :=
  let g := (s.port p).gate
  if g.pending && decide (g.otherBank.ft.toNat ≤ s.clk.ft.toNat) then adoptAlmanac s p g.otherBank.ft else s

/-- [R157] what falls due before a snapshot: the route bank, then the Almanac banks. -/
def banksDue (s : State) : State := foldS (portsOf s) (routeDue s) almanacDue

/-- [R448 R477 R478] an armed snapshot whose SNAP_FT has come is taken, or MISSED while the last one is being folded or a warm start sets the
counters to zero. -/
def snapDue (s : State) : State :=
  if s.snap.st ≠ 1 ∨ s.clk.ft.toNat < s.snap.ft.toNat then s
  else if !s.snap.folded then recordEv (snapMissed s) .snapMissed svcDie (s.snap.ft.toNat % 2 ^ 32)
  else if s.boot.warm && !s.boot.fwReady then recordEv (snapMissed s) .snapMissed svcDie (s.snap.ft.toNat % 2 ^ 32)
  else raiseAll (count (flipBanks s) .device 0 .snapTaken) causeTime

/-- [R157] everything that is due, in the order of the rule. -/
def adoptDue (s : State) : State := snapDue (banksDue s)

end Sys2Proof.Machine
end

