-- ==== Sys2Proof/Machine/TimeOps.lean ====
section
/-! DEFINITION. Shared operations of the time unit: fabric time with its fraction, lock and holdover with the gates that follow
them, steering, steps, and the choice of a source (R140 to R155, R264). -/

namespace Sys2Proof.Machine

/-- [R140] FT with FT_FRAC, in 2^-16 ns. -/
def ftFix (s : State) : Nat := s.clk.ft.toNat * 65536 + s.clk.frac.toNat

/-- Set FT with FT_FRAC. -/
def setFtFix (s : State) (v : Int) : State :=
  let n := v.toNat
  { s with clk := { s.clk with ft := BitVec.ofNat 64 (n / 65536), frac := BitVec.ofNat 16 n } }

/-- [R140] the instant a first symbol passes the land, in 2^-16 ns: the clock to 0.25 ns, and the quarter SerDes phase gives. -/
def stampAt (s : State) (phase : BitVec 2) : Nat := (ftFix s / 16384 + phase.toNat) * 16384

/-- [R143] the die of the time unit that stands for the device. The four quadrants' units hold one FT in this model (DESIGN CHOICE, log 100). -/
def timeDie (s : State) : Nat := if quadActive s 0 then 0 else 2

/-- [R464 R154] thresholds, in 2^-16 ns. -/
def lockThresh : Nat := 4 * 65536
def unlockThresh : Nat := 50 * 65536
def stepThresh : Nat := 1000 * 65536

/-- [R149] the range of the rate correction, 500 ppm in 0.01 ppb. -/
def clampRate (r : Int) : Int := max (-50000000) (min 50000000 r)

/-! ### Gates that follow the lock -/

/-- [R264] the VCs gated by a port's active bank, as a mask. -/
def gatedMask (g : Gate) : Nat := ((List.range 16).map (fun v => if g.bank.gated v then 2 ^ v else 0)).foldl (· + ·) 0

/-- [R264] close every gated VC of a port. -/
def closeGates (s : State) (p : Nat) : State :=
  let g := (s.port p).gate
  recordEv (updPort s p (fun x => { x with gate := { x.gate with forced := true, holdTmr := false, forcedAt := s.clk.now } })) .gateClosed
    (quadOfLane p) p (gatedMask g)

/-- [R264] Equinox has entered HOLDOVER: every port with gating ON starts HOLDOVER_MAX. -/
def holdGates (s : State) : State :=
  foldS ((portsOf s).filter (fun p => (s.port p).gate.gating && !(s.port p).gate.forced && !(s.port p).gate.holdTmr)) s (fun s p =>
    let g := (s.port p).gate
    let t := recordEv s .gateHoldover (quadOfLane p) p g.holdoverMax
    if g.holdoverMax = 0 then closeGates t p else updPort t p (fun x => { x with gate := { x.gate with holdTmr := true } }))

/-- [R264] lock regained: cancel the timers, resume the gates that were forced closed. -/
def resumeGates (s : State) : State :=
  foldS ((portsOf s).filter (fun p => (s.port p).gate.forced || (s.port p).gate.holdTmr)) s (fun s p =>
    let g := (s.port p).gate
    let t := updPort s p (fun x => { x with gate := { x.gate with forced := false, holdTmr := false } })
    if g.forced then recordEv t .gateResumed (quadOfLane p) p ((s.clk.now - g.forcedAt) / 1000000) else t)

/-- [R155] change the time unit: a change of LOCK sets CAUSE.TIME_STATE and resumes the gates when it is regained; an entry to
HOLDOVER freezes the integral term and starts the gates' timers. -/
def changeTime (s : State) (f : TimeUnit → TimeUnit) : State :=
  let t := { s with tu := f s.tu }
  let t := if t.tu.st = .holdover ∧ s.tu.st ≠ .holdover then holdGates { t with tu := { t.tu with rate := t.tu.integ, lockCount := 0, slew := 0 } } else t
  let t := if timeLocked t && !timeLocked s then resumeGates t else t
  if timeLocked t != timeLocked s then raiseAll t causeTime else t

/-! ### Sources -/

/-- [R151 R155] what a port's neighbour announces can be followed: after MISS_LIMIT intervals without an accepted measurement it can not,
until the next one (DEDUCED, log 101). -/
def selectable (s : State) (p : Nat) : Option Announced :=
  if isFabric s p && (s.port p).link == .active && decide ((s.port p).eqx.missed < 4) then
    match (s.port p).eqx.ann with
    | some a => if a.valid && a.locked && !a.holdover then some a else none
    | none => none
  else none

/-- [R151] a source's rank; lower is better. -/
def rankKey (cls hops fea port : Nat) : Nat := ((cls * 64 + hops) * 2 ^ 24 + fea) * 512 + port
def annRank (a : Announced) (p : Nat) : Nat := rankKey a.cls a.hops a.fea.toNat p

/-- [R151] the best of the selectable neighbours that satisfy `ok`. -/
def bestSource (s : State) (ok : Nat → Bool) : Option (Nat × Announced) :=
  ((portsOf s).filterMap (fun p => if ok p then (selectable s p).map (fun a => (p, a)) else none)).foldl (fun b c =>
    match b with
    | none => some c
    | some d => if annRank c.2 c.1 < annRank d.2 d.1 then some c else some d) none

/-- [R151] a neighbour through which this device is no more than 63 hops from the source: a locked unit follows no other (DEDUCED,
log 101). -/
def lockable (s : State) (p : Nat) : Bool := (selectable s p).any (fun a => decide (a.hops ≤ 62))

/-- [R155] the port's last accepted offset lies within LOCK_THRESH. -/
def offsetWithin (s : State) (p : Nat) : Bool := (s.port p).eqx.offset.any (fun o => decide (o.natAbs ≤ lockThresh))

/-- [R144 R150 R151] follow a neighbour: its class, hops and source, and the last step of its source, become this device's own. -/
def followOf (p : Nat) (a : Announced) (u : TimeUnit) : TimeUnit :=
  let v : TimeUnit := { u with upstream := some p, srcFea := a.fea, cls := a.cls, hops := a.hops + 1 }
  if u.upstream = some p then v else { v with stepSeq := a.stepSeq, stepFt := a.stepFt, stepNs := a.stepNs, stepWait := none }

/-- [R155 R160] a locked unit changes to another upstream port. -/
def switchSource (s : State) (p : Nat) (a : Announced) : State :=
  recordEv (changeTime s (followOf p a)) .timeSourceChange (timeDie s) p a.fea.toNat

/-- An offset in 0.25 ns units (R159, R160). -/
def quarterNs (o : Int) : Int := o / 16384

/-- [R155 R160] a locked unit loses lock for a cause and goes to HOLDOVER. -/
def timeUnlock (s : State) (cause : Nat) : State :=
  recordEv (changeTime s (fun u => { u with st := .holdover, upstream := none })) .timeUnlock (timeDie s) cause (s32 (quarterNs s.tu.offset))

/-- [R155] a locked unit that must leave its upstream: switch to an alternative, else HOLDOVER. -/
def leaveUpstream (s : State) (cause : Nat) : State :=
  match bestSource s (fun p => s.tu.upstream != some p && offsetWithin s p && lockable s p) with
  | some (p, a) => switchSource s p a
  | none => timeUnlock s cause

/-- [R151 R154] SOURCE_WAIT runs while a group manager has no selectable source. -/
def noteWait (s : State) : State :=
  { s with tu := { s.tu with waitFrom :=
      if !s.grp.manager || (bestSource s (fun _ => true)).isSome then none
      else if s.tu.waitFrom.isSome then s.tu.waitFrom else some s.clk.now } }

/-- [R151 R155] what a unit does with the best source that its neighbours announce. -/
def chooseSource (s : State) : State :=
  match s.tu.st with
  | .source =>
    if s.tu.cls = 2 then
      match bestSource s (fun _ => true) with
      | some (p, a) =>
        if annRank a 0 < rankKey 2 0 (myFea s).toNat 0 then
          recordEv (changeTime s (fun u => { followOf p a u with st := .acquiring, lockCount := 0 })) .timeSourceChange (timeDie s) p a.fea.toNat
        else s
      | none => s
    else s
  | .locked =>
    if !s.tu.upstream.any (lockable s) then leaveUpstream s 2
    else
      let better := bestSource s (fun p => s.tu.upstream == some p || (offsetWithin s p && lockable s p))
      match better with
      | some (p, a) => if s.tu.upstream = some p then changeTime s (followOf p a) else switchSource s p a
      | none => s
  | .acquiring =>
    match bestSource s (fun _ => true) with
    | some (p, a) => if s.tu.upstream = some p then changeTime s (followOf p a) else changeTime s (fun u => { followOf p a u with lockCount := 0 })
    | none => changeTime s (fun u => { u with st := .holdover, upstream := none })
  | _ =>
    match bestSource s (fun _ => true) with
    | some (p, a) => changeTime s (followOf p a)
    | none => changeTime s (fun u => { u with upstream := none })

/-- [R151 R155] choose the source again after what neighbours announce has changed. -/
def reselect (s : State) : State := noteWait (chooseSource s)

/-- [R155 R205] a link has left ACTIVE: its Equinox state is forgotten, the delays of its last 16 accepted measurements with it (DESIGN
CHOICE, log 100), and the source is chosen again. -/
def timePortLost (s : State) (p : Nat) : State :=
  reselect (updPort s p (fun x => { x with eqx := { x.eqx with t1 := none, extra := none, dueReg := false, dueExtra := false, missed := 0, ann := none, offset := none, delays := [], accepted := false, responded := false } }))

/-! ### Steering and steps -/

/-- Discard every exchange in progress, an answer still owed among them (R150). -/
def dropExchange (s : State) (p : Nat) : State := updPort s p (fun x => { x with eqx := { x.eqx with t1 := none, extra := none, oweResp := none } })
def dropExchanges (s : State) : State := foldS (portsOf s) s dropExchange

/-- [R150 R153 R157 R160] step FT by a change in 2^-16 ns, recording it while VALID is 1; what the step reaches is adopted. A step or slew that
PARAM0 cannot hold leaves its low 32 bits there (DESIGN CHOICE, log 100). -/
def stepFtBy (s : State) (d : Int) (seq : Nat) : State :=
  let t := dropExchanges (setFtFix s ((ftFix s : Int) + d))
  adoptDue (if s.tu.valid then recordEv t .timeStep (timeDie s) (s32 (d / 65536)) seq else t)

/-- [R149 R150] steer by a measured offset, over an exchange interval in ns: by rate within the step threshold, a step
forward, or a slew backward. A step forward leaves nothing of the offset to the rate. -/
def steer (s : State) (o : Int) (interval : Nat) : State :=
  if o.natAbs ≤ stepThresh then
    let integ := clampRate (Config.servoIntegral s.tu.integ o)
    let rate := clampRate (integ + o * 100000000000 / ((65536 * max 1 interval : Nat) : Int))
    { s with tu := { s.tu with integ := integ, rate := rate, slew := 0, propTill := s.clk.now + interval } }
  else if 0 < o then stepFtBy { s with tu := { s.tu with slew := 0, rate := s.tu.integ } } o s.tu.stepSeq.toNat
  else
    let t := { s with tu := { s.tu with rate := -50000000, slew := o } }
    if s.tu.slew < 0 then t else recordEv t .timeSlew (timeDie s) (o.natAbs / 65536)

/-- [R140 R150] apply the upstream source's step without losing lock; a backward one is steered, for FT never runs backward (DEDUCED,
log 101). -/
def applyStep (s : State) (seq : BitVec 8) (ns : Int) : State :=
  let t := { s with tu := { s.tu with stepWait := none } }
  if 0 ≤ ns then stepFtBy t (ns * 65536) seq.toNat
  else steer t (ns * 65536) (s.tu.upstream.elim 1000000 (fun p => (s.port p).eqx.interval))

/-- [R128 R153] a source sets FT to a value (in 2^-16 ns): at once while VALID is 0; else by rate, a step forward or a slew
backward. STEP_FT is the FT after the step (DESIGN CHOICE, log 100). -/
def setTime (s : State) (v : Int) : State :=
  if !s.tu.valid then adoptDue (changeTime (dropExchanges (setFtFix s v)) (fun u => { u with valid := true, slew := 0 }))
  else
    let d := v - (ftFix s : Int)
    if d.natAbs ≤ stepThresh then { s with tu := { s.tu with slew := d } }
    else if 0 < d then
      let q := s.tu.stepSeq + 1
      let t := { s with tu := { s.tu with slew := 0, stepSeq := q, stepFt := BitVec.ofInt 64 (v / 65536), stepNs := d / 65536 } }
      stepFtBy t d q.toNat
    else recordEv { s with tu := { s.tu with slew := d } } .timeSlew (timeDie s) (d.natAbs / 65536)

/-! ### TIME LTBs -/

/-- [R144] the FLAGS this device sends; LOCKED is clear beyond 63 hops (R151). -/
def timeMsg (s : State) (seq : BitVec 16) (out : Bool) : TimeMsg :=
  { locked := timeLocked s, holdover := s.tu.st == .holdover, valid := s.tu.valid, exchSeq := seq, outOfCycle := out }

/-- [R144 R145 R190] send a TIME LTB on the lowest lane: 1 REQ, 2 RESP, 3 REPORT, 4 ANNOUNCE. -/
def sendTimeLtb (s : State) (p msg : Nat) (t : TimeMsg) : State :=
  sendLtb s p (some (lowLane (s.port p))) 1 (plainHdr (s.port p)) (.time msg t)

/-- [R144] FEA of the source this device follows, or its own where it is the source. -/
def sourceFea (s : State) : BitVec 24 := if s.tu.st = .source then myFea s else s.tu.srcFea

/-- [R144] announce the source this device follows or is. -/
def sendAnnounce (s : State) (p : Nat) : State :=
  sendTimeLtb s p 4 { timeMsg s (s.port p).eqx.seq false with
    sourceFea := sourceFea s, cls := BitVec.ofNat 2 s.tu.cls, hops := BitVec.ofNat 6 (min 63 s.tu.hops), stepSeq := s.tu.stepSeq, stepFt := s.tu.stepFt,
    stepNs := BitVec.ofInt 64 s.tu.stepNs }

/-- [R140 R145] the instant a TIME LTB leaves the land: the quarter that SerDes phase gives is a free value (log 7). -/
def departAt (s : State) : Nat := stampAt s (Config.sendPhase s.free)

/-- [R145 R147] answer a REQ: t2 is its arrival at the land and t3 the departure of the answer, which is not before it. The answer to an
out-of-cycle REQ carries OUT_OF_CYCLE clear, as the ANNOUNCE after it does (DESIGN CHOICE, log 100). -/
def answerReq (s : State) (p : Nat) (seq : BitVec 16) (t2 : Nat) : State :=
  sendTimeLtb (drawn s) p 2 { timeMsg s seq false with tA := BitVec.ofNat 80 t2, tB := BitVec.ofNat 80 (max t2 (departAt s)) }

/-- [R144 R146 R147] begin an exchange: REQ leaves at t1. An out-of-cycle one leaves the regular one open. -/
def beginExchange (s : State) (p : Nat) (out : Bool) : State :=
  let q := (s.port p).eqx.seq + 1
  let t := updPort (drawn s) p (fun x => { x with eqx :=
    if out then { x.eqx with seq := q, outOfCycle := true, extra := some (q, departAt s), extraSeq := some q, dueExtra := false }
    else { x.eqx with seq := q, outOfCycle := false, openSeq := q, t1 := some (departAt s), responded := false, dueReg := false } })
  sendTimeLtb t p 1 (timeMsg s q out)

/-- [R146 R175] start an exchange on a port: at a squelched transmitter it waits for the wake. -/
def startExchange (s : State) (p : Nat) (out : Bool) : State :=
  let t := requestWake s p 1
  if 2 ≤ (s.port p).txIdle then
    updPort t p (fun x => { x with eqx := if out then { x.eqx with dueExtra := true } else { x.eqx with dueReg := true } })
  else beginExchange t p out

end Sys2Proof.Machine
end

