-- ==== Sys2Proof/Machine/Link.lean ====
section
/-! DEFINITION. Shared operations of the link layer and its lanes: lane transitions, leaving and entering ACTIVE, the INIT
exchange, the receive pool, shedding and restoring lanes, grace and flush (R163 to R209). -/

namespace Sys2Proof.Machine

/-! ### Lanes -/

/-- The lanes of an octet, and its configured ports. -/
def lanesOfOctet (o : Nat) : List Nat := (List.range 8).map (o * 8 + ·)
def portsOfOctet (s : State) (o : Nat) : List Nat := (portsOf s).filter (fun p => p / 8 == o)

/-- [R180] a lane that leaves the state its injections need loses them; a squelch of LANE_DROP that has begun lasts its 2 us. -/
def dropInjections (x : Lane) : Lane := { x with inj := 0 }

/-- [R179] a count that saturates at 2^64 - 1. -/
def sat64 (n : Nat) : Nat := min (2 ^ 64 - 1) n

/-- [R179] what a locked checker has counted in this lock by now. -/
def checkedSo (x : Lane) (bits errs : Nat) : Lane :=
  if x.prbsChk && x.prbsLock then { x with lockBits := max x.lockBits bits, lockErrs := max x.lockErrs errs } else x

/-- [R178 R179] the checker stops or loses lock: what it has counted in this lock joins its counts. -/
def endCheck (x : Lane) : Lane :=
  { x with prbsLock := false, prbsBits := sat64 (x.prbsBits + x.lockBits), prbsErrs := sat64 (x.prbsErrs + x.lockErrs), lockBits := 0, lockErrs := 0 }

/-- [R167 R169] codewords are counted anew for a search of the boundary; what was known of the partner's idle is past. -/
def searchFec (x : Lane) : Lane :=
  { x with fec := false, ltbLock := false, uncorr := 0, good := 0, marks := [], eidleRx := false, alignTmr := false }

/-- [R169] a lane stops transmitting and goes to PARKED. -/
def parkLane (s : State) (l : Nat) : State :=
  if (s.lane l).st == .off then s
  else
    laneTx (updLane s l (fun x => { endCheck (searchFec (dropInjections x)) with
      st := .parked, cdr := false, noLockTmr := false, retryWait := false, trainReq := false, burst := false, dropping := false })) l 0

/-- [R169] a lane is powered down. -/
def offLane (s : State) (l : Nat) : State :=
  if (s.lane l).st == .off then s
  else updLane (parkLane s l) l (fun x => { x with st := .off, sig := false, noLock := false, loopback := 0, rxInv := false, pattern := 0, prbsGen := false, prbsChk := false })

/-- [R172] the number of an octet's rate and reach among a lane's coefficient sets. -/
def calibKey (s : State) (l : Nat) : Nat := (s.octet (octetOfLane l)).reach * 4 + (s.octet (octetOfLane l)).rate

/-- [R184] receiver coefficients as LANE.RX_EQ holds them: DFE tap 1 is zero on VSR. -/
def eqFor (s : State) (l : Nat) (w : Word32) : Word32 := w &&& (if (s.octet (octetOfLane l)).reach = 1 then 0x7FF else 0x7FFFF)

/-- [R172 R118] the coefficients training starts from: the stored set for the octet's rate and reach, where CALIB holds one and may be read,
else the preset. -/
def startEq (s : State) (l : Nat) : Word32 :=
  eqFor s l ((if allowed s molzuMaster tgtCALIB false then (s.lane l).calibSets.get (calibKey s l) else none).getD (Config.rxPreset (s.octet (octetOfLane l)).rate (s.octet (octetOfLane l)).reach))

/-- [R169 R177] a lane enters TRAIN: LANE.CFG takes effect, the receiver starts from its stored set or the preset, and it waits for its
place in a batch. -/
def trainLane (s : State) (l : Nat) : State :=
  emit (updLane (agentRead s molzuMaster 2) l (fun x => { searchFec (dropInjections x) with
    st := .train, cfgNow := x.cfg, rxEq := startEq s l, trainReq := true, noLockTmr := false, retryWait := false, burst := false, dropping := false }))
    (.laneDrive l (s.lane l).cfg)

/-- [R169] a lane enters DIAG with its PRBS and loopback settings. -/
def diagLane (s : State) (l : Nat) : State := laneTx (updLane s l (fun x => { x with st := .diag })) l (diagTx (s.lane l))

/-- [R177] a port asks for a place in a batch for training lanes. -/
def askTraining (s : State) (p : Nat) : State := updPort s p (fun x => { x with wakeReq := betterReq x.wakeReq 4 s.clk.now })

/-- [R169 R182] a lane enters RETRAIN. -/
def toRetrain (s : State) (l : Nat) : State :=
  count (updLane s l (fun x => { searchFec (dropInjections x) with st := .retrain, trainReq := true }))
    .lane l .lockLoss

/-- [R169 R183] a lane in UP fails: RETRAIN and its event (cause 0 codewords, 1 signal, 2 the link layer). -/
def retrainLane (s : State) (l cause : Nat) : State :=
  let t := toRetrain s l
  limited t .laneLockLost l oneSec (fun t n more => recordEv t .laneLockLost (quadOfLane l) l cause n 0 more)

/-! ### Link state -/

/-- [R89] set a port's link state; a change sets CAUSE.PORT_STATE. -/
def setLink (s : State) (p : Nat) (st : LinkSt) : State :=
  let t := updPort s p (fun x => { x with link := st, trainWait := if st = .train ∨ st = .retrain then x.trainWait else false })
  if (s.port p).link = st then t else raiseAll t causePort

/-- [R206] discard every packet queued for a port. -/
def flushPort (s : State) (p : Nat) : State :=
  let r := takeQueued s p
  let n := r.1.length
  let t := r.1.foldl (fun t q => freeOrigin t q.orig) r.2
  if n = 0 then t else recordEv (count t .port p .linkFlush n) .linkFlush (quadOfLane p) p n

/-- The packet with number `no` of an arrival port, which was switched before it was whole. -/
def isPart (p no : Nat) (o : Origin) : Bool := o.src == .net p && o.no == no

/-- [R192] the switch core still holds that packet: it waits in an egress queue or at an internal port, or is being sent. -/
def partHeld (s : State) (p no : Nat) : Bool :=
  let mine := fun (q : QPkt) => isPart p no q.orig
  (portsOf s).any (fun e => (s.port e).leaving.any (fun t => mine t.q && !t.departed) || (s.port e).vcq.cells.any (fun kv => kv.2.any mine)) ||
    s.eps.cells.any (fun kv => kv.2.rx.any mine) || s.ep.collRx.cells.any (fun kv => kv.2.any mine) || s.grp.rx.any mine

/-- [R193] the last `n` bytes that wait to be sent become zeros. -/
def zeroLast (n : Nat) (l : List DataLtb) : List DataLtb :=
  (l.foldr (fun d (acc : List DataLtb × Nat) =>
    let k := min acc.2 d.bytes.length
    ({ d with bytes := d.bytes.take (d.bytes.length - k) ++ List.replicate k 0 } :: acc.1, acc.2 - k)) ([], n)).1

/-- [R193 R221] such a packet leaves the internal ports: their engines take whole packets only. -/
def dropInternal (s : State) (p no : Nat) (keep : Bool) : State :=
  let mine := fun (q : QPkt) => isPart p no q.orig
  let gone := (s.eps.cells.flatMap (fun kv => kv.2.rx.filter mine)) ++ (s.ep.collRx.cells.flatMap (fun kv => kv.2.filter mine)) ++ s.grp.rx.filter mine
  if gone.isEmpty then s
  else
    let t := { s with
      eps := s.eps.mapCells (fun _ h => { h with rx := h.rx.filter (fun q => !mine q) })
      ep := { s.ep with collRx := s.ep.collRx.mapCells (fun _ l => l.filter (fun q => !mine q)) }
      grp := { s.grp with rx := s.grp.rx.filter (fun q => !mine q) } }
    if keep then gone.foldl (fun t q => freeOrigin t q.orig) t else t

/-- [R193] end a packet that left before it was whole, after `got` bytes of it: every egress port that has begun to send it sends the rest
as zeros and ends it with ABORT_END, and one that has not begun drops it. `keep` says whether its buffer credits are returned with it. -/
def abortForwarded (s : State) (p no got : Nat) (keep : Bool) : State :=
  let mine := isPart p no
  let strip := fun (o : Origin) => if keep then o else { o with credits := 0 }
  let s := dropInternal s p no keep
  foldS (portsOf s) s (fun s e =>
    let x := s.port e
    let sending := x.leaving.filter (fun t => mine t.q.orig && !t.departed && !t.aborted)
    let queued := x.vcq.cells.flatMap (fun kv => kv.2.filter (fun q => mine q.orig))
    if sending.isEmpty && queued.isEmpty then s
    else
      let t := updPort s e (fun x => { x with
        leaving := x.leaving.map (fun t => if mine t.q.orig && !t.departed then { t with aborted := true, q := { t.q with orig := strip t.q.orig } } else t),
        txq := sending.foldl (fun l t => zeroLast (t.q.pkt.hdr.len - got) l) x.txq,
        vcq := x.vcq.mapCells (fun _ l => l.filter (fun q => !mine q.orig)) })
      let t := count t .port e .abortTx sending.length
      if keep then queued.foldl (fun t q => freeOrigin t q.orig) t else t)

/-- [R205 R193] give up the packet being received: discard it where it has not entered the switch core, abort it where it has. -/
def abandonRx (s : State) (p : Nat) : State :=
  match (s.port p).rxCur with
  | none => s
  | some r =>
    let t := updPort s p (fun x => { x with rxCur := none })
    if r.bad then t
    else if r.gone then abortForwarded t p (s.port p).rxNo r.got true
    else updPort t p (fun x => { x with arrived := x.arrived.dropLast, heldV := x.heldV.upd (vcOnPort s p r.pkt.hdr) (· - creditsOf r.pkt) })

/-- [R237] a port's stored hints are cleared. -/
def dropHints (s : State) (p : Nat) : State :=
  updPort s p (fun x => { x with hints := { x.hints with cells := [] }, hintSl := [0, 0, 0, 0], hintSlAt := none })

/-- [R205 R237] what a port loses when its link leaves ACTIVE: held LTBs, packets not wholly acknowledged, partial packets,
hints, Equinox state, live tree edges. -/
def clearLink (s : State) (p : Nat) : State :=
  let lost := (s.port p).leaving
  let s := abandonRx s p
  let s := dropHints (updPort s p (fun x => { x with
    held := [], leaving := [], rxLost := false, rxLostCredits := [], heldV := x.rxLostCredits.foldl (fun h c => h.upd c.1 (· - c.2)) x.heldV,
    owed := [], owedShared := 0, nakAt := none, nakHigh := none, crcAt := none, txq := [], txFill := 0, txWait := [],
    mapOpen := false, echoSeen := 0, restoring := 0, peerMapSeq := none,
    initSeen := 0, gotInit := false, sentSeen := false, allotted := false, poolWait := false, txIdle := 0, downSent := false, downDue := false, visited := false })) p
  let s := lost.foldl (fun s t => let u := count s .port p .retrainDrop; if t.departed then u else freeOrigin u t.q.orig) s
  timePortLost (edgeLost s (.port p)) p

/-- [R211] the lanes a port receives with LTB lock. -/
def lockedMap (s : State) (p : Nat) : BitVec 8 :=
  BitVec.ofNat 8 (((List.range 8).map (fun i => if i < widthLanes (s.port p).width ∧ (s.lane (p + i)).ltbLock then 2 ^ i else 0)).foldl (· + ·) 0)

/-- [R195 R211] the port's lanes that carry its link are made to retrain by the link layer. -/
def retrainAll (s : State) (p : Nat) : State :=
  let t := foldS (portLanes s p) s (fun s l =>
    match (s.lane l).st with
    | .up | .eidle | .wake => retrainLane s l 2
    | _ => s)
  askTraining (updPort t p (fun x => { x with rxMap := lockedMap t p })) p

/-- [R195 R206] LINK_GRACE starts; with LINK_GRACE 0 the flush happens at once. -/
def startGrace (s : State) (p : Nat) : State :=
  if (s.port p).graceMs = 0 then flushPort s p else updPort s p (fun x => { x with grace := true })

/-- [R169 R195] a port that is set UP: its lanes train, or enter DIAG. -/
def portUp (s : State) (p : Nat) : State :=
  if (s.port p).role = 2 then
    foldS (portLanes s p) s (fun s l => if (s.lane l).st == .parked && (s.octet (octetOfLane l)).pll then diagLane s l else s)
  else if runsLink s p then
    if (s.port p).link = .down then
      let t := setLink s p .train
      askTraining (foldS (portLanes t p) t (fun s l => if (s.lane l).st == .parked && (s.octet (octetOfLane l)).pll then trainLane s l else s)) p
    else s
  else s

/-- [R195] a port goes DOWN: its lanes are parked; one drained for a change of the FEA comes up again (R434). -/
def linkToDown (s : State) (p : Nat) : State :=
  let t := setLink s p .down
  let t := foldS (portLanes t p) t parkLane
  let t := updPort t p (fun x => { x with again := false, grace := false, lost := false, mismatch := 0, wakeReq := none, rxMap := 0, txMap := 0 })
  if (s.port p).again && (s.port p).up then portUp t p else t

/-- [R195 R205] a link failure with its cause: 0 lanes, 1 credits, 2 replay limit, 3 partner retrain, 4 partner LINK_DOWN. -/
def linkFailure (s : State) (p cause : Nat) : State :=
  match (s.port p).link with
  | .active =>
    let t := setLink s p (if cause = 4 then .train else .retrain)
    let t := clearLink (updPort t p (fun x => { x with lost := true, trainWait := false })) p
    let t := recordEv t .linkDown (quadOfLane p) p cause
    let t := startGrace t p
    if cause = 4 then t else retrainAll (count t .port p .retrain) p
  | .drain =>
    let t := flushPort (clearLink (setLink s p .down) p) p
    linkToDown (recordEv t .linkDown (quadOfLane p) p cause) p
  | _ => s

/-! ### The receive pool -/

/-- [R199 R210] take a port's reserves and SHARED_MIN from the pool, fall back to the smallest reserves, or wait. -/
def allot (s : State) (p : Nat) : State :=
  let x := s.port p
  let legacy := isLegacy s p
  let vcs := vcsOf s p
  let left := poolLeft s (quadOfLane p) p
  let want := (vcs.map x.reserve.get).foldl (· + ·) 0
  let min_ := if legacy then 0 else x.sharedMin
  let held := (vcs.map x.heldV.get).foldl (· + ·) 0
  let fill := fun (c : Option Nat) (g : Nat) (clamp : Bool) => updPort s p (fun y => { y with
    resNow := vcs.foldl (fun r v => r.set v (c.getD (x.reserve.get v))) { dflt := 0 },
    sharedMinNow := g, sharedMaxNow := if legacy then 0 else x.sharedMax, grant := g, allotted := true, poolWait := false, clamped := clamp,
    grantLowAt := s.clk.now })
  let small := if legacy then 33 else 66
  if max (want + min_) held ≤ left then fill none min_ false
  else if max (small * vcs.length) held ≤ left then
    let t := fill (some small) 0 true
    if x.clamped then t else recordEv t .linkReserveClamp (quadOfLane p) p left
  else updPort s p (fun y => { y with poolWait := true })

/-! ### INIT -/

/-- [R197] PART_HASH over a table's non-empty keys. -/
def partHash (t : Tbl (BitVec 16)) : BitVec 32 :=
  let keys := ((List.range 64).map (fun i => (t.get i).toNat)).filter (· != 0)
  if keys.isEmpty then 0 else crc32c ((sortBy (fun a b => decide (a ≤ b)) keys).flatMap (beBytes 2))

/-- [R201] credits owed for a VC. -/
def owedOn (x : Port) (v : Nat) : Nat := ((x.owed.filter (fun o => o.1 == v)).map (·.2)).foldl (· + ·) 0

/-- [R197] the INIT content a port sends on its lane `i`. -/
def initMsg (s : State) (p i : Nat) : InitMsg :=
  let x := s.port p
  let legacy := isLegacy s p
  { partnerSeen := x.gotInit, groupManager := s.grp.manager, timeValid := s.tu.valid, split := splitNumbering s,
    profile := portProfile s p, laneIdx := i, width := x.width, fea := myFea s, port := p, serial := s.ident.serial, partHash := x.partHash,
    ft := if s.tu.valid then ftFix s else 0, maxPacket := if legacy then 2112 else 4224, rxMap := x.rxMap,
    sharedAvail := if legacy then 0 else (x.grant : Int) - sharedUse s p - x.owedShared,
    vcReserve := (List.range 16).map x.resNow.get, vcAvail := (List.range 16).map (fun v => x.resNow.get v - x.heldV.get v - owedOn x v),
    creditTmoUs := x.creditTmoNow }

/-- [R195 R197] one round of INIT on every lane of the port. In INIT, VC_AVAIL and SHARED_AVAIL cover every return owed so far; the answer of an
ACTIVE port leaves them out, for they follow in its LTBs. -/
def sendInit (s : State) (p : Nat) : State :=
  let w := widthLanes (s.port p).width
  let t := if (s.port p).link == .active then s else updPort s p (fun x => { x with owed := [], owedShared := 0 })
  let t := foldS (List.range w) t (fun s i => sendLtb s p (some i) 3 (plainHdr (s.port p)) (.init (initMsg s p i)))
  updPort t p (fun x => { x with sentSeen := x.sentSeen || x.gotInit })

/-- [R195] a port whose lanes are up takes its pool space and begins to send INIT. -/
def beginInit (s : State) (p : Nat) : State :=
  let t := setLink s p .init
  let t := updPort t p (fun x => { x with
    initSeen := 0, gotInit := false, sentSeen := false, mapOpen := false, clamped := false, partHash := partHash x.pkeys, creditTmoNow := x.creditTmo,
    mismatchRec := false, rxMap := lockedMap s p })
  let t := allot t p
  if (t.port p).allotted then sendInit t p else t

/-- A lane of the port carries a stream. -/
def laneUp (s : State) (l : Nat) : Bool := match (s.lane l).st with | .up | .eidle | .wake => true | _ => false

/-- [R195] the port's lanes have changed: TRAIN and RETRAIN go to INIT when every lane is ready, and start TRAIN_WAIT with the
first. -/
def checkLanes (s : State) (p : Nat) : State :=
  let ready := fun (l : Nat) => match (s.port p).link with
    | .train => laneUp s l
    | _ => laneUp s l && (s.lane l).ltbLock
  match (s.port p).link with
  | .train | .retrain =>
    if (portLanes s p).all ready then beginInit s p
    else if (portLanes s p).any ready then updPort s p (fun x => { x with trainWait := true }) else s
  | _ => s

/-- [R195 R201 R252 R255] a port enters ACTIVE: lanes outside the transmit map carry IDLE LTBs (R190), and returns owed since the last INIT
are sent. -/
def goActive (s : State) (p : Nat) : State :=
  let now := s.clk.now
  let t := setLink s p .active
  let t := updPort t p (fun x => { x with
    nextSeq := 0, acked := 0xFFFF, ackSeq := 0xFFFF, highSeq := 0xFFFF, held := [], nakAt := none, nakHigh := none, crcAt := none, grace := false,
    lost := false, mismatch := 0, txq := [], txFill := 0, txSlot := 0, rxCur := none, rxLost := false,
    heldAt := x.heldV.cells.foldl (fun h kv => h.set kv.1 now) { dflt := 0 }, creditAt := { dflt := now },
    shaper := x.shaper.zero now, pol0 := x.pol0.fill now, pol1 := x.pol1.fill now, pol2 := x.pol2.fill now, lastWake := now,
    wakeReq := if (portLanes s p).any (fun l => (s.lane l).trainReq) then x.wakeReq else none })
  let t := { t with grp := { t.grp with isolated := false } }
  let t := foldS ((portLanes t p).filter (fun l => !(t.port p).txMap.getLsbD (l - p))) t showLane
  sendCredits (portEdgesUp (recordEv t .linkUp (quadOfLane p) p (s.port p).partner.fea.toNat) p) p

/-- [R195] INIT to ACTIVE when the exchange is complete. -/
def tryActive (s : State) (p : Nat) : State :=
  let x := s.port p
  if x.link == .init && x.allotted && x.gotInit && x.sentSeen && x.rxMap != 0 && (x.rxMap &&& ~~~ x.initSeen) == 0 then goActive s p else s

/-! ### Shedding and restoring lanes -/

/-- [R208 R209] send one LANE_MAP on every transmit lane: a request with this receiver's map, or an echo. -/
def sendLaneMap (s : State) (p : Nat) (mapSeq rxMap : BitVec 8) (echo : Bool) : State :=
  foldS (mapLanes (s.port p).txMap) s (fun s i => sendLtb s p (some i) 3 (plainHdr (s.port p)) (.laneMap mapSeq rxMap echo))

/-- [R209] open an exchange for a new receive map; its LANE_MAP acts as a NAK, so what is received again after it is a replay (R262). -/
def newMap (s : State) (p : Nat) (m : BitVec 8) : State :=
  let t := dropExchange (updPort s p (fun x => { x with rxMap := m, mapSeq := x.mapSeq + 1, mapOpen := true, mapAt := s.clk.now, echoSeen := 0, restoring := x.restoring &&& m, nakHigh := some x.highSeq })) p
  sendLaneMap t p (t.port p).mapSeq m false

/-- [R189] the time one LTB takes on a lane, in ns rounded to the next; the time of a round (R190). -/
def roundNs (s : State) (p : Nat) : Nat := match (s.octet (octetOfLane p)).rate with | 0 => 10 | 1 => 20 | 2 => 39 | _ => 78

/-- [R190 R209] the transmitter adopts a map: a new round begins, and an excluded lane carries IDLE LTBs. -/
def adoptTxMap (s : State) (p : Nat) (m : BitVec 8) : State :=
  let old := (s.port p).txMap
  foldS ((List.range 8).filter (fun i => m.getLsbD i != old.getLsbD i)) (updPort s p (fun x => { x with txMap := m, txSlot := 0 }))
    (fun s i => showLane s (p + i))

/-- [R195 R209] a receive lane has failed: shed it, or fail the link when it was the last one. -/
def laneLost (s : State) (l cause : Nat) : State :=
  match portOfLane s l with
  | none => s
  | some p =>
    let s := askTraining s p
    let x := s.port p
    let m := x.rxMap &&& ~~~ BitVec.ofNat 8 (2 ^ (l - p))
    if x.link = .active ∨ x.link = .drain then
      if x.rxMap.getLsbD (l - p) then
        if m = 0 then linkFailure s p cause
        else
          let t := count (newMap s p m) .port p .laneShed
          limited t .laneShed p oneSec (fun t n more => recordEv t .laneShed (quadOfLane p) p m.toNat n 0 more)
      else s
    else updPort s p (fun x => { x with rxMap := m })

/-- [R209] the echo of this receiver's map has come: a round of it on every lane of the new map ends the exchange, and lanes it has added are
restored. -/
def echoIn (s : State) (p lane : Nat) : State :=
  let s := updPort s p (fun x => { x with echoSeen := x.echoSeen ||| (BitVec.ofNat 8 (2 ^ lane) &&& x.rxMap) })
  let x := s.port p
  if x.echoSeen != x.rxMap then s
  else
    let t := updPort s p (fun x => { x with mapOpen := false, restoring := 0 })
    if x.restoring = 0 then t
    else limited (count t .port p .laneRestore (mapCount x.restoring)) .laneRestored p oneSec
      (fun t n more => recordEv t .laneRestored (quadOfLane p) p x.rxMap.toNat n 0 more)

/-- [R209] a lane has FEC and LTB lock again: it joins the receive map by an exchange. -/
def laneBack (s : State) (l : Nat) : State :=
  match portOfLane s l with
  | none => s
  | some p =>
    let x := s.port p
    let m := x.rxMap ||| BitVec.ofNat 8 (2 ^ (l - p))
    match x.link with
    | .active | .drain =>
      if x.rxMap = m then s
      else newMap (updPort s p (fun x => { x with restoring := x.restoring ||| BitVec.ofNat 8 (2 ^ (l - p)) })) p m
    | .init => tryActive (updPort s p (fun x => { x with rxMap := m })) p
    | _ => checkLanes (updPort s p (fun x => { x with rxMap := m })) p

/-! ### Bring-up and drain by command -/

/-- [R195 R203] a drained port announces LINK_DOWN, as soon as the replay buffer has room for it. -/
def sendLinkDown (s : State) (p : Nat) : State :=
  if (s.port p).downSent then s
  else if !replayRoom s p 1 then updPort s p (fun x => { x with downDue := true, grace := false })
  else updPort (sendCtrl (updPort s p (fun x => { x with downSent := true, downDue := false, grace := false })) p 1 0) p (fun x => { x with owed := [], owedShared := 0 })

/-- [R195] a port that is set DOWN: it drains, or stops at once. -/
def portDown (s : State) (p : Nat) : State :=
  match (s.port p).link with
  | .active =>
    let t := timePortLost (edgeLost (dropHints (startGrace (setLink s p .drain) p) p) (.port p)) p
    if (s.port p).graceMs = 0 then sendLinkDown t p else t
  | .train | .init | .retrain => linkToDown (flushPort (clearLink s p) p) p
  | .down => foldS (portLanes s p) s parkLane
  | .drain => s

/-- [R195] the drain has ended: the port is DOWN. -/
def endDrain (s : State) (p : Nat) : State := linkToDown (flushPort (clearLink (setLink s p .down) p) p) p

end Sys2Proof.Machine
end

