-- ==== Sys2Proof/Machine/LinkLayer.lean ====
section
/-! DEFINITION. Meanings of the link-layer commands: LTBs received, acknowledgement and replay, credits, INIT and LANE_MAP,
timers, grace and drain, load hints (R186 to R212, R236, R237, R262). -/

namespace Sys2Proof.Machine

/-- The device has this port field. -/
def portOk (p : Nat) : Bool := decide (p < 512)

/-! ### Acknowledgement and replay -/

/-- [R204] records EV_REPLAY_LIMIT for the first LTB that has had its eight replays, and fails the link. -/
def replayOver (s : State) (p : Nat) : State :=
  match (s.port p).held.find? (fun h => decide (8 ≤ h.replays)) with
  | none => s
  | some h => linkFailure (recordEv (count s .port p .replayLimit) .replayLimit (quadOfLane p) p h.seq.toNat) p 2

/-- [R203 R204] resend every held LTB in order, unless one would be replayed for the ninth time. -/
def replay (s : State) (p : Nat) : State :=
  let x := s.port p
  if x.held.isEmpty then s
  else if x.held.any (fun h => decide (8 ≤ h.replays)) then replayOver s p
  else
    let t := updPort s p (fun x => { x with held := x.held.map (fun h => { h with replays := h.replays + 1 }) })
    count (x.held.foldl (fun t h => sendLtb t p none 3 h.h h.body) t) .port p .replayLtb x.held.length

/-- [R203 R205] the packets that have left and are wholly acknowledged need no more: only `rest` is held. -/
def stillLeaving (rest : List HeldLtb) (l : List TxPkt) : List TxPkt :=
  l.filter (fun t => !t.departed || t.left != 0 || rest.any (fun h => h.seq == t.lastSeq))

/-- [R203] an ACK_SEQ frees the held LTBs up to it and the packets they held; what waited for room in the replay buffer is sent. -/
def ackSeen (s : State) (p : Nat) (ack : BitVec 16) : State :=
  let x := s.port p
  if x.held.any (fun h => h.seq == ack) then
    let rest := (x.held.dropWhile (fun h => h.seq != ack)).drop 1
    let t := updPort s p (fun x => { x with held := rest, acked := ack, leaving := stillLeaving rest x.leaving })
    if x.downDue then sendLinkDown t p else sendCredits t p
  else s

/-- [R187 R203 R204] the ACK_SEQ and NAK every LTB carries: a NAK replays from its ACK_SEQ + 1 when its ACK_SEQ names a held LTB, and
otherwise only acknowledges (log 102). -/
def ackIn (s : State) (p : Nat) (h : LtbHdr) : State :=
  let named := (s.port p).held.any (fun y => y.seq == h.ackSeq)
  let t := ackSeen s p h.ackSeq
  if h.nak then
    let c := count t .port p .nakRx
    if named then replay c p else c
  else t

/-- [R203] send NAK in an IDLE LTB, unless one is out and neither an in-order LTB nor REPLAY_TMO has come since. -/
def sendNak (s : State) (p : Nat) : State :=
  let x := s.port p
  if x.nakAt.any (fun t => decide (s.clk.now < t + x.replayUs * 1000)) then s
  else
    let t := updPort s p (fun x => { x with nakAt := some s.clk.now, nakHigh := some x.highSeq })
    count (sendLtb t p none 3 { plainHdr x with nak := true } .idle) .port p .nakTx

/-- [R187 R203] an LTB whose CRC fails is counted and discarded, and answered with NAK. -/
def badCrc (s : State) (p : Nat) : State :=
  let c := count (count (updPort s p (fun x => { x with crcAt := some s.clk.now })) .port p .ltbRx) .port p .ltbCrcErr
  match (s.port p).link with
  | .active | .drain => if (s.port p).mapOpen then c else sendNak c p
  | _ => c

/-- [R168] an LTB that draws bytes from a codeword passed on with an error mark is treated as failing its CRC. -/
def unmarked (s : State) (p : Nat) (h : LtbHdr) (k : State → State) : State :=
  if h.draws.any (fun i => (s.lane (p + h.lane)).marks.getD i false) then badCrc s p else k s

/-- [R203] a sequence number lies ahead of another, modulo 65,536. -/
def seqAhead (a b : BitVec 16) : Bool := a != b && decide ((a - b).toNat < 32768)

/-- An LTB of any type arrives: counted; discarded unless the link is ACTIVE or in DRAIN (R195) or while a LANE_MAP exchange is
open (R209); its ACK and NAK are taken. -/
def ltbIn (s : State) (p : Nat) (h : LtbHdr) (k : State → State) : State :=
  let c := count s .port p .ltbRx
  match (s.port p).link with
  | .active | .drain => if (s.port p).mapOpen then c else k (ackIn c p h)
  | .down => s
  | _ => c

/-- [R203] the highest LTB_SEQ received on the port. -/
def noteSeq (s : State) (p : Nat) (h : LtbHdr) : State :=
  if seqAhead h.seq (s.port p).highSeq then updPort s p (fun x => { x with highSeq := h.seq }) else s

/-- [R174 R203] an LTB is taken in order; a squelched transmitter wakes to acknowledge it. [R262] One beyond the highest LTB_SEQ before the
last NAK ends the replays. -/
def seqTaken (s : State) (p : Nat) (h : LtbHdr) : State :=
  updPort (requestWake (noteSeq s p h) p 3) p (fun x => { x with
    ackSeq := h.seq, ackAt := s.clk.now, nakAt := none, nakHigh := if x.nakHigh.any (seqAhead h.seq) then none else x.nakHigh })

/-- [R203] a sequenced LTB: taken in order, refused with NAK when ahead, dropped as a duplicate. -/
def seqIn (s : State) (p : Nat) (h : LtbHdr) (k : State → State) : State :=
  unmarked s p h (fun s => ltbIn s p h (fun s =>
    if h.seq = (s.port p).ackSeq + 1 then k (seqTaken s p h)
    else if seqAhead h.seq (s.port p).ackSeq then sendNak (noteSeq s p h) p
    else noteSeq s p h))

/-! ### Credits -/

/-- [R198 R210] a return of `k` credits for a VC. -/
def giveCredit (s : State) (p vc k : Nat) : State :=
  if k = 0 then s
  else updPort s p (fun x =>
    let a := x.avail.get vc
    let up := min (a + k) (max a (x.cap.get vc))
    { x with avail := x.avail.set vc up, shared := if x.role = 1 then x.shared else x.shared + ((a + k - up : Nat) : Int), creditAt := x.creditAt.set vc s.clk.now })

/-- [R187 R198] the credit fields and SHARED of a sequenced LTB; a positive SHARED restarts every VC's CREDIT_TMO (R202). -/
def creditsIn (s : State) (p : Nat) (h : LtbHdr) : State :=
  let t := giveCredit (giveCredit s p h.creditA.1 h.creditA.2) p h.creditB.1 h.creditB.2
  if h.shared = 0 ∨ isLegacy s p = true then t
  else updPort t p (fun x => { x with shared := x.shared + h.shared, creditAt := if 0 < h.shared then { dflt := s.clk.now } else x.creditAt })

/-- [R202] HELD_MASK restarts the CREDIT_TMO of its VCs. -/
def heldIn (s : State) (p : Nat) (m : BitVec 16) : State :=
  updPort s p (fun x => { x with creditAt := ((List.range 16).filter m.getLsbD).foldl (fun c v => c.set v s.clk.now) x.creditAt })

/-! ### Packet framing -/

/-- [R52 R210] the largest packet of the port's profile. -/
def maxPacket (s : State) (p : Nat) : Nat := if isLegacy s p then 2112 else 4224

/-- [R198 R201] a packet's header has arrived: it occupies buffer space on its VC. -/
def headerIn (s : State) (p : Nat) (k : Pkt) : State :=
  let vc := vcOnPort s p k.hdr
  updPort s p (fun x => { x with
    heldAt := if x.heldV.get vc = 0 then x.heldAt.set vc s.clk.now else x.heldAt, heldV := x.heldV.upd vc (· + creditsOf k) })

/-- [R192] a packet discarded at its header: it occupies space until framing is taken up again. -/
def lostHeader (s : State) (p : Nat) (k : Pkt) : State :=
  count (updPort (headerIn s p k) p (fun x => { x with rxLostCredits := x.rxLostCredits ++ [(vcOnPort s p k.hdr, creditsOf k)] })) .port p .framingErr

/-- [R192] framing is lost: the packet in progress is discarded, and its credits wait for framing to be taken up again unless the switch
core has freed them; so are the packets whose headers follow in the LTB. -/
def framingLost (s : State) (p : Nat) (follow : List Frag) : State :=
  let no := (s.port p).rxNo
  let t := updPort s p (fun x => { x with rxLost := true, rxCur := none })
  let t := match (s.port p).rxCur with
    | none => if follow.any (fun f => match f with | .start _ _ => true | .cont _ => false) then t else count t .port p .framingErr
    | some r =>
      let t := count t .port p .framingErr
      let t := if r.gone && !partHeld s p no then t
        else updPort t p (fun x => { x with rxLostCredits := x.rxLostCredits ++ [(vcOnPort s p r.pkt.hdr, creditsOf r.pkt)] })
      if r.gone then abortForwarded t p no r.got false else updPort t p (fun x => { x with arrived := x.arrived.dropLast })
  follow.foldl (fun t f => match f with | .start k _ => lostHeader t p k | .cont _ => t) t

/-- [R192] framing is taken up again: the discarded packets' credits are returned and their space freed. -/
def framingBack (s : State) (p : Nat) : State :=
  let l := (s.port p).rxLostCredits
  let t := updPort s p (fun x => { x with rxLost := false, rxLostCredits := [] })
  l.foldl (fun t vc => freeOrigin t { src := .net p, vc := vc.1, credits := vc.2 }) t

/-- [R193] the packet being received ends in an LTB: whole, or discarded by ABORT_END. -/
def packetEnds (s : State) (p : Nat) (abort : Bool) : State :=
  match (s.port p).rxCur with
  | none => s
  | some r =>
    let t := updPort s p (fun x => { x with rxCur := none })
    if !abort then t
    else
      let t := count t .port p .abortRx
      if r.gone then abortForwarded t p (s.port p).rxNo r.got true
      else freeOrigin (updPort t p (fun x => { x with arrived := x.arrived.dropLast })) { src := .net p, vc := vcOnPort s p r.pkt.hdr, credits := creditsOf r.pkt }

/-- A later stretch of the LTB ends a packet. -/
def endsLater : List Frag → Bool
  | [] => false
  | .start k n :: rest => decide (k.hdr.len ≤ n) || endsLater rest
  | .cont _ :: rest => endsLater rest

/-- [R191 R192] take the stretches of a DATA LTB in order. -/
def takeFrags (s : State) (p : Nat) (abort : Bool) : List Frag → State
  | [] => s
  | .cont n :: rest =>
    match (s.port p).rxCur with
    | none => framingLost s p rest
    | some r =>
      let got := r.got + n
      if r.pkt.hdr.len < got then framingLost s p rest
      else
        let t := updPort s p (fun x => { x with rxCur := some { r with got := got } })
        takeFrags (if got = r.pkt.hdr.len then packetEnds t p (abort && !endsLater rest) else t) p abort rest
  | .start k n :: rest =>
    if (s.port p).rxCur.isSome then framingLost s p (.start k n :: rest)
    else if k.hdr.len < 64 ∨ maxPacket s p < k.hdr.len ∨ k.hdr.len < n then
      framingLost (if maxPacket s p < k.hdr.len then count s .port p .oversizeRx else s) p (.start k n :: rest)
    else
      let t := updPort (headerIn s p k) p (fun x => { x with
        rxCur := some { pkt := k, got := n, at_ := s.clk.now }, rxNo := x.rxNo + 1, arrived := x.arrived ++ [(k, s.clk.now)] })
      takeFrags (if n = k.hdr.len then packetEnds t p (abort && !endsLater rest) else t) p abort rest

/-- [R192] START_OFF agrees with the packet in progress and with the stretches. -/
def framingOk (s : State) (p : Nat) (startOff : Nat) (fs : List Frag) : Bool :=
  let first := match fs with
    | .cont n :: .start _ _ :: _ => n
    | .start _ _ :: _ => 0
    | _ => 0xFF
  !fs.isEmpty && startOff == first &&
    (match (s.port p).rxCur, fs with
     | some r, .cont n :: _ => n == min 240 (r.pkt.hdr.len - r.got)
     | some _, _ => false
     | none, .cont _ :: _ => false
     | none, _ => true)

/-- [R140 R262] FT at which byte `off` of an LTB's payload passed the land, in ns, the LTB's first symbol having passed it at `at_`: the bytes
before it came at the lane's throughput (DEDUCED, log 110). -/
def landAt (s : State) (p at_ off : Nat) : Nat := at_ + off * 80 / laneRate (s.octet (octetOfLane p)).rate

/-- [R262] a packet that departed from `first` to `last` (FT, ns) against one window of a VC, as `start` and `len` in a cycle placed about the
departure: ns past its close, ns before its opening (negative), or zero. -/
def windowErr (first last start len : Int) : Int :=
  if start + len < last then last - (start + len) else if first < start then first - start else 0

/-- [R262 R263] the departure error of a packet against the window of the VC it comes nearest to, and whether both its times lie in that one
window widened by EDGE_TOL. -/
def departErr (g : Gate) (vc : Nat) (first last : Int) : Int × Bool :=
  let b := g.bank
  let c : Int := b.cycle
  let pos : Int := if c = 0 then 0 else (first - (b.ft.toNat : Nat)) % c
  let ws : List (Int × Int) := (b.windows vc).flatMap (fun w => [-c, 0, c].map (fun k => (((w.1 : Nat) : Int) + k, ((w.2 : Nat) : Int))))
  let tol : Int := g.edgeTol
  let errs := ws.map (fun w => windowErr pos (pos + (last - first)) w.1 w.2)
  (errs.foldl (fun a e => if e.natAbs < a.natAbs then e else a) (errs.headD 0),
   ws.any (fun w => decide (w.1 - tol ≤ pos ∧ pos + (last - first) ≤ w.1 + w.2 + tol)))

/-- [R262 R263] a packet on a gated VC has arrived whole, its first byte at `first` and its last at `last`: it conforms and ends the run, or
it is counted and lengthens it. At sixteen the run is zero again and the event and query are due. A port that has accepted no Equinox
measurement has no delay and checks nothing (DESIGN CHOICE, log 110). -/
def edgeEnd (s : State) (p vc : Nat) (first : Option Nat) (last : Nat) : State :=
  let x := s.port p
  match first, x.eqx.delays with
  | some f, d :: _ =>
    if !x.gate.gatedVc vc then s
    else
      let e := departErr x.gate vc ((f : Int) - d / 65536) ((last : Int) - d / 65536)
      if e.2 then updPort s p (fun x => { x with gate := { x.gate with run := 0 } })
      else updPort (count s .port p .gateEdgeViol) p (fun x => { x with gate :=
        if 15 ≤ x.gate.run then { x.gate with run := 0, edgeDue := x.gate.edgeDue ++ [e.1] } else { x.gate with run := x.gate.run + 1 } })
  | _, _ => s

/-- [R262] the mirror-window check of the packets of an LTB, from byte `off` of its payload on. A packet with bytes in a replayed LTB, or one
that arrives while LOCK is 0, is not checked. -/
def edgeWalk (s : State) (p : Nat) (checked : Bool) (at_ off : Nat) : List Frag → State
  | [] => s
  | .cont n :: rest =>
    let x := s.port p
    let t := match x.rxCur with
      | some r => if r.got + n = r.pkt.hdr.len ∧ checked = true then edgeEnd s p (vcOnPort s p r.pkt.hdr) x.rxLand (landAt s p at_ (off + n)) else s
      | none => s
    edgeWalk (if checked then t else updPort t p (fun x => { x with rxLand := none })) p checked at_ (off + n) rest
  | .start k n :: rest =>
    let f := if checked then some (landAt s p at_ off) else none
    let t := updPort s p (fun x => { x with rxLand := f })
    edgeWalk (if k.hdr.len = n then edgeEnd t p (vcOnPort s p k.hdr) f (landAt s p at_ (off + n)) else t) p checked at_ (off + n) rest

/-- [R262] the check of an LTB's packets; its first symbol passed the land `since` ns ago. -/
def edgeCheck (s : State) (p : Nat) (h : LtbHdr) (since : Nat) (fs : List Frag) : State :=
  edgeWalk s p (timeLocked s && !(s.port p).nakHigh.any (fun n => !seqAhead h.seq n)) (stampAt s h.phase / 65536 - since) 0 fs

/-- [R191 R192 R203] a DATA LTB. -/
def execLtbDataRx (p : Nat) (h : LtbHdr) (frags : List Frag) (since : Nat) (s : State) : Res :=
  guardRes (portOk p) (seqIn s p h (fun s =>
    let s := edgeCheck (creditsIn s p h) p h since frags
    if (s.port p).rxLost then
      if h.startOff = 0xFF then s
      else takeFrags (framingBack s p) p h.abortEnd (frags.dropWhile (fun f => match f with | .cont _ => true | _ => false))
    else if framingOk s p h.startOff frags then takeFrags s p h.abortEnd frags
    else framingLost s p frags))

/-- [R187 R203] an LTB that fails its CRC is discarded and answered with NAK; one of a reserved type is discarded and counted. -/
def execLtbBadRx (p : Nat) (badType : Bool) (s : State) : Res :=
  guardRes (portOk p) (if badType then count (count s .port p .ltbRx) .port p .badType else badCrc s p)

/-- [R144 R187] an IDLE LTB carries ACK_SEQ and NAK only; a TIME LTB with a reserved MSG, whose content is dropped, has the same effect. -/
def execLtbIdleRx (p : Nat) (h : LtbHdr) (s : State) : Res := guardRes (portOk p) (unmarked s p h (fun s => ltbIn s p h id))

/-- [R188 R198 R202] a CTRL CREDIT LTB. -/
def execLtbCtrlCreditRx (p : Nat) (h : LtbHdr) (heldMask : BitVec 16) (s : State) : Res :=
  guardRes (portOk p) (seqIn s p h (fun s => heldIn (creditsIn s p h) p heldMask))

/-- [R188 R195] a CTRL LINK_DOWN LTB ends the link. -/
def execLtbCtrlLinkDownRx (p : Nat) (h : LtbHdr) (heldMask : BitVec 16) (s : State) : Res :=
  guardRes (portOk p) (seqIn s p h (fun s => linkFailure (heldIn (creditsIn s p h) p heldMask) p 4))

/-- [R188] a CTRL LTB with a reserved CTRL_OP: sequenced and acknowledged, its content ignored. -/
def execLtbCtrlReservedRx (p : Nat) (h : LtbHdr) (s : State) : Res :=
  guardRes (portOk p) (seqIn s p h (fun s => count (creditsIn s p h) .port p .badType))

/-! ### INIT -/

/-- [R197] the first check an INIT fails: the MISMATCH cause, 0 when all pass. -/
def initCheck (s : State) (p lane : Nat) (i : InitMsg) : Nat :=
  if i.initVer ≠ 1 then 5
  else if i.profile ≠ portProfile s p then 1
  else if i.width ≠ (s.port p).width then 2
  else if i.laneIdx ≠ lane then 3
  else if i.maxPacket ≠ maxPacket s p then 4
  else 0

/-- [R197 R198] what a valid INIT loads: the partner, the transmit map and the sender's counters. -/
def loadInit (s : State) (p lane : Nat) (i : InitMsg) : State :=
  let first := !(s.port p).gotInit
  let legacy := isLegacy s p
  let t := updPort s p (fun x => { x with
    mismatch := 0, gotInit := true, txMap := i.rxMap,
    partner := { valid := true, fea := i.fea, port := i.port, serial := i.serial, manager := i.groupManager, split := i.split, creditTmo := i.creditTmoUs },
    avail := (vcsOf s p).foldl (fun a v => a.set v (i.vcAvail.getD v 0)) { dflt := 0 },
    cap := (vcsOf s p).foldl (fun a v => a.set v (i.vcReserve.getD v 0)) { dflt := 0 },
    shared := if legacy then 0 else i.sharedAvail,
    initSeen := if i.partnerSeen then x.initSeen ||| BitVec.ofNat 8 (2 ^ lane) else x.initSeen })
  if first && i.partHash != (s.port p).partHash then recordEv t .linkPartMismatch (quadOfLane p) p i.partHash.toNat else t

/-- [R195 R197] an INIT LTB on the lane at position `lane` of the port. One that fails a check keeps the link in INIT and is recorded once
per episode; an ACTIVE port answers a valid one with one more round. -/
def execLtbInitRx (p lane : Nat) (h : LtbHdr) (i : InitMsg) (s : State) : Res :=
  guardRes (portOk p && decide (lane < 8)) (unmarked s p h (fun s =>
    let c := count s .port p .ltbRx
    let cause := initCheck s p lane i
    match (s.port p).link with
    | .init =>
      let c := ackIn c p h
      if cause ≠ 0 then
        let t := updPort c p (fun x => { x with mismatch := cause, mismatchRec := true })
        if (s.port p).mismatchRec then t else recordEv t .linkInitMismatch (quadOfLane p) p cause
      else tryActive (loadInit c p lane i) p
    | .active => if (s.port p).mapOpen then c else if cause = 0 then sendInit (ackIn c p h) p else ackIn c p h
    | .drain => if (s.port p).mapOpen then c else ackIn c p h
    | .down => s
    | _ => c))

/-- [R197] the INIT repeat interval. -/
def execInitRepeat (p : Nat) (s : State) : Res :=
  guardRes (portOk p) (if (s.port p).link == .init && (s.port p).allotted then tryActive (sendInit s p) p else s)

/-- [R199] a port short of pool space tries again. -/
def execInitPoolRetry (p : Nat) (s : State) : Res :=
  guardRes (portOk p)
    (if (s.port p).link == .init && (s.port p).poolWait then
       let t := allot s p
       if (t.port p).allotted then sendInit t p else t
     else s)

/-- [R195] TRAIN_WAIT has passed since the first lane was ready. -/
def execTrainWaitExpire (p : Nat) (s : State) : Res :=
  let x := s.port p
  let ready := fun (l : Nat) => laneUp s l && (x.link == .train || (s.lane l).ltbLock)
  guardRes (portOk p)
    (if x.trainWait && (x.link == .train || x.link == .retrain) && (portLanes s p).any ready then beginInit s p else s)

/-- [R195] INIT_TMO without a valid INIT: the lanes retrain. -/
def execInitTmoExpire (p : Nat) (s : State) : Res :=
  guardRes (portOk p)
    (if (s.port p).link == .init && !(s.port p).gotInit && (s.port p).mismatch == 0 then
       retrainAll (updPort (setLink s p .train) p (fun x => { x with allotted := false, poolWait := false })) p
     else s)

/-! ### LANE_MAP and hints -/

/-- [R209] a newer MAP_SEQ, modulo 256. -/
def mapNewer (a b : BitVec 8) : Bool := a != b && decide ((a - b).toNat < 128)

/-- [R187 R208 R209] a LANE_MAP round: a request with a newer map is adopted and echoed, and what its ACK_SEQ leaves is replayed; a repeated
one is answered by the echo only; a full echo round of this receiver's own exchange ends it. -/
def execLtbLaneMapRx (p : Nat) (h : LtbHdr) (mapSeq : BitVec 8) (rxMap : BitVec 8) (echo : Bool) (s : State) : Res :=
  guardRes (portOk p) (unmarked s p h (fun s =>
    let c := count s .port p .ltbRx
    let x := s.port p
    match x.link with
    | .active | .drain =>
      if echo then
        if x.mapOpen then
          if mapSeq == x.mapSeq && rxMap == x.rxMap then ackIn (echoIn c p h.lane) p h else c
        else ackIn c p h
      else if x.peerMapSeq = some mapSeq then sendLaneMap (ackIn c p h) p mapSeq x.txMap true
      else if x.peerMapSeq.any (fun q => !mapNewer mapSeq q) then ackIn c p h
      else
        let t := dropExchange (updPort (adoptTxMap c p rxMap) p (fun x => { x with peerMapSeq := some mapSeq })) p
        let t := if h.nak then count t .port p .nakRx else t
        replay (ackSeen (sendLaneMap t p mapSeq rxMap true) p h.ackSeq) p
    | .down => s
    | _ => c))

/-- [R237] a LOAD_HINT LTB is stored while the port is ACTIVE; LEGACY counts it in BAD_TYPE (R210). -/
def execLtbLoadHintRx (p : Nat) (h : LtbHdr) (m : HintMsg) (s : State) : Res :=
  guardRes (portOk p) (unmarked s p h (fun s =>
    if isLegacy s p then count (count s .port p .ltbRx) .port p .badType
    else ltbIn s p h (fun s =>
      if m.ver ≠ 1 || (s.port p).link != .active then s
      else count (updPort s p (fun x => { x with
        hints := x.hints.set (m.block % 32) (some { at_ := s.clk.now, load := m.groupLoad }), hintSl := m.slLoad, hintSlAt := some s.clk.now })) .port p .hintRx)))

/-- [R232 R237] the smallest D among some ports, as the switch core of quadrant `aq` sees them; 255 for none. -/
def leastD (s : State) (aq : Nat) (l : List Nat) : Nat := (l.map (depthOf s aq)).foldl min 255

/-- [R237] GROUP_LOAD of a group. -/
def groupLoad (s : State) (aq g : Nat) : Nat :=
  if g = feaGroup (myFea s) then leastD s aq ((portsOf s).filter (fun p => choosable s p && portKind s p == 1))
  else leastD s aq (((candsOf (s.routes.active.group.get g)).filter (fun c => !c.nonmin && choosable s c.port)).map (·.port))

/-- [R237] SL_LOAD of a service level. -/
def slLoad (s : State) (sl : Nat) : Nat :=
  let ps := (portsOf s).filter (fun p => isFabric s p && choosable s p)
  let q := ((ps.map (fun p => ((List.range 4).map (fun g => (((s.port p).vcq.get (sl * 4 + g)).map (fun k => creditsOf k.pkt)).foldl (· + ·) 0)).foldl (· + ·) 0)).foldl (· + ·) 0)
  if ps.isEmpty then 255 else min 255 (q / ps.length / 64)

/-- [R236] every 500 ns an ACTIVE FULL port that is not idle sends the next hint block. -/
def execLoadHintSend (p : Nat) (s : State) : Res :=
  let x := s.port p
  let m : HintMsg := { block := x.hintNext, slLoad := (List.range 4).map (slLoad s), groupLoad := (List.range 128).map (fun i => groupLoad s (quadOfLane p) (x.hintNext * 128 + i)) }
  guardRes (portOk p)
    (if isFabric s p && x.link == .active && x.txIdle == 0 then
       putLtb (updPort s p (fun x => { x with hintNext := (x.hintNext + 1) % 32 })) p none (plainHdr x) (.hint m)
     else s)

/-! ### Timers -/

/-- [R196 R197 R201] the HELD interval in ns: a quarter of the CREDIT_TMO the partner announced, or of this port's own where it announced
none. -/
def heldInterval (x : Port) : Nat := 250 * (if x.partner.creditTmo = 0 then x.creditTmoNow else x.partner.creditTmo)

/-- [R201] packets are held on the VC and neither a return nor a notice has gone out for it within the HELD interval. -/
def heldDue (x : Port) (now vc : Nat) : Bool := decide (0 < x.heldV.get vc) && decide (x.heldAt.get vc + heldInterval x ≤ now)

/-- [R201] the HELD interval of a VC has passed: a notice for it. -/
def execHeldIntervalExpire (p vc : Nat) (s : State) : Res :=
  let x := s.port p
  guardRes (portOk p && decide (vc < 16))
    (if (x.link == .active || x.link == .drain) && heldDue x s.clk.now vc && replayRoom s p 1 then
       sendCtrl (updPort s p (fun x => { x with heldAt := x.heldAt.set vc s.clk.now })) p 0 (BitVec.ofNat 16 (2 ^ vc))
     else s)

/-- [R198] the packet's credits are there. -/
def creditsFor (x : Port) (vc c : Nat) : Bool := decide ((c : Int) ≤ (x.avail.get vc : Int) + max x.shared 0)

/-- [R199] the port asks its quadrant's pool for a quantum: the partner's shared use exceeds half the grant. -/
def asksQuantum (s : State) (p : Nat) : Bool :=
  let x := s.port p
  isFabric s p && x.link == .active && decide (x.grant < 2 * sharedUse s p) && decide (x.grant < x.sharedMaxNow)

/-- [R200] the ports of the quadrant that ask too and stand before `p` in the arbiter's rotation. -/
def aheadInPool (s : State) (p : Nat) : List Nat :=
  let turn := fun (k : Nat) => (k + 512 - ((s.quad (quadOfLane p)).arb + 1)) % 512
  (portsOf s).filter (fun k => quadOfLane k == quadOfLane p && asksQuantum s k && decide (turn k < turn p))

/-- [R199 R200] the adjustment period: the grant moves by 256 credits with the partner's shared use. A quantum is granted whole, and only when
the pool also covers those that stand before the port in the rotation; the 100 us below a quarter do not start anew after a lowering
(DESIGN CHOICE, log 100). -/
def execSharedGrantAdjust (p : Nat) (s : State) : Res :=
  let x := s.port p
  let use := sharedUse s p
  guardRes (portOk p)
    (if !(isFabric s p && x.link == .active) then s
     else if x.grant < 2 * use ∧ x.grant < x.sharedMaxNow then
       (if 256 * ((aheadInPool s p).length + 1) ≤ poolLeft s (quadOfLane p) p - portPool s p then
          sendCredits (updPort (updQuad s (quadOfLane p) (fun y => { y with arb := p })) p
            (fun x => { x with grant := x.grant + 256, owedShared := x.owedShared + 256, grantLowAt := s.clk.now })) p
        else updPort s p (fun x => { x with grantLowAt := s.clk.now }))
     else if x.grant ≤ 4 * use then updPort s p (fun x => { x with grantLowAt := s.clk.now })
     else if x.grantLowAt + 100000 ≤ s.clk.now ∧ x.sharedMinNow + 256 ≤ x.grant then
       sendCredits (updPort s p (fun x => { x with grant := x.grant - 256, owedShared := x.owedShared - 256 })) p
     else s)

/-- [R204] REPLAY_TMO without progress: replay from the oldest held LTB. -/
def execReplayTmoExpire (p : Nat) (s : State) : Res :=
  guardRes (portOk p) (match (s.port p).link with | .active | .drain => replay s p | _ => s)

/-- [R204] an LTB would be replayed for the ninth time. -/
def execReplayLimit (p : Nat) (s : State) : Res :=
  guardRes (portOk p) (match (s.port p).link with | .active | .drain => replayOver s p | _ => s)

/-- [R206 R207] LINK_GRACE expires: what is held is flushed; in DRAIN, LINK_DOWN follows. -/
def execLinkGraceExpire (p : Nat) (s : State) : Res :=
  let t := flushPort (updPort s p (fun x => { x with grace := false })) p
  guardRes (portOk p) (if !(s.port p).grace then s else if (s.port p).link = .drain then sendLinkDown t p else t)

/-- [R207] the queue is empty and every sequenced LTB acknowledged. -/
def execDrainComplete (p : Nat) (s : State) : Res :=
  let x := s.port p
  guardRes (portOk p)
    (if x.link == .drain && x.vcq.cells.all (·.2.isEmpty) && x.held.isEmpty && x.leaving.isEmpty && x.txq.isEmpty then sendLinkDown s p else s)

/-- [R195] LINK_DOWN is acknowledged, or 10 us have passed: DOWN. -/
def execLinkDownWaitEnd (p : Nat) (s : State) : Res :=
  guardRes (portOk p) (if (s.port p).link == .drain && (s.port p).downSent then endDrain s p else s)

end Sys2Proof.Machine
end

