-- ==== Sys2Proof/Machine/Access.lean ====
section
/-! DEFINITION. Access tables, the stored configuration's two copies, snapshots' arming, and the record window (R16, R108, R109,
R112 to R118, R484). -/

namespace Sys2Proof.Machine

/-! ### Access tables -/

/-- [R115] an entry. -/
def accEntry (id mask : Nat) (r w : Bool) : AccEntry := ⟨id, mask, r, w, true⟩

/-- [R115] the entries "host" stands for. -/
def hostEntries : List AccEntry := (List.range 8).map (fun p => accEntry (0x100 + p * 0x80) 0xFBE true true)

/-- [R115] the initial entries of a target. -/
def initialTable (t : Nat) : List AccEntry :=
  if t ≤ 7 ∨ t = tgtSWITCH ∨ t = tgtDEVICE then
    [accEntry 0x000 0xFE0 true true] ++ hostEntries ++
      [accEntry 0x020 0xFFF true true, accEntry 0x021 0xFFF true true, accEntry 0x022 0xFFF true false]
  else if t = tgtFLASH then [accEntry 0x000 0xFF0 true true] ++ hostEntries ++ [accEntry 0x021 0xFFF true true]
  else if t = tgtKEY ∨ t = tgtSECURE then [accEntry 0x000 0xFF0 true true]
  else [accEntry 0x000 0xFE0 true true]

/-- Every target of R112. -/
def allTargets : List Nat := (List.range 12) ++ (List.range 70).map (0x10 + ·)

/-- [R115] load the tables: the stored ones, the initial ones where nothing is stored. -/
def loadAccess (s : State) : State :=
  { s with access := allTargets.foldl (fun t k => t.set k ((s.cfg.access.get k).getD (initialTable k))) s.access }

/-! ### MRAM partitions -/

/-- [R484] write the stored configuration: the older copy takes the new content and becomes the newer. -/
def storeCfg (s : State) (f : StoredCfg → StoredCfg) : State := { s with cfg := f s.cfg, cfgOld := s.cfg }

/-! ### Snapshots -/

/-- [R108] an ARM by register: ignored while ARMED, MISSED at once without VALID time or when SNAP_FT is not later than FT. -/
def armSnap (s : State) : State :=
  if s.snap.st = 1 then s
  else if !s.tu.valid || decide (s.snap.ft.toNat ≤ s.clk.ft.toNat) then snapMissed s
  else { s with snap := { s.snap with st := 1 } }

/-- [R107 R108] a CANCEL of an armed snapshot. -/
def cancelSnap (s : State) : State := if s.snap.st = 1 then { s with snap := { s.snap with st := 0 } } else s

/-! ### The record window -/

/-- [R109] every record the window shows, oldest first. -/
def shownRecords (s : State) : List EvRec := s.recd.ring ++ s.recd.buf

/-- [R109] EVENT.OLDEST and EVENT.NEWEST. -/
def oldestSeq (s : State) : BitVec 32 := match shownRecords s with | r :: _ => r.seq | [] => s.recd.next
def newestSeq (s : State) : BitVec 32 := match (shownRecords s).getLast? with | some r => r.seq | none => s.recd.next - 1

/-- [R469] `a` is older than `b`. -/
def seqOlder (a b : BitVec 32) : Bool := a != b && decide ((b - a).toNat < 2 ^ 31)

/-- [R109] RD_PTR of a master. -/
def rdPtrOf (s : State) (m : Nat) : BitVec 32 := (s.master m).rdPtr

/-- [R109] word `i` of the record at RD_PTR: zero beyond NEWEST, ones when it is no longer held. -/
def eventWord (s : State) (m i : Nat) : Nat :=
  let p := rdPtrOf s m
  match (shownRecords s).find? (fun r => r.seq == p) with
  | some r => leAt (encRecord r) (4 * i) 4
  | none => if seqOlder (newestSeq s) p then 0 else 0xFFFFFFFF

/-- [R109] a read of EVENT.DATA7 advances RD_PTR unless the record is no longer held (log 25). -/
def advanceRdPtr (s : State) (m : Nat) : State :=
  let p := rdPtrOf s m
  if (shownRecords s).any (fun r => r.seq == p) || seqOlder (newestSeq s) p then updMaster s m (fun x => { x with rdPtr := p + 1 })
  else s

end Sys2Proof.Machine
end

