-- ==== Sys2Proof/Machine/RegRead.lean ====
section
/-! DEFINITION. The register space read: the block maps (R81 to R88), the resource windows with their access and selection checks
(R95, R96), and the value of every register (R88 to R109, R184, R185, R211, R243, R266, R462, R475). -/

namespace Sys2Proof.Machine

/-! ### The map -/

/-- The blocks of R85 and R86. -/
inductive Block where
  | ident | status | pba | msix | mailbox | chsel | portW | laneW | octetW | hostW | shaperW | counterW | time | event | admin
  deriving DecidableEq, Repr

/-- [R83] JTAG, the chain and the BMC. -/
def isBoard (m : Nat) : Bool := m == 0x20 || m == 0x21 || m == 0x22

/-- [R83 R110] masters that reach the register space. -/
def masterOk (s : State) (m : Nat) : Bool := decide (m < 16) || isBoard m || fnExists s m

/-- [R83 R97] the master has STATUS and MAILBOX blocks of its own. -/
def hasInst (s : State) (m : Nat) : Bool := isBoard m || fnExists s m

/-- [R81] set ACC_ERR of the master's instance. -/
def accErr (s : State) (m : Nat) : State := if hasInst s m then setAccErr s m else s
/-- [R95] set SEL_ERR of the master's instance. -/
def selErr (s : State) (m : Nat) : State := if hasInst s m then setSelErr s m else s

/-- [R84 R86 R91] vectors in a function's MSI-X table. -/
def msixVecs (s : State) (m : Nat) : Nat := if isPf0 s m then 2048 else 64
/-- [R85 R86] bytes of the MSI-X block: 32 KiB on a PF0 and on a PF1, whatever the vectors, and 1 KiB on a VF. -/
def msixSpan (s : State) (m : Nat) : Nat := if isVf s m then 0x400 else 0x8000

/-- [R83 R85 R86] the block an offset lies in, with the offset inside it. -/
def blockOf (s : State) (m off : Nat) : Option (Block × Nat) :=
  let own := hasInst s m
  let fn := fnExists s m
  if off < 0x1000 then (if own then some (.ident, off) else none)
  else if off < 0x2000 then (if own then some (.status, off - 0x1000) else none)
  else if 0x7000 ≤ off ∧ off < 0x8000 then (if fn then some (.pba, off - 0x7000) else none)
  else if 0x8000 ≤ off ∧ off < 0x8000 + msixSpan s m then (if fn then some (.msix, off - 0x8000) else none)
  else if isVf s m then (if 0xC000 ≤ off ∧ off < 0xD000 then some (.admin, off - 0xC000) else none)
  else if 0x10000 ≤ off ∧ off < 0x13000 then (if own then some (.mailbox, off - 0x10000) else none)
  else if 0x20000 ≤ off ∧ off < 0x21000 then some (.chsel, off - 0x20000)
  else if 0x30000 ≤ off ∧ off < 0x31000 then some (.portW, off - 0x30000)
  else if 0x31000 ≤ off ∧ off < 0x32000 then some (.laneW, off - 0x31000)
  else if 0x32000 ≤ off ∧ off < 0x33000 then some (.octetW, off - 0x32000)
  else if 0x33000 ≤ off ∧ off < 0x34000 then some (.hostW, off - 0x33000)
  else if 0x34000 ≤ off ∧ off < 0x35000 then some (.shaperW, off - 0x34000)
  else if 0x35000 ≤ off ∧ off < 0x36000 then some (.counterW, off - 0x35000)
  else if 0x40000 ≤ off ∧ off < 0x41000 then some (.time, off - 0x40000)
  else if 0x50000 ≤ off ∧ off < 0x51000 then some (.event, off - 0x50000)
  else if 0x100000 ≤ off ∧ off < 0x101000 then (if fn then some (.admin, off - 0x100000) else none)
  else none

/-- [R112] the access-table target of a block. -/
def Block.target : Block → Option Nat
  | .portW => some tgtPORT | .laneW => some tgtLANE | .octetW => some tgtOCTET | .hostW => some tgtHOST
  | .shaperW => some tgtSHAPER | .counterW => some tgtCOUNTER | .time => some tgtTIME | .event => some tgtEVENT
  | _ => none

/-! ### Small helpers -/

def b2n (b : Bool) : Nat := if b then 1 else 0
/-- A field of `w` bits at bit `lo` of a word. -/
def fld (v lo w : Nat) : Nat := v / 2 ^ lo % 2 ^ w
/-- Place a value of `w` bits at bit `lo`. -/
def put (v lo w : Nat) : Nat := v % 2 ^ w * 2 ^ lo
/-- A value as 32 bits, two's complement. -/
def w32 (i : Int) : Nat := (BitVec.ofInt 32 i).toNat
def loHalf (v : Nat) : Nat := v % 2 ^ 32
def hiHalf (v : Nat) : Nat := v / 2 ^ 32 % 2 ^ 32

/-! ### Selections -/

/-- [R95] the resource a selection names exists and its quadrant is ACTIVE. -/
def portSelOk (s : State) (p : Nat) : Bool := (s.port p).exists_ && decide (p < 512) && quadActive s (quadOfLane p)
def laneSelOk (s : State) (l : Nat) : Bool := decide (l < 512) && quadActive s (quadOfLane l)
def octSelOk (s : State) (o : Nat) : Bool := decide (o < 64) && quadActive s (o / 16)
/-- [R92] the host endpoint HOST_SEL names. -/
def hostSelEp (v : Nat) : Nat := 2 * fld v 0 3 + fld v 3 1
def hostSelOk (s : State) (v : Nat) : Bool := epExists s (hostSelEp v) && quadActive s (quadOfEp (hostSelEp v))
/-- [R251] the function of a partition shaper, quadrant * 4096 + number. -/
def shaperFn (k : Nat) : Nat := 0x100 + (k / 4096 * 2 + k % 4096 / 2048) * 0x80 + k % 2048 / 16
def partShaperOk (s : State) (k : Nat) : Bool := decide (k < 16384) && fnExists s (shaperFn k) && quadActive s (k / 4096)
/-- [R92 R95] the shaper SHP_SEL names. -/
def shpPort (v : Nat) : Bool := fld v 31 1 == 0
def shpSelOk (s : State) (v : Nat) : Bool :=
  if shpPort v then fld v 9 5 == 0 && portSelOk s (fld v 0 9) else partShaperOk s (fld v 0 14)

/-- [R267] the counters kept per SL. -/
def perSl (c : Cn) : Bool := c == .polGreen || c == .polYellow || c == .polRed || c == .polDrop

/-- [R65 R92] host scope: INDEX is an endpoint number (log 22); the endpoint's own quadrant, where a host can stand behind it. -/
def cntHostQuad (s : State) (i : Nat) : Option Nat :=
  if splitNumbering s then (if i < 15 then some (i / 4) else none) else (if i < 8 then some (i / 2) else none)
/-- The instance a counter is held under: the host endpoint of an endpoint number, otherwise INDEX itself. -/
def cntIdx (s : State) (sc : Scope) (i : Nat) : Nat := if sc = .host ∧ !splitNumbering s then 2 * i else i

/-- [R92 R95 R476] the instance a counter's CNT_SEL.INDEX names exists (SL3 has no policer, so port field * 4 + 3 names none). -/
def cntInstOk (s : State) (sc : Scope) (c : Cn) (i : Nat) : Bool :=
  match sc with
  | .port => if perSl c then decide (i % 4 < 3) && portSelOk s (i / 4) else portSelOk s i
  | .lane => laneSelOk s i
  | .octet => octSelOk s i
  | .host => decide (i < 16) && (cntHostQuad s i).all (quadActive s)
  | .quadrant => decide (i < 4) && quadActive s i
  | .device => i == 0
  | .shaper => partShaperOk s i
  | .target => isTarget i

/-! ### IDENT, STATUS, MAILBOX.STATE and ADMIN -/

/-- [R88] the IDENT registers. HOST_MODE reads 0 in the JTAG, chain and BMC instances, which have no host port (DESIGN CHOICE, log 98). -/
def identReg (s : State) (m off : Nat) : Nat :=
  let host := fnExists s m
  match off with
  | 0x000 => 0x1F5B + (if isPf1 s m then 0x0514 else if isVf s m then 0x0513 else 0x0512) * 65536
  | 0x004 => put s.ident.stepping 0 8 + put (b2n s.ident.h96) 8 1 + put (b2n s.ident.gradeL) 9 1 + put s.profile 16 8 + put (b2n (splitNumbering s)) 24 1
  | 0x008 => leAt s.ident.serial 0 4
  | 0x00C => leAt s.ident.serial 4 4
  | 0x010 => leAt s.ident.serial 8 4
  | 0x014 => if s.boot.versionShown then s.boot.version.toNat else 0
  | 0x018 => put s.boot.slot 0 2
  | 0x01C => if s.routes.fea.isSome then (routerFea s (if host then endpointOf s (epOfFn s m) else 15)).toNat + 2 ^ 31 else 0
  | 0x020 => put s.chain.addr 0 8 + put (b2n (s.boot.straps.chainHead && s.chain.addr == 1)) 8 1 + put (b2n s.grp.manager) 9 1 + put (b2n s.chain.orphan) 10 1 + put (b2n s.grp.isolated) 11 1
  | 0x024 => put (s.quad 0).st 0 2 + put (s.quad 1).st 2 2 + put (s.quad 2).st 4 2 + put (s.quad 3).st 6 2
  | 0x028 => if host then put (hostOfFn m) 0 3 + put (epOfFn s m % 2) 3 1 + put (numOfFn m) 4 7 + put m 16 12 else put m 16 12 + 2 ^ 31
  | 0x02C => if host then put (s.hostMode.get (hostOfFn m)) 0 2 + put (b2n (s.hostMode.get (hostOfFn m) == 2)) 2 1 else 0
  | _ => 0

/-- [R89] STATUS.DEV of an instance. -/
def statusDev (s : State) (m : Nat) : Nat :=
  put (b2n s.boot.fwReady) 0 1 + put (b2n s.boot.fwRestarting) 1 1 + put (b2n s.boot.safe) 2 1 + put (b2n (timeLocked s)) 3 1 +
    put (b2n ((portsOf s).any (degraded s))) 4 1 + put (b2n (s.inst m).selErr) 8 1 + put (b2n (s.inst m).accErr) 9 1

/-- [R89] the CAUSE and MASK bits an instance has. -/
def causeBits (s : State) (m : Nat) : BitVec 9 := if isVf s m then 0xA else 0x1FF

def statusReg (s : State) (m off : Nat) : Nat :=
  match off with
  | 0x000 => statusDev s m
  | 0x004 => ((s.inst m).cause &&& causeBits s m).toNat
  | 0x008 => ((s.inst m).mask &&& causeBits s m).toNat
  | _ => 0

/-- [R97] MAILBOX.STATE; DOORBELL is write-only and reads zero. -/
def mailboxReg (s : State) (m off : Nat) : Nat :=
  let i := s.inst m
  if off = 0x2004 then put i.mbState 0 2 + put (b2n i.waitingFw) 2 1 + put (b2n i.dbIgnored) 3 1 + put i.lastTag 16 16 else 0

/-- [R103] the ADMIN registers. -/
def adminReg (s : State) (m off : Nat) : Nat :=
  let a := (s.fn m).aq
  match off with
  | 0x000 => loHalf a.sqBase.toNat
  | 0x004 => hiHalf a.sqBase.toNat
  | 0x008 => loHalf a.cqBase.toNat
  | 0x00C => hiHalf a.cqBase.toNat
  | 0x010 => put a.log2 0 4
  | 0x014 => put a.sqTail 0 13
  | 0x018 => put a.sqHead 0 13
  | 0x01C => put a.cqHead 0 13
  | 0x020 => put (b2n a.enable) 0 1 + put (b2n a.irqEn) 1 1
  | 0x024 => put a.state 0 2 + put a.errCode 16 16
  | _ => 0

/-- [R91] a byte of the MSI-X table (16 B per vector: address, data, vector control); zero beyond the function's vectors (log 98). -/
def msixByte (s : State) (m off : Nat) : Byte :=
  let f := s.fn m
  let v := off / 16
  let b := off % 16
  if msixVecs s m ≤ v then 0
  else if b < 12 then ((f.msixTable.get v) >>> (8 * b)).setWidth 8
  else if b = 12 then (if f.msixMask.get v then 1 else 0) else 0

/-- [R91] a byte of the pending-bit array. -/
def pbaByte (s : State) (m off : Nat) : Byte :=
  BitVec.ofNat 8 ((List.range 8).map (fun i => if (s.fn m).msixPend.get (8 * off + i) then 2 ^ i else 0)).sum

/-- [R97] a byte of the mailbox areas. The response area reads zero beyond the last response, where the spec does not say whether bytes of
an older one stay (DESIGN CHOICE, log 98). -/
def mailboxByte (s : State) (m off : Nat) : Byte :=
  if off < 0x1000 then (s.inst m).cmdArea.get off else (s.inst m).rspArea.getD (off - 0x1000) 0

/-- [R92] the select registers. -/
def chselReg (s : State) (m off : Nat) : Nat :=
  let x := s.master m
  match off with
  | 0x000 => x.portSel | 0x004 => x.laneSel | 0x008 => x.octSel | 0x00C => x.hostSel | 0x010 => x.shpSel | 0x014 => x.cntSel
  | _ => 0

/-! ### The resource windows -/

/-- [R243] at least one stored hint block is not stale. -/
def hintFresh (s : State) (x : Port) : Bool :=
  x.hints.cells.any (fun kv => kv.2.any (fun b => decide (s.clk.now ≤ b.at_ + x.hintAge * 1000)))

/-- [R211 R243] the PORT window. -/
def portReg (s : State) (p off : Nat) : Nat :=
  let x := s.port p
  if off = 0x000 then
    put (match x.link with | .down => 0 | .train => 1 | .init => 2 | .active => 3 | .retrain => 4 | .drain => 5) 0 4 + put (portProfile s p) 4 2 +
      put (b2n (degraded s p)) 6 1 + put (b2n x.grace) 7 1 + put x.width 8 2 + put x.role 10 2 + put x.mismatch 12 3 +
      put x.rxMap.toNat 16 8 + put x.txMap.toNat 24 8
  else if off = 0x004 then put x.partner.fea.toNat 0 24 + put (b2n x.partner.valid) 31 1
  else if off = 0x008 then put x.partner.port 0 9
  else if off = 0x00C then put x.graceMs 0 10 + put x.replayUs 10 10
  else if off = 0x010 then put x.creditTmo 0 20
  else if off = 0x014 then w32 x.shared
  else if off = 0x018 then put x.grant 0 20
  else if off = 0x01C then put x.sharedMin 0 16 + put x.sharedMax 16 16
  else if off = 0x020 then put x.nextSeq.toNat 0 16 + put x.acked.toNat 16 16
  else if off = 0x024 then put x.held.length 0 12
  else if off = 0x028 then put x.ackSeq.toNat 0 16 + put x.mapSeq.toNat 16 8
  else if 0x040 ≤ off ∧ off < 0x080 then put (x.avail.get ((off - 0x040) / 4)) 0 12 + put (x.cap.get ((off - 0x040) / 4)) 16 12
  else if 0x080 ≤ off ∧ off < 0x0C0 then
    (if isLegacy s p && decide (8 ≤ (off - 0x080) / 4) then 0 else put (x.reserve.get ((off - 0x080) / 4)) 0 12)
  else if 0x100 ≤ off ∧ off < 0x200 then (x.pkeys.get ((off - 0x100) / 4)).toNat
  else if off = 0x200 then
    put (portKind s p) 0 2 + put (b2n (choosable s p)) 2 1 + put (b2n (hintFresh s x)) 3 1 + put (feaGroup x.partner.fea) 8 12
  else if off = 0x204 then put (qdepth s p) 0 20
  else if off = 0x208 then put x.hintAge 0 10
  else if off = 0x20C then put (x.hintSl.getD 0 0) 0 8 + put (x.hintSl.getD 1 0) 8 8 + put (x.hintSl.getD 2 0) 16 8 + put (x.hintSl.getD 3 0) 24 8
  else 0

/-- The number of a lane state in LANE.STATE. -/
def LaneSt.num : LaneSt → Nat
  | .off => 0 | .parked => 1 | .train => 2 | .up => 3 | .eidle => 4 | .wake => 5 | .retrain => 6 | .diag => 7

/-- [R184] the LANE window. LOOPBACK of a lane outside DIAG reads 0, though the setting is kept for the next DIAG (DESIGN CHOICE, log 109). -/
def laneReg (s : State) (l off : Nat) : Nat :=
  let x := s.lane l
  match off with
  | 0x000 =>
    put x.st.num 0 4 + put ((portOfLane s l).getD 0) 4 9 + put (b2n x.sig) 13 1 + put (b2n x.cdr) 14 1 + put (b2n x.fec) 15 1 +
      put (b2n x.eidleRx) 16 1 + put (b2n x.rxInv) 17 1 + put (b2n x.noLock) 18 1 + put (if x.st = .diag then x.loopback else 0) 19 2 + put (b2n (x.st == .diag && x.prbsGen)) 21 1 +
      put (b2n (x.st == .diag && x.prbsChk)) 22 1 + put (b2n x.prbsLock) 23 1 + put (b2n (portOfLane s l).isNone) 24 1
  | 0x004 => x.cfg.toNat
  | 0x008 => fld x.rxEq.toNat 0 19
  | 0x00C => x.snr.toNat + x.adaptSeq.toNat * 65536
  | 0x010 => fld x.eye.toNat 0 30
  | 0x014 => fld x.ber.toNat 0 16
  | 0x018 => x.inj.toNat
  | _ => 0

/-- A mask of eight lanes of an octet. -/
def octMask (o : Nat) (p : Nat → Bool) : Nat := ((List.range 8).map (fun i => if p (8 * o + i) then 2 ^ i else 0)).sum

/-- [R185] the OCTET window; precoding is on for 224G LR and off in every other case (R161). -/
def octetReg (s : State) (o off : Nat) : Nat :=
  let x := s.octet o
  match off with
  | 0x000 => put x.rate 0 2 + put x.reach 2 1 + put (b2n (x.rate == 0 && x.reach == 0)) 3 1 + put (b2n x.pll) 4 1 + put (b2n (s.quad (o / 16)).refOk) 5 1 + put x.calSrc 6 2
  | 0x004 => octMask o (fun l => (s.port l).exists_) + 256 * octMask o (fun l => (portOfLane s l).isNone) + 65536 * octMask o (fun l => (s.lane l).st != .off)
  | 0x008 => put x.idleEnter 0 14 + put (b2n x.idleEn) 14 1 + put x.refresh 16 7 + put x.retrain 24 7
  | 0x00C => x.temp.toNat
  | _ => 0

/-- [R462] the HOST window. -/
def hostReg (s : State) (e off : Nat) : Nat :=
  let x := s.hostEp e
  match off with
  | 0x000 =>
    put (b2n x.linkUp) 0 1 + put (b2n x.cfgReady) 1 1 + put (b2n ((fnsOfEp s e).any (fun f => (s.fn f).flrBusy))) 2 1 + put x.speed 4 3 +
      put x.width 8 5 + put x.outstanding 16 16
  | 0x004 => put x.pollActive 0 17
  | 0x008 => put x.pollIdleMax 0 14
  | 0x00C => put x.slotWait 0 17
  | 0x010 => put x.parkIdle 0 14
  | 0x014 => put x.cqFull 0 17
  | 0x018 => put x.rtoMin 0 14
  | 0x01C => put x.retryLimit 0 4 + put x.rnrLimit 8 8
  | 0x020 => put x.rnrHint 0 16
  | 0x024 => put x.reorderTol 0 10
  | 0x028 => put x.ackDelay 0 17 + put x.ackCoalesce 24 7
  | 0x02C => put x.ccT0 0 10 + put x.ccT1 10 10 + put x.ccT2 20 10
  | 0x030 => put x.eagerMax 0 17
  | 0x034 => loHalf x.backBase.toNat
  | 0x038 => hiHalf x.backBase.toNat
  | 0x03C => put x.backSlots 0 23
  | 0x040 => put (x.images.cells.filter (fun kv => kv.2.isSome)).length 0 23
  | _ => 0

/-- [R266] a policer block. -/
def policerReg (c : Policer) (now off : Nat) : Nat :=
  match off with
  | 0x00 => put (b2n c.dropRed) 0 1 + put (b2n c.aware) 1 1 + put (b2n c.enable) 2 1
  | 0x04 => put c.cir 0 21
  | 0x08 => put c.pir 0 21
  | 0x0C => put c.cbs 0 25
  | 0x10 => put c.pbs 0 25
  | 0x14 => put (c.tcAt now / 8000) 0 25
  | 0x18 => put (c.tpAt now / 8000) 0 25
  | _ => 0

/-- [R266] the first three SHAPER registers, which both kinds have. -/
def shaperHead (h : Shaper) (now off : Nat) : Nat :=
  match off with
  | 0x000 => put h.rate 0 21
  | 0x004 => put h.burst 0 25
  | _ => w32 (h.tokensAt now / 8000)

/-- [R266] GATE_OPEN. -/
def gateOpen (g : Gate) (ft : BitVec 64) : Nat := ((List.range 16).map (fun v => if g.openVc ft v then 2 ^ v else 0)).sum

/-- [R266] the SHAPER window for a port shaper. -/
def portShaperReg (s : State) (p off : Nat) : Nat :=
  let x := s.port p
  let g := x.gate
  if off ≤ 0x008 then shaperHead x.shaper s.clk.now off
  else if off = 0x00C then put x.yellow 0 16 + put x.red 16 16
  else if off = 0x010 then put x.quanta.1 0 12 + put x.quanta.2.1 16 12
  else if off = 0x014 then put x.quanta.2.2 0 12
  else if off = 0x018 then put g.guardNs 0 14 + put g.edgeTol 16 10
  else if off = 0x01C then put g.holdoverMax 0 10
  else if off = 0x020 then
    put (b2n g.gating) 0 1 + put (b2n g.active) 1 1 + put (b2n g.pending) 2 1 + put (b2n g.forced) 3 1 + put (b2n g.holdTmr) 4 1 +
      put (if g.gating then g.bank.entry s.clk.ft else 0) 8 8 + put g.bank.entries.length 16 9
  else if off = 0x024 then g.bank.cycle % 2 ^ 32
  else if off = 0x028 then loHalf g.bank.ft.toNat
  else if off = 0x02C then hiHalf g.bank.ft.toNat
  else if off = 0x030 then put g.run 0 5
  else if off = 0x034 then gateOpen g s.clk.ft
  else if 0x040 ≤ off ∧ off < 0x060 then policerReg x.pol0 s.clk.now (off - 0x040)
  else if 0x060 ≤ off ∧ off < 0x080 then policerReg x.pol1 s.clk.now (off - 0x060)
  else if 0x080 ≤ off ∧ off < 0x0A0 then policerReg x.pol2 s.clk.now (off - 0x080)
  else 0

/-- [R266] the SHAPER window for a partition shaper. -/
def partShaperReg (s : State) (k off : Nat) : Nat :=
  if off ≤ 0x008 then shaperHead (s.ep.shapers.get k) s.clk.now off
  else if 0x040 ≤ off ∧ off < 0x060 then policerReg (s.ep.policers.get k) s.clk.now (off - 0x040)
  else 0

/-- [R477] a counter read: live, with what is not yet folded, or frozen; a maximum reads its active bank alone. -/
def counterRead (s : State) (sc : Scope) (i k : Nat) (c : Cn) (frozen : Bool) : BitVec 64 :=
  let x := s.ctrs.get (ctrKey sc i k)
  if frozen then x.frozen else if c == .eqxOffsetMax || s.snap.folded then x.live else x.live + x.frozen

/-- [R95 R475] the COUNTER window: a value and the state, or none out of range. -/
def counterReg (s : State) (m off : Nat) : Option (Nat × State) :=
  let v := (s.master m).cntSel
  match Scope.ofCode (fld v 28 4) with
  | none => none
  | some sc =>
    if off = 0xFF8 then some (put sc.counters.length 0 9 + s.snap.frozenSeq.toNat * 65536, s)
    else if off = 0xFFC then some (b2n s.snap.folded, s)
    else
      match sc.counters[off / 8]? with
      | none => none
      | some c =>
        if cntInstOk s sc c (fld v 0 16) then
          if off % 8 = 0 then
            let x := counterRead s sc (cntIdx s sc (fld v 0 16)) (off / 8) c (fld v 27 1 == 1)
            some (loHalf x.toNat, updMaster s m (fun y => { y with cntHi := BitVec.ofNat 32 (hiHalf x.toNat) }))
          else some ((s.master m).cntHi.toNat, s)
        else none

/-- [R107] the TIME block; a read of FT_LO latches the rest of the same instant for the master. SNAP_CTRL.ARM reads 1 while a snapshot is ARMED,
and CANCEL, which acts at once, reads 0 (DESIGN CHOICE, log 98). -/
def timeReg (s : State) (m off : Nat) : Nat × State :=
  match off with
  | 0x000 => (loHalf s.clk.ft.toNat, updMaster s m (fun y => { y with ftHi := BitVec.ofNat 32 (hiHalf s.clk.ft.toNat), ftFrac := s.clk.frac }))
  | 0x004 => ((s.master m).ftHi.toNat, s)
  | 0x008 => ((s.master m).ftFrac.toNat, s)
  | 0x00C => (put (b2n (timeLocked s)) 0 1 + put (b2n (s.tu.st == .holdover)) 1 1 + put (b2n s.tu.valid) 2 1, s)
  | 0x010 => (loHalf s.snap.ft.toNat, s)
  | 0x014 => (hiHalf s.snap.ft.toNat, s)
  | 0x018 => (b2n (s.snap.st == 1), s)
  | 0x01C => (put s.snap.st 0 2 + put (b2n s.snap.bank) 2 1 + s.snap.seq.toNat * 65536, s)
  | _ => (0, s)

/-- [R109] the EVENT window; a read of DATA7 advances the master's pointer. -/
def eventReg (s : State) (m off : Nat) : Nat × State :=
  if off = 0x000 then ((oldestSeq s).toNat, s)
  else if off = 0x004 then ((newestSeq s).toNat, s)
  else if off = 0x008 then ((rdPtrOf s m).toNat, s)
  else if 0x020 ≤ off ∧ off < 0x040 then (eventWord s m ((off - 0x020) / 4), if off = 0x03C then advanceRdPtr s m else s)
  else (0, s)

/-! ### A read -/

/-- How an access ended: served, denied, malformed, or out of range. -/
inductive AccEnd where
  | ok | denied | malformed | range
  deriving DecidableEq, Repr

/-- What a read returns: the value, how it ended, the state after it. -/
abbrev RegAns := Nat × AccEnd × State

def ones32 : Nat := 0xFFFFFFFF

/-- [R95] an out-of-range selection. -/
def rangeRead (s : State) (m : Nat) : RegAns := (ones32, .range, selErr s m)

/-- [R95] read a window whose selection has been judged. -/
def windowAns (s : State) (m : Nat) (ok : Bool) (v : Nat) : RegAns := if ok then (v, .ok, s) else rangeRead s m

/-- [R88 to R109] read one aligned register of a block, its access table already passed. -/
def readBlock (s : State) (m : Nat) (b : Block) (off : Nat) : RegAns :=
  let x := s.master m
  match b with
  | .ident => (identReg s m off, .ok, s)
  | .status => (statusReg s m off, .ok, s)
  | .pba => (leNat ((List.range 4).map (fun i => pbaByte s m (off + i))), .ok, s)
  | .msix => (leNat ((List.range 4).map (fun i => msixByte s m (off + i))), .ok, s)
  | .mailbox => (mailboxReg s m off, .ok, s)
  | .chsel => (chselReg s m off, .ok, s)
  | .portW => windowAns s m (portSelOk s x.portSel) (portReg s x.portSel off)
  | .laneW => windowAns s m (laneSelOk s x.laneSel) (laneReg s x.laneSel off)
  | .octetW => windowAns s m (octSelOk s x.octSel) (octetReg s x.octSel off)
  | .hostW => windowAns s m (hostSelOk s x.hostSel) (hostReg s (hostSelEp x.hostSel) off)
  | .shaperW =>
    windowAns s m (shpSelOk s x.shpSel) (if shpPort x.shpSel then portShaperReg s (fld x.shpSel 0 9) off else partShaperReg s (fld x.shpSel 0 14) off)
  | .counterW => match counterReg s m off with | some a => (a.1, .ok, a.2) | none => rangeRead s m
  | .time => let a := timeReg s m off; (a.1, .ok, a.2)
  | .event => let a := eventReg s m off; (a.1, .ok, a.2)
  | .admin => (adminReg s m off, .ok, s)

/-- [R96 R118] read one aligned register: the access table first, then the selection. -/
def read32 (s : State) (m off : Nat) : RegAns :=
  match blockOf s m off with
  | none => (0, .ok, s)
  | some (b, o) =>
    match b.target with
    | some t => if allowed s m t false then readBlock s m b o else (ones32, .denied, accErr (denied s m t) m)
    | none => readBlock s m b o

/-- [R81] an access naturally aligned for a size of 1, 2, 4 or 8 bytes. -/
def natural (off width : Nat) : Bool := (width == 1 || width == 2 || width == 4 || width == 8) && off % width == 0

/-- [R81] the offset lies in a mailbox area that may be read at any size and alignment. -/
def inMailboxArea (s : State) (m off : Nat) : Bool :=
  match blockOf s m off with
  | some (.mailbox, o) => decide (o < 0x2000)
  | _ => false

/-- [R83 R87] a host function's offset beyond its BAR0 of 16 MiB names its BAR2 (the model's own numbering, log 98). -/
def barTwo (s : State) (m off : Nat) : Bool := fnExists s m && decide (2 ^ 24 ≤ off)

/-- [R81 R87] a read of the register space; BAR2 reads zero. 64 bits as two registers, less than 32 bits as part of one, mailbox areas by byte. -/
def regRead (s : State) (m off width : Nat) : RegAns :=
  if barTwo s m off then (0, .ok, s)
  else if inMailboxArea s m off then
    (leNat ((List.range width).map (fun i => if inMailboxArea s m (off + i) then mailboxByte s m (off + i - 0x10000) else 0)), .ok, s)
  else if !natural off width then (2 ^ (8 * width) - 1, .malformed, accErr s m)
  else if width = 8 then
    let a := read32 s m off
    let b := read32 a.2.2 m (off + 4)
    (a.1 + b.1 * 2 ^ 32, if a.2.1 = .ok then b.2.1 else a.2.1, b.2.2)
  else
    let a := read32 s m (off / 4 * 4)
    (fld a.1 (8 * (off % 4)) (8 * width), a.2)

end Sys2Proof.Machine
end

