-- ==== Sys2Proof/Machine/RegWrite.lean ====
section
/-! DEFINITION. The register space written: every RW, W1C, W1S and WO register (R81, R89 to R109, R184, R185, R211, R243, R266,
R395, R462), the mailbox doorbell (R99) and the MSI-X table (R91). -/

namespace Sys2Proof.Machine

/-- [R16] a value in range is taken; a reserved encoding leaves the field. -/
def inRange (lo hi new old : Nat) : Nat := if lo ≤ new ∧ new ≤ hi then new else old

/-! ### Interrupts -/

/-- [R91 R460] send the pending messages of a function that nothing masks any more. -/
def releasePending (s : State) (f : Nat) : State :=
  if (s.fn f).msixFnMask || !(s.fn f).bme then s
  else
    foldS (((s.fn f).msixPend.find (fun v b => b && !(s.fn f).msixMask.get v)).map (·.1)) s
      (fun s v => emit (updFn s f (fun x => { x with msixPend := x.msixPend.set v false })) (.msix f v))

/-- [R91] mask or unmask a vector. -/
def setVecMask (s : State) (f v : Nat) (b : Bool) : State :=
  releasePending (updFn s f (fun x => { x with msixMask := x.msixMask.set v b })) f

/-- [R91] unmask the function. -/
def unmaskFn (s : State) (f : Nat) : State := releasePending (updFn s f (fun x => { x with msixFnMask := false })) f

/-- [R89 R90] a write to STATUS.CAUSE: ones clear, and what stays unmasked is signalled again. -/
def writeCause (s : State) (m : Nat) (v : Nat) : State :=
  let t := updInst s m (fun i => { i with cause := i.cause &&& ~~~ (BitVec.ofNat 9 v) })
  if liveCauses (t.inst m) ≠ 0 ∧ fnExists t m then sendMsix t m 0 else t

/-- [R89 R90] a write to STATUS.MASK. -/
def writeMask (s : State) (m : Nat) (v : Nat) : State :=
  let b := causeBits s m
  changeStatus s m (fun i => { i with mask := (i.mask &&& ~~~ b) ||| (BitVec.ofNat 9 v &&& b) })

/-! ### The mailbox -/

/-- [R98 R99] the command the area of a mailbox holds. -/
def areaCommand (s : State) (m : Nat) : MbCmd :=
  let a := fun i => ((s.inst m).cmdArea.get i).toNat
  let len := a 4 + 256 * a 5
  { m := m, op := a 0 + 256 * a 1, tag := a 2 + 256 * a 3, len := len, flags := a 6 + 256 * a 7,
    payload := (List.range (min len 4088)).map (fun i => (s.inst m).cmdArea.get (8 + i)), at_ := s.clk.now }

/-- [R101] Molzu, or in SAFE mode the boot ROM, is there to take commands. -/
def molzuUp (s : State) : Bool := s.boot.fwReady || s.boot.safe

/-- [R22 R99 R101] DOORBELL.GO. -/
def ringDoorbell (s : State) (m : Nat) : State :=
  if (s.inst m).mbState = 1 then updInst s m (fun i => { i with dbIgnored := true })
  else
    let t := updInst (mbToService s m (8 + (areaCommand s m).payload.length)) m (fun i => { i with mbState := 1, waitingFw := !molzuUp s })
    { t with cmds := { t.cmds with queue := t.cmds.queue ++ [areaCommand s m] } }

/-- [R97] DOORBELL and MAILBOX.STATE. -/
def writeMailbox (s : State) (m off v : Nat) : State :=
  if off = 0x2000 then (if v % 2 = 1 then ringDoorbell s m else s)
  else if off = 0x2004 then (if fld v 3 1 = 1 then updInst s m (fun i => { i with dbIgnored := false }) else s)
  else s

/-! ### CHSEL and ADMIN -/

/-- [R16 R92] the select registers; a reserved SCOPE leaves the field. -/
def writeChsel (s : State) (m off v : Nat) : State :=
  updMaster s m (fun x => match off with
    | 0x000 => { x with portSel := fld v 0 9 }
    | 0x004 => { x with laneSel := fld v 0 9 }
    | 0x008 => { x with octSel := fld v 0 6 }
    | 0x00C => { x with hostSel := fld v 0 4 }
    | 0x010 => { x with shpSel := put v 0 14 + put (fld v 31 1) 31 1 }
    | 0x014 => { x with cntSel := put v 0 16 + put (fld v 27 1) 27 1 + put (if fld v 28 4 ≤ 7 then fld v 28 4 else fld x.cntSel 28 4) 28 4 }
    | _ => x)

/-- Replace the low or high half of a 64-bit register. -/
def setLo (r : BitVec 64) (v : Nat) : BitVec 64 := BitVec.ofNat 64 (hiHalf r.toNat * 2 ^ 32 + v % 2 ^ 32)
def setHi (r : BitVec 64) (v : Nat) : BitVec 64 := BitVec.ofNat 64 (v % 2 ^ 32 * 2 ^ 32 + loHalf r.toNat)

/-- [R103] a new ring size: the indices, which run modulo twice the size, are taken modulo the new one (DESIGN CHOICE, log 98). -/
def AdminQ.resize (a : AdminQ) (k : Nat) : AdminQ :=
  let n := 2 * 2 ^ k
  { a with log2 := k, sqTail := a.sqTail % n, sqHead := a.sqHead % n, cqHead := a.cqHead % n, cqTail := a.cqTail % n }

/-- [R103] the ADMIN registers; bases and size only while ENABLE is 0. -/
def writeAdmin (s : State) (m off v : Nat) : State :=
  let ring (f : AdminQ → AdminQ) : State := if (s.fn m).aq.enable then s else updAq s m f
  match off with
  | 0x000 => ring (fun a => { a with sqBase := setLo a.sqBase (v / 4096 * 4096) })
  | 0x004 => ring (fun a => { a with sqBase := setHi a.sqBase v })
  | 0x008 => ring (fun a => { a with cqBase := setLo a.cqBase (v / 4096 * 4096) })
  | 0x00C => ring (fun a => { a with cqBase := setHi a.cqBase v })
  | 0x010 => ring (fun a => if fld v 0 4 = 4 ∨ fld v 0 4 = 8 ∨ fld v 0 4 = 12 then a.resize (fld v 0 4) else a)
  | 0x014 => updAq s m (fun a => { a with sqTail := fld v 0 13 % (2 * 2 ^ a.log2) })
  | 0x01C => updAq s m (fun a => { a with cqHead := fld v 0 13 % (2 * 2 ^ a.log2) })
  | 0x020 => if v % 2 = 1 then setAqEnable s m (fld v 1 1 == 1) else clearAqEnable s m (fld v 1 1 == 1)
  | _ => s

/-! ### The windows -/

/-- [R211 R243] the PORT window. -/
def writePort (s : State) (p off v : Nat) : State :=
  updPort s p (fun x =>
    if off = 0x00C then { x with graceMs := inRange 0 1000 (fld v 0 10) x.graceMs, replayUs := inRange 2 1000 (fld v 10 10) x.replayUs }
    else if off = 0x010 then { x with creditTmo := inRange 1 1000000 (fld v 0 20) x.creditTmo }
    else if off = 0x01C then
      (if fld v 0 16 ≤ fld v 16 16 then { x with sharedMin := fld v 0 16, sharedMax := fld v 16 16 } else x)
    else if 0x080 ≤ off ∧ off < 0x0C0 then
      let vc := (off - 0x080) / 4
      let legacy := x.role == 1
      if legacy && decide (8 ≤ vc) then x
      else { x with reserve := x.reserve.set vc (inRange (if legacy then 33 else 66) 4095 (fld v 0 12) (x.reserve.get vc)) }
    else if off = 0x208 then { x with hintAge := inRange 20 1000 (fld v 0 10) x.hintAge }
    else x)

/-- [R184] the new LANE.CFG: presets 4 to 7 are reserved on VSR. -/
def laneCfgOf (old v reach : Nat) : Nat :=
  put v 0 1 + put (if reach = 1 ∧ 4 ≤ fld v 4 3 then fld old 4 3 else fld v 4 3) 4 3 + put (fld v 8 4) 8 4

/-- [R184 R523] LANE.CFG is stored, in the register and in CONFIG. -/
def writeLaneCfg (s : State) (l v : Nat) : State :=
  let c := laneCfgOf (s.lane l).cfg.toNat v (s.octet (octetOfLane l)).reach
  let t := updLane s l (fun x => { x with cfg := BitVec.ofNat 32 c })
  if partOk t 1 then storeCfg t (fun g => { g with laneCfg := g.laneCfg.set l c }) else t

/-- [R185] OCTET.TIMERS. -/
def writeOctTimers (s : State) (o v : Nat) : State :=
  updOctet s o (fun x => { x with
    idleEnter := inRange 5 10000 (fld v 0 14) x.idleEnter, idleEn := fld v 14 1 == 1,
    refresh := inRange 1 100 (fld v 16 7) x.refresh, retrain := inRange 1 100 (fld v 24 7) x.retrain })

/-- [R395] the three backing-store fields, ignored while any image lies in the store. -/
def writeBacking (s : State) (e off v : Nat) : State :=
  if (s.hostEp e).images.cells.any (fun kv => kv.2.isSome) then s
  else
    updHost s e (fun x => match off with
      | 0x034 => { x with backBase := setLo x.backBase (v / 4096 * 4096) }
      | 0x038 => { x with backBase := setHi x.backBase v }
      | 0x03C => { x with backSlots := inRange 0 4194304 (fld v 0 23) x.backSlots }
      | _ => x)

/-- [R462] the HOST window. -/
def writeHost (s : State) (e off v : Nat) : State :=
  if 0x034 ≤ off ∧ off ≤ 0x03C then writeBacking s e off v
  else
    updHost s e (fun x => match off with
      | 0x004 => { x with pollActive := inRange 50 100000 (fld v 0 17) x.pollActive }
      | 0x008 => { x with pollIdleMax := inRange 1 10000 (fld v 0 14) x.pollIdleMax }
      | 0x00C => { x with slotWait := inRange 500 100000 (fld v 0 17) x.slotWait }
      | 0x010 => { x with parkIdle := inRange 1 10000 (fld v 0 14) x.parkIdle }
      | 0x014 => { x with cqFull := inRange 10 100000 (fld v 0 17) x.cqFull }
      | 0x018 => { x with rtoMin := inRange 10 10000 (fld v 0 14) x.rtoMin }
      | 0x01C => { x with retryLimit := inRange 1 15 (fld v 0 4) x.retryLimit, rnrLimit := inRange 1 255 (fld v 8 8) x.rnrLimit }
      | 0x020 => { x with rnrHint := inRange 1 65535 (fld v 0 16) x.rnrHint }
      | 0x024 => { x with reorderTol := inRange 1 1000 (fld v 0 10) x.reorderTol }
      | 0x028 => { x with ackDelay := inRange 500 100000 (fld v 0 17) x.ackDelay, ackCoalesce := inRange 1 64 (fld v 24 7) x.ackCoalesce }
      | 0x02C => { x with ccT0 := inRange 2 1000 (fld v 0 10) x.ccT0, ccT1 := inRange 2 1000 (fld v 10 10) x.ccT1,
                          ccT2 := inRange 2 1000 (fld v 20 10) x.ccT2 }
      | 0x030 => { x with eagerMax := inRange 0 65536 (fld v 0 17) x.eagerMax }
      | _ => x)

/-- [R266] the SHAPER window of a port shaper. -/
def writeShaper (s : State) (p off v : Nat) : State :=
  updPort s p (fun x => match off with
    | 0x00C => { x with yellow := fld v 0 16, red := fld v 16 16 }
    | 0x018 => { x with gate := { x.gate with guardNs := inRange 0 10000 (fld v 0 14) x.gate.guardNs, edgeTol := inRange 0 1000 (fld v 16 10) x.gate.edgeTol } }
    | 0x01C => { x with gate := { x.gate with holdoverMax := inRange 0 1000 (fld v 0 10) x.gate.holdoverMax } }
    | _ => x)

/-- [R107 R108] the TIME block; ARM with CANCEL is malformed. -/
def writeTime (s : State) (m off v : Nat) : AccEnd × State :=
  let ft (f : BitVec 64 → BitVec 64) : State := if s.snap.st = 1 then s else { s with snap := { s.snap with ft := f s.snap.ft } }
  if off = 0x010 then (.ok, ft (fun r => setLo r v))
  else if off = 0x014 then (.ok, ft (fun r => setHi r v))
  else if off = 0x018 then
    if v % 4 = 3 then (.malformed, accErr s m)
    else if v % 4 = 1 then (.ok, armSnap s)
    else if v % 4 = 2 then (.ok, cancelSnap s)
    else (.ok, s)
  else (.ok, s)

/-! ### A write -/

/-- [R95] write through a selection. -/
def windowWrite (s : State) (m : Nat) (ok : Bool) (t : State) : AccEnd × State := if ok then (.ok, t) else (.range, selErr s m)

/-- Write one aligned register of a block, its access table already passed. -/
def writeBlock (s : State) (m : Nat) (b : Block) (off v : Nat) : AccEnd × State :=
  let x := s.master m
  match b with
  | .ident => (.ok, s)
  | .status =>
    (.ok,
      if off = 0x000 then
        updInst s m (fun i => { i with selErr := i.selErr && fld v 8 1 == 0, accErr := i.accErr && fld v 9 1 == 0 })
      else if off = 0x004 then writeCause s m v
      else if off = 0x008 then writeMask s m v
      else s)
  | .pba => (.ok, s)
  | .msix => (.ok, s)
  | .mailbox => (.ok, writeMailbox s m off v)
  | .chsel => (.ok, writeChsel s m off v)
  | .portW => windowWrite s m (portSelOk s x.portSel) (writePort s x.portSel off v)
  | .laneW => windowWrite s m (laneSelOk s x.laneSel) (if off = 0x004 then writeLaneCfg s x.laneSel v else s)
  | .octetW => windowWrite s m (octSelOk s x.octSel) (if off = 0x008 then writeOctTimers s x.octSel v else s)
  | .hostW => windowWrite s m (hostSelOk s x.hostSel) (writeHost s (hostSelEp x.hostSel) off v)
  | .shaperW => windowWrite s m (shpSelOk s x.shpSel) (if shpPort x.shpSel then writeShaper s (fld x.shpSel 0 9) off v else s)
  | .counterW => windowWrite s m (counterReg s m off).isSome s
  | .time => writeTime s m off v
  | .event => (.ok, if off = 0x008 then updMaster s m (fun y => { y with rdPtr := BitVec.ofNat 32 v }) else s)
  | .admin => (.ok, writeAdmin s m off v)

/-- [R96 R118] write one aligned register: the access table first, then the selection. -/
def write32 (s : State) (m off v : Nat) : AccEnd × State :=
  match blockOf s m off with
  | none => (.ok, s)
  | some (b, o) =>
    match b.target with
    | some t => if allowed s m t true then writeBlock s m b o v else (.denied, accErr (denied s m t) m)
    | none => writeBlock s m b o v

/-- [R91] write one byte of the MSI-X table. -/
def writeMsixByte (s : State) (m off : Nat) (b : Byte) : State :=
  let v := off / 16
  let k := off % 16
  if msixVecs s m ≤ v then s
  else if k < 12 then
    updFn s m (fun f => { f with msixTable := f.msixTable.upd v (fun w =>
      (w &&& ~~~ (BitVec.ofNat 96 (255 * 2 ^ (8 * k)))) ||| BitVec.ofNat 96 (b.toNat * 2 ^ (8 * k))) })
  else if k = 12 then setVecMask s m v (b.toNat % 2 == 1)
  else s

/-- [R81] one byte of an area that takes writes of any size: the command area, the MSI-X table, the pending-bit array (log 8). -/
def writeAreaByte (s : State) (m off : Nat) (b : Byte) : State :=
  match blockOf s m off with
  | some (.mailbox, o) => if o < 0x1000 then updInst s m (fun i => { i with cmdArea := i.cmdArea.set o b }) else s
  | some (.msix, o) => writeMsixByte s m o b
  | _ => s

/-- [R81] what an offset is to a write: 0 nothing, 1 an area that takes any size, 2 a register, 3 BAR2, whose nudges are commands of their own (NUDGE_WRITE). -/
def writeKind (s : State) (m off : Nat) : Nat :=
  if barTwo s m off then 3 else
  match blockOf s m off with
  | none => 0
  | some (.mailbox, o) => if o < 0x1000 then 1 else if o < 0x2000 then 0 else 2
  | some (.msix, _) => 1
  | some (.pba, _) => 1
  | some _ => 2

/-- Write bytes one after another. -/
def writeArea (s : State) (m : Nat) : Nat → List Byte → State
  | _, [] => s
  | off, b :: rest => writeArea (writeAreaByte s m off b) m (off + 1) rest

/-- [R81 R82] a write of the register space: malformed and narrow writes are dropped with ACC_ERR; 64 bits are two registers. -/
def regWrite (s : State) (m off : Nat) (bytes : List Byte) : AccEnd × State :=
  let n := bytes.length
  let k := writeKind s m off
  if k = 3 then (.ok, s)
  else if k = 1 then (.ok, writeArea s m off bytes)
  else if !natural off n then (.malformed, accErr s m)
  else if k = 0 ∧ n < 8 then (.ok, s)
  else if n < 4 then (.malformed, accErr s m)
  else if n = 8 then
    let a := write32 s m off (leNat (bytes.take 4))
    let b := write32 a.2 m (off + 4) (leNat (bytes.drop 4))
    (if a.1 = .ok then b.1 else a.1, b.2)
  else write32 s m off (leNat bytes)

end Sys2Proof.Machine
end

