-- ==== Sys2Proof/Machine/MgmtOps.lean ====
section
/-! DEFINITION. Chain frames and management packets as they are sent: the chain's direction and locks (R416 to R418), the management
header, its paths and answers (R426, R427), and the responses of mailbox commands on the wire (R98, R119). -/

namespace Sys2Proof.Machine

/-! ### The chain -/

/-- [R414 R445] the device heads its chain: CHAIN_HEAD_N was asserted at the last latch. -/
def isHead (s : State) : Bool := s.boot.straps.chainHead

/-- [R77 R419] IDENT.CHAIN.CHAIN_MGR: a head is chain manager from its enumeration on. -/
def isChainMgr (s : State) : Bool := isHead s && s.chain.addr == 1

/-- [R418] the port has lock. -/
def chainLocked (s : State) (p : ChainPort) : Bool := match p with | .upstream => s.chain.upLock | .downstream => s.chain.downLock

/-- [R418] send or repeat a frame; one that reaches a port without lock is discarded. -/
def chainSend (s : State) (p : ChainPort) (f : ChainFrame) : State := if chainLocked s p then emit s (.chain p f) else s

/-- [R416] an up frame of this device: DEST 0, its address as SRC. -/
def chainUp (s : State) (type ftag : Nat) (payload : List Byte) : State :=
  chainSend s .upstream { dest := 0, src := s.chain.addr, type := type, ftag := ftag, payload := payload }

/-! ### Management packets -/

/-- [R427] a FEA with endpoint field 15. -/
def agentOf (f : BitVec 24) : BitVec 24 := f ||| 0xF

/-- The agent hands a packet to a port, or to routing. -/
def mgmtQueue (s : State) (port : Option Nat) (p : Pkt) : State := { s with grp := { s.grp with tx := s.grp.tx ++ [(port, p)] } }

/-- [R427] send a DIRECT packet out of a port, to the partner's agent; a port that is not ACTIVE discards it. -/
def sendOut (s : State) (port type : Nat) (mh : MgmtHdr) (body : List Byte) : State :=
  if (s.port port).exists_ && (s.port port).link == .active then
    mgmtQueue s (some port) (mgmtPkt s type (agentOf (s.port port).partner.fea) mh body)
  else count s .device 0 .mgmtPathDrop

/-- [R427] take the next step of a path outwards. -/
def sendPath (s : State) (type : Nat) (mh : MgmtHdr) (body : List Byte) : State :=
  sendOut s (mh.path.getD mh.pathPtr 0) type { mh with pathPtr := mh.pathPtr + 1 } body

/-- [R427] a path of up to eight port fields as a DIRECT header. -/
def directHdr (mtag : Nat) (path : List Nat) : MgmtHdr :=
  { mtag := mtag, pathLen := path.length, path := path ++ List.replicate (8 - path.length) 0, direct := true }

/-- Replace the `i`-th element of a list. -/
def setNth (l : List Nat) (i v : Nat) : List Nat := (l.take i) ++ [v] ++ (l.drop (i + 1))

/-- [R427] a DIRECT packet goes on out of a port with its header moved on; nothing else of it changes but the FEA it is sent to. -/
def passOn (s : State) (port : Nat) (p : Pkt) (mh : MgmtHdr) (body : List Byte) : State :=
  if (s.port port).exists_ && (s.port port).link == .active then
    mgmtQueue s (some port) (mkPkt { p.hdr with dest := agentOf (s.port port).partner.fea } (.mgmt mh body))
  else count s .device 0 .mgmtPathDrop

/-- [R427] answer a management packet that came from `src` with source FEA `fea`: back along the path, by the arrival port where
R223 applied, or routed. -/
def mgmtAnswer (s : State) (src : ArrSrc) (mh : MgmtHdr) (fea : BitVec 24) (type : Nat) (body : List Byte) : State :=
  let h := { mh with ret := mh.direct, pathPtr := if mh.direct then mh.pathPtr - 1 else mh.pathPtr }
  match src with
  | .net p => if mh.direct || s.routes.fea.isNone then sendOut s p type h body else mgmtQueue s none (mgmtPkt s type (agentOf fea) h body)
  | _ => mgmtQueue s none (mgmtPkt s type (agentOf fea) h body)

/-- [R98] a response: header and payload. -/
def rspBytes (tag status : Nat) (payload : List Byte) : List Byte :=
  leBytes 2 tag ++ leBytes 2 status ++ leBytes 2 payload.length ++ [0, 0] ++ payload

/-- [R98] a command: header and payload. -/
def cmdBytes (op tag : Nat) (payload : List Byte) : List Byte :=
  leBytes 2 op ++ leBytes 2 tag ++ leBytes 2 payload.length ++ [0, 0] ++ payload

/-- [R428] send a command in-band and remember what its answer is for; RELAY_TMO runs from here. -/
def sendCmd (s : State) (mh : MgmtHdr) (dest : Option (BitVec 24)) (what : SentFor) (body : List Byte) : State :=
  let tag := s.grp.mtag % 65536
  let t := { s with grp := { s.grp with mtag := (tag + 1) % 65536, sent := s.grp.sent ++ [(tag, what)] } }
  match dest with
  | some d => mgmtQueue t none (mgmtPkt t 0x10 (agentOf d) { mh with mtag := tag } body)
  | none => sendPath t 0x10 { mh with mtag := tag } body

end Sys2Proof.Machine
end

