-- ==== Sys2Proof/Machine/Sched.lean ====
section
/-! DEFINITION. Meanings of the egress scheduler's commands: packet starts and departures, time gates, bank adoption (R191, R194,
R241, R247 to R264). -/

namespace Sys2Proof.Machine

/-! ### Gates -/

/-- [R257 R259] how long the VC's window still lasts; a PENDING bank's adoption closes it too. -/
def windowLeft (s : State) (p vc : Nat) : Nat :=
  let g := (s.port p).gate
  let l := g.bank.left s.clk.ft vc
  if g.pending then min l (g.otherBank.ft.toNat - s.clk.ft.toNat) else l

/-- [R259] the gate and the guard let the packet start. -/
def guardOk (s : State) (p vc : Nat) (k : Pkt) : Bool :=
  let g := (s.port p).gate
  !g.gatedVc vc || (g.openVc s.clk.ft vc && decide (packetTime s p k + g.guardNs ≤ windowLeft s p vc))

/-! ### Eligibility -/

/-- [R194] the packet may start although it is not whole. -/
def wholeOrFast (s : State) (p : Nat) (o : Origin) : Bool :=
  !stillArriving s o || (match o.src with | .net a => decide (portRate s p ≤ portRxRate s a) | _ => true)

/-- [R191 R203] the new sequenced LTBs a packet needs, after the bytes used in the last one. -/
def ltbsFor (fill len : Nat) : Nat := (fill + len + 239) / 240 - (if fill = 0 then 0 else 1)

/-- [R250] the packet never waits on the port shaper. -/
def shaperExempt (s : State) (p vc : Nat) (k : Pkt) : Bool := k.hdr.sl == 3 || (k.hdr.timed && (s.port p).gate.gatedVc vc && (s.port p).gate.openVc s.clk.ft vc)

/-- [R247] all but the gate and the shaper. -/
def readyBut (s : State) (p vc : Nat) (q : QPkt) : Bool :=
  creditsFor (s.port p) vc (creditsOf q.pkt) && wholeOrFast s p q.orig && replayRoom s p (ltbsFor (s.port p).txFill q.pkt.hdr.len)

/-- [R247] the head packet of a VC, if it is eligible. -/
def eligible (s : State) (p vc : Nat) : Option QPkt :=
  match (s.port p).vcq.get vc with
  | [] => none
  | q :: _ =>
    if readyBut s p vc q && guardOk s p vc q.pkt && (shaperExempt s p vc q.pkt || (s.port p).shaper.allows s.clk.now q.pkt.hdr.len) then some q else none

/-- [R259 R267] count a head packet that the guard or the shaper defers, once each. -/
def noteDeferred (s : State) (p vc : Nat) : State :=
  match (s.port p).vcq.get vc with
  | [] => s
  | q :: _ =>
    let g := (s.port p).gate
    let t := if g.gatedVc vc && g.openVc s.clk.ft vc && !guardOk s p vc q.pkt && !(s.port p).guardSeen.getLsbD vc then
        count (updPort s p (fun x => { x with guardSeen := x.guardSeen ||| BitVec.ofNat 16 (2 ^ vc) })) .port p .gateWaitGuard
      else s
    if readyBut s p vc q && guardOk s p vc q.pkt && !shaperExempt s p vc q.pkt && !(s.port p).shaper.allows s.clk.now q.pkt.hdr.len && !(s.port p).shapSeen.getLsbD vc then
      count (updPort t p (fun x => { x with shapSeen := x.shapSeen ||| BitVec.ofNat 16 (2 ^ vc) })) .port p .shaperWait
    else t

/-! ### Selection -/

/-- [R210 R248] the VCs of a service level, highest stage first. -/
def vcsOfSl (s : State) (p sl : Nat) : List Nat := if isLegacy s p then [sl * 2 + 1, sl * 2] else [sl * 4 + 3, sl * 4 + 2, sl * 4 + 1, sl * 4]

def nth3 (t : Nat × Nat × Nat) (i : Nat) : Nat := if i = 0 then t.1 else if i = 1 then t.2.1 else t.2.2
def set3 (t : Nat × Nat × Nat) (i v : Nat) : Nat × Nat × Nat := if i = 0 then (v, t.2) else if i = 1 then (t.1, v, t.2.2) else (t.1, t.2.1, v)

/-- [R249] deficit round robin: the scheduler's state after it and the VC that starts, if one does. A visit that has begun ends where no
eligible head is covered by the deficit; the deficit is kept. -/
def drr (s : State) (p : Nat) : Nat → Port → Option (Nat × Port)
  | 0, _ => none
  | k + 1, x =>
    let sl := x.turn
    let vcs := vcsOfSl s p sl
    let el := vcs.filter (fun v => (eligible s p v).isSome)
    let next := { x with turn := (sl + 1) % 3, visited := false }
    if el.isEmpty then
      if !x.visited && vcs.all (fun v => (x.vcq.get v).isEmpty) then drr s p k { next with deficit := set3 x.deficit sl 0 }
      else drr s p k next
    else
      let x := if x.visited then x else { x with visited := true, deficit := set3 x.deficit sl (nth3 x.deficit sl + nth3 x.quanta sl) }
      let d := nth3 x.deficit sl
      match el.find? (fun v => (eligible s p v).any (fun q => decide (creditsOf q.pkt ≤ d))) with
      | some v =>
        let c := ((eligible s p v).map (fun q => creditsOf q.pkt)).getD 0
        some (v, { x with deficit := set3 x.deficit sl (d - c) })
      | none => drr s p k { x with turn := (sl + 1) % 3, visited := false }

/-- [R249] while no head packet is eligible the rotation goes on: a visit that has begun ends, and the deficit of an SL with no waiting
packet is zero. -/
def idleRound (s : State) (p : Nat) (x : Port) : Port :=
  let empty := fun (sl : Nat) => (vcsOfSl s p sl).all (fun v => (x.vcq.get v).isEmpty)
  let x := if x.visited then { x with visited := false, turn := (x.turn + 1) % 3 } else x
  { x with deficit := (if empty 0 then 0 else x.deficit.1, if empty 1 then 0 else x.deficit.2.1, if empty 2 then 0 else x.deficit.2.2) }

/-- [R248] the VC whose head packet starts: SL3 first, then deficit round robin. -/
def selectVc (s : State) (p : Nat) : Option (Nat × Port) :=
  match (vcsOfSl s p 3).find? (fun v => (eligible s p v).isSome) with
  | some v => some (v, s.port p)
  | none =>
    if [0, 1, 2].any (fun sl => (vcsOfSl s p sl).any (fun v => (eligible s p v).isSome)) then drr s p 400 (s.port p) else none

/-! ### Starting and departing -/

/-- [R218] the header a packet leaves with: HOPS, HOP_LAT with the time since its header arrived, QDELAY_MAX with the wait in the queue,
and HDR_CRC. -/
def leavingPkt (s : State) (q : QPkt) : Pkt :=
  let wait := min 0xFFFF ((s.clk.now - q.at_) / 8)
  let h := q.pkt.hdr
  sealHdr { q.pkt with hdr := { h with hops := h.hops + 1, hopLat := BitVec.ofNat 16 (min 0xFFFF (h.hopLat.toNat + (s.clk.now - q.orig.arr) / 8)),
                                       qdelay := BitVec.ofNat 16 (max h.qdelay.toNat wait) } }

/-- [R191] bytes cut into payloads. -/
def payloads : Nat → List Byte → List (List Byte)
  | 0, _ => []
  | n + 1, b => if b.isEmpty then [] else b.take 240 :: payloads n (b.drop 240)

/-- [R191] a packet's bytes follow those of the LTB being filled without a gap; START_OFF names the first packet that starts in an LTB. -/
def layPacket (q : List DataLtb) (fill : Nat) (b : List Byte) : List DataLtb :=
  if fill = 0 then
    match payloads 18 b with
    | [] => q
    | f :: rest => q ++ { bytes := f, startOff := 0 } :: rest.map (fun c => { bytes := c })
  else
    match q.getLast? with
    | none => q
    | some l =>
      q.dropLast ++ { l with bytes := l.bytes ++ b.take (240 - fill), startOff := if l.startOff = 0xFF then fill else l.startOff } ::
        (payloads 18 (b.drop (240 - fill))).map (fun c => { bytes := c })

/-- [R191 R194] bytes of a packet that have arrived. -/
def bytesHere (s : State) (o : Origin) (len : Nat) : Nat :=
  if stillArriving s o then (match o.src with | .net a => ((s.port a).rxCur.map (·.got)).getD len | _ => len) else len

/-- [R191 R198 R250] the head packet of a VC starts: the LTBs its bytes fill leave, those still to come wait. -/
def startPacket (s : State) (p vc : Nat) (x : Port) (q : QPkt) : State :=
  let k := leavingPkt s q
  let c := creditsOf k
  let a := x.avail.get vc
  let gated := x.gate.gatedVc vc
  let l := layPacket x.txq x.txFill (pktBytes k)
  let y : Port := { x with
    vcq := x.vcq.set vc ((x.vcq.get vc).drop 1), avail := x.avail.set vc (a - min c a), shared := x.shared - ((c - min c a : Nat) : Int),
    shaper := x.shaper.take s.clk.now k.hdr.len, guardSeen := x.guardSeen &&& ~~~ BitVec.ofNat 16 (2 ^ vc), shapSeen := x.shapSeen &&& ~~~ BitVec.ofNat 16 (2 ^ vc),
    txq := l, txFill := (x.txFill + k.hdr.len) % 240,
    leaving := x.leaving ++ [{ q := { q with pkt := k }, left := l.length, winEnd := if gated then some (s.clk.ft.toNat + windowLeft s p vc) else none }] }
  let t := sendQueued (updPort s p (fun _ => y)) p ((x.txFill + bytesHere s q.orig k.hdr.len) / 240)
  let t := if k.hdr.timed then count t .port p (if gated then .timedTx else .timedUngated) else t
  let t := if q.routed then count t .port p (if q.nonmin then .routeNonmin else .routeMin) else t
  trace t (quadOfLane p) k.hdr (arrField q.orig.src) p (min 0xFFFFFFFF ((s.clk.now - q.at_) / 8))

/-- [R175 R191 R248 R249] a port's scheduler looks for a packet to start; an idle port asks for its wake first. One that starts in the instant
the last byte left follows it without a gap. -/
def execEgressPacketStart (p : Nat) (s : State) : Res :=
  let x := s.port p
  guardRes (portOk p)
    (if !(x.link == .active || x.link == .drain) || x.leaving.any (fun t => !t.departed) || x.txIdle == 3 then s
     else
       let s := dropAllNofit s p
       let s := if x.txAt = s.clk.now then s else closeLtb s p
       let s := foldS (List.range 16) s (fun s v => noteDeferred s p v)
       match selectVc s p with
       | none => updPort s p (idleRound s p)
       | some (vc, y) =>
         match (s.port p).vcq.get vc with
         | [] => s
         | q :: _ =>
           if x.txIdle = 2 then requestWake s p (wakeClass q.pkt.hdr.sl)
           else startPacket (requestWake s p 3) p vc { y with txIdle := 0 } q)

/-- [R193] the LTB with an aborted packet's last byte: ABORT_END, the rest pad. -/
def markAbort (l : List DataLtb) : List DataLtb :=
  match l.getLast? with
  | none => l
  | some d => l.dropLast ++ [{ d with abortEnd := true }]

/-- [R191 R193] the LTBs that wait when a packet's last byte leaves: all of an aborted one, else those that are full. -/
def sendRest (s : State) (p : Nat) (aborted : Bool) : State :=
  let x := s.port p
  if aborted then closeLtb (updPort s p (fun x => { x with txq := markAbort x.txq })) p
  else sendQueued s p (if x.txFill = 0 then x.txq.length else x.txq.length - 1)

/-- [R193 R201] the last byte of the packet being sent leaves: its buffer space is free, and what credits are owed may go. -/
def execPacketDeparted (p : Nat) (s : State) : Res :=
  guardRes (portOk p)
    (match (s.port p).leaving.find? (fun t => !t.departed) with
     | none => s
     | some k =>
       if stillArriving s k.q.orig && !k.aborted then s
       else
         let t := sendRest s p k.aborted
         let t := updPort t p (fun x => { x with
           txAt := s.clk.now, leaving := stillLeaving x.held (x.leaving.map (fun k => { k with departed := true })) })
         let t := if k.winEnd.any (fun w => decide (w < s.clk.ft.toNat)) then count t .port p .gateOverrun else t
         sendCredits (freeOrigin t k.q.orig) p)

/-! ### Credits that do not come back -/

/-- [R202] the head packet of the VC waits for lack of credits alone: gate, guard, shaper, R194 and the replay buffer let it start. -/
def waitsForCredits (s : State) (p vc : Nat) : Bool :=
  match (s.port p).vcq.get vc with
  | [] => false
  | q :: _ =>
    !creditsFor (s.port p) vc (creditsOf q.pkt) && guardOk s p vc q.pkt && wholeOrFast s p q.orig &&
      (shaperExempt s p vc q.pkt || (s.port p).shaper.allows s.clk.now q.pkt.hdr.len) && replayRoom s p (ltbsFor (s.port p).txFill q.pkt.hdr.len)

/-- [R202] model time the VC's CREDIT_TMO last started: at a return, a positive SHARED or a HELD bit, at an LTB that failed its CRC, or when
the packet began to wait. -/
def creditFrom (s : State) (p vc : Nat) : Nat :=
  let x := s.port p
  max (x.creditAt.get vc) (max (x.crcAt.getD 0) (((x.vcq.get vc).head?.map (·.at_)).getD 0))

/-- [R202] CREDIT_TMO expires: the link is broken. -/
def execCreditTmoExpire (p vc : Nat) (s : State) : Res :=
  guardRes (portOk p && decide (vc < 16))
    (if ((s.port p).link == .active || (s.port p).link == .drain) && waitsForCredits s p vc &&
        decide (creditFrom s p vc + (s.port p).creditTmoNow * 1000 ≤ s.clk.now) then
       linkFailure (recordEv (count s .port p .creditLoss) .creditLoss (quadOfLane p) p vc) p 1
     else s)

/-! ### Time gates -/

/-- [R257] an entry of the active bank ends and the next is in force: a VC that opens may wake the port; heads that never fit go. -/
def execAlmanacEntryChange (p : Nat) (s : State) : Res :=
  let x := s.port p
  guardRes (portOk p)
    (if !x.gate.gating then s
     else
       let t := dropAllNofit s p
       match (List.range 16).find? (fun v => !((t.port p).vcq.get v).isEmpty && (t.port p).gate.openVc s.clk.ft v) with
       | some v => requestWake t p (wakeClass (v / 4))
       | none => t)

/-- [R257 R261 R264] ns until a gated VC's next window opens; a PENDING bank's windows count from its adoption. None while its gates are
closed by force. -/
def nextWindow (s : State) (p vc : Nat) : Option Nat :=
  let g := (s.port p).gate
  let n := g.bank.nextOpen s.clk.ft vc
  let a := g.otherBank.ft.toNat - s.clk.ft.toNat
  if g.forced then none
  else if g.pending && decide (a < n) then
    some (a + (if g.otherBank.gating && g.otherBank.gated vc then g.otherBank.closedLeft g.otherBank.ft vc else 0))
  else some n

/-- [R261] the VC holds a packet that waits for a window of it, and that window opens within 256 ns. -/
def leadDue (s : State) (p vc : Nat) : Bool :=
  match (s.port p).vcq.get vc with
  | [] => false
  | q :: _ => (s.port p).gate.gatedVc vc && !guardOk s p vc q.pkt && (nextWindow s p vc).any (fun n => decide (n ≤ 256))

/-- [R261] 256 ns before a window opens for a waiting packet, an idle port asks for its wake in the class of the packet's SL. -/
def execGateWakeLead (p : Nat) (s : State) : Res :=
  guardRes (portOk p)
    (if (s.port p).txIdle = 2 then
       ((List.range 16).filter (leadDue s p)).foldl (fun t v => requestWake t p (wakeClass ((((s.port p).vcq.get v).head?.map (·.pkt.hdr.sl)).getD 3))) s
     else s)

/-- [R264] HOLDOVER_MAX expires: every gated VC of the port closes. -/
def execHoldoverMaxExpire (p : Nat) (s : State) : Res :=
  guardRes (portOk p) (if (s.port p).gate.holdTmr && (s.port p).gate.gating then closeGates s p else s)

/-- [R263] sixteen consecutive non-conforming arrivals: the event with the last error and an offset query. The run went back to zero at the
sixteenth and the port keeps its error, so the operand is not read. -/
def execEdgeRunLimit (p : Nat) (_err : Int) (s : State) : Res :=
  guardRes (portOk p)
    (match (s.port p).gate.edgeDue with
     | [] => s
     | err :: rest =>
       let t := updPort s p (fun x => { x with gate := { x.gate with edgeDue := rest } })
       let t := limited t .timeEdge p oneSec (fun t n more => recordEv t .timeEdge (quadOfLane p) p (s32 err) n 0 more)
       if isFabric t p && (t.port p).link == .active then startExchange t p true else t)

/-- [R157 R257] FT has reached the port's ADOPT_FT; a route bank that is due goes first. -/
def execAlmanacBankAdopt (p : Nat) (s : State) : Res :=
  guardRes (portOk p) (almanacDue (routeDue s) p)

/-! ### Route banks -/

/-- [R125 R156] FT has reached the route bank's ADOPT_FT. -/
def execRouteBankAdopt (s : State) : Res :=
  .next (routeDue s)

end Sys2Proof.Machine
end

