-- ==== Sys2Proof/Machine/MbOps.lean ====
section
/-! DEFINITION. How a mailbox or in-band command is taken and answered: the queue, the checks every command shares, the response, and
the class L commands that carry on (R98 to R102, R119 to R123, R455, R524). -/

namespace Sys2Proof.Machine

/-- What a command answers: its status, its response payload, and the state it leaves. -/
abbrev MbAns := Nat × List Byte × State

def ansOk (s : State) : MbAns := (stSUCCESS, [], s)
def ansData (s : State) (l : List Byte) : MbAns := (stSUCCESS, l, s)
def ansFail (s : State) (st : Nat) : MbAns := (st, [], s)

/-- [R428] the chain mailbox's command came in an MB_CMD frame: its response goes back as MB_RSP. -/
def chainRespond (s : State) (bytes : List Byte) : State :=
  match s.chain.mbFtag with
  | some f => chainUp { s with chain := { s.chain with mbFtag := none } } 0x31 f bytes
  | none => s

/-- [R22 R97 R99 R102] Molzu finishes a command: the response area, LAST_TAG and STATE, or the in-band answer. -/
def respond (s : State) (c : MbCmd) (st : Nat) (payload : List Byte) : State :=
  match c.inband with
  | some (src, mh, fea) => mgmtAnswer s src mh fea 0x11 (rspBytes c.tag st payload)
  | none =>
    let t := updInst (mbFromService s c.m (rspBytes c.tag st payload).length) c.m (fun i => { i with rspArea := rspBytes c.tag st payload, lastTag := c.tag, mbState := 2, waitingFw := false })
    let t := if c.flags % 2 = 1 then raiseCause t c.m causeMbDone else t
    if c.m = 0x21 then chainRespond t (rspBytes c.tag st payload) else t

/-- [R100 R101] Molzu takes the command at the head of its queue, when it is the one named. -/
def runMb (s : State) (ok : Nat → Bool) (k : State → MbCmd → MbAns) : State :=
  match s.cmds.queue with
  | [] => s
  | c :: rest =>
    if ok c.op && molzuUp s then
      let a := k { s with cmds := { s.cmds with queue := rest } } c
      respond a.2.2 c a.1 a.2.1
    else s

/-- [R122] the opcodes of the mailbox commands. -/
def mbOpcodes : List Nat :=
  [0x0000, 0x0001] ++ (List.range 5).map (0x0100 + ·) ++ (List.range 4).map (0x0200 + ·) ++ (List.range 5).map (0x0300 + ·) ++
    (List.range 5).map (0x0400 + ·) ++ (List.range 3).map (0x0500 + ·) ++ (List.range 4).map (0x0600 + ·) ++ (List.range 7).map (0x0700 + ·) ++
    (List.range 10).map (0x0800 + ·) ++ (List.range 4).map (0x0900 + ·)

/-- [R455] the commands the boot ROM serves in SAFE mode. -/
def safeOpcodes : List Nat := [0x0000, 0x0001, 0x0603, 0x0700, 0x0701, 0x0702, 0x0703, 0x0704, 0x0800, 0x0809]

/-- [R114 R118] the rights a command lacks. -/
def lacking (s : State) (m : Nat) (rights : List (Nat × Bool)) : List (Nat × Bool) := rights.filter (fun r => !allowed s m r.1 r.2)

/-- [R98 R119 R121 R455] a command's shared checks, in order: LENGTH and reserved fields, rights, then SAFE mode, which is a check of the
command's own; after them `k`. -/
def mbChecked (s : State) (c : MbCmd) (fieldsOk : Bool) (rights : List (Nat × Bool)) (k : State → MbAns) : MbAns :=
  if decide (4088 < c.len) || c.payload.length != c.len || decide (1 < c.flags) || !fieldsOk then ansFail s stINVALID_FIELD
  else if (lacking s c.m rights).isEmpty then
    (if s.boot.safe && !safeOpcodes.contains c.op then ansFail s stWRONG_STATE else k s)
  else ansFail ((lacking s c.m rights).foldl (fun s r => denied s c.m r.1) s) stACCESS_DENIED

/-- [R122] one command: its opcode, what its payload must be, the rights it needs, and its own checks and effect. -/
def mbRun (s : State) (op : Nat) (fields : List Byte → Bool) (rights : List (Nat × Bool)) (k : State → MbCmd → MbAns) : State :=
  runMb s (· == op) (fun s c => mbChecked s c (fields c.payload) rights (fun s => k s c))

/-- The payload has `n` bytes, and the stretches (offset, length) named are reserved and zero. -/
def lenIs (n : Nat) (zeros : List (Nat × Nat)) (l : List Byte) : Bool := decide (l.length = n) && zeros.all (fun z => zeroAt l z.1 z.2)

/-! ### Own checks shared by several commands -/

/-- [R72 R524] the quadrant is GATED or RETIRED. -/
def quadOut (s : State) (q : Nat) : Bool := !quadActive s q

/-- [R123] a running class L command is changing the port, or the quadrant. -/
def quadBusy (s : State) (q : Nat) : Bool :=
  s.cmds.running.any (fun b => !b.done && (b.what == .quadGate q || b.what == .quadUngate q))
def portBusy (s : State) (p : Nat) : Bool :=
  s.cmds.running.any (fun b => !b.done && b.what == .portDown p && (s.port p).link != .down) || quadBusy s (quadOfLane p)

/-- [R524 R123] checks 1 and 2 for a command that changes a configured port. -/
def portNamed (s : State) (p : Nat) (k : MbAns) : MbAns :=
  if quadOut s (quadOfLane p) then ansFail s stWRONG_STATE
  else if !(s.port p).exists_ then ansFail s stNOT_FOUND
  else if portBusy s p then ansFail s stWRONG_STATE
  else k

/-- [R483 R523] a command whose CONFIG write needs a spare that is not there completes with NO_RESOURCES. -/
def withConfig (s : State) (k : MbAns) : MbAns := if partOk s 1 then k else ansFail s stNO_RESOURCES

/-- [R100] a class L command carries on: ACCEPTED. -/
def accept (s : State) (c : MbCmd) (what : Background) (committed : Bool) (status : Nat) (done : Bool) : MbAns :=
  (stACCEPTED, [], { s with cmds := { s.cmds with running := s.cmds.running ++
    [{ m := c.m, tag := c.tag, op := c.op, what := what, committed := committed, status := status, done := done }] } })

/-- [R123] the work of a class L command has ended. -/
def workEnded (s : State) (b : BgCmd) : Bool :=
  b.done || (match b.what with
    | .portDown p => (s.port p).link == .down
    | .quadGate q => (s.quad q).st == 1 && (s.quad q).stage == .idle
    | .quadUngate q => (s.quad q).st == 0 && (s.quad q).stage == .idle
    | _ => false)

/-- [R100] the work of a class L command that answered ACCEPTED ends: EV_CMD_DONE, once Molzu is there to record it (R101). -/
def execCmdDone (m tag : Nat) (s : State) : Res :=
  .next (match if molzuUp s then s.cmds.running.find? (fun b => b.m == m && b.tag == tag && workEnded s b) else none with
    | none => s
    | some b => recordEv { s with cmds := { s.cmds with running := s.cmds.running.erase b } } .cmdDone svcDie b.m b.tag b.status)

/-- [R98 R121] a command with an unknown opcode. -/
def execMbInvalidOpcode (s : State) : Res := .next (runMb s (fun op => !mbOpcodes.contains op) (fun s _ => ansFail s stINVALID_OPCODE))

end Sys2Proof.Machine
end

