-- ==== Sys2Proof/Machine/MbInterface.lean ====
section
/-! DEFINITION. Meanings of the identity, octet, port, host-mode and partition commands (R49 to R67, R79, R122, R224, R523, R524). -/

namespace Sys2Proof.Machine

/-! ### Identity -/

/-- [R3] the order code, 16 ASCII characters, space-padded. -/
def orderCode (i : Ident) : List Byte :=
  [0x55, 0x53, 0x4B, 0x35, 0x31, 0x32, 0x2D, 0x48] ++ (if i.h96 then [0x39, 0x36] else [0x34, 0x38]) ++ [0x2D, if i.gradeL then 0x4C else 0x43] ++
    [0x20, 0x20, 0x20, 0x20]

/-- [R88 R122] MB_IDENT_GET's response to a master. -/
def identBytes (s : State) (m : Nat) : List Byte := (List.range 12).flatMap (fun i => leBytes 4 (identReg s m (4 * i))) ++ orderCode s.ident

/-- [R122] MB_IDENT_GET. -/
def execMbIdentGet (s : State) : Res :=
  .next (mbRun s 0x0000 (lenIs 0 []) [] (fun s c => ansData s (identBytes s c.m)))

/-- [R4 R72] resident queues of the device: those of its ACTIVE quadrants. -/
def residentLimit (s : State) : Nat := ((List.range 4).filter (quadActive s)).length * (if s.ident.h96 then 262144 else 131072)

/-- [R122] MB_CAPS_GET. -/
def execMbCapsGet (s : State) : Res :=
  .next (mbRun s 0x0001 (lenIs 0 []) [] (fun s _ =>
    ansData s (leBytes 4 (residentLimit s) ++ leBytes 1 (((List.range 4).map (fun q => put (b2n (quadActive s q)) q 1)).foldl (· + ·) 0) ++
      leBytes 1 (b2n (splitNumbering s)) ++ List.replicate 10 0)))

/-! ### Octets -/

/-- [R49 R79] a port that is not quiet: neither OFF nor set DOWN with its link DOWN. -/
def portIsUp (s : State) (p : Nat) : Bool := (s.port p).role != 3 && ((s.port p).up || (s.port p).link != .down)

/-- [R49 R163 R184 R252] the octet takes a new rate and reach: its PLL relocks within the command, DFE tap 1 reads zero on VSR, and its
ports' shapers start from zero. -/
def setOctet (s : State) (o rate reach : Nat) : State :=
  let t := updOctet s o (fun x => { x with rate := rate, reach := reach, pll := (s.quad (o / 16)).refOk })
  let t := foldS (lanesOfOctet o) t (fun s l => updLane s l (fun x => { x with rxEq := eqFor s l x.rxEq }))
  if (s.octet o).rate = rate then t
  else foldS (portsOfOctet t o) t (fun s p => updPort s p (fun x => { x with shaper := x.shaper.zero s.clk.now }))

/-- [R49 R51 R79 R523] MB_OCTET_SET. -/
def doOctetSet (s : State) (c : MbCmd) : MbAns :=
  let o := byteAt c.payload 0
  let rate := byteAt c.payload 1
  let reach := byteAt c.payload 2
  let ps := portsOfOctet s o
  if quadOut s (o / 16) || quadBusy s (o / 16) || ps.any (portBusy s) then ansFail s stWRONG_STATE
  else if ps.any (portIsUp s) then ansFail s stNOT_QUIESCED
  else if rate < 2 && ps.any (isLegacy s) then ansFail s stROLE_RATE_CONFLICT
  else withConfig s (ansOk (storeCfg (setOctet s o rate reach) (fun g => { g with rate := g.rate.set o rate, reach := g.reach.set o reach })))

def execMbOctetSet (s : State) : Res :=
  .next (mbRun s 0x0100
    (fun l => lenIs 4 [(3, 1)] l && decide (byteAt l 0 < 64) && decide (byteAt l 1 < 4) && decide (byteAt l 2 < 2))
    [(tgtOCTET, true)] doOctetSet)

/-! ### Ports -/

/-- [R50] configured ports, other than `p`, whose lanes a claim of `w` lanes at `p` meets. -/
def claimedBy (s : State) (p w : Nat) : List Nat :=
  (portsOf s).filter (fun g => g != p && decide (g < p + w) && decide (p < g + widthLanes (s.port g).width))

/-- [R50] a port that is removed: nothing of it stays but the space its packets still hold. -/
def removePort (s : State) (p : Nat) : State := updPort s p (fun x => { heldV := x.heldV, rxNo := x.rxNo })

/-- [R59 R211 R252] a port takes a width and role: reserves of the new role's profile, gates discarded away from FABRIC, the shaper
from zero. -/
def reshapePort (s : State) (p width role : Nat) : State :=
  updPort s p (fun x =>
    let y := if x.exists_ && x.role == role then x
      else { x with
        role := role, reserve := { dflt := if role = 1 then 128 else 66 },
        gate := if x.role = 0 ∧ role ≠ 0 then { guardNs := x.gate.guardNs, edgeTol := x.gate.edgeTol, holdoverMax := x.gate.holdoverMax } else x.gate }
    { y with exists_ := true, width := width, shaper := if x.width = width ∧ x.role = role then x.shaper else x.shaper.zero s.clk.now })

/-- [R50 R72 R169] the lanes follow: those of a role other than OFF in an ACTIVE quadrant are powered, all others powered down, those left
over are parked. -/
def relane (s : State) (old : List Nat) (p : Nat) : State :=
  let new := portLanes s p
  let t := foldS (old.filter (fun l => !new.contains l && (portOfLane s l).isNone)) s parkLane
  if (s.port p).role = 3 ∨ !quadActive s (quadOfLane p) then foldS new t offLane
  else foldS (new.filter (fun l => (t.lane l).st == .off)) t (fun s l => updLane s l (fun x => { x with st := .parked }))

/-- [R50 R523] configure a port, removing the OFF ports whose lanes it takes. -/
def configurePort (s : State) (p width role : Nat) (up : Bool) : State :=
  let gone := claimedBy s p (widthLanes width)
  let old := if (s.port p).exists_ then portLanes s p else []
  let t := foldS gone s removePort
  let t := relane (reshapePort t p width role) old p
  storeCfg (updPort t p (fun x => { x with up := up })) (fun g => { g with
    ports := (gone.foldl (fun t g => t.set g none) g.ports).set p (some { width := width, role := role, up := up }) })

/-- [R123 R195] bring a port up, or take it down; a drain carries on after the command. -/
def movePort (s : State) (c : MbCmd) (p : Nat) (up : Bool) (wasUp : Bool) : MbAns :=
  if up then ansOk (if wasUp then s else portUp s p)
  else
    let t := portDown (updPort s p (fun x => { x with again := false })) p
    if (t.port p).link = .down then ansOk t else accept t c (.portDown p) true stSUCCESS false

/-- [R50 R51 R79 R123] MB_PORT_SET. -/
def doPortSet (s : State) (c : MbCmd) : MbAns :=
  let p := leAt c.payload 0 2
  let w := byteAt c.payload 2
  let r := byteAt c.payload 3
  let up := byteAt c.payload 4 == 1
  let x := s.port p
  let change := !x.exists_ || x.width != w || x.role != r
  if quadOut s (quadOfLane p) || portBusy s p then ansFail s stWRONG_STATE
  else if p % widthLanes w ≠ 0 then ansFail s stWIDTH_ALIGN
  else if (claimedBy s p (widthLanes w)).any (fun g => (s.port g).role != 3) then ansFail s stPORT_OVERLAP
  else if x.exists_ && change && portIsUp s p then ansFail s stNOT_QUIESCED
  else if r = 1 ∧ (s.octet (octetOfLane p)).rate < 2 then ansFail s stROLE_RATE_CONFLICT
  else if r = 1 ∧ w = 3 then ansFail s stROLE_WIDTH_CONFLICT
  else withConfig s (movePort (if change then configurePort s p w r up
      else storeCfg (updPort s p (fun x => { x with up := up })) (fun g => { g with ports := g.ports.set p (some { width := w, role := r, up := up }) }))
    c p up (!change && x.up))

def execMbPortSet (s : State) : Res :=
  .next (mbRun s 0x0101
    (fun l => lenIs 8 [(5, 3)] l && decide (leAt l 0 2 < 512) && decide (byteAt l 2 < 4) && decide (byteAt l 3 < 4) && decide (byteAt l 4 < 2))
    [(tgtPORT, true)] doPortSet)

/-- [R195 R211] the code of a link state. -/
def linkCode : LinkSt → Nat
  | .down => 0 | .train => 1 | .init => 2 | .active => 3 | .retrain => 4 | .drain => 5

/-- [R122 R123 R524] MB_PORT_GET. -/
def doPortGet (s : State) (c : MbCmd) : MbAns :=
  let p := leAt c.payload 0 2
  let x := s.port p
  portNamed s p (ansData s ((([linkCode x.link, x.width, x.role, portProfile s p, b2n (degraded s p), x.rxMap.toNat, x.txMap.toNat]).flatMap (leBytes 1)) ++
    List.replicate 9 0))

def execMbPortGet (s : State) : Res :=
  .next (mbRun s 0x0102 (fun l => lenIs 2 [] l && decide (leAt l 0 2 < 512)) [(tgtPORT, false)] doPortGet)

/-! ### Host modes -/

/-- [R61 R66] MB_HOST_MODE_STORE: the mode of the next cold start. -/
def doHostModeStore (s : State) (c : MbCmd) : MbAns :=
  let h := byteAt c.payload 0
  let m := byteAt c.payload 1
  if h = 7 ∧ m = 1 then ansFail s stBIFURCATION_LIMIT
  else withConfig s (ansOk (storeCfg s (fun g => { g with hostMode := g.hostMode.set h (some m) })))

def execMbHostModeStore (s : State) : Res :=
  .next (mbRun s 0x0103 (fun l => lenIs 4 [(2, 2)] l && decide (byteAt l 0 < 8) && decide (byteAt l 1 < 3))
    [(tgtHOST, true), (tgtDEVICE, true)] doHostModeStore)

/-! ### Partition tables -/

/-- [R224] entries of a table by KIND. -/
def pkeyEntries (kind : Nat) : Nat := if kind = 0 then 64 else if kind = 1 then 16 else 2048

/-- The keys a payload carries from its byte 8. -/
def keysOf (l : List Byte) (n : Nat) : List Nat := (List.range n).map (fun i => leAt l (8 + 2 * i) 2)

/-- [R122 R224] the fields of MB_PARTITION_SET. -/
def partitionFields (l : List Byte) : Bool :=
  let kind := byteAt l 0
  let n := leAt l 6 2
  decide (8 ≤ l.length) && lenIs (8 + 2 * n) [(1, 1)] l && decide (kind < 3) && decide (1 ≤ n) && decide (n ≤ 2040) &&
    (if kind = 0 then decide (leAt l 2 2 < 512) else if kind = 1 then decide (leAt l 2 2 < 4096) else leAt l 2 2 == 0) &&
    decide (leAt l 4 2 + n ≤ pkeyEntries kind) && (keysOf l n).all (· != 0x8000)

/-- Put keys into a table from an entry on. -/
def putKeys (t : Tbl (BitVec 16)) : Nat → List Nat → Tbl (BitVec 16)
  | _, [] => t
  | i, k :: rest => putKeys (t.set i (BitVec.ofNat 16 k)) (i + 1) rest

/-- [R224 R524] MB_PARTITION_SET. -/
def doPartitionSet (s : State) (c : MbCmd) : MbAns :=
  let l := c.payload
  let i := leAt l 2 2
  let f := fun (t : Tbl (BitVec 16)) => putKeys t (leAt l 4 2) (keysOf l (leAt l 6 2))
  match byteAt l 0 with
  | 0 => portNamed s i (ansOk (updPort s i (fun x => { x with pkeys := f x.pkeys })))
  | 1 =>
    if decide (0x100 ≤ i) && decide (i < 0x500) && quadOut s (quadOfHost (hostOfFn i)) then ansFail s stWRONG_STATE
    else if !fnExists s i then ansFail s stNOT_FOUND
    else if quadBusy s (quadOfHost (hostOfFn i)) then ansFail s stWRONG_STATE
    else ansOk (updFn s i (fun x => { x with pkeys := f x.pkeys }))
  | _ => ansOk { s with routes := { s.routes with slots := f s.routes.slots } }

def execMbPartitionSet (s : State) : Res := .next (mbRun s 0x0104 partitionFields [(tgtSWITCH, true)] doPartitionSet)

end Sys2Proof.Machine
end

