-- ==== Sys2Proof/Machine/RecOps.lean ====
section
/-! DEFINITION. The event recorder's movements: the ring and its carried records, flushes, the power-fail flush and the snapshot's bank
flip (R470 to R473, R477). -/

namespace Sys2Proof.Machine

/-- [R473] an EV_LOG_CLEARED record. -/
def isClear (r : EvRec) : Bool := r.code == BitVec.ofNat 16 (Ev.code .logCleared)

/-- [R483 R484] records EVENT_RING holds: 64 segments of 2,048, and 128 fewer for each skipped sector. -/
def ringCap (s : State) : Nat := 131072 - 128 * s.mram.skipped

/-- [R473] the oldest record is an EV_LOG_CLEARED that is carried: fewer than 64 clears after it are newer. What was written as an
original lies after every clear that is older than it; a copy lies before every clear that is newer. -/
def carries (rest : List EvRec) (o : EvRec) : Bool :=
  isClear o && decide ((rest.filter (fun r => isClear r && (o.carried || !r.carried))).length < 64)

/-- [R473] write a record into EVENT_RING, over the oldest when it is full. -/
def ringPut (s : State) (r : EvRec) : State :=
  if s.recd.ring.length < ringCap s then { s with recd := { s.recd with ring := s.recd.ring ++ [r] } }
  else
    match s.recd.ring with
    | [] => s
    | o :: rest =>
      let t := { s with recd := { s.recd with ring := rest ++ [r] } }
      if carries (rest ++ r :: s.recd.buf) o then enterService t { o with carried := true } else t

/-- [R470] write unflushed service-die records in RECORD_SEQ order, up to `n` of them. -/
def flushSome (s : State) : Nat → State
  | 0 => s
  | n + 1 =>
    match s.recd.buf with
    | [] => s
    | r :: rest => flushSome (ringPut { s with recd := { s.recd with buf := rest } } r) n

/-- [R470] with room again, the records overwritten in the service-die buffer are reported. -/
def reportLost (s : State) : State :=
  if s.recd.lost = 0 then s
  else recordEv { s with recd := { s.recd with lost := 0 } } .eventLost svcDie svcDie s.recd.lost

/-- [R471] a flush: every unflushed service-die record goes to EVENT_RING, the copies it makes itself among them, where the recorder may
write it (R118). -/
def flushEvents (s : State) : State :=
  if s.recd.buf.isEmpty then s
  else if !allowed s recorderMaster tgtEVENT_RING true then denied s recorderMaster tgtEVENT_RING
  else
    let t := flushSome s (s.recd.buf.length + (s.recd.ring.filter isClear).length)
    reportLost (count { t with recd := { t.recd with flushedAt := s.clk.now } } .device 0 .eventFlush)

/-- [R22 R470] move a quadrant's oldest record, as a service message, into the service-die buffer, unless that is full; overwritten ones are then reported. -/
def forwardOne (s : State) (q : Nat) : State :=
  match (s.quad q).evBuf with
  | [] => s
  | r :: rest =>
    if 2048 ≤ s.recd.buf.length then s
    else
      let t := enterService (toService (updQuad s q (fun x => { x with evBuf := rest, evLost := 0 })) q 32) r
      if (s.quad q).evLost = 0 then t else recordEv t .eventLost svcDie q (s.quad q).evLost

/-- [R472] records oldest first. -/
def byTime (l : List EvRec) : List EvRec := sortBy (fun a b => decide (a.time.toNat ≤ b.time.toNat)) l

/-- [R22 R472] one record of the power-fail flush: a quadrant's crosses as a service message and takes its RECORD_SEQ as it is moved. -/
def writeFast (s : State) (r : EvRec) : State :=
  if s.recd.buf.contains r then ringPut { s with recd := { s.recd with buf := s.recd.buf.erase r } } r
  else
    let t := toService (updQuad s r.die (fun x => { x with evBuf := x.evBuf.erase r })) r.die 32
    let r' := { r with seq := s.recd.next }
    ringPut (count { t with recd := { t.recd with next := t.recd.next + 1 } } .device 0 .eventRecorded) r'

/-- [R472] the order of the power-fail flush: ERROR and CRITICAL records first, then the service die's, then the quadrants'. -/
def flushOrder (s : State) : List EvRec :=
  let svc := s.recd.buf
  let quads := (List.range 4).flatMap (fun q => (s.quad q).evBuf)
  let grave := fun (r : EvRec) => decide (4 ≤ r.sev)
  byTime ((svc ++ quads).filter grave) ++ byTime (svc.filter (fun r => !grave r)) ++ byTime (quads.filter (fun r => !grave r))

/-- [R118 R472] the records of the flush, 2,048 in all, where the recorder may write EVENT_RING. -/
def flushRecords (s : State) : State :=
  if allowed s recorderMaster tgtEVENT_RING true then
    let t := ((flushOrder s).take 2048).foldl writeFast s
    if (flushOrder s).length ≤ 2048 then flushSome t t.recd.buf.length else t
  else denied s recorderMaster tgtEVENT_RING

/-- [R472] records left in the buffers. -/
def recordsLeft (s : State) : Nat := s.recd.buf.length + ((List.range 4).map (fun q => (s.quad q).evBuf.length)).sum

/-- [R118 R472] the power-fail flush: the records, then LIFE, then the marker with what is left behind, each where the recorder may write it. -/
def powerFlush (s : State) : State :=
  let t := flushRecords s
  let u := agentWrite t recorderMaster 4 (fun t => { t with lifePart := t.life })
  let u := { u with recd := { u.recd with pfLeft := recordsLeft t, flushedAt := s.clk.now } }
  if allowed s recorderMaster tgtEVENT_RING true then emit (count u .device 0 .eventFlush) (.pfMarker (recordsLeft t)) else u

/-- [R444 R448] the flush that precedes a warm start: quadrant records first move to the service die. -/
def flushAll (s : State) : State :=
  flushEvents (foldS (List.range 4) s (fun s q => (List.range (s.quad q).evBuf.length).foldl (fun s _ => forwardOne s q) s))

/-- [R424 R480] the hottest junction of the dies that are sensed, in units of 0.0625 degrees; 0 before the first sample (log 6). -/
def hottest (s : State) : Int :=
  match (List.range 5).filterMap (fun i => if i = 4 ∨ quadActive s i then (s.tele.get 0)[i]? else none) with
  | [] => 0
  | r :: rest => rest.foldl max r

end Sys2Proof.Machine
end

