-- ==== Sys2Proof/Machine/BootOps.lean ====
section
/-! DEFINITION. Shared operations of resets, starts and firmware: resetting a function or a host link, image checks, the flash shared with
the BMC, what a cold and a warm start clear, the stored configuration applied, the Molzu restart and SAFE mode (R48, R443 to R461). -/

namespace Sys2Proof.Machine

/-! ### Functions and host links -/

/-- [R99] discard the commands of a mailbox that have not started, and the answers of those a Molzu restart has cut short. -/
def dropMailbox (s : State) (m : Nat) : State :=
  let keep := fun (c : MbCmd) => c.m != m || c.inband.isSome
  { s with cmds := { s.cmds with queue := s.cmds.queue.filter keep, cut := s.cmds.cut.filter keep } }

/-- [R99] a mailbox is reset: its commands are discarded, its areas, LAST_TAG and DB_IGNORED zero and STATE IDLE; STATUS stays. -/
def resetMailbox (s : State) (m : Nat) : State :=
  updInst (dropMailbox s m) m (fun i => { ({} : Inst) with selErr := i.selErr, accErr := i.accErr, cause := i.cause, mask := i.mask })

/-- [R340 R460] the queues of a function, its admin queue among them, are QUIESCED: they write nothing, and a stream's waiting headers are
dropped. [R398] Evictions to a PF0's store take another victim. -/
def quiesceQueues (s : State) (f : Nat) : State :=
  let s := updFn s f (fun x => { x with bme := false, quiesced := true, aq := { x.aq with state := 3, fetched := [] } })
  let s := if isPf0 s f then unmarkFor s f else s
  let s := foldS (numsOf s.ep.qps (fun x => x.fn == f)) s (fun s q => updQp (dropWaiting s q) q (fun x => { x with st := 3, marked := false }))
  let s := foldS (numsOf s.ep.srqs (fun x => x.fn == f)) s (fun s q => updSrq s q (fun x => { x with quiesced := true }))
  let s := foldS (numsOf s.ep.cqs (fun x => x.fn == f)) s (fun s q => updCq s q (fun x => { x with quiesced := true, waiting := [] }))
  foldS (numsOf s.ep.eqs (fun x => x.fn == f)) s (fun s q => updEq s q (fun x => { x with quiesced := true }))

/-- [R381] the collectives of a function's queue pairs end. -/
def abortFnColls (s : State) (f : Nat) : State := foldS (numsOf s.ep.qps (fun x => x.fn == f)) s abortColls

/-- [R460] the function goes QUIESCED: no new DMA, its queues and admin queue QUIESCED, its collectives ended. -/
def quiesceFn (s : State) (f : Nat) : State := abortFnColls (quiesceQueues s f) f

/-- [R251] the partition shapers and policers of a function. -/
def shapersOfFn (f : Nat) : List Nat :=
  (List.range 16).map (fun i => quadOfHost (hostOfFn f) * 4096 + hostOfFn f % 2 * 2048 + numOfFn f * 16 + i)

/-- [R461] one function as FLR leaves it: contexts destroyed, mailbox, ADMIN and select registers, partition shapers and policers and the
PCIe settings at reset; quotas, partition table and STATUS stay. -/
def resetOne (s : State) (f : Nat) : State :=
  let s := resetMailbox (destroyFn (quiesceFn s f) f) f
  let s := updFn s f (fun x => { ({} : Fn) with flrBusy := x.flrBusy, pkeys := x.pkeys, quota := x.quota })
  let s := updMaster s f (fun y => { y with portSel := 0, laneSel := 0, octSel := 0, hostSel := 0, shpSel := 0, cntSel := 0 })
  let out := shapersOfFn f
  updEp s (fun e => { e with shapers := e.shapers.eraseIf (fun k _ => out.contains k), policers := e.policers.eraseIf (fun k _ => out.contains k),
                             nudges := e.nudges.eraseIf (fun k _ => k / 2 ^ 23 == f) })

/-- [R398 R461] a reset of a function; a PF0's abandons every image of its endpoint and ends its VFs. -/
def resetFn (s : State) (f : Nat) : State :=
  if isPf0 s f then
    let e := epOfFn s f
    let t := resetOne (foldS ((fnsOfEp s e).filter (isVf s)) s resetOne) f
    updHost t e (fun h => { h with images := { h.images with cells := [] } })
  else resetOne s f

/-- [R29 R460] a host link that is down makes every function behind it QUIESCED; tree edges to it are lost (R380) before its queue pairs' other
collectives end. What waits at the endpoint leaves the packet buffers. -/
def hostDown (s : State) (e : Nat) : State :=
  let t := updHost s e (fun h => { h with linkUp := false, speed := 0, width := 0, rx := [], inject := [], atomics := [] })
  let t := (s.hostEp e).rx.foldl (fun t q => freeOrigin t q.orig) t
  foldS (fnsOfEp s e) (edgeLost (foldS (fnsOfEp s e) t quiesceQueues) (.host (endpointOf s e))) abortFnColls

/-- [R447] one Device Readiness Status message after each cold start, once the port is ready and its link has come up. -/
def readiness (s : State) (e : Nat) : State :=
  let h := s.hostEp e
  if h.cfgReady && h.seenLink && !h.drsSent then emit (updHost s e (fun h => { h with drsSent := true })) (.drs e) else s

/-- [R447 R462] the endpoint answers configuration requests from now on. -/
def becomeCfgReady (s : State) : State :=
  foldS ((List.range 16).filter (epExists s)) s (fun s e => readiness (updHost s e (fun h => { h with cfgReady := true })) e)

/-! ### Images -/

/-- [R456] the slot's first 4 KiB stand erased. -/
def slotErased (s : State) (slot : Nat) : Bool := (slot == 0 && s.boot.erasedA) || (slot == 1 && s.boot.erasedB)

def setErased (s : State) (slot : Nat) (b : Bool) : State :=
  { s with boot := { s.boot with erasedA := if slot = 0 then b else s.boot.erasedA, erasedB := if slot = 1 then b else s.boot.erasedB } }

/-- [R451 R452] check an image read from a slot (0 A, 1 B, 2 golden); `skipSig`: its hash equals the recorded one (R448). -/
def imageCheck (s : State) (slot : Nat) (i : Image) (skipSig : Bool) : Nat :=
  if slotErased s slot || !i.magicOk || !i.formatOk || decide (i.imageLen < 4096) || decide (2097152 < i.imageLen) || i.imageLen % 16 != 0 then
    stIMAGE_INVALID
  else if !(decide (i.keySlot < 4) && s.boot.keySlots.getLsbD i.keySlot && i.pubkeyHashOk) then stIMAGE_INVALID
  else if !skipSig && !i.sigOk then stIMAGE_INVALID
  else if fld i.variants (b2n s.ident.h96) 1 = 0 ∨ !i.profiles.getLsbD 0 ∨ i.golden != (slot == 2) then stIMAGE_INVALID
  else if slot < 2 ∧ i.svn < s.boot.antiRollback then stROLLBACK_REFUSED
  else stSUCCESS

/-- [R453 R464] an image is rejected. -/
def rejectImage (s : State) (slot st : Nat) : State := recordEv s .bootImageRejected svcDie slot st

/-- [R446] the image is loaded; its hash is recorded at each full check (R448). -/
def loadImage (s : State) (slot : Nat) (i : Image) : State :=
  { s with boot := { s.boot with
      slot := slot, version := i.version, sha := i.sha, shaRecorded := s.boot.shaRecorded.set slot i.sha, svn := i.svn, profiles := i.profiles,
      versionShown := false, steps := { s.boot.steps with image := true } } }

/-- [R450] where a slot lies in the flash. -/
def slotBase (slot : Nat) : Nat := match slot with | 0 => 0x0800000 | 1 => 0x1000000 | _ => 0

/-- [R458] device flash work: it waits while the BMC asks for the flash or holds it. -/
def flashOp (s : State) (op addr len : Nat) : State :=
  if s.boot.flashReq || s.boot.flashGnt then { s with boot := { s.boot with flashWork := s.boot.flashWork ++ [(op, addr, len)] } }
  else emit { s with boot := { s.boot with flashOp := some op } } (.flash op addr len)

/-- [R458] the device has the flash. -/
def flashOwned (s : State) : Bool := !s.boot.flashGnt

/-! ### What a cold start clears -/

/-- [R479] the four start counters, held in LIFE. -/
def startCounters (s : State) : Tbl Ctr :=
  [Cn.coldStart, .warmStart, .fwRestart, .bootFailed].foldl (fun t c =>
    let k := ctrKey .device 0 (placeOf c deviceCounters)
    t.set k { live := (s.ctrs.get k).live + (if s.snap.folded then 0 else (s.ctrs.get k).frozen) }) { dflt := {} }

/-- [R469] RECORD_SEQ goes on from EVENT_RING. -/
def nextSeqOf (ring : List EvRec) : BitVec 32 := match ring.getLast? with | some r => r.seq + 1 | none => 1

/-- [R109] what EVENT.RD_PTR resets to: OLDEST, with the volatile buffers empty. -/
def oldestOf (ring : List EvRec) : BitVec 32 := (ring.head?.map (·.seq)).getD (nextSeqOf ring)

/-- [R443 R479] everything outside the Vigil domain, MRAM and the fuses, and the levels of the pins, is lost. -/
def coldClear (s : State) : State :=
  { State.reset with
    ident := s.ident
    clk := { now := s.clk.now, vigil := s.clk.vigil, vigilNs := s.clk.vigilNs }
    boot := {
      power := s.boot.power, straps := s.boot.straps, porst := s.boot.porst, warmRst := s.boot.warmRst, attempts := s.boot.attempts,
      preferred := s.boot.preferred, shaRecorded := s.boot.shaRecorded, antiRollback := s.boot.antiRollback, erasedA := s.boot.erasedA,
      erasedB := s.boot.erasedB, flashReq := s.boot.flashReq, flashGnt := s.boot.flashGnt, keySlots := s.boot.keySlots, ownerKeys := s.boot.ownerKeys, calibHbm := s.boot.calibHbm, mgmtPkey := s.cfg.mgmtPkey,
      groupBase := s.cfg.groupBase }
    cfg := s.cfg
    cfgOld := s.cfgOld
    lanes := s.lanes.mapCells (fun _ x => { calibSets := x.calibSets, calibAt := x.calibAt, circuit := x.circuit })
    quads := s.quads.mapCells (fun _ x => { repairRows := x.repairRows })
    ctrs := startCounters s
    masters := { dflt := { rdPtr := oldestOf s.recd.ring } }
    recd := { ring := s.recd.ring, next := nextSeqOf s.recd.ring, pfLatch := s.recd.pfLatch, pfLeft := s.recd.pfLeft, tripLatch := s.recd.tripLatch }
    life := s.lifePart
    lifePart := s.lifePart
    mram := { s.mram with lowRec := false }
    pstepC := { ack := s.pstepC.ack }
    pstepS := { ack := s.pstepS.ack }
    pins := { s.pins with coreLost := false, i3c := none }
    out := s.out
    free := s.free
    pending := s.pending }

/-- [R472] at a start, the power-fail latch and the marker are read and recorded. -/
def tellPowerFail (s : State) : State :=
  match s.recd.pfLatch with
  | some v => recordEv { s with recd := { s.recd with pfLatch := none, pfLeft := 0 } } .powerFail svcDie v.toNat s.recd.pfLeft 0
  | none => s

/-- [R446 R453] a cold start begins, with the straps as they were latched: what the latches of Vigil hold is recorded. -/
def beginCold (s : State) : State :=
  let t := coldClear s
  let t := count { t with boot := { t.boot with power := .run, steps := { started := true } } } .device 0 .coldStart
  let t := tellPowerFail t
  let t := match t.recd.tripLatch with
    | some (d, v) => recordEv { t with recd := { t.recd with tripLatch := none } } .thermalTrip svcDie d v.toNat
    | none => t
  if t.boot.straps.bootSrc = 3 then recordEv t .bootSrcReserved svcDie 3 else t

/-! ### What a warm start clears -/

/-- [R448] a port keeps its configuration and the RW registers of its windows. -/
def warmPort (x : Port) : Port :=
  { exists_ := x.exists_, width := x.width, role := x.role, up := x.up, graceMs := x.graceMs, replayUs := x.replayUs, creditTmo := x.creditTmo,
    sharedMin := x.sharedMin, sharedMax := x.sharedMax, reserve := x.reserve, quanta := x.quanta,
    shaper := { rate := x.shaper.rate, burst := x.shaper.burst }, pol0 := x.pol0, pol1 := x.pol1, pol2 := x.pol2, yellow := x.yellow, red := x.red,
    gate := { x.gate with run := 0 }, pkeys := x.pkeys, hintAge := x.hintAge, eqx := { interval := x.eqx.interval } }

/-- [R448 R169] a lane stays powered where it was, and keeps LANE.CFG and what CALIB holds. -/
def warmLane (x : Lane) : Lane :=
  { st := if x.st = .off then .off else .parked, cfg := x.cfg, cfgNow := x.cfgNow, calibSets := x.calibSets, calibAt := x.calibAt,
    lockedSinceCold := x.lockedSinceCold, circuit := x.circuit }

/-- [R448 R394] a quadrant keeps its state and its patrol; its spaces are empty. -/
def warmQuad (x : Quad) : Quad :=
  { st := x.st, refOk := x.refOk, refLost := x.refLost, patrolAddr := x.patrolAddr, patrolStart := x.patrolStart, gatedAt := x.gatedAt, lfsr := x.lfsr,
    throttle := x.throttle, rowErrs := x.rowErrs, repairRows := x.repairRows, rootPll := x.rootPll, selfRefresh := x.selfRefresh }

/-- [R448] run-time contexts are destroyed, with their numbers quarantined. -/
def destroyAll (s : State) : State :=
  let s := { s with fns := s.fns.mapCells (fun _ x => { x with bme := false }) }
  let s := foldS (allFns s) s destroyFn
  updEp s (fun e => { ({} : Endpoint) with wins := e.wins, qnums := e.qnums, wnums := e.wnums, pnums := e.pnums })

/-- [R155] any state of the time unit goes to HOLDOVER at a warm start, with FT and the servo kept; so does a SOURCE that becomes a worker. A
TOD_FT that still waits for its edge is dropped and PPS discipline ends, with no EV_PPS_LOST (DESIGN CHOICE, log 100). -/
def holdTime (s : State) : State :=
  changeTime s (fun u => { u with st := .holdover, upstream := none, stepWait := none, tod := none, ppsOn := false })

/-- [R448] what a warm start leaves. -/
def warmClear (s : State) : State :=
  let t := holdTime (destroyAll s)
  { t with
    boot := { t.boot with
      steps := { started := true }, warm := true, fwReady := false, fwRestarting := false, fwDown := false, versionShown := false, restarts := [],
      mgmtPkey := t.cfg.mgmtPkey, groupBase := t.cfg.groupBase,
      goldenNext := false, goldenRestart := false, update := none, flashWork := [], flashOp := none, flashSuspended := false }
    lanes := t.lanes.mapCells (fun _ x => warmLane x)
    octets := (List.range 64).foldl (fun o i => o.upd i (fun x => { x with calSrc := 2 })) t.octets
    ports := t.ports.mapCells (fun _ x => warmPort x)
    snap := if t.snap.st = 1 then { ft := t.snap.ft, st := 1 } else {}
    ctrs := startCounters t
    quads := t.quads.mapCells (fun _ x => warmQuad x)
    eps := t.eps.mapCells (fun _ h =>
      { linkUp := h.linkUp, cfgReady := h.cfgReady, speed := h.speed, width := h.width, drsSent := h.drsSent, seenLink := h.seenLink })
    fns := t.fns.mapCells (fun _ x => { pkeys := x.pkeys, quota := x.quota })
    insts := { dflt := {} }
    masters := { dflt := { rdPtr := oldestOf t.recd.ring } }
    cmds := {}
    chain := { t.chain with resetKind := none, mbFtag := none }
    grp := {}
    recd := { ring := t.recd.ring, next := nextSeqOf t.recd.ring, pfLatch := t.recd.pfLatch, pfLeft := t.recd.pfLeft, tripLatch := t.recd.tripLatch }
    life := t.lifePart
    tele := { dflt := [] }
    teleFt := { dflt := 0 }
    mram := { t.mram with lowRec := false } }

/-- [R444] why a warm start runs as a cold start. -/
def warmAsColdCause (s : State) : Option Nat :=
  if !s.boot.readySinceCold then some 0
  else if s.boot.safe then some 1
  else if (List.range 4).any (fun q => quadActive s q && !s.boot.calibHbm.getLsbD q) then some 2
  else none

/-- [R444 R448] a warm start begins. -/
def beginWarm (s : State) : State :=
  match warmAsColdCause s with
  | some c => recordEv (beginCold s) .warmAsCold svcDie c
  | none => tellPowerFail (count (warmClear s) .device 0 .warmStart)

/-! ### The stored configuration (R48) -/

/-- [R48] the ports of an octet in ascending order of their first lane, as stored. -/
def storedOf (s : State) (o : Nat) : List (Nat × StoredPort) :=
  (List.range 8).filterMap (fun i => (s.cfg.ports.get (8 * o + i)).map (fun p => (8 * o + i, p)))

/-- [R48 R50] the stored port lies within its octet and starts at a multiple of its width. -/
def portFits (o p w : Nat) : Bool := decide (w < 4) && p % widthLanes w == 0 && decide (p + widthLanes w ≤ 8 * o + 8)

/-- [R48] take ports in order, each sharing no lane with one already taken. -/
def takePorts (o : Nat) : List (Nat × StoredPort) → List (Nat × StoredPort) → List (Nat × StoredPort)
  | acc, [] => acc
  | acc, (p, x) :: rest =>
    takePorts o (if portFits o p x.width && acc.all (fun a => decide (a.1 + widthLanes a.2.width ≤ p)) then acc ++ [(p, x)] else acc) rest

/-- [R48] the axis an octet's stored values break first: 0 rate, 1 reach, 2 width, 3 role. -/
def octetFault (s : State) (o : Nat) : Option Nat :=
  let ps := storedOf s o
  let rate := s.cfg.rate.get o
  if 3 < rate then some 0
  else if 1 < s.cfg.reach.get o then some 1
  else if (takePorts o [] ps).length ≠ ps.length then some 2
  else if ps.any (fun p => decide (3 < p.2.role) || (p.2.role == 1 && (decide (rate < 2) || p.2.width == 3))) then some 3
  else none

/-- [R48 R72 R523] apply one octet's stored values: those that break no rule as they stand, otherwise the ports that fit, OFF and DOWN. In a
quadrant that is not ACTIVE the ports are DOWN and the lanes stay OFF. -/
def applyOctet (s : State) (o : Nat) : State :=
  let bad := octetFault s o
  let on := quadActive s (o / 16)
  let kept := (takePorts o [] (storedOf s o)).map (fun p => if bad.isSome then (p.1, { p.2 with role := 3, up := false }) else p)
  let s := match bad with
    | some a => recordEv s .modeFallback svcDie a o
    | none => s
  let rate := if 3 < s.cfg.rate.get o then 0 else s.cfg.rate.get o
  let s := updOctet s o (fun x => { x with
    rate := rate, reach := if 1 < s.cfg.reach.get o then 0 else s.cfg.reach.get o, pll := (s.quad (o / 16)).refOk })
  let s := foldS ((portsOfOctet s o).filter (fun p => !kept.any (fun k => k.1 == p))) s (fun s p => foldS (portLanes s p) (removePort s p) parkLane)
  let s := kept.foldl (fun s k =>
    let old := if (s.port k.1).exists_ then portLanes s k.1 else []
    updPort (relane (reshapePort s k.1 k.2.width k.2.role) old k.1) k.1 (fun x => { x with up := k.2.up && on })) s
  foldS ((List.range 8).map (8 * o + ·)) s (fun s l => updLane s l (fun x => { x with cfg := BitVec.ofNat 32 (s.cfg.laneCfg.get l) }))

/-- [R48 R60] a stored host mode that breaks a rule. -/
def hostModeBad (h : Nat) (m : Nat) : Bool := decide (2 < m) || (h == 7 && m == 1)

/-- [R60] host modes and retire records, as the boot ROM reads them at a cold start. -/
def applyHostModes (s : State) : State :=
  { s with hostMode := (List.range 8).foldl (fun t h =>
      t.set h (match s.cfg.hostMode.get h with | some m => if hostModeBad h m then 0 else m | none => 0)) { dflt := 0 } }

/-- [R75] retire records take effect. -/
def applyRetired (s : State) : State :=
  foldS (List.range 4) s (fun s q => updQuad s q (fun x => { x with st := if s.cfg.retire.getLsbD q then 2 else 0 }))

/-- [R10] the profile of this boot. -/
def selectProfile (s : State) : State :=
  let n := s.cfg.profile
  if n = 0 then { s with profile := 1 }
  else if n ≤ 32 ∧ s.boot.profiles.getLsbD (n - 1) then { s with profile := n }
  else recordEv { s with profile := 1 } .profileFallback svcDie

/-- [R48 R57 R133] the Almanac lists an import has stored: each goes through adoption on its port (log 32); a stored bank that would turn
gating on for a port that is not FABRIC is rejected. -/
def applyAlmanac (s : State) : State :=
  foldS ((portsOf s).filter (fun p => !(s.cfg.almanac.get p).entries.isEmpty)) s (fun s p =>
    let b := s.cfg.almanac.get p
    if isFabric s p || !b.gating then
      adoptAlmanac (updPort s p (fun x => { x with gate := { x.gate with
        bank0 := if x.gate.active then b else x.gate.bank0, bank1 := if x.gate.active then x.gate.bank1 else b } })) p s.clk.ft
    else recordEv s .modeFallback svcDie 5 (octetOfLane p))

/-- [R446 R448] the stored configuration is checked and applied: octets, lanes and ports, access tables, profile, the group role; at a cold
start also the route epoch. -/
def applyConfig (s : State) : State :=
  let s := foldS (List.range 64) s applyOctet
  let s := foldS ((List.range 8).filter (fun h => (s.cfg.hostMode.get h).any (hostModeBad h))) s (fun s h => recordEv s .modeFallback svcDie 6 h)
  let s := selectProfile (loadAccess s)
  let s := noteWait { s with grp := { s.grp with manager := s.cfg.groupMgr, configured := s.cfg.groupMgr } }
  let s := if s.boot.warm then s else { s with routes := { s.routes with epoch := s.cfg.routeEpoch } }
  let s := if !s.boot.warm || s.boot.importFresh then applyAlmanac s else s
  { s with boot := { s.boot with importFresh := false } }

/-! ### The FEA -/

/-- [R433] the FEA the straps give, once enumeration has given an address. -/
def strapFea (s : State) : State :=
  let base := s.chain.groupBase
  let v := base + BitVec.ofNat 20 s.chain.addr - 1
  if s.chain.addr = 0 then { s with routes := { s.routes with fea := none } }
  else if v.toNat / 256 = base.toNat / 256 then { s with routes := { s.routes with fea := some v } }
  else recordEv { s with routes := { s.routes with fea := none } } .feaStrapRange svcDie base.toNat s.chain.addr

/-- [R433] the router FEA of a cold start: straps, then CONFIG, then assignment. -/
def takeFea (s : State) : State :=
  if s.boot.straps.feaStrapEn then strapFea s else { s with routes := { s.routes with fea := s.cfg.fea } }

/-! ### Failed starts, SAFE mode and the Molzu restart -/

/-- [R455 R464] SAFE mode is entered. -/
def enterSafe (s : State) : State :=
  let t := loadAccess { s with boot := { s.boot with safe := true, slot := 3, power := .safe, fwReady := false, fwRestarting := false, versionShown := false } }
  let t := becomeCfgReady (foldS (List.range 512) t offLane)
  recordEv t .safeMode svcDie t.boot.attempts t.boot.straps.bootSrc

/-- [R453 R464] a start has failed: a golden image's failure enters SAFE mode, any other begins a cold start. What is recorded reaches
EVENT_RING first (log 33). -/
def startFailed (s : State) (golden : Bool) (cause : Nat) : State :=
  let t := recordEv (count s .device 0 .bootFailed) .bootFailed svcDie s.boot.attempts cause
  if golden then enterSafe t else beginCold (flushEvents t)

/-- [R101 R459] a class L command that had not committed has had no effect: its status says so, and an update's slot stays failing. -/
def resolveRunning (s : State) : State :=
  let t := s.cmds.running.foldl (fun s b => match b.what with | .fwEnd slot => setErased s slot true | _ => s) s
  { t with cmds := { t.cmds with running := t.cmds.running.map (fun b => if b.committed then b else { b with status := stFW_RESTARTED, done := true }) } }

/-- [R459] an update in progress ends, its slot left failing check 1. -/
def endUpdate (s : State) : State := { s with boot := { s.boot with update := none } }

/-- [R459] watchdog restarts within the last 600 s. -/
def restartsIn (s : State) : List (Nat × Nat) := s.boot.restarts.filter (fun r => decide (s.clk.now ≤ r.1 + 600 * oneSec))

/-- [R101 R131] Molzu stops while it executes the command at the head of its queue, before that command's commit point (log 97). Before FW_READY
no command has started. -/
def cutHead (s : State) : State :=
  if !s.boot.fwReady then s
  else if Config.molzuExecuting s.free then
    { drawn s with cmds := { s.cmds with queue := s.cmds.queue.drop 1, cut := s.cmds.cut ++ s.cmds.queue.take 1 } }
  else drawn s

/-- [R101] after the restart the commands cut short complete with FW_RESTARTED, without effect. -/
def answerCut (s : State) : State :=
  s.cmds.cut.foldl (fun s c => respond s c stFW_RESTARTED []) { s with cmds := { s.cmds with cut := [] } }

/-- [R459 R464] a Molzu restart begins, for a cause (0 watchdog, 1 activate, 2 chain), loading a slot. -/
def molzuRestart (s : State) (cause slot : Nat) : State :=
  let slot := if s.boot.goldenNext then 2 else slot
  let s := { s with boot := { s.boot with restarts := (s.clk.now, cause) :: s.boot.restarts } }
  let wd := (restartsIn s).filter (fun r => r.2 == 0)
  let was := s.boot.fwReady
  let s := { s with
    boot := { s.boot with
      fwReady := false, fwRestarting := true, goldenNext := decide (cause = 0 ∧ 3 ≤ wd.length),
      goldenRestart := slot == 2, restartSlot := slot, steps := { s.boot.steps with image := false, molzu := false } }
    routes := if s.routes.stage = .staged then { s.routes with stage := .none, lostEpoch := some s.routes.stagedEpoch } else s.routes
    cmds := { s.cmds with exportBuf := {}, importBuf := {} } }
  let s := if was then raiseAll s causeFwState else s
  recordEv (count (endUpdate s) .device 0 .fwRestart) .fwRestart svcDie cause slot

/-- [R459] Molzu runs, or is on its way up, so that a watchdog or a chain RESET can restart it. -/
def molzuRuns (s : State) : Bool := s.boot.power == .run && s.boot.steps.molzu && !s.boot.safe && !s.boot.fwDown && !s.boot.warmRst

end Sys2Proof.Machine
end

