-- ==== Sys2Proof/Machine/Startup.lean ====
section
/-! DEFINITION. Meanings of the resets, the steps of a cold and a warm start, the watchdog and the Molzu restart, host-port and function
resets, and the flash shared with the BMC (R443 to R461). -/

namespace Sys2Proof.Machine

/-! ### PORST_N and the cold start -/

/-- [R501] the trip point of a sensor: a die's by grade, a stack's. -/
def tripPoint (s : State) (stack : Bool) : Int := if stack || s.ident.gradeL then 105 * 16 else 115 * 16

/-- [R501] every die and stack has been read, and lies more than 10 degrees below its trip point. -/
def tripCool (s : State) : Bool :=
  !(s.tele.get 0).isEmpty && (s.tele.get 0).all (fun r => decide (r < tripPoint s false - 160)) &&
    (s.tele.get 3).all (fun r => decide (r < tripPoint s true - 160))

/-- [R501] THERMTRIP_N is released once PORST_N is asserted and the sensors have cooled. -/
def releaseTrip (s : State) : State :=
  if s.pins.thermtrip && s.boot.porst && tripCool s then emit { s with pins := { s.pins with thermtrip := false } } (.pin "THERMTRIP_N" 1) else s

/-- [R443 R444 R458 R501] PORST_N is asserted: any start ends, everything but the Vigil domain, MRAM and fuses is lost, and the BMC has the
flash. -/
def execPorstNAssert (s : State) : Res :=
  let u := releaseTrip { s with boot := { s.boot with porst := true } }
  let t := coldClear u
  let t := { t with boot := { t.boot with power := .held, porst := true, warmRst := false, flashGnt := true } }
  .next (if s.boot.flashGnt then t else emit t (.pin "FLASH_GNT" 1))

/-- [R445 R446 R458] PORST_N is deasserted: the straps are latched, and the device takes the flash unless the BMC asks for it. -/
def execColdStart (straps : Straps) (s : State) : Res :=
  if s.boot.power = .held then
    let t := beginCold { s with boot := { s.boot with straps := straps, porst := false } }
    let t := { t with boot := { t.boot with flashGnt := t.boot.flashReq } }
    .next (if s.boot.flashGnt && !t.boot.flashGnt then emit t (.pin "FLASH_GNT" 0) else t)
  else .next s

/-- The device runs a cold start. -/
def coldRunning (s : State) : Bool := s.boot.power == .run && s.boot.steps.started && !s.boot.warm && !s.boot.warmRst && !s.pins.coreLost

/-- A step of the start is done. -/
def stepDone (s : State) (f : BootSteps → BootSteps) : State := { s with boot := { s.boot with steps := f s.boot.steps } }

/-- [R417 R419] an ENUM frame: NEXT_ADDR, the STRAP_FEA flag and GROUP_BASE (log 35). -/
def enumFrame (s : State) (src next flags : Nat) (base : BitVec 20) : ChainFrame :=
  { dest := 0, src := src, type := 0x01, ftag := s.chain.ftag, payload := leBytes 1 next ++ leBytes 1 flags ++ leBytes 4 base.toNat }

/-- [R419] a device sends ENUM downstream and starts ENUM_TMO. -/
def sendEnum (s : State) (src next flags : Nat) (base : BitVec 20) : State :=
  let t := { s with chain := { s.chain with enumTmr := true, ftag := (s.chain.ftag + 1) % 256 } }
  chainSend (count t .device 0 .chainEnum) .downstream (enumFrame s src next flags base)

/-- [R419] a chain manager begins enumeration: it takes address 1 and sends ENUM with NEXT_ADDR 2. -/
def beginEnum (s : State) : State :=
  if isHead s then
    sendEnum { s with chain := { s.chain with addr := 1, groupBase := s.boot.groupBase, ignoreJoin := false } } 1 2
      (b2n s.boot.straps.feaStrapEn) s.boot.groupBase
  else s

/-- [R446] the root PLLs lock; a chain manager begins enumeration. -/
def execRootPllLock (s : State) : Res :=
  if coldRunning s && !s.boot.steps.pll then .next (beginEnum (foldS (List.range 4) (stepDone s (fun b => { b with pll := true })) (fun s q => updQuad s q (fun x => { x with rootPll := true })))) else .next s

/-- [R446 R449 R484 R75 R60] CONFIG and SECURE are read: the newer copy whose CRC passes is used; a cold start raises the boot attempt
count and takes host modes and retire records. -/
def execBootRomConfigRead (newerCopyOk : Bool) (s : State) : Res :=
  if s.boot.power == .run && !s.boot.warmRst && !s.pins.coreLost && !s.boot.steps.config && (s.boot.steps.pll || s.boot.warm) then
    let t := if newerCopyOk then s else { s with cfg := s.cfgOld, boot := { s.boot with mgmtPkey := s.cfgOld.mgmtPkey, groupBase := s.cfgOld.groupBase } }
    let t := loadAccess (stepDone t (fun b => { b with config := true }))
    .next (if s.boot.warm then t else applyHostModes (applyRetired { t with boot := { t.boot with attempts := t.boot.attempts + 1 } }))
  else .next s

/-- [R446] the service-die self-test has ended. -/
def execServiceDieSelfTest (s : State) : Res :=
  if coldRunning s && s.boot.steps.config then .next (stepDone s (fun b => { b with svcTest := true })) else .next s

/-- [R75] the quadrants that are not RETIRED. -/
def liveQuads (s : State) : List Nat := (List.range 4).filter (fun q => (s.quad q).st != 2)

/-- [R446 R185] a quadrant has powered up; with the last of them the host PHYs are enabled. -/
def execQuadrantPowerUp (q : Nat) (s : State) : Res :=
  let t := stepDone (updQuad s q (fun x => { x with refOk := true })) (fun b => { b with powered := b.powered ||| BitVec.ofNat 4 (2 ^ q) })
  guardRes (decide (q < 4))
    (if coldRunning s && s.boot.steps.config && (s.quad q).st != 2 then
       stepDone t (fun b => { b with phys := (liveQuads t).all (fun k => b.powered.getLsbD k) })
     else s)

/-- [R446] the arrays' self-test has ended. -/
def execQuadrantArraySelfTest (s : State) : Res :=
  if coldRunning s && s.boot.steps.phys then .next (stepDone s (fun b => { b with arrays := true })) else .next s

/-- [R171 R409 R446] the stacks are trained: rows recorded for repair are repaired, and CALIB holds the training. -/
def execHbmTraining (s : State) : Res :=
  if coldRunning s && s.boot.steps.phys && !s.boot.steps.hbmTrained then
    let t := foldS (liveQuads s) s (fun s q =>
      let u := foldS (s.quad q).repairRows s (fun s r => recordEv s .hbmRowRepair q q r)
      updQuad u q (fun x => { x with repairRows := [], patrolStart := s.clk.now }))
    let mask := ((liveQuads s).map (2 ^ ·)).sum
    let t := agentWrite t molzuMaster 2 (fun t => { t with boot := { t.boot with calibHbm := t.boot.calibHbm ||| BitVec.ofNat 4 mask } })
    .next (stepDone t (fun b => { b with hbmTrained := true }))
  else .next s

/-! ### The image -/

/-- [R446 R448 R459] an image is due: in a cold start after the tests, in a warm start after the read of CONFIG, in a restart at once. -/
def imageDue (s : State) : Bool :=
  s.boot.power == .run && !s.boot.warmRst && !s.pins.coreLost && !s.boot.steps.image && !s.boot.fwDown && flashOwned s &&
    (s.boot.fwRestarting || (s.boot.warm && s.boot.steps.config) || (s.boot.steps.svcTest && s.boot.steps.phys))

/-- [R448] a warm start or a Molzu restart skips the signature of an image whose hash is the recorded one. -/
def sigSkipped (s : State) (slot : Nat) (i : Image) : Bool := i.sha == s.boot.shaRecorded.get slot

/-- [R453] a cold start's choice among the images. -/
def selectCold (s : State) (a b golden : Image) : State :=
  let src := s.boot.straps.bootSrc
  if src = 2 then enterSafe s
  else if src = 1 ∨ 3 < s.boot.attempts then
    let st := imageCheck s 2 golden false
    if st = stSUCCESS then loadImage s 2 golden else startFailed (rejectImage s 2 st) true 0
  else
    let p := s.boot.preferred
    let img := fun (k : Nat) => if k = 0 then a else b
    let st := imageCheck s p (img p) false
    if st = stSUCCESS then loadImage s p (img p)
    else
      let t := rejectImage s p st
      let st2 := imageCheck t (1 - p) (img (1 - p)) false
      if st2 = stSUCCESS then loadImage t (1 - p) (img (1 - p)) else startFailed (rejectImage t (1 - p) st2) false 0

/-- [R448] a warm start whose image fails proceeds as a cold start from the selection on: its earlier steps count as done. -/
def onAsCold (s : State) : State :=
  { s with boot := { s.boot with warm := false, steps := { s.boot.steps with
      pll := true, config := true, svcTest := true, powered := 0xF, phys := true, arrays := true, hbmTrained := true } } }

/-- [R448 R452 R453 R459] the image is selected, read and verified. -/
def execImageSelection (a b golden : Image) (s : State) : Res :=
  let img := fun (k : Nat) => if k = 0 then a else if k = 1 then b else golden
  if imageDue s then
    if s.boot.fwRestarting || s.boot.warm then
      let k := if s.boot.fwRestarting then s.boot.restartSlot else s.boot.slot
      let st := imageCheck s k (img k) (sigSkipped s k (img k))
      if st = stSUCCESS then .next (loadImage s k (img k))
      else
        let t := rejectImage s k st
        .next (if s.boot.fwRestarting then t else selectCold (onAsCold t) a b golden)
    else .next (selectCold s a b golden)
  else .next s

/-! ### Molzu and the rest of the start -/

/-- [R446 R449 R482] Molzu starts; a warm start's stacks leave self refresh; a loss of VKEEP is seen. -/
def execMolzuStart (vkeepLost : Bool) (s : State) : Res :=
  if s.boot.power == .run && !s.boot.warmRst && s.boot.steps.image && !s.boot.steps.molzu && !s.boot.fwDown then
    let t := stepDone s (fun b => { b with molzu := true })
    let t := if s.boot.warm && !s.boot.fwRestarting then
        foldS (List.range 4) (forecast t 0 1) (fun t q => updQuad t q (fun x => { x with selfRefresh := false })) else t
    if vkeepLost && !s.boot.fwRestarting then
      let lost := fun (f : Life) => { f with gap := true, recAt := f.recAt.map (fun _ => 0) }
      let t := { t with clk := { t.clk with vigil := 0, vigilNs := 0 }, life := lost t.life, lifePart := lost t.lifePart }
      .next (recordEv t .vigilLost svcDie 0)
    else .next t
  else .next s

/-- [R385 R446] the stacks are cleared. -/
def execHbmClearing (s : State) : Res :=
  if coldRunning s && s.boot.steps.hbmTrained then .next (stepDone s (fun b => { b with hbmCleared := true })) else .next s

/-- [R171 R185] the lanes' circuits are calibrated, and CALIB holds their values. -/
def execLaneCalibration (s : State) : Res :=
  if coldRunning s && s.boot.steps.arrays && !s.boot.steps.calibrated then
    let os := (List.range 64).filter (fun o => (s.quad (o / 16)).st != 2)
    let t := foldS os s (fun s o => updOctet s o (fun x => { x with calSrc := 1, pll := (s.quad (o / 16)).refOk }))
    let t := agentWrite t molzuMaster 2 (fun t =>
      foldS (os.flatMap (fun o => (List.range 8).map (8 * o + ·))) t (fun s l => updLane s l (fun x => { x with circuit := true })))
    .next (stepDone t (fun b => { b with calibrated := true }))
  else .next s

/-- [R446 R449] quadrant initialisation: Onyx's spaces are empty and the stored configuration is applied. The stripe of a retired stack
is wherever R389 puts it, which the quadrant states give. -/
def execQuadrantInitialisation (s : State) : Res :=
  if s.boot.power == .run && !s.boot.warmRst && s.boot.steps.molzu && !s.boot.steps.quadInit && !s.boot.fwRestarting &&
     (s.boot.warm || (s.boot.steps.hbmCleared && s.boot.steps.calibrated)) then
    .next (stepDone (applyConfig s) (fun b => { b with quadInit := true }))
  else .next s

/-- [R10 R433 R446 R447 R449 R453 R459] FW_READY is set: the attempt count is cleared, host ports become ready, the FEA is taken at a cold
start, ports stored as UP begin bring-up; a Molzu restart ends, and what it interrupted is resolved. -/
def execFwReadySet (s : State) : Res :=
  if s.boot.power == .run && !s.boot.warmRst && !s.boot.fwReady && !s.boot.fwDown && s.boot.steps.molzu && s.boot.steps.quadInit then
    let t := { s with boot := { s.boot with
      fwReady := true, fwRestarting := false, goldenRestart := false, versionShown := true, readySinceCold := true, attempts := 0,
      readyAt := s.clk.now } }
    let t := raiseAll t causeFwState
    if s.boot.fwRestarting then .next (resolveRunning (answerCut t))
    else
      let t := becomeCfgReady t
      let t := if s.boot.warm then t else takeFea t
      .next (foldS ((portsOf t).filter (fun p => (t.port p).up)) t portUp)
  else .next s

/-! ### WARM_RST_N and the warm start -/

/-- [R89 R444] WARM_RST_N is asserted: volatile events are flushed, a page program ends, ACTIVE stacks enter self refresh, and Molzu is held, so
that FW_READY changes. -/
def execWarmRstNAssert (s : State) : Res :=
  if s.boot.porst || s.boot.warmRst || (s.boot.power != .run && s.boot.power != .safe) then .next s
  else
    let t := if s.boot.fwReady then raiseAll (flushAll s) causeFwState else flushAll s
    let t := foldS ((List.range 4).filter (quadActive s)) t (fun t q => updQuad t q (fun x => { x with selfRefresh := true }))
    .next { t with boot := { t.boot with warmRst := true, fwReady := false, flashOp := if t.boot.flashOp = some 1 then none else t.boot.flashOp } }

/-- [R444 R448 R449] WARM_RST_N is deasserted: a warm start, or a cold start where R444 asks for one. -/
def execWarmStart (s : State) : Res :=
  if s.boot.warmRst && (s.boot.power == .run || s.boot.power == .safe) && !s.pins.coreLost then
    .next (beginWarm { s with boot := { s.boot with warmRst := false } })
  else .next { s with boot := { s.boot with warmRst := false } }

/-! ### Timers of the firmware -/

/-- [R453 R459 R464] BOOT_TMO: a start fails; a restart runs again from the golden image, and after that Molzu stays down. The timer does
not run while the flash is waited for. -/
def execBootTmoExpire (s : State) : Res :=
  if s.boot.power != .run || s.boot.fwReady || s.boot.fwDown || s.boot.warmRst then .next s
  else if s.boot.fwRestarting then
    if !s.boot.steps.image && !flashOwned s then .next s
    else if s.boot.goldenRestart then
      .next (recordEv { s with boot := { s.boot with fwDown := true, fwRestarting := false } } .fwDown svcDie (restartsIn s).length)
    else
      .next { s with boot := { s.boot with goldenRestart := true, restartSlot := 2, steps := { s.boot.steps with image := false, molzu := false } } }
  else if s.boot.steps.molzu then .next (startFailed s (s.boot.slot == 2) 1)
  else .next s

/-- [R101 R459] BERYL_WDT expires: a Molzu restart from the running slot. -/
def execWatchdogExpire (s : State) : Res := .next (if molzuRuns s then molzuRestart (cutHead s) 0 s.boot.slot else s)

/-- [R454] FW_READY has held for 60 s: the anti-rollback counter follows the running image, the golden one apart. -/
def execAntiRollbackRaise (s : State) : Res :=
  .next (if s.boot.fwReady && decide (s.boot.readyAt + 60 * oneSec ≤ s.clk.now) && decide (s.boot.slot < 2) && partOk s 3 then
    { s with boot := { s.boot with antiRollback := max s.boot.antiRollback s.boot.svn } } else s)

/-! ### Host ports and functions -/

/-- The endpoints of a host port. -/
def epsOfHost (s : State) (h : Nat) : List Nat := [2 * h, 2 * h + 1].filter (epExists s)

/-- [R62 R443] PERST_N: both halves lose their link, and every function is reset as by FLR. -/
def execPerstNAssert (h : Nat) (s : State) : Res :=
  let t := { s with pins := { s.pins with perst := s.pins.perst ||| BitVec.ofNat 8 (2 ^ h) } }
  guardRes (decide (h < 8)) (foldS (epsOfHost s h) t (fun s e => foldS (fnsOfEp s e) (hostDown s e) resetFn))

/-- [R447] PERST_N is released: the port may train its link. -/
def execPerstNDeassert (h : Nat) (s : State) : Res :=
  guardRes (decide (h < 8)) { s with pins := { s.pins with perst := s.pins.perst &&& ~~~ BitVec.ofNat 8 (2 ^ h) } }

/-- [R99 R443 R460] a host link goes down, or takes a hot reset: the functions behind it are QUIESCED and their mailboxes reset; the rest of
the reset is seen when the link returns. -/
def execHostLinkDown (ep : Nat) (s : State) : Res :=
  guardRes (epExists s ep) (if (s.hostEp ep).linkUp then foldS (fnsOfEp s ep) (hostDown s ep) resetMailbox else s)

/-- [R447 R460] a host link reaches DL_Active: the PHY is enabled and PERST_N released; each function has been reset as by FLR. -/
def execHostLinkUp (ep speed width : Nat) (s : State) : Res :=
  let t := foldS (fnsOfEp s ep) s resetFn
  let t := updHost t ep (fun h => { h with linkUp := true, speed := speed, width := width, seenLink := true })
  guardRes (epExists s ep)
    (if (s.boot.steps.phys || s.boot.warm) && quadActive s (quadOfEp ep) && !(s.quad (quadOfEp ep)).inReset &&
        !s.pins.perst.getLsbD (ep / 2) && !(s.hostEp ep).linkUp then readiness t ep
     else s)

/-- [R64 R91 R294 R320] a configuration write takes effect; with ATS off no translation stays cached. -/
def configWrite (s : State) (fn : Nat) : CfgWrite → State
  | .atomicEn on => updFn s fn (fun x => { x with atomicEn := on })
  | .ats on => updFn s fn (fun x => { x with ats := on, atsCache := if on then x.atsCache else [] })
  | .msixMask true => updFn s fn (fun x => { x with msixFnMask := true })
  | .msixMask false => unmaskFn s fn
  | .cplTimeout us off => updFn s fn (fun x => { x with ctoUs := if off then 50000 else us })

/-- [R447 R455] a configuration request: Request Retry Status until the port is ready; in SAFE mode only PF0 is there to answer. A write that
is answered otherwise takes effect. -/
def execConfigRequest (r : CfgRequest) (s : State) : Res :=
  let fn := r.fn
  let ready := (s.hostEp (epOfFn s fn)).cfgReady
  guardRes (fnExists s fn)
    (if (s.hostEp (epOfFn s fn)).linkUp && (!s.boot.safe || isPf0 s fn) then
       match r.write with
       | some w => emit (if ready then configWrite s fn w else s) (.cfgRsp fn (!ready))
       | none => emit s (.cfgRsp fn (!ready))
     else s)

/-- [R460 R463] bus-master enable is cleared. -/
def execBusMasterEnableClear (fn : Nat) (s : State) : Res :=
  guardRes (fnExists s fn) (if (s.fn fn).bme then count (quiesceFn s fn) .host (epOfFn s fn) .bmeQuiesce else s)

/-- [R398 R460] bus-master enable is set: it resumes nothing that is QUIESCED; pending interrupts go out, and page-ins that waited for
the PF0's store go on. -/
def execBusMasterEnableSet (fn : Nat) (s : State) : Res :=
  let t := releasePending (updFn s fn (fun x => { x with bme := true, quiesced := false })) fn
  guardRes (fnExists s fn) (if (s.fn fn).bme then s else if isPf0 s fn then foldS (List.range 4) t servePageIn else t)

/-- [R461] FLR is asked for. -/
def execFlr (fn : Nat) (s : State) : Res :=
  guardRes (fnExists s fn) (updFn (resetFn s fn) fn (fun x => { x with flrBusy := true }))

/-- [R461 R463] FLR completes. -/
def execFlrComplete (fn : Nat) (s : State) : Res :=
  guardRes (fnExists s fn)
    (if (s.fn fn).flrBusy then count (updFn s fn (fun x => { x with flrBusy := false })) .host (epOfFn s fn) .flr else s)

/-- [R460 R461] a completion of a read issued before a reset is discarded; one that comes after FLR has completed is counted. -/
def execLateCompletion (fn : Nat) (s : State) : Res :=
  guardRes (fnExists s fn)
    (let t := readBack s fn
     if (s.fn fn).flrBusy then t else count t .host (epOfFn s fn) .lateCplDrop)

/-! ### The flash -/

/-- [R458] the BMC asks for the flash. -/
def execFlashReqAssert (s : State) : Res := .next { s with boot := { s.boot with flashReq := true } }

/-- [R458] the device's operation has ended, or its erase is suspended: the BMC has the flash. Not before a start has read its image. -/
def execFlashGntAssert (s : State) : Res :=
  if s.boot.flashReq && !s.boot.flashGnt && !s.boot.porst && (s.boot.steps.image || s.boot.safe) then
    .next (emit { s with boot := { s.boot with flashGnt := true, flashSuspended := s.boot.flashOp == some 0, flashOp := none } } (.pin "FLASH_GNT" 1))
  else .next s

/-- [R458] FLASH_REQ drops: the device takes the flash back, resumes a suspended erase and does the work that waited. -/
def execFlashReqDeassert (s : State) : Res :=
  let t := { s with boot := { s.boot with flashReq := false } }
  if s.boot.porst then .next t
  else
    let t := if s.boot.flashGnt then emit { t with boot := { t.boot with flashGnt := false } } (.pin "FLASH_GNT" 0) else t
    let t := { t with boot := { t.boot with flashSuspended := false, flashOp := if t.boot.flashSuspended then some 0 else t.boot.flashOp, flashWork := [] } }
    .next (s.boot.flashWork.foldl (fun s w => flashOp s w.1 w.2.1 w.2.2) t)

/-! ### SPDM -/

/-- [R457] the requests the responder supports, by their SPDM 1.3 codes (PRESUMED, log 34), and their answers. -/
def spdmCodes : List (Nat × Nat) :=
  [(0x84, 0x04), (0xE1, 0x61), (0xE3, 0x63), (0x81, 0x01), (0x82, 0x02), (0x83, 0x03), (0xE0, 0x60)]

/-- [R457] an SPDM request on a PF0's DOE mailbox: answered, refused, or put off with the Busy error while Molzu is down. -/
def execSpdmRequest (ep code : Nat) (s : State) : Res :=
  guardRes (epExists s ep)
    (if s.boot.fwReady then emit s (.spdm ep (((spdmCodes.find? (fun c => c.1 == code)).map (·.2)).getD 0x7F) false) else emit s (.spdm ep 0x7F true))

end Sys2Proof.Machine
end

