-- ==== Sys2Proof/Machine/Chain.lean ====
section
/-! DEFINITION. Meanings of the management chain's frames, locks and timers (R414 to R424, R428). -/

namespace Sys2Proof.Machine

/-! ### Frames -/

/-- [R415 R424] the chain logic runs: the service die has power and reset is over; it needs neither firmware nor quadrants. -/
def chainAlive (s : State) : Bool := s.boot.power == .run || s.boot.power == .safe || s.boot.power == .tripped

/-- [R494] the whole chain agent runs; after a trip only chain STATUS does. -/
def chainRuns (s : State) : Bool := s.boot.power == .run || s.boot.power == .safe

/-- [R486 R494] frames of the TYPE are served: after a trip only STATUS_REQ and STATUS_RSP. -/
def chainServes (s : State) (type : Nat) : Bool := chainRuns s || (s.boot.power == .tripped && (type == 0x10 || type == 0x11))

/-- [R417] the TYPE travels down, travels up. -/
def isDownType (t : Nat) : Bool := [0x01, 0x04, 0x10, 0x12, 0x20, 0x21, 0x30].contains t
def isUpType (t : Nat) : Bool := [0x02, 0x03, 0x05, 0x06, 0x11, 0x22, 0x31, 0x40].contains t

/-- [R417] the payload lengths of a TYPE. -/
def chainLenOk (t n : Nat) : Bool :=
  match t with
  | 0x01 => n == 6
  | 0x02 | 0x06 | 0x10 => n == 0
  | 0x03 | 0x04 => n == 2
  | 0x05 => n == 12
  | 0x11 => n == 16
  | 0x12 => n == 1
  | 0x20 => n == 4
  | 0x21 => n == 8
  | 0x22 => n == 6
  | 0x30 => decide (32 ≤ n) && decide (n ≤ 4120)
  | 0x31 => decide (8 ≤ n) && decide (n ≤ 4096)
  | 0x40 => n % 32 == 0 && decide (32 ≤ n) && decide (n ≤ 1024)
  | _ => false

/-- [R416 R417] the DEST a TYPE may carry: 0 for ENUM and up frames, a chain address otherwise, 255 for HEARTBEAT and RESET alone. -/
def chainDestOk (f : ChainFrame) : Bool :=
  if f.type = 0x01 ∨ isUpType f.type then f.dest == 0
  else if f.type = 0x04 then f.dest == 255
  else (decide (1 ≤ f.dest) && decide (f.dest ≤ 254)) || (f.type == 0x12 && f.dest == 255)

/-- [R417] the frame may stand where it arrived. -/
def chainFrameOk (p : ChainPort) (f : ChainFrame) : Bool :=
  (if p = .upstream then isDownType f.type else isUpType f.type) && chainDestOk f && chainLenOk f.type f.payload.length &&
    (f.type != 0x12 || decide (byteAt f.payload 0 ≤ 2))

/-- [R417] a bad frame is discarded and counted. -/
def badFrame (s : State) : State := count s .device 0 .chainBadFrame

/-- [R418] repeat a frame out of the other port. -/
def repeatFrame (s : State) (p : ChainPort) (f : ChainFrame) : State :=
  let o := if p = .upstream then ChainPort.downstream else .upstream
  if chainLocked s o then count (emit s (.chain o f)) .device 0 .chainFwd else s

/-- [R417 R418] a frame of one TYPE arrives: discarded where the port has no lock, counted where it is bad. -/
def chainRx (s : State) (p : ChainPort) (f : ChainFrame) (type : Nat) (act : State) : State :=
  if !chainServes s type || !chainLocked s p || f.type ≠ type then s
  else if chainFrameOk p f then act
  else badFrame s

/-- [R418] a down frame for this device alone, or one that goes on. -/
def chainOwn (s : State) (p : ChainPort) (f : ChainFrame) (act : State) : State :=
  if f.dest = s.chain.addr then act else repeatFrame s p f

/-- [R416 R418] an up frame that the device originates, with an FTAG of its own. -/
def originate (s : State) (type : Nat) (payload : List Byte) : State :=
  chainUp { s with chain := { s.chain with ftag := (s.chain.ftag + 1) % 256 } } type s.chain.ftag payload

/-! ### Locks -/

def setLock (s : State) (p : ChainPort) (b : Bool) : State :=
  match p with
  | .upstream => { s with chain := { s.chain with upLock := b } }
  | .downstream => { s with chain := { s.chain with downLock := b } }

/-- [R415 R420] a port gains lock; a chain manager enumerates when its downstream port does. -/
def execChainPortLock (port : ChainPort) (s : State) : Res :=
  .next (if !chainAlive s || chainLocked s port then s
    else if port = .downstream ∧ chainRuns s then beginEnum (setLock s port true)
    else setLock s port true)

/-- [R422] a port loses lock; a lost downstream port is a break of the chain. -/
def execChainPortLockLost (port : ChainPort) (s : State) : Res :=
  let t := setLock s port false
  .next (if !chainAlive s || !chainLocked s port then s
    else if port = .upstream ∨ !chainRuns s then t
    else originate (if isChainMgr s then recordEv t .chainBreak svcDie s.chain.addr else t) 0x06 [])

/-! ### Enumeration -/

/-- [R433] an address from enumeration gives a device with FEA_STRAP_EN, already started, the FEA it waits for. -/
def feaFromChain (s : State) : State := if s.boot.fwReady && s.boot.straps.feaStrapEn && s.routes.fea.isNone then strapFea s else s

/-- [R419 R420 R421 R422] ENUM: answered at once; the address is taken, and the next one passed on. -/
def onEnum (s : State) (f : ChainFrame) : State :=
  let n := byteAt f.payload 0
  let flags := byteAt f.payload 1
  let base := BitVec.ofNat 20 (leAt f.payload 2 4)
  let ack := fun (t : State) => chainSend t .upstream { dest := 0, src := t.chain.addr, type := 0x02, ftag := f.ftag, payload := [] }
  if isHead s then recordEv s .chainTwoHeads svcDie
  else if n = 255 then
    let t := count { s with chain := { s.chain with addr := 0, orphan := false, overflow := true, enumTmr := false } } .device 0 .chainEnum
    originate (ack t) 0x03 [254, 1]
  else
    let t := { s with chain := { s.chain with addr := n, orphan := false, overflow := false, groupBase := base } }
    let t := if s.chain.addr = n ∨ s.chain.addr = 0 then t else recordEv t .chainAddrChanged svcDie n s.chain.addr
    feaFromChain (sendEnum (ack t) n (n + 1) flags base)

def execEnum (port : ChainPort) (f : ChainFrame) (s : State) : Res := .next (chainRx s port f 0x01 (onEnum s f))

/-- [R419] ENUM_ACK: the device is not the last. -/
def execEnumAck (port : ChainPort) (f : ChainFrame) (s : State) : Res :=
  .next (chainRx s port f 0x02 { s with chain := { s.chain with enumTmr := false } })

/-- [R419 R421] the chain manager has the length of its chain, and sends HEARTBEAT from now on. -/
def enumerated (s : State) (len : Nat) (past : Bool) : State :=
  recordEv { s with chain := { s.chain with len := len, beating := true, overflow := past, ignoreJoin := past, enumTmr := false } }
    .chainEnum svcDie len (b2n past)

/-- [R419] ENUM_DONE: recorded by the chain manager, repeated by every device. -/
def execEnumDone (port : ChainPort) (f : ChainFrame) (s : State) : Res :=
  .next (chainRx s port f 0x03
    (repeatFrame (if isChainMgr s then enumerated s (byteAt f.payload 0) (byteAt f.payload 1 % 2 == 1) else s) port f))

/-- [R419] ENUM_TMO: the device is the last; a chain manager is a chain of one. -/
def execEnumTmoExpire (s : State) : Res :=
  let t := { s with chain := { s.chain with enumTmr := false } }
  .next (if !s.chain.enumTmr || !chainRuns s then s
    else if isChainMgr s then enumerated s 1 false
    else originate t 0x03 (leBytes 1 s.chain.addr ++ [0]))

/-! ### HEARTBEAT, JOIN_REQ and breaks -/

/-- [R421 R422] HEARTBEAT: acted on and repeated. -/
def execHeartbeat (port : ChainPort) (f : ChainFrame) (s : State) : Res :=
  let past := s.chain.overflow || (s.chain.addr == 0 && byteAt f.payload 1 % 2 == 1)
  .next (chainRx s port f 0x04
    (repeatFrame (if isHead s then s else { s with chain := { s.chain with orphan := false, overflow := past } }) port f))

/-- [R417 R419] the chain manager broadcasts HEARTBEAT. -/
def execHeartbeatSend (s : State) : Res :=
  let f : ChainFrame := { dest := 255, src := s.chain.addr, type := 0x04, ftag := s.chain.ftag, payload := leBytes 1 s.chain.len ++ leBytes 1 (b2n s.chain.overflow) }
  .next (if chainRuns s && isChainMgr s && s.chain.beating then
    chainSend { s with chain := { s.chain with ftag := (s.chain.ftag + 1) % 256 } } .downstream f else s)

/-- [R420 R421] JOIN_REQ: the chain manager enumerates, unless the chain is full; it is repeated upwards. -/
def execJoinReq (port : ChainPort) (f : ChainFrame) (s : State) : Res :=
  .next (chainRx s port f 0x05
    (let t := repeatFrame s port f
     if isChainMgr s && !s.chain.ignoreJoin then beginEnum t else t))

/-- [R420] a device at address 0 asks to be enumerated. -/
def execJoinReqSend (s : State) : Res :=
  .next (if chainRuns s && !isHead s && s.chain.addr == 0 && s.chain.upLock then originate s 0x05 s.ident.serial else s)

/-- [R422] CHAIN_BREAK: the chain manager records the address above the break. -/
def execChainBreak (port : ChainPort) (f : ChainFrame) (s : State) : Res :=
  .next (chainRx s port f 0x06 (repeatFrame (if isChainMgr s then recordEv s .chainBreak svcDie f.src else s) port f))

/-- [R422] neither HEARTBEAT nor ENUM for ORPHAN_TMO. -/
def execOrphanTmoExpire (s : State) : Res :=
  .next (if chainRuns s && !isHead s && !s.chain.orphan then
    recordEv { s with chain := { s.chain with orphan := true } } .chainOrphan svcDie s.chain.addr else s)

/-! ### The controller's frames -/

/-- [R424] the payload of STATUS_RSP. -/
def statusPayload (s : State) : List Byte :=
  leBytes 4 (statusDev s 0x021) ++ leBytes 1 (fld (identReg s 0x021 0x020) 8 4 + put (b2n s.chain.overflow) 4 1) ++
    leBytes 1 (identReg s 0x021 0x024) ++ leBytes 2 (BitVec.ofInt 16 (hottest s)).toNat ++
    leBytes 4 (newestSeq s).toNat ++ leBytes 4 0

/-- [R118 R424] a request without the right: the effects of a denial on the chain instance. -/
def chainDenied (s : State) : State := accErr (denied s 0x021 tgtDEVICE) 0x021

/-- [R424] STATUS_REQ. -/
def execStatusReq (port : ChainPort) (f : ChainFrame) (s : State) : Res :=
  .next (chainRx s port f 0x10 (chainOwn s port f
    (if allowed s 0x021 tgtDEVICE false then chainUp s 0x11 f.ftag (statusPayload s) else chainDenied s)))

/-- [R418] an answer from below goes on upwards. -/
def execStatusRsp (port : ChainPort) (f : ChainFrame) (s : State) : Res := .next (chainRx s port f 0x11 (repeatFrame s port f))

/-- [R424] RESET: answered unless broadcast, and due 10 us later. -/
def execReset (port : ChainPort) (f : ChainFrame) (s : State) : Res :=
  let act := fun (t : State) =>
    if allowed t 0x021 tgtDEVICE true then { t with chain := { t.chain with resetKind := some (byteAt f.payload 0) } } else chainDenied t
  .next (chainRx s port f 0x12
    (if f.dest = 255 then repeatFrame (act s) port f
     else chainOwn s port f (if allowed s 0x021 tgtDEVICE true then chainUp (act s) 0x11 f.ftag (statusPayload s) else act s)))

/-- [R424 R443] a chain RESET acts: as PORST_N, as WARM_RST_N, or as a watchdog restart. -/
def execChainResetAction (s : State) : Res :=
  let t := { s with chain := { s.chain with resetKind := none } }
  .next (match s.chain.resetKind with
    | none => s
    | some 0 => if (s.boot.power == .run || s.boot.power == .safe) && !s.pins.coreLost && !s.boot.warmRst then beginWarm (flushAll t) else t
    | some 1 => if chainRuns s then beginCold t else t
    | some _ => if molzuRuns t then molzuRestart (cutHead t) 2 t.boot.slot else t)

/-- [R424] the STATUS of a register access over the chain (log 35). -/
def chainRegStatus (e : AccEnd) : Nat := match e with | .denied => stACCESS_DENIED | .malformed => stINVALID_FIELD | _ => stSUCCESS

/-- [R417 R424] answer a register access. -/
def regRsp (s : State) (ftag val : Nat) (e : AccEnd) : State :=
  chainUp s 0x22 ftag (leBytes 4 (if e = .denied ∨ e = .malformed then ones32 else val) ++ leBytes 2 (chainRegStatus e))

/-- [R512 R513] an offset beyond the 24 bits of the register space is malformed on a board interface. -/
def boardRead (s : State) (m off : Nat) : RegAns := if 2 ^ 24 ≤ off then (ones32, .malformed, accErr s m) else regRead s m off 4
def boardWrite (s : State) (m off v : Nat) : AccEnd × State := if 2 ^ 24 ≤ off then (.malformed, accErr s m) else regWrite s m off (leBytes 4 v)

/-- [R424] REG_READ. -/
def execRegRead (port : ChainPort) (f : ChainFrame) (s : State) : Res :=
  let a := boardRead s 0x021 (leAt f.payload 0 4)
  .next (chainRx s port f 0x20 (chainOwn s port f (regRsp a.2.2 f.ftag a.1 a.2.1)))

/-- [R424] REG_WRITE; VALUE of its answer is a free value where the write was made (log 7). -/
def execRegWrite (port : ChainPort) (f : ChainFrame) (s : State) : Res :=
  let a := boardWrite s 0x021 (leAt f.payload 0 4) (leAt f.payload 4 4)
  .next (chainRx s port f 0x21 (chainOwn s port f
    (regRsp { a.2 with free := a.2.free + 1 } f.ftag (Config.regRspValue a.2.free).toNat a.1)))

def execRegRsp (port : ChainPort) (f : ChainFrame) (s : State) : Res := .next (chainRx s port f 0x22 (repeatFrame s port f))

/-! ### MB_CMD -/

/-- [R428] answer an MB_CMD. -/
def mbRspOut (s : State) (ftag tag status : Nat) : State := chainUp s 0x31 ftag (rspBytes tag status [])

/-- [R428] the path of an MB_CMD: eight port fields as in R426. -/
def mbPath (l : List Byte) : List Nat := (List.range 8).map (fun i => beNat ((l.drop (4 + 2 * i)).take 2) % 512)

/-- [R428] relay a command to a router of the group. -/
def relayCmd (s : State) (f : ChainFrame) : State :=
  let l := f.payload
  let relay := leAt l 0 4
  let tag := leAt l 26 2
  let n := byteAt l 20
  if !s.grp.manager then mbRspOut s f.ftag tag stWRONG_STATE
  else
    let what := SentFor.relay f.ftag tag
    if fld relay 30 1 = 1 then
      if 8 < n ∨ n = 0 then mbRspOut s f.ftag tag stINVALID_FIELD
      else sendCmd (count s .device 0 .mgmtRelay) (directHdr 0 ((mbPath l).take n)) none what (l.drop 24)
    else sendCmd (count s .device 0 .mgmtRelay) { mtag := 0 } (some (BitVec.ofNat 24 relay)) what (l.drop 24)

/-- [R428] submit to the chain mailbox, or answer BUSY. -/
def chainMailbox (s : State) (f : ChainFrame) : State :=
  let body := f.payload.drop 24
  if (s.inst 0x021).mbState = 1 then mbRspOut s f.ftag (leAt body 2 2) stBUSY
  else
    let t := updInst s 0x021 (fun i => { i with cmdArea := (List.range body.length).foldl (fun a k => a.set k (body.getD k 0)) i.cmdArea })
    ringDoorbell { t with chain := { t.chain with mbFtag := some f.ftag } } 0x021

/-- [R428] MB_CMD. -/
def execMbCmd (port : ChainPort) (f : ChainFrame) (s : State) : Res :=
  .next (chainRx s port f 0x30 (chainOwn s port f (if fld (leAt f.payload 0 4) 31 1 = 1 then relayCmd s f else chainMailbox s f)))

def execMbRsp (port : ChainPort) (f : ChainFrame) (s : State) : Res := .next (chainRx s port f 0x31 (repeatFrame s port f))

def execEvent (port : ChainPort) (f : ChainFrame) (s : State) : Res := .next (chainRx s port f 0x40 (repeatFrame s port f))

/-! ### Frames that fail -/

/-- [R417 R418] a frame with a bad DEST, TYPE or LENGTH. -/
def execChainBadFrame (port : ChainPort) (f : ChainFrame) (s : State) : Res :=
  .next (if chainServes s f.type && chainLocked s port && !chainFrameOk port f then badFrame s else s)

/-- [R418] the frame is one this device is to act on. -/
def chainForMe (s : State) (f : ChainFrame) : Bool :=
  f.type == 0x01 || f.type == 0x02 || f.dest == 255 || (f.dest != 0 && f.dest == s.chain.addr) || (f.dest == 0 && isChainMgr s)

/-- [R418] a frame whose CRC fails: discarded and counted where it is for this device; what is being repeated goes on. -/
def execChainCrcFail (port : ChainPort) (f : ChainFrame) (s : State) : Res :=
  .next (if !chainServes s f.type || !chainLocked s port then s
    else
      let t := if chainForMe s f then count s .device 0 .chainCrcErr else s
      if f.type = 0x01 ∨ f.type = 0x02 ∨ (f.dest ≠ 0 ∧ f.dest = s.chain.addr) then t else repeatFrame t port f)

end Sys2Proof.Machine
end

