-- ==== Sys2Proof/Machine/MbDevice.lean ====
section
/-! DEFINITION. Meanings of the event-log, telemetry, life, firmware, access-table, role, FEA, chain-status and lane-test commands, and the
timers of the firmware update and the clear nonce (R113 to R116, R122, R130, R178 to R181, R425, R434, R456, R480, R481). -/

namespace Sys2Proof.Machine

/-! ### Clearing the event log -/

/-- [R130] MB_EVENT_CLEAR_NONCE: a fresh nonce becomes the current one. -/
def execMbEventClearNonce (s : State) : Res :=
  .next (mbRun s 0x0600 (lenIs 0 []) [(tgtEVENT, true)] (fun s _ =>
    let n := Config.nonce s.free
    ansData { drawn s with cmds := { s.cmds with nonce := some n } } (leBytes 16 n.toNat)))

/-- [R130] a record that a clear removes: not newer than UP_TO_SEQ, and no EV_LOG_CLEARED. -/
def clearedBy (upTo : BitVec 32) (r : EvRec) : Bool := (r.seq == upTo || seqOlder r.seq upTo) && !isClear r

/-- [R130] the owner key the token names, bytes 0 to 7. -/
def tokenKey (l : List Byte) : BitVec 64 := BitVec.ofNat 64 (leAt l 0 8)

/-- [R130 R131] MB_EVENT_CLEAR: `sigOk` is the security engine's verdict on bytes 40 to 135 as the named key's signature over SHA-384 of bytes
0 to 39. -/
def doEventClear (sigOk : Bool) (s : State) (c : MbCmd) : MbAns :=
  let l := c.payload
  let upTo := BitVec.ofNat 32 (leAt l 36 4)
  if !s.boot.ownerKeys.contains (tokenKey l) || !sigOk || (l.drop 8).take 12 != s.ident.serial then ansFail s stTOKEN_INVALID
  else if s.cmds.nonce != some (BitVec.ofNat 128 (leAt l 20 16)) then ansFail s stTOKEN_STALE
  else
    let t := recordEv s .logCleared svcDie (leAt l 0 4) (leAt l 4 4) upTo.toNat
    ansOk { t with
      cmds := { t.cmds with nonce := none }
      recd := { t.recd with buf := t.recd.buf.filter (fun r => !clearedBy upTo r), ring := t.recd.ring.filter (fun r => !clearedBy upTo r) } }

def execMbEventClear (sigOk : Bool) (s : State) : Res :=
  .next (mbRun s 0x0601 (lenIs 136 []) [(tgtEVENT, true)] (doEventClear sigOk))

/-- [R130] a nonce ceases to be current 600 s after its issue. -/
def execNonceExpire (s : State) : Res := .next { s with cmds := { s.cmds with nonce := none } }

/-! ### Telemetry and the life record -/

/-- [R480] readings of a group. -/
def groupCount (g : Nat) : Nat := match g with | 0 => 5 | 1 => 32 | 2 => 64 | 3 => 4 | 4 => 10 | _ => 5

/-- [R480] the quadrant whose sensor a reading is, if it is one's. -/
def sensorQuad (g i : Nat) : Option Nat :=
  match g with
  | 0 => if i < 4 then some i else none
  | 1 => some (i / 8)
  | 2 => some (i / 16)
  | 3 => some i
  | 4 => none
  | _ => if i < 4 then some i else none

/-- [R480] reading `i` of a group; a quadrant that is not ACTIVE reads 0x8000. -/
def reading (s : State) (g i : Nat) : Int :=
  match sensorQuad g i with
  | some q => if quadActive s q then (s.tele.get g).getD i 0 else -32768
  | none => (s.tele.get g).getD i 0

/-- Signed 16-bit encoding. -/
def s16Bytes (i : Int) : List Byte := leBytes 2 (BitVec.ofInt 16 i).toNat

/-- [R480] MB_TELEMETRY_GET. -/
def execMbTelemetryGet (s : State) : Res :=
  .next (mbRun s 0x0602 (fun l => lenIs 4 [(1, 3)] l && decide (byteAt l 0 < 6)) [(tgtDEVICE, false)] (fun s c =>
    let g := byteAt c.payload 0
    ansData s (leBytes 1 g ++ leBytes 1 (groupCount g) ++ [0, 0] ++ leBytes 8 (s.teleFt.get g).toNat ++
      (List.range (groupCount g)).flatMap (fun i => s16Bytes (reading s g i)))))

/-- [R481] the powered-time average over months; 0 with none. -/
def monthsAvg (l : List Month) : Int :=
  let secs := (l.map (·.secs)).sum
  if secs = 0 then 0 else (l.map (·.sum)).sum / (secs : Int)

/-- [R481] MB_LIFE_GET. -/
def execMbLifeGet (s : State) : Res :=
  .next (mbRun s 0x0603 (lenIs 0 []) [(tgtDEVICE, false)] (fun s _ =>
    let f := s.life
    ansData s (leBytes 4 (f.secs / 3600) ++ s16Bytes (monthsAvg (f.months.take 12)) ++ s16Bytes f.maxAvg ++ s16Bytes f.maxMean ++
      leBytes 1 (b2n f.void + 2 * b2n f.gap) ++ leBytes 1 f.nMonths ++ f.pred ++ leBytes 4 (f.hotSecs / 3600) ++ leBytes 4 s.clk.vigil.toNat)))

/-! ### Firmware update -/

/-- A status that no command has: `k` would be reached (the model's own marker). -/
def stREACHED : Nat := 0x10000

/-- [R458] a command of opcode `op` at the head of the queue passes the shared checks, and its own work needs the flash that the BMC
holds: it waits. -/
def waitsFlash (s : State) (op : Nat) (fields : List Byte → Bool) (rights : List (Nat × Bool)) : Bool :=
  (s.boot.flashGnt || s.boot.flashReq) &&
    (match s.cmds.queue with
     | [] => false
     | c :: _ => c.op == op && (mbChecked s c (fields c.payload) rights (fun t => (stREACHED, [], t))).1 == stREACHED)

/-- [R451] an image length in range. -/
def imageLenOk (n : Nat) : Bool := decide (4096 ≤ n) && decide (n ≤ 2097152) && n % 16 == 0

/-- [R456] MB_FW_UPDATE_BEGIN: the slot's first 4 KiB are erased, and the update belongs to the issuing master. -/
def doFwUpdateBegin (s : State) (c : MbCmd) : MbAns :=
  let slot := byteAt c.payload 0
  if s.boot.slot = slot then ansFail s stWRONG_STATE
  else if s.boot.update.any (fun u => u.owner != c.m) then ansFail s stSTAGING_BUSY
  else
    let t := flashOp (setErased s slot true) 0 (slotBase slot) 4096
    ansOk { t with boot := { t.boot with update := some { owner := c.m, slot := slot, len := leAt c.payload 4 4, next := 0, lastUse := s.clk.now } } }

def execMbFwUpdateBegin (s : State) : Res :=
  .next (mbRun s 0x0700 (fun l => lenIs 8 [(1, 3)] l && decide (byteAt l 0 < 2) && imageLenOk (leAt l 4 4)) [(tgtFLASH, true)] doFwUpdateBegin)

/-- [R456] the 64 KiB sectors whose first byte lies in a write. -/
def sectorsIn (off n : Nat) : List Nat := (List.range (n / 65536 + 2)).filterMap (fun i =>
  let a := (off / 65536 + i) * 65536
  if off ≤ a ∧ a < off + n then some a else none)

/-- [R456] MB_FW_UPDATE_WRITE: in-order bytes go to the program queue; `queueFull` says that 50 ms found no room in it. -/
def doFwUpdateWrite (queueFull : Bool) (s : State) (c : MbCmd) : MbAns :=
  let off := leAt c.payload 0 4
  let n := c.payload.length - 8
  match s.boot.update with
  | none => ansFail s stSEQUENCE_ERROR
  | some u =>
    if u.owner ≠ c.m ∨ off ≠ u.next then ansFail s stSEQUENCE_ERROR
    else if u.len < off + n then ansFail s stINVALID_FIELD
    else if queueFull then ansFail s stBUSY
    else
      let t := foldS (sectorsIn off n) s (fun s a => flashOp s 0 (slotBase u.slot + a) 65536)
      let t := flashOp t 1 (slotBase u.slot + off) n
      ansOk { t with boot := { t.boot with update := some { u with next := off + n, lastUse := s.clk.now } } }

def execMbFwUpdateWrite (queueFull : Bool) (s : State) : Res :=
  .next (mbRun s 0x0701 (fun l => decide (9 ≤ l.length) && decide (l.length ≤ 4088) && zeroAt l 4 4) [(tgtFLASH, true)] (doFwUpdateWrite queueFull))

/-- [R123 R456] MB_FW_UPDATE_END: the queue drains, the slot is read back, and the outcome of R452 ends the command. -/
def doFwUpdateEnd (img : Image) (s : State) (c : MbCmd) : MbAns :=
  match s.boot.update with
  | none => ansFail s stSEQUENCE_ERROR
  | some u =>
    if u.owner ≠ c.m then ansFail s stSEQUENCE_ERROR
    else
      let t := setErased s u.slot (u.next == 0)
      let t := flashOp { t with boot := { t.boot with update := none } } 2 (slotBase u.slot) u.len
      accept t c (.fwEnd u.slot) false (imageCheck t u.slot img false) true

def execMbFwUpdateEnd (img : Image) (s : State) : Res :=
  .next (if waitsFlash s 0x0702 (lenIs 0 []) [(tgtFLASH, true)] then s else mbRun s 0x0702 (lenIs 0 []) [(tgtFLASH, true)] (doFwUpdateEnd img))

/-- [R456] the fields and rights of MB_FW_ACTIVATE. -/
def activateFields (l : List Byte) : Bool := lenIs 4 [(2, 2)] l && decide (byteAt l 0 < 2) && decide (byteAt l 1 < 2)

/-- [R453 R456] MB_FW_ACTIVATE: the slot is reread and checked; a good one becomes preferred and the attempt count is cleared. -/
def doFwActivate (img : Image) (s : State) (c : MbCmd) : MbAns :=
  let slot := byteAt c.payload 0
  let t := flashOp s 2 (slotBase slot) img.imageLen
  let st := imageCheck s slot img false
  if st ≠ stSUCCESS then ansFail t st
  else if !partOk s 3 then ansFail t stNO_RESOURCES
  else ansOk { t with boot := { t.boot with preferred := slot, attempts := 0 } }

/-- [R455 R456] what RESTART 1 does once the command has completed with SUCCESS. -/
def activateRestart (s : State) (slot : Nat) : State := if s.boot.safe then beginCold s else molzuRestart s 1 slot

/-- The command completes, and its restart follows. -/
def execMbFwActivate (img : Image) (s : State) : Res :=
  if waitsFlash s 0x0703 activateFields [(tgtDEVICE, true)] then .next s
  else
    let t := mbRun s 0x0703 activateFields [(tgtDEVICE, true)] (doFwActivate img)
    match s.cmds.queue with
    | [] => .next t
    | c :: _ =>
      let a := mbChecked s c (activateFields c.payload) [(tgtDEVICE, true)] (fun s => doFwActivate img s c)
      .next (if c.op == 0x0703 && molzuUp s && a.1 == stSUCCESS && byteAt c.payload 1 == 1 then activateRestart t (byteAt c.payload 0) else t)

/-- [R456] an update with no command for 60 s is released; its slot stays as it is. -/
def execFwUpdateIdleTimeout (s : State) : Res :=
  .next (if s.boot.update.any (fun u => decide (u.lastUse + 60 * oneSec ≤ s.clk.now)) then { s with boot := { s.boot with update := none } } else s)

/-- [R122] MB_MEASURE_GET. -/
def execMbMeasureGet (s : State) : Res :=
  .next (mbRun s 0x0704 (lenIs 0 []) [] (fun s _ => ansData s (beBytes 48 s.boot.sha ++ leBytes 1 s.boot.slot ++ [0, 0, 0])))

/-! ### Access tables -/

/-- [R113] an entry as a word, and a word as an entry. -/
def entryWord (e : AccEntry) : Nat := e.id % 4096 + e.mask % 4096 * 4096 + b2n e.read * 2 ^ 24 + b2n e.write * 2 ^ 25 + b2n e.valid * 2 ^ 31
def wordEntry (w : Nat) : AccEntry := { id := fld w 0 12, mask := fld w 12 12, read := fld w 24 1 == 1, write := fld w 25 1 == 1, valid := fld w 31 1 == 1 }

/-- [R113] a table's 256 bytes. -/
def tableBytes (es : List AccEntry) : List Byte := (es.take 64).flatMap (fun e => leBytes 4 (entryWord e)) ++ List.replicate (256 - 4 * (es.take 64).length) 0

/-- [R113] the table 256 bytes hold, from an offset. -/
def tableAt (l : List Byte) (off : Nat) : List AccEntry := (List.range 64).map (fun i => wordEntry (leAt l (off + 4 * i) 4))

/-- [R116] a right a master holds by the old table and loses by the new one. -/
def losesRight (old new : List AccEntry) (m : Nat) (w : Bool) : Bool := granted old m w && !granted new m w

/-- [R116 R117] MB_ACCESS_SET. -/
def doAccessSet (s : State) (c : MbCmd) : MbAns :=
  let t := byteAt c.payload 0
  let new := tableAt c.payload 4
  let old := s.access.get t
  if t = tgtKEY ∨ t = tgtSECURE then ansFail s stACCESS_FIXED
  else if (t == tgtDEVICE && losesRight old new c.m true) || losesRight old new 0 false || losesRight old new 0 true then ansFail s stACCESS_SELF_LOCK
  else withConfig s (ansOk (storeCfg { s with access := s.access.set t new } (fun g => { g with access := g.access.set t (some new) })))

def execMbAccessSet (s : State) : Res :=
  .next (mbRun s 0x0705
    (fun l => lenIs 260 [(1, 3)] l && isTarget (byteAt l 0) && (List.range 64).all (fun i => fld (leAt l (4 + 4 * i) 4) 26 5 == 0))
    [(tgtDEVICE, true)] doAccessSet)

/-- [R116] MB_ACCESS_GET. -/
def execMbAccessGet (s : State) : Res :=
  .next (mbRun s 0x0706 (fun l => lenIs 4 [(1, 3)] l && isTarget (byteAt l 0)) [(tgtDEVICE, false)]
    (fun s c => ansData s (tableBytes (s.access.get (byteAt c.payload 0)))))

/-! ### Roles and addresses -/

/-- [R77 R155] MB_GROUP_ROLE_SET: the role changes live; a SOURCE that returns to worker goes to HOLDOVER. -/
def doGroupRoleSet (s : State) (c : MbCmd) : MbAns :=
  if byteAt c.payload 0 = 1 then
    ansOk (noteWait { s with grp := { s.grp with manager := true, configured := true, candidate := false, lostRec := false } })
  else
    let t := { s with grp := { s.grp with manager := false, configured := false, candidate := false, yielded := false, walk := [] } }
    ansOk (noteWait (if s.tu.st = .source then holdTime t else t))

def execMbGroupRoleSet (s : State) : Res :=
  .next (mbRun s 0x0805 (fun l => lenIs 4 [(1, 3)] l && decide (byteAt l 0 < 2)) [(tgtDEVICE, true)] doGroupRoleSet)

/-- [R434] the device drains and retrains every ACTIVE FABRIC port, so that each partner learns the new FEA. -/
def retrainFabric (s : State) : State :=
  foldS ((portsOf s).filter (fun p => isFabric s p && (s.port p).link == .active)) s
    (fun s p => portDown (updPort s p (fun x => { x with again := true })) p)

/-- [R434] MB_FEA_SET. -/
def doFeaSet (s : State) (c : MbCmd) : MbAns :=
  let v := BitVec.ofNat 20 (leAt c.payload 0 4)
  if s.boot.straps.feaStrapEn then ansFail s stWRONG_STATE
  else withConfig s
    (let t := storeCfg s (fun g => { g with fea := some v })
     ansOk (if s.routes.fea.isSome then t else retrainFabric { t with routes := { t.routes with fea := some v } }))

def execMbFeaSet (s : State) : Res :=
  .next (mbRun s 0x0806 (fun l => lenIs 4 [] l && decide (leAt l 0 4 < 2 ^ 20)) [(tgtDEVICE, true)] doFeaSet)

/-- [R425] MB_CHAIN_STATUS. -/
def execMbChainStatus (s : State) : Res :=
  .next (mbRun s 0x0809 (lenIs 0 []) [(tgtDEVICE, false)] (fun s _ =>
    let c := s.chain
    ansData s (leBytes 1 c.addr ++
      leBytes 1 (b2n (isChainMgr s) + 2 * b2n s.grp.manager + 4 * b2n c.orphan + 8 * b2n c.overflow + 16 * b2n c.upLock + 32 * b2n c.downLock) ++
      leBytes 1 (if isChainMgr s then c.len else 0) ++ [0] ++ leBytes 4 c.groupBase.toNat)))

/-! ### Lane tests -/

/-- [R524 R123] a command that names a lane. -/
def laneNamed (s : State) (l : Nat) (k : MbAns) : MbAns := if quadOut s (quadOfLane l) || quadBusy s (quadOfLane l) then ansFail s stWRONG_STATE else k

/-- [R179] a command ends the lock of a lane's checker: what it has counted since then stays counted, a free value (log 7). -/
def stopCheck (s : State) (l : Nat) : State :=
  updLane (drawn s) l (fun x => endCheck (checkedSo x (Config.prbsSince s.free).1 (Config.prbsSince s.free).2))

/-- [R178] MB_PRBS_SET. -/
def doPrbsSet (s : State) (c : MbCmd) : MbAns :=
  let l := leAt c.payload 0 2
  let pat := byteAt c.payload 2
  let gen := byteAt c.payload 3 == 1
  let chk := byteAt c.payload 4 == 1
  laneNamed s l
    (if (s.lane l).st ≠ .diag then ansFail s stWRONG_STATE
     else if pat = 3 ∧ (s.octet (octetOfLane l)).rate = 3 then ansFail s stWRONG_STATE
     else
       let t := updLane (stopCheck s l) l (fun x =>
         { x with pattern := pat, prbsGen := gen, prbsChk := chk, prbsBits := if chk then 0 else x.prbsBits, prbsErrs := if chk then 0 else x.prbsErrs })
       ansOk (laneTx t l (diagTx (t.lane l))))

def execMbPrbsSet (s : State) : Res :=
  .next (mbRun s 0x0900
    (fun l => lenIs 8 [(5, 3)] l && decide (leAt l 0 2 < 512) && decide (byteAt l 2 < 8) && decide (byteAt l 3 < 2) && decide (byteAt l 4 < 2) &&
      !(byteAt l 4 == 1 && byteAt l 2 == 7))
    [(tgtLANE, true)] doPrbsSet)

/-- [R179] MB_PRBS_GET: `bits` and `errs` are what a locked checker has counted in this lock by now. -/
def doPrbsGet (bits errs : Nat) (s : State) (c : MbCmd) : MbAns :=
  let l := leAt c.payload 0 2
  let t := updLane s l (fun x => checkedSo x bits errs)
  let x := t.lane l
  if quadOut s (quadOfLane l) || quadBusy s (quadOfLane l) then ansFail s stWRONG_STATE
  else ansData t (leBytes 8 (sat64 (x.prbsBits + x.lockBits)) ++ leBytes 8 (sat64 (x.prbsErrs + x.lockErrs)))

def execMbPrbsGet (bits errs : Nat) (s : State) : Res :=
  .next (mbRun s 0x0901 (fun l => lenIs 2 [] l && decide (leAt l 0 2 < 512)) [(tgtLANE, false)] (doPrbsGet bits errs))

/-- [R55 R181] MB_LOOPBACK_SET: the new path takes its place at the transmitter, and the checker, which has counted in its lock so
far, relocks. -/
def doLoopbackSet (s : State) (c : MbCmd) : MbAns :=
  let l := leAt c.payload 0 2
  laneNamed s l
    (if (s.lane l).st ≠ .diag then ansFail s stWRONG_STATE
     else if l % 4 ≠ 0 then ansFail s stLOOPBACK_UNAVAILABLE
     else
       let t := updLane (stopCheck s l) l (fun x => { x with loopback := byteAt c.payload 2 })
       ansOk (laneTx t l (diagTx (t.lane l))))

def execMbLoopbackSet (s : State) : Res :=
  .next (mbRun s 0x0902 (fun l => lenIs 4 [(3, 1)] l && decide (leAt l 0 2 < 512) && decide (byteAt l 2 < 4)) [(tgtLANE, true)] doLoopbackSet)

/-- [R180] the lane is in the state an injection kind needs. -/
def injectableAs (s : State) (l kind : Nat) : Bool :=
  if kind = 0 then (s.lane l).st == .diag && (s.lane l).prbsGen
  else (s.lane l).st == .up && (kind != 3 || (portOfLane s l).any (fun p => decide (1 ≤ (s.port p).width)))

/-- [R180] MB_ERR_INJECT: the new injections take the place of the lane's pending ones. -/
def doErrInject (s : State) (c : MbCmd) : MbAns :=
  let l := leAt c.payload 0 2
  laneNamed s l
    (if !injectableAs s l (byteAt c.payload 2) then ansFail s stWRONG_STATE
     else ansOk (updLane s l (fun x => { x with inj := BitVec.ofNat 32 (leAt c.payload 4 4), injKind := byteAt c.payload 2 })))

def execMbErrInject (s : State) : Res :=
  .next (mbRun s 0x0903
    (fun l => lenIs 8 [(3, 1)] l && decide (leAt l 0 2 < 512) && decide (byteAt l 2 < 4) && (byteAt l 2 != 3 || decide (leAt l 4 4 < 2)))
    [(tgtLANE, true)] doErrInject)

end Sys2Proof.Machine
end

