-- ==== Sys2Proof/Machine/MbConfig.lean ====
section
/-! DEFINITION. Meanings of the stored-configuration commands: reading one item, exporting and importing the configuration image
(R132, R133, R525). -/

namespace Sys2Proof.Machine

/-! ### One item -/

/-- [R525] the item codes. -/
def itemCodes : List Nat := [0, 1, 2, 3, 6, 11, 13, 14, 15, 16]

/-- [R525] what a side without the item reads. -/
def noItem : Nat := 0xFFFFFFFF

/-- [R525] the FEA as a value: FEA in [23:0], VALID in [31]. -/
def feaWord (f : Option (BitVec 20)) : Nat := match f with | some v => v.toNat * 16 + 2 ^ 31 | none => 0

/-- [R525] the stored and the running value of an item; none for an object on neither side. -/
def itemValues (s : State) (code obj : Nat) : Option (Nat × Nat) :=
  let port := fun (st : StoredPort → Nat) (run : Port → Nat) =>
    let a := s.cfg.ports.get obj
    let x := s.port obj
    if obj < 512 ∧ (a.isSome ∨ x.exists_) then some ((a.map st).getD noItem, if x.exists_ then run x else noItem) else none
  match code with
  | 0 => if obj < 64 then some (s.cfg.rate.get obj, (s.octet obj).rate) else none
  | 1 => if obj < 64 then some (s.cfg.reach.get obj, (s.octet obj).reach) else none
  | 2 => port (·.width) (·.width)
  | 3 => port (·.role) (·.role)
  | 15 => port (fun a => b2n a.up) (fun x => b2n x.up)
  | 6 => if obj < 8 then some ((s.cfg.hostMode.get obj).getD noItem, s.hostMode.get obj) else none
  | 11 => if obj < 4 then some (if s.cfg.retire.getLsbD obj then 2 else 0, (s.quad obj).st) else none
  | 13 =>
    if obj = 0 then some (b2n s.cfg.chainRole + 2 * b2n s.cfg.groupMgr + 4 * b2n s.cfg.mgrElig,
      b2n (isChainMgr s) + 2 * b2n s.grp.manager + 4 * b2n s.boot.straps.mgrEligible) else none
  | 14 => if obj = 0 then some (s.cfg.profile, s.profile) else none
  | 16 => if obj = 0 then some (feaWord s.cfg.fea, feaWord s.routes.fea) else none
  | _ => none

/-- [R123] the item names a port or a quadrant that a running class L command is changing. -/
def itemBusy (s : State) (code obj : Nat) : Bool :=
  match code with
  | 2 | 3 | 15 => decide (obj < 512) && portBusy s obj
  | 0 | 1 => decide (obj < 64) && quadBusy s (obj / 16)
  | 11 => decide (obj < 4) && quadBusy s obj
  | _ => false

/-- [R524] check 1: the item names an octet or a port of a quadrant that is not ACTIVE. -/
def itemQuadOut (s : State) (code obj : Nat) : Bool :=
  match code with
  | 0 | 1 => decide (obj < 64) && quadOut s (obj / 16)
  | 2 | 3 | 15 => decide (obj < 512) && quadOut s (quadOfLane obj)
  | _ => false

/-- [R123 R524 R525] MB_CONFIG_READ. -/
def doConfigRead (s : State) (c : MbCmd) : MbAns :=
  let code := byteAt c.payload 3
  let obj := leAt c.payload 0 3
  if itemQuadOut s code obj || itemBusy s code obj then ansFail s stWRONG_STATE
  else match itemValues s code obj with
    | none => ansFail s stNOT_FOUND
    | some v => ansData s (leBytes 4 v.1 ++ leBytes 4 v.2)

def execMbConfigRead (s : State) : Res :=
  .next (mbRun s 0x0800 (fun l => lenIs 4 [] l && itemCodes.contains (byteAt l 3)) [(tgtDEVICE, false)] doConfigRead)

/-! ### The image -/

/-- [R133] the targets whose tables an image carries. -/
def imageTargets : List Nat := allTargets.filter (fun t => t != tgtKEY && t != tgtSECURE)

/-- [R11 R133] bytes 64 to 127: addresses, roles and host modes (their order within is the model's own, log 28). GROUP_BASE is the stored
one on every device, also where another was kept from ENUM (DESIGN CHOICE, log 98). -/
def imageRoles (s : State) : List Byte :=
  let fea := match s.cfg.fea with | some v => some v | none => s.routes.fea
  leBytes 1 s.chain.addr ++
    leBytes 1 (b2n (isChainMgr s) + 2 * b2n s.grp.manager + 4 * b2n s.boot.straps.mgrEligible + 8 * b2n fea.isSome) ++
    leBytes 2 s.cfg.mgmtPkey.toNat ++ leBytes 4 ((fea.getD 0).toNat * 16) ++ leBytes 4 s.cfg.groupBase.toNat ++
    (List.range 8).flatMap (fun h => leBytes 1 ((s.cfg.hostMode.get h).getD 0xFF)) ++ List.replicate 44 0

/-- [R133] bytes 128 to 3,327: the interface section. -/
def imageInterface (s : State) : List Byte :=
  (List.range 64).flatMap (fun o => leBytes 1 (s.cfg.rate.get o) ++ leBytes 1 (s.cfg.reach.get o)) ++
    (List.range 512).flatMap (fun p => match s.cfg.ports.get p with
      | some x => leBytes 1 x.width ++ leBytes 1 x.role ++ leBytes 1 (b2n x.up) ++ [1]
      | none => [0, 0, 0, 0]) ++
    (List.range 512).flatMap (fun l => leBytes 2 (s.cfg.laneCfg.get l))

/-- [R133] the Almanac section: every port whose active bank holds entries. -/
def imageAlmanac (s : State) : List Byte :=
  ((portsOf s).filter (fun p => !(s.port p).gate.bank.entries.isEmpty)).flatMap (fun p =>
    let b := (s.port p).gate.bank
    leBytes 2 p ++ leBytes 2 b.entries.length ++ leBytes 1 (b2n b.gating) ++ [0, 0, 0] ++
      b.entries.flatMap (fun e => leBytes 3 e.1 ++ leBytes 2 e.2.toNat))

/-- [R133] the last 20,480 bytes: the access tables. -/
def imageTables (s : State) : List Byte := imageTargets.flatMap (fun t => tableBytes ((s.cfg.access.get t).getD (s.access.get t)))

/-- [R133] bytes 64 to the end. -/
def imageBody (s : State) : List Byte := imageRoles s ++ imageInterface s ++ imageAlmanac s ++ imageTables s

/-- [R133] the whole image. -/
def configImage (s : State) : List Byte :=
  let body := imageBody s
  leBytes 4 0x55434647 ++ leBytes 2 1 ++ leBytes 1 (b2n s.ident.h96) ++ leBytes 1 (b2n s.ident.gradeL) ++ s.ident.serial ++
    leBytes 8 (if s.tu.valid then s.clk.ft.toNat else 0) ++ leBytes 4 (64 + body.length) ++ leBytes 4 (crc32c body).toNat ++
    leBytes 2 s.routes.epoch.toNat ++ List.replicate 26 0 ++ body

/-- [R132] a staging buffer held by another master. -/
def stagingBusy (b : Staging) (m : Nat) : Bool := b.owner.any (· != m)

/-- [R132] MB_CONFIG_EXPORT. -/
def doConfigExport (s : State) (c : MbCmd) : MbAns :=
  if stagingBusy s.cmds.exportBuf c.m then ansFail s stSTAGING_BUSY
  else
    let img := configImage s
    ansData { s with cmds := { s.cmds with exportBuf := { owner := some c.m, bytes := img, next := 0 } } }
      (leBytes 4 img.length ++ leBytes 4 (crc32c (img.drop 64)).toNat)

def execMbConfigExport (s : State) : Res := .next (mbRun s 0x0801 (lenIs 0 []) [(tgtDEVICE, false)] doConfigExport)

/-- [R132] MB_CONFIG_EXPORT_READ: up to 4,080 bytes; the last byte read releases the buffer. -/
def doConfigExportRead (s : State) (c : MbCmd) : MbAns :=
  let b := s.cmds.exportBuf
  let off := leAt c.payload 0 4
  if stagingBusy b c.m then ansFail s stSTAGING_BUSY
  else if b.owner.isNone ∨ off ≠ b.next then ansFail s stSEQUENCE_ERROR
  else
    let out := (b.bytes.drop off).take 4080
    let next := off + out.length
    ansData { s with cmds := { s.cmds with exportBuf := if b.bytes.length ≤ next then {} else { b with next := next } } } out

def execMbConfigExportRead (s : State) : Res := .next (mbRun s 0x0802 (lenIs 4 []) [(tgtDEVICE, false)] doConfigExportRead)

/-- [R132] MB_CONFIG_IMPORT_WRITE. -/
def doConfigImportWrite (s : State) (c : MbCmd) : MbAns :=
  let b := s.cmds.importBuf
  let data := c.payload.drop 8
  if stagingBusy b c.m then ansFail s stSTAGING_BUSY
  else if leAt c.payload 0 4 ≠ b.next then ansFail s stSEQUENCE_ERROR
  else if 720896 < b.next + data.length then ansFail s stINVALID_FIELD
  else ansOk { s with cmds := { s.cmds with importBuf := { owner := some c.m, bytes := b.bytes ++ data, next := b.next + data.length } } }

def execMbConfigImportWrite (s : State) : Res :=
  .next (mbRun s 0x0803 (fun l => decide (9 ≤ l.length) && decide (l.length ≤ 4088) && zeroAt l 4 4) [(tgtDEVICE, true)] doConfigImportWrite)

/-! ### Import -/

/-- [R133] the lists of an Almanac section; `n` bounds the ports it can name. -/
def almanacLists : Nat → List Byte → List (Nat × AlmBank)
  | 0, _ => []
  | n + 1, l =>
    if l.length < 8 then []
    else
      let k := leAt l 2 2
      (leAt l 0 2, { gating := byteAt l 4 == 1, entries := (List.range k).map (fun i => (leAt l (8 + 5 * i) 3, BitVec.ofNat 16 (leAt l (11 + 5 * i) 2))) }) ::
        almanacLists n (l.drop (8 + 5 * k))

/-- [R133] the items of an image take the place of the stored ones; what it does not carry stays. -/
def importCfg (l : List Byte) (g : StoredCfg) : StoredCfg :=
  let flags := byteAt l 65
  { g with
    chainAddr := byteAt l 64
    chainRole := fld flags 0 1 == 1
    groupMgr := fld flags 1 1 == 1
    mgrElig := fld flags 2 1 == 1
    mgmtPkey := BitVec.ofNat 16 (leAt l 66 2)
    fea := if fld flags 3 1 = 1 then some (BitVec.ofNat 20 (leAt l 68 4 / 16)) else g.fea
    groupBase := BitVec.ofNat 20 (leAt l 72 4)
    hostMode := (List.range 8).foldl (fun t h => if byteAt l (76 + h) = 0xFF then t else t.set h (some (byteAt l (76 + h)))) g.hostMode
    rate := (List.range 64).foldl (fun t o => t.set o (byteAt l (128 + 2 * o))) g.rate
    reach := (List.range 64).foldl (fun t o => t.set o (byteAt l (129 + 2 * o))) g.reach
    ports := (List.range 512).foldl (fun t p =>
      let a := 256 + 4 * p
      t.set p (if byteAt l (a + 3) = 0 then none else some { width := byteAt l a, role := byteAt l (a + 1), up := byteAt l (a + 2) == 1 })) g.ports
    laneCfg := (List.range 512).foldl (fun t i => t.set i (leAt l (2304 + 2 * i) 2)) g.laneCfg
    almanac := (almanacLists 512 ((l.take (l.length - 20480)).drop 3328)).foldl (fun t e => t.set e.1 e.2) g.almanac
    access := ((List.range 80).zip imageTargets).foldl (fun t e => t.set e.2 (some (tableAt l (l.length - 20480 + 256 * e.1)))) g.access
    routeEpoch := BitVec.ofNat 16 (leAt l 36 2) }

/-- [R12 R133] MB_CONFIG_IMPORT_COMMIT. -/
def doConfigImportCommit (s : State) (c : MbCmd) : MbAns :=
  let b := s.cmds.importBuf
  let l := b.bytes
  if stagingBusy b c.m then ansFail s stSTAGING_BUSY
  else if leAt c.payload 0 4 ≠ l.length ∨ leAt c.payload 4 4 ≠ (crc32c (l.drop 64)).toNat ∨ l.length < 23808 ∨ leAt l 0 4 ≠ 0x55434647 ∨ leAt l 4 2 ≠ 1 then
    ansFail s stIMAGE_INVALID
  else if byteAt l 6 ≠ b2n s.ident.h96 then ansFail s stVARIANT_MISMATCH
  else withConfig s
    (let t := storeCfg s (importCfg l)
     let t := { t with
       boot := { t.boot with importFresh := true }
       life := { t.life with pred := (l.drop 8).take 12 }
       lifePart := { t.lifePart with pred := (l.drop 8).take 12 }
       cmds := { t.cmds with importBuf := {} } }
     let t := recordEv t .configImported svcDie (leAt l 8 4) (leAt l 12 4) (leAt l 16 4)
     ansOk (if byteAt l 7 = b2n s.ident.gradeL then t else recordEv t .importGradeDiffers svcDie))

def execMbConfigImportCommit (s : State) : Res :=
  .next (mbRun s 0x0804 (lenIs 8 []) [(tgtDEVICE, true), (tgtCONFIG, true)] doConfigImportCommit)

/-- [R132] a staging buffer left untouched for 60 s is released. -/
def execStagingIdleTimeout (importBuf : Bool) (s : State) : Res :=
  .next { s with cmds := if importBuf then { s.cmds with importBuf := {} } else { s.cmds with exportBuf := {} } }

end Sys2Proof.Machine
end

