-- ==== Sys2Proof/Machine/Service.lean ====
section
/-! DEFINITION. Meanings of snapshots, the event recorder's movements, MRAM wear, power failure, the life record, telemetry, temperature,
rails and the core reference (R470 to R485, R492 to R501, R504). -/

namespace Sys2Proof.Machine

/-! ### Snapshots -/

/-- [R157 R448 R477 R478] SNAP_FT arrives: banks that are due go first, then the snapshot is taken or MISSED. -/
def execSnapshotTake (s : State) : Res := .next (adoptDue s)

/-- [R474 R477] the key is that of EQX_OFFSET_MAX, a maximum that folding leaves alone. -/
def isMaxKey (k : Nat) : Bool := k / 2 ^ 40 == Scope.port.code && k % 2 ^ 16 == placeOf .eqxOffsetMax portCounters

/-- [R477] folding is complete: each frozen value has been added to its active bank. -/
def execCounterFoldDone (s : State) : Res :=
  .next (if s.snap.folded then s
    else { s with
      ctrs := s.ctrs.mapCells (fun k x => if isMaxKey k then x else { x with live := x.live + x.frozen })
      snap := { s.snap with folded := true } })

/-! ### The event recorder -/

/-- [R470 R486 R494] the service die's hardware runs: its recorder, its life record and the BMC's interface. -/
def recorderRuns (s : State) : Bool := s.boot.power == .run || s.boot.power == .safe

/-- [R470] a quadrant's oldest record is moved to the service die. -/
def execEventForward (quad : Nat) (s : State) : Res :=
  guardRes (decide (quad < 4)) (if recorderRuns s && !(s.quad quad).inReset && !s.pins.pwrfail then forwardOne s quad else s)

/-- [R471] a trigger of a flush holds. -/
def flushDue (s : State) : Bool :=
  s.recd.buf.any (fun r => decide (4 ≤ r.sev)) || decide (1536 ≤ s.recd.buf.length) ||
    (!s.recd.buf.isEmpty && decide (s.recd.flushedAt + oneSec ≤ s.clk.now))

/-- [R471] a flush. -/
def execEventFlush (s : State) : Res := .next (if recorderRuns s && !s.pins.pwrfail && flushDue s then flushEvents s else s)

/-! ### MRAM wear -/

/-- [R484] the ring holds no more than it has room for. -/
def trimRing (s : State) : State := { s with recd := { s.recd with ring := s.recd.ring.drop (s.recd.ring.length - ringCap s) } }

/-- [R483] EV_MRAM_SPARE_LOW, once in a start. -/
def spareLow (s : State) : State :=
  if s.mram.spares < 12 ∧ !s.mram.lowRec then recordEv { s with mram := { s.mram with lowRec := true } } .mramSpareLow svcDie s.mram.spares else s

/-- [R483 R485] a sector has failed its three retries: Molzu remaps it. While Molzu is down one of EVENT_RING is skipped; with no spare left
EVENT_RING skips it for good, and any other partition cannot be written. -/
def execMramRemap (part sector : Nat) (s : State) : Res :=
  let again := part == 0 && s.mram.waiting.contains sector
  let s' := if again then s else count s .device 0 .mramVerifyRetry 3
  guardRes (decide (part < 6) && decide (sector < 2048))
    (if s.boot.power ≠ .run ∧ s.boot.power ≠ .safe then s
     else if !molzuRuns s then
       if part ≠ 0 ∨ again then s
       else trimRing { s' with mram := { s'.mram with skipped := s'.mram.skipped + 1, waiting := s'.mram.waiting ++ [sector] } }
     else if !allowed s molzuMaster tgtSPARE true then denied s' molzuMaster tgtSPARE
     else if s.mram.spares = 0 then
       if part = 0 then
         trimRing { s' with mram := { s'.mram with skipped := if again then s'.mram.skipped else s'.mram.skipped + 1, waiting := s'.mram.waiting.filter (· != sector) } }
       else { s' with mram := { s'.mram with failed := s'.mram.failed ||| BitVec.ofNat 6 (2 ^ part) } }
     else
       let t := { s' with mram := { s'.mram with
         spares := s'.mram.spares - 1, skipped := if again then s'.mram.skipped - 1 else s'.mram.skipped, waiting := s'.mram.waiting.filter (· != sector) } }
       spareLow (recordEv (count t .device 0 .mramRemap) .mramRemap svcDie (0x50 + part) sector t.mram.spares))

/-! ### Power failure -/

/-- [R472 R507] PWRFAIL_N, or an undervoltage: latched in Vigil with its time; records are flushed unless PORST_N is asserted. -/
def powerFails (s : State) : State :=
  let t := { s with pins := { s.pins with pwrfail := true }, recd := { s.recd with pfLatch := some (s.recd.pfLatch.getD s.clk.vigil) } }
  if recorderRuns s then powerFlush t else t

def execPwrfailAssert (s : State) : Res := .next (if s.pins.pwrfail || s.boot.power == .off then s else powerFails s)

/-- [R472] PWRFAIL_N releases with no reset in between: recorded at once, and the latch is cleared. -/
def execPwrfailDeassert (s : State) : Res :=
  let t := { s with pins := { s.pins with pwrfail := false } }
  .next (match if recorderRuns s then s.recd.pfLatch else none with
    | some v => recordEv { t with recd := { t.recd with pfLatch := none, pfLeft := 0 } } .powerFail svcDie v.toNat s.recd.pfLeft 1
    | none => t)

/-- [R494] VAON leaves tolerance for good: OFF, with Vigil alone running. -/
def execVaonLoss (s : State) : Res :=
  let t := coldClear s
  .next { t with
    boot := { t.boot with power := .off, warmRst := false, flashGnt := true }
    pins := { t.pins with thermtrip := false } }

/-! ### The life record -/

/-- [R3] the top of the grade's operating range, and [R5] its rated average, in units of 0.0625 degrees. -/
def rangeTop (s : State) : Int := if s.ident.gradeL then 95 * 16 else 105 * 16
def ratedAvg (s : State) : Int := if s.ident.gradeL then 85 * 16 else 90 * 16

/-- [R5 R481] 12 months of Vigil time have passed since a record, or there is none: one limit for the average and the range (log 37). -/
def lifeDue (s : State) (r : Option Nat) : Bool := match r with | none => true | some t => decide (t + 12 * 2592000 ≤ s.clk.vigil.toNat)

/-- [R481] RATING_VOID is never cleared, and a breach is recorded once in 12 months: LIFE holds both at once, not with the hourly write (log 37). -/
def voidRating (s : State) : State :=
  agentWrite s recorderMaster 4 (fun s => { s with lifePart := { s.lifePart with void := true, recAt := s.life.recAt } })

/-- [R481] a 1 s mean: it enters the accumulators, and one outside the operating range voids the rating. -/
def execLifeSecondCheck (meanTemp : Int) (s : State) : Res :=
  let above := decide (rangeTop s < meanTemp)
  let out := above || decide (meanTemp < 0)
  let f := s.life
  let due := out && lifeDue s f.recAt
  let t := { s with life := { f with
    secs := f.secs + 1, cur := ⟨f.cur.sum + meanTemp, f.cur.secs + 1⟩, maxMean := max f.maxMean meanTemp, void := f.void || out,
    hotSecs := if above then f.hotSecs + 1 else f.hotSecs, recAt := if due then some s.clk.vigil.toNat else f.recAt } }
  let t := if out then voidRating t else t
  .next (if !recorderRuns s then s else if due then recordEv t .lifeTempExceeded svcDie 1 (s32 meanTemp) else t)

/-- [R481] the accumulators are written to LIFE. -/
def execLifeHourlyWrite (s : State) : Res := .next (if recorderRuns s then agentWrite s recorderMaster 4 (fun s => { s with lifePart := s.life }) else s)

/-- [R481 R482] a month ends: the average over the 12 months just completed is evaluated once there are 12 (log 37). -/
def execLifeMonthBoundary (s : State) : Res :=
  let f := s.life
  let ms := (f.cur :: f.months).take 13
  let avg := monthsAvg (ms.take 12)
  let full := decide (12 ≤ ms.length)
  let out := full && decide (ratedAvg s < avg)
  let due := out && lifeDue s f.recAt
  let t := { s with life := { f with
    months := ms, cur := ⟨0, 0⟩, nMonths := min 255 (f.nMonths + 1), maxAvg := if full then max f.maxAvg avg else f.maxAvg,
    void := f.void || out, recAt := if due then some s.clk.vigil.toNat else f.recAt } }
  let t := if out then voidRating t else t
  .next (if !recorderRuns s then s else if due then recordEv t .lifeTempExceeded svcDie 0 (s32 avg) else t)

/-! ### Telemetry and temperature -/

/-- [R500] a threshold: reached at its value, cleared 3 degrees below it. -/
def passes (was : Bool) (r limit : Int) : Bool := decide (limit ≤ r) || (was && decide (limit - 48 < r))

/-- [R500] a die's reading against WARN and the throttles. -/
def thermDie (s : State) (d : Nat) (r : Int) : State :=
  let base : Int := if s.ident.gradeL then 90 * 16 else 100 * 16
  let x := s.therm.get d
  let y : Therm := { warn := passes x.warn r base, thr1 := passes x.thr1 r (base + 48), thr2 := passes x.thr2 r (base + 80) }
  let s := { s with therm := s.therm.set d y }
  let s := if d < 4 then updQuad s d (fun q => { q with throttle := if y.thr2 then 2 else if y.thr1 then 1 else 0 }) else s
  let s := if y.warn && !x.warn then recordEv (raiseAll s causeThermal) .thermalWarn svcDie d (s32 r) else s
  if y.thr2 && !x.thr2 then recordEv s .thermalThrottle svcDie d (s32 r) else s

/-- [R480 R500] the sensors of a group are sampled; junctions go through the thresholds, and OCTET.TEMP follows its group. -/
def execTelemetrySample (group : Nat) (readings : List Int) (s : State) : Res :=
  let t := { s with tele := s.tele.set group readings, teleFt := s.teleFt.set group (if s.tu.valid then s.clk.ft else 0) }
  let live := (List.range 5).filter (fun d => d == 4 || (quadActive s d && !(s.quad d).inReset))
  guardRes (decide (group < 6) && readings.length == groupCount group)
    (if s.boot.power = .off then s
     else if s.boot.power = .held then releaseTrip t
     else if group = 0 then
       let u := foldS live t (fun s d => thermDie s d (readings.getD d 0))
       if (List.range 4).any (fun q => (u.therm.get q).thr1) then count u .device 0 .throttleMs else u
     else if group = 2 then foldS (List.range 64) t (fun s o => updOctet s o (fun x => { x with temp := BitVec.ofInt 12 (readings.getD o 0) }))
     else t)

/-! ### Trips, rails and the core reference -/

/-- [R501 R504] the quadrants are held in reset with their lanes and host PHYs stopped; nothing in them survives, and firmware stops. -/
def holdQuads (s : State) : State :=
  let t := foldS (List.range 512) s offLane
  let t := { t with
    boot := { t.boot with fwReady := false, fwRestarting := false, safe := false }
    ports := t.ports.mapCells (fun _ x => warmPort x)
    ep := {}
    eps := t.eps.mapCells (fun _ h => { seenLink := h.seenLink, drsSent := h.drsSent })
    fns := t.fns.mapCells (fun _ x => { x with bme := false }) }
  foldS (List.range 4) t (fun s q => updQuad s q (fun x => { warmQuad x with inReset := true }))

/-- [R89] firmware was ready and is no longer. -/
def fwStops (was t : State) : State := if was.boot.fwReady then raiseAll t causeFwState else t

/-- [R494 R501] a trip comparator fires: TRIPPED, with what is not yet recorded flushed as at a power failure. -/
def execThermalTrip (die : Nat) (s : State) : Res :=
  let t := emit { s with
    boot := { s.boot with power := .tripped }
    pins := { s.pins with thermtrip := true }
    recd := { s.recd with tripLatch := some (die, s.clk.vigil) } } (.pin "THERMTRIP_N" 0)
  guardRes (decide (die < 9)) (if s.boot.power = .run ∨ s.boot.power = .safe then fwStops s (holdQuads (powerFlush t)) else s)

/-- [R492] a rail is out of tolerance. -/
def execRailOutOfRange (rail mv : Nat) (s : State) : Res :=
  guardRes (decide (rail < 10)) (if recorderRuns s && !s.boot.porst then recordEv s .railOutOfRange svcDie rail mv else s)

/-- [R492] a rail below 90 % of nominal is handled as PWRFAIL_N. -/
def execRailUndervoltage (rail _mv : Nat) (s : State) : Res :=
  guardRes (decide (rail < 10)) (if recorderRuns s && !s.boot.porst && !s.pins.pwrfail then powerFails s else s)

/-- [R504] REFCLK_CORE has stopped for 1 us; only a cold start brings the device back. -/
def execRefclkCoreLost (s : State) : Res :=
  .next (if (s.boot.power = .run ∨ s.boot.power = .safe) ∧ !s.pins.coreLost then
    let t := holdQuads (recordEv { s with pins := { s.pins with coreLost := true } } .refclkCoreLost svcDie)
    fwStops s (foldS (List.range 4) t (fun t q => updQuad t q (fun x => { x with rootPll := false })))
  else s)

end Sys2Proof.Machine
end

