-- ==== Sys2Proof/Machine/Board.lean ====
section
/-! DEFINITION. Meanings of the BMC interface's transactions and of the JTAG instructions (R511 to R513). -/

namespace Sys2Proof.Machine

/-- [R512] the STATUS code of an access on a board interface; an access to a selection that does not exist is made (log 35). -/
def boardStatus (e : AccEnd) : Nat := match e with | .denied => 1 | .malformed => 2 | _ => 0

/-! ### The BMC interface -/

/-- [R512] code 0xB1: a write of the BMC instance. On SMBus a wrong PEC discards it; I3C carries none. -/
def execBmcRegWrite (off : Nat) (val : Word32) (pecOk : Bool) (s : State) : Res :=
  .next (if !recorderRuns s then s
    else if s.pins.i3c.isNone && !pecOk then count s .device 0 .bmcPecErr
    else (boardWrite s 0x022 off val.toNat).2)

/-- [R512] code 0xB2: a read of the BMC instance, answered with VALUE and STATUS. -/
def execBmcRegRead (off : Nat) (s : State) : Res :=
  let a := boardRead s 0x022 off
  .next (if recorderRuns s then emit (emit a.2.2 (.readData 0x022 a.1)) (.readStatus 0x022 (boardStatus a.2.1)) else s)

/-- [R511] the I3C provisional ID that ENTDAA reads: manufacturer, part and SMB_ADDR. -/
def provisionalId (s : State) : Nat := put 0x2B7D 33 15 + put 0x5120 16 16 + put (s.boot.straps.smbAddr % 8) 12 4

/-- [R511] an I3C controller gives a dynamic address, by ENTDAA, in which the device answers its provisional ID. -/
def execI3cAddressAssign (addr : Nat) (s : State) : Res :=
  .next (if recorderRuns s then emit { s with pins := { s.pins with i3c := some (addr % 128) } } (.readData 0x022 (provisionalId s)) else s)

/-- [R511] RSTDAA: SMBus again. -/
def execI3cRstdaa (s : State) : Res := .next { s with pins := { s.pins with i3c := none } }

/-- [R502] ALERT_N is asserted: the BMC instance has an unmasked cause. -/
def alertAsserted (s : State) : Bool := liveCauses (s.inst 0x022) != 0

/-- [R511] the 7-bit address of the device. -/
def smbAddress (s : State) : Nat := 0x58 + s.boot.straps.smbAddr % 8

/-- [R511] the Alert Response Address is read. -/
def execSmbusAlertResponse (s : State) : Res :=
  .next (if recorderRuns s && s.pins.i3c.isNone && alertAsserted s then emit s (.smbusAra (smbAddress s)) else s)

/-! ### JTAG -/

/-- [R507] TRST_N low: Test-Logic-Reset, which selects IDCODE. -/
def execTrstNAssert (s : State) : Res := .next { s with pins := { s.pins with trst := true, ir := 0x01 } }

/-- [R513] the TAP takes an instruction; TRST_N is high by then (log 38). -/
def tapSelect (s : State) (code : Nat) : State := if s.boot.power = .off then s else { s with pins := { s.pins with trst := false, ir := code } }

/-- [R513] the identification register. -/
def idcodeOf (i : Ident) : Nat := put (i.stepping - 0x41) 28 4 + put 0x5120 12 16 + put 0x63B 1 11 + 1

/-- [R513] IDCODE: the identification register is selected and read. -/
def execIdcode (s : State) : Res :=
  .next (if s.boot.power = .off then s else emit (tapSelect s 0x01) (.jtagDr (BitVec.ofNat 64 (idcodeOf s.ident))))

def execSamplePreload (s : State) : Res := .next (tapSelect s 0x02)
def execExtest (s : State) : Res := .next (tapSelect s 0x03)
def execExtestPulse (s : State) : Res := .next (tapSelect s 0x04)
def execExtestTrain (s : State) : Res := .next (tapSelect s 0x05)
def execClamp (s : State) : Res := .next (tapSelect s 0x06)
def execHighz (s : State) : Res := .next (tapSelect s 0x07)
def execBypass (s : State) : Res := .next (tapSelect s 0xFF)

/-- [R513] what a Capture-DR of REG_ACCESS loads after an access. -/
def accessDr (off val : Nat) (write : Bool) (e : AccEnd) : BitVec 59 :=
  BitVec.ofNat 59 (put off 0 24 + put val 24 32 + put (b2n write) 56 1 + put (boardStatus e) 57 2)

/-- [R494] JTAG reaches the registers: it runs after a trip too. -/
def jtagRuns (s : State) : Bool := recorderRuns s || s.boot.power == .tripped

/-- [R513] Update-DR of REG_ACCESS: a register access on the JTAG instance. -/
def execRegAccess (dr : BitVec 59) (s : State) : Res :=
  let off := fld dr.toNat 0 24
  let val := fld dr.toNat 24 32
  let t := tapSelect s 0x20
  let done := fun (u : State) (d : BitVec 59) => emit { u with pins := { u.pins with dr := d } } (.jtagDr (d.zeroExtend 64))
  .next (if !jtagRuns s then t
    else if dr.getLsbD 56 then
      let a := boardWrite t 0x020 off val
      done a.2 (accessDr off val true a.1)
    else
      let a := boardRead t 0x020 off
      done a.2.2 (accessDr off a.1 false a.2.1))

end Sys2Proof.Machine
end

