-- ==== Sys2Proof/Machine/Control.lean ====
section
/-! DEFINITION. The meanings of register reads and writes by the masters of R83 (R81 to R109). -/

namespace Sys2Proof.Machine

/-- [R81] a register read's value goes back to its master. -/
def answerRead (m : Nat) (a : RegAns) : State := emit a.2.2 (.readData m a.1)

/-- [R81 R82 R118] a write to the register space. -/
def execRegisterWrite (m off : Nat) (bytes : List Byte) (s : State) : Res := guardRes (masterOk s m) (regWrite s m off bytes).2

/-- [R81 R95 R96] a read of the register space. -/
def execWindowRead (m off width : Nat) (s : State) : Res := guardRes (masterOk s m) (answerRead m (regRead s m off width))

/-- [R89 R90] STATUS.CAUSE. -/
def execStatusCauseWrite (m : Nat) (val : Word32) (s : State) : Res := guardRes (hasInst s m) (writeCause s m val.toNat)

/-- [R89 R90] STATUS.MASK. -/
def execStatusMaskWrite (m : Nat) (val : Word32) (s : State) : Res := guardRes (hasInst s m) (writeMask s m val.toNat)

/-- [R91] a function or one of its vectors is unmasked. -/
def execMsixUnmask (fn : Nat) (vec : Option Nat) (s : State) : Res :=
  guardRes (fnExists s fn) (match vec with | none => unmaskFn s fn | some v => setVecMask s fn v false)

/-- [R97 R99] MAILBOX.DOORBELL. -/
def execMailboxDoorbell (m : Nat) (val : Word32) (s : State) : Res := guardRes (hasInst s m) (write32 s m 0x12000 val.toNat).2

/-- [R107] TIME.FT_LO. -/
def execTimeFtLoRead (m : Nat) (s : State) : Res := guardRes (masterOk s m) (answerRead m (read32 s m 0x40000))

/-- [R108] TIME.SNAP_CTRL with ARM. -/
def execSnapCtrlArm (m : Nat) (s : State) : Res := guardRes (masterOk s m) (write32 s m 0x40018 1).2

/-- [R108] TIME.SNAP_CTRL with CANCEL. -/
def execSnapCtrlCancel (m : Nat) (s : State) : Res := guardRes (masterOk s m) (write32 s m 0x40018 2).2

/-- [R109] EVENT.DATA7. -/
def execEventData7Read (m : Nat) (s : State) : Res := guardRes (masterOk s m) (answerRead m (read32 s m 0x5003C))

/-- [R475] COUNTER.LO_k. -/
def execCounterLoRead (m k : Nat) (s : State) : Res := guardRes (masterOk s m && decide (k < 510)) (answerRead m (read32 s m (0x35000 + 8 * k)))

/-- [R184] LANE.CFG. -/
def execLaneCfgWrite (m : Nat) (val : Word32) (s : State) : Res := guardRes (masterOk s m) (write32 s m 0x31004 val.toNat).2

/-- [R185] OCTET.TIMERS. -/
def execOctetTimersWrite (m : Nat) (val : Word32) (s : State) : Res := guardRes (masterOk s m) (write32 s m 0x32008 val.toNat).2

/-- [R211] PORT.SHARED_LIMITS. -/
def execPortSharedLimitsWrite (m : Nat) (val : Word32) (s : State) : Res := guardRes (masterOk s m) (write32 s m 0x3001C val.toNat).2

/-- [R395 R462] a backing-store field, by its offset in the HOST window. -/
def execHostBackingWrite (m off : Nat) (val : Word32) (s : State) : Res :=
  guardRes (masterOk s m && (off == 0x034 || off == 0x038 || off == 0x03C)) (write32 s m (0x33000 + off) val.toNat).2

end Sys2Proof.Machine
end

