-- ==== Sys2Proof/Machine/Equinox.lean ====
section
/-! DEFINITION. Meanings of the Equinox commands: the exchange, lock and its loss, sources, steps and the PPS pins (R140 to
R160). -/

namespace Sys2Proof.Machine

/-- [R142 R151] what every TIME LTB says of the neighbour's time; a source whose flags have changed is chosen again. -/
def noteFlags (s : State) (p : Nat) (t : TimeMsg) : State :=
  reselect (updPort s p (fun x => { x with eqx := { x.eqx with ann := x.eqx.ann.map (fun a => { a with valid := t.valid, locked := t.locked, holdover := t.holdover }) } }))

/-- [R143 R210 R209] a TIME LTB arrives: an EDGE_LEGACY port counts it in BAD_TYPE; its content is taken while the port is ACTIVE. -/
def timeRx (s : State) (p : Nat) (h : LtbHdr) (t : TimeMsg) (k : State → State) : State :=
  unmarked s p h (fun s =>
    if isLegacy s p then count (count s .port p .ltbRx) .port p .badType
    else ltbIn s p h (fun s => if isFabric s p && (s.port p).link == .active then k (noteFlags s p t) else s))

/-- [R144 R145] a REQ arrives and is answered, after a wake where the transmitter is squelched. -/
def execTimeReqRx (p : Nat) (t : TimeLtb) (s : State) : Res :=
  guardRes (portOk p) (timeRx s p t.hdr t.msg (fun s =>
    if 2 ≤ (s.port p).txIdle then
      requestWake (updPort s p (fun x => { x with eqx := { x.eqx with oweResp := some (t.msg.exchSeq, stampAt s t.hdr.phase) } })) p 1
    else answerReq (requestWake s p 1) p t.msg.exchSeq (stampAt s t.hdr.phase)))

/-- [R146] the smallest delay among the last 16 accepted measurements admits this one. -/
def delayOk (l : List Int) (d : Int) : Bool := l.isEmpty || l.any (fun _ => l.all (fun e => decide (d ≤ e + 20 * 65536)))

/-- [R149 R150 R155] what an accepted measurement of the selected neighbour does to the time unit. A unit in HOLDOVER whose VALID is clear
takes the neighbour's FT as one in FREE does; the measurement that enters ACQUIRING counts toward LOCK_COUNT from HOLDOVER and not from FREE
(DESIGN CHOICE, log 100). -/
def measured (s : State) (p : Nat) (o : Int) : State :=
  let interval := (s.port p).eqx.interval
  let within := decide (o.natAbs ≤ lockThresh)
  let s := { s with tu := { s.tu with offset := o } }
  match s.tu.st, s.tu.valid with
  | .free, _ | .holdover, false =>
    let t := dropExchanges (setFtFix s ((ftFix s : Int) + o))
    changeTime t (fun u => { u with st := .acquiring, valid := true, lockCount := 0, stepWait := none })
  | .acquiring, _ => steer { s with tu := { s.tu with lockCount := if within then s.tu.lockCount + 1 else 0 } } o interval
  | .locked, _ => if unlockThresh < o.natAbs then leaveUpstream s 0 else steer s o interval
  | .holdover, _ => steer (changeTime s (fun u => { u with st := .acquiring, lockCount := if within then 1 else 0 })) o interval
  | .source, _ => s

/-- [R146] the offset and the delay of a RESP that arrived at `t4` and answers the exchange begun at `t1`, in 2^-16 ns. -/
def respOffset (t : TimeMsg) (t1 t4 : Nat) : Int := (((t.tA.toNat : Int) - t1) - ((t4 : Int) - t.tB.toNat)) / 2
def respDelay (t : TimeMsg) (t1 t4 : Nat) : Int := (((t4 : Int) - t1) - ((t.tB.toNat : Int) - t.tA.toNat)) / 2

/-- [R146 R147] the open exchange a RESP's EXCH_SEQ names: its t1, and whether it is out of cycle. -/
def openExchange (e : PortEqx) (seq : BitVec 16) : Option (Nat × Bool) :=
  match e.extra with
  | some (q, t1) => if q = seq then some (t1, true) else if e.openSeq = seq then e.t1.map (·, false) else none
  | none => if e.openSeq = seq then e.t1.map (·, false) else none

/-- [R146] a RESP that answers an open exchange in time closes it: the REPORT and the ANNOUNCE of this exchange follow. -/
def respAnswered (s : State) (p : Nat) (seq : BitVec 16) (t1 t4 : Nat) (out : Bool) : State :=
  let u := updPort s p (fun x => { x with eqx := if out then { x.eqx with extra := none, responded := true } else { x.eqx with t1 := none, responded := true } })
  sendAnnounce (sendTimeLtb u p 3 { timeMsg u seq out with tA := BitVec.ofNat 80 t1, tB := BitVec.ofNat 80 t4 }) p

/-- [R146 R159] a measurement that the delay filter admits. -/
def respAccepted (s : State) (p : Nat) (o d : Int) : State :=
  let u := updPort s p (fun x => { x with eqx := { x.eqx with delays := (d :: x.eqx.delays).take 16, offset := some o, accepted := true, missed := 0 } })
  countMax (count u .port p .eqxAccepted) .port p .eqxOffsetMax (o.natAbs / 16384)

/-- [R146 R159] a RESP arrives: the measurement, the delay filter, and steering by the selected neighbour. One whose EXCH_SEQ names no exchange
is rejected by it; one that comes late, or whose exchange was discarded, is not measured. -/
def execTimeRespRx (p : Nat) (t : TimeLtb) (s : State) : Res :=
  guardRes (portOk p) (timeRx s p t.hdr t.msg (fun s =>
    let e := (s.port p).eqx
    let t4 := stampAt s t.hdr.phase
    let r := updPort s p (fun x => { x with eqx := { x.eqx with responded := true } })
    match openExchange e t.msg.exchSeq with
    | none => if t.msg.exchSeq = e.openSeq ∨ e.extraSeq = some t.msg.exchSeq then r else count r .port p .eqxRejected
    | some (t1, out) =>
      if e.interval * 65536 < t4 - t1 then r
      else
        let u := respAnswered s p t.msg.exchSeq t1 t4 out
        if !delayOk e.delays (respDelay t.msg t1 t4) then count u .port p .eqxRejected
        else
          let v := respAccepted u p (respOffset t.msg t1 t4) (respDelay t.msg t1 t4)
          let w := if v.tu.upstream = some p then v else reselect v
          if w.tu.upstream = some p then measured w p (respOffset t.msg t1 t4) else w))

/-- [R146] a REPORT gives this device the peer's t1 and t4 for its records. -/
def execTimeReportRx (p : Nat) (t : TimeLtb) (s : State) : Res :=
  guardRes (portOk p) (timeRx s p t.hdr t.msg (fun s => updPort s p (fun x => { x with eqx := { x.eqx with report := some (t.msg.tA.toNat, t.msg.tB.toNat) } })))

/-- [R144] what an ANNOUNCE says. -/
def announcedBy (t : TimeMsg) : Announced :=
  { valid := t.valid, locked := t.locked, holdover := t.holdover, fea := t.sourceFea, cls := t.cls.toNat, hops := t.hops.toNat,
    stepSeq := t.stepSeq, stepFt := t.stepFt, stepNs := t.stepNs.toInt }

/-- [R150 R151] an ANNOUNCE arrives: the source is chosen again, and a new STEP_SEQ of the upstream source is applied at its
STEP_FT, or at once when that has passed; a unit in FREE has no time to step and only notes it. -/
def execTimeAnnounceRx (p : Nat) (t : TimeLtb) (s : State) : Res :=
  guardRes (portOk p) (timeRx s p t.hdr t.msg (fun s =>
    let s := reselect (updPort s p (fun x => { x with eqx := { x.eqx with ann := some (announcedBy t.msg) } }))
    if s.tu.upstream = some p ∧ s.tu.stepSeq ≠ t.msg.stepSeq then
      let u := { s with tu := { s.tu with stepSeq := t.msg.stepSeq, stepFt := t.msg.stepFt, stepNs := t.msg.stepNs.toInt } }
      if s.tu.st = .free then u
      else if t.msg.stepFt.toNat ≤ s.clk.ft.toNat then applyStep u t.msg.stepSeq t.msg.stepNs.toInt
      else { u with tu := { u.tu with stepWait := some (t.msg.stepSeq, t.msg.stepFt, t.msg.stepNs.toInt) } }
    else s))

/-- [R155] LOCK_COUNT measurements within LOCK_THRESH from a locked or source upstream: the unit is LOCKED. -/
def execTimeLockGained (s : State) : Res :=
  match s.tu.upstream with
  | none => .next s
  | some p =>
    .next (if s.tu.st = .acquiring ∧ 8 ≤ s.tu.lockCount ∧ (selectable s p).isSome ∧ s.tu.hops ≤ 63 then
        recordEv (changeTime s (fun u => { u with st := .locked })) .timeLock (timeDie s) p s.tu.srcFea.toNat
      else s)

/-- [R146 R147] an exchange falls due on a FABRIC port that is ACTIVE. -/
def execEqxExchangeStart (p : Nat) (s : State) : Res :=
  guardRes (portOk p) (if isFabric s p && (s.port p).link == .active then startExchange s p false else s)

/-- [R155] an interval without a measurement of the upstream neighbour: the count toward lock restarts. -/
def unmeasured (u : TimeUnit) : TimeUnit := if u.st = .acquiring then { u with lockCount := 0 } else u

/-- [R146 R155 R159] an exchange interval ends on a port; an open exchange stays open, for a RESP within one interval of its REQ. -/
def execEqxIntervalEnd (p : Nat) (s : State) : Res :=
  let e := (s.port p).eqx
  let t := if e.responded then s else count s .port p .eqxMissed
  let t := updPort t p (fun x => { x with eqx := { x.eqx with responded := false, accepted := false, missed := if e.accepted then 0 else e.missed + 1 } })
  guardRes (portOk p)
    (if !(isFabric s p && (s.port p).link == .active) then s
     else if !e.accepted && s.tu.upstream == some p then { t with tu := unmeasured t.tu } else t)

/-- [R155] MISS_LIMIT intervals without an accepted measurement from the upstream neighbour. -/
def execTimeMissLimit (s : State) : Res :=
  match s.tu.upstream with
  | none => .next s
  | some p =>
    if (s.port p).eqx.missed < 4 then .next s
    else match s.tu.st with
      | .locked => .next (leaveUpstream s 1)
      | .acquiring =>
        .next (match bestSource s (· != p) with
          | some (q, a) => changeTime s (fun u => { followOf q a u with lockCount := 0 })
          | none => changeTime s (fun u => { u with st := .holdover, upstream := none }))
      | _ => .next s

/-- [R150] FT has reached the STEP_FT of a step of the upstream source. -/
def execTimeStepApply (s : State) : Res :=
  match s.tu.stepWait with
  | some (q, at_, ns) => .next (if at_.toNat ≤ s.clk.ft.toNat then applyStep s q ns else s)
  | none => .next s

/-- [R153] the distance from an edge's stamp to the nearest whole second, in 2^-16 ns. -/
def toSecond (s : State) (phase : BitVec 2) : Int :=
  let r := stampAt s phase % (oneSec * 65536)
  if r * 2 < oneSec * 65536 then -(r : Int) else ((oneSec * 65536 : Nat) : Int) - r

/-- [R153 R510] a rising edge of PPS_IN: it takes TOD_FT, or disciplines a class 0 source; one within 0.5 s of the last is
ignored and counted. -/
def execPpsInEdge (s : State) : Res :=
  if s.tu.ppsAt.any (fun t => decide (s.clk.now < t + 500000000)) then .next (count s .device 0 .ppsEdgeIgnored)
  else
    let t := { drawn s with tu := { s.tu with ppsAt := some s.clk.now } }
    let phase := Config.ppsPhase s.free
    match s.tu.tod with
    | some v =>
      let t := setTime { t with tu := { t.tu with tod := none, cls := 0, ppsOn := true } } ((v.toNat * 65536 : Nat) - phase.toNat * 16384 : Int)
      .next { t with tu := { t.tu with lastPps := t.clk.ft } }
    | none =>
      .next (if s.tu.st = .source ∧ s.tu.cls = 0 ∧ s.tu.ppsOn then
          let o := toSecond s phase
          let integ := clampRate (Config.servoIntegral s.tu.integ o)
          { t with tu := { t.tu with integ := integ, rate := clampRate (integ + o * 100 / 65536), propTill := s.clk.now + oneSec, lastPps := s.clk.ft } }
        else { t with tu := { t.tu with lastPps := s.clk.ft } })

/-- [R154] the PPS loss timeout, in ns. -/
def ppsTimeout : Nat := 1500000000

/-- [R153 R154 R155] no PPS_IN edge within 1.5 s: a TOD_FT that has waited as long is dropped, or a class 0 source enters holdover. -/
def execPpsLossTimeout (s : State) : Res :=
  let t := recordEv s .ppsLost (timeDie s) s.tu.lastPps.toNat
  let from_ := if s.tu.tod.isSome then s.tu.todAt else s.tu.ppsAt.getD 0
  if s.clk.now < from_ + ppsTimeout then .next s
  else if s.tu.tod.isSome then .next (changeTime t (fun u => { u with tod := none, valid := true }))
  else if s.tu.st = .source ∧ s.tu.cls = 0 then .next (changeTime t (fun u => { u with st := .holdover }))
  else .next s

/-- [R151 R154 R155] a group manager with no selectable source for SOURCE_WAIT, one second, becomes a class 2 source. -/
def execSourceWaitExpire (s : State) : Res :=
  if s.grp.manager && s.tu.waitFrom.any (fun t => decide (t + oneSec ≤ s.clk.now)) && (s.tu.st == .free || s.tu.st == .holdover) && (bestSource s (fun _ => true)).isNone then
    .next (changeTime s (fun u => { u with st := .source, cls := 2, hops := 0, srcFea := myFea s, valid := true, upstream := none }))
  else .next s

/-- [R153] FT reaches a whole second (a nanosecond of rate correction may pass over the exact count): PPS_OUT goes high for 1 ms while
VALID is 1, and the tick lets it fall. -/
def execPpsOutEdge (s : State) : Res :=
  let sec := s.clk.ft.toNat / oneSec
  if s.tu.valid && decide (s.clk.ft.toNat % oneSec < 2) && s.tu.ppsSec != some sec then
    .next (emit { s with tu := { s.tu with ppsOut := some s.clk.ft, ppsSec := some sec } } (.pin "PPS_OUT" 1))
  else .next s

end Sys2Proof.Machine
end

