-- ==== Sys2Proof/Machine/Garnet.lean ====
section
/-! DEFINITION. Garnet: posting tagged receives, releasing messages in MSN order, matching, pooling, rendezvous and TAG_FIN
(R329 to R349). -/

namespace Sys2Proof.Machine

/-- [R334] the hash bin of a key: CRC-32C over SRQ, CONTEXT, SRC_RANK and TAG. -/
def binOf (srq ctx : Nat) (rank : BitVec 32) (tag : BitVec 64) : Nat :=
  (crc32c (beBytes 3 srq ++ beBytes 2 ctx ++ beBytes 4 rank.toNat ++ beBytes 8 tag.toNat)).toNat % 2 ^ 20

/-- [R332] a message matches a posted receive. -/
def matches_ (p : Posted) (m : TagMsg) : Bool :=
  p.ctx == m.ctx && (p.rank == 0xFFFFFFFF || p.rank == m.rank) && ((m.tag ^^^ p.tag) &&& ~~~ p.ignore) == 0

/-- Entries examined up to the first that satisfies `f`, or all of them. -/
def walked {α : Type} (f : α → Bool) : List α → Nat
  | [] => 0
  | a :: l => if f a then 1 else walked f l + 1

/-- [R350 R353] count one operation's walk. -/
def countWalk (s : State) (ep n : Nat) : State :=
  let t := count s .host ep .matchWalk n
  if 256 < n then count t .host ep .longWalk else t

/-- [R334] the SRQs homed in a quadrant, with their numbers. -/
def srqsOf (s : State) (home : Nat) : List (Nat × Srq) :=
  s.ep.srqs.cells.filterMap (fun kv => kv.2.bind (fun r => if r.home = home then some (kv.1, r) else none))

/-- [R334] the posted list of a bin of a quadrant: exact receives of every SRQ homed there, in the order they were appended. -/
def binList (s : State) (home bin : Nat) : List (Nat × Posted) :=
  sortBy (fun a b => decide (a.2.ord ≤ b.2.ord))
    ((srqsOf s home).flatMap (fun nr => (nr.2.posted.filter (fun p => !p.wild && binOf nr.1 p.ctx p.rank p.tag == bin)).map (fun p => (nr.1, p))))

/-- [R344 R346] the unexpected list of a bin of a quadrant. -/
def unexpBin (s : State) (home bin : Nat) : List (Nat × Unexp) :=
  sortBy (fun a b => decide (a.2.ord ≤ b.2.ord))
    ((srqsOf s home).flatMap (fun nr =>
      (nr.2.unexp.filter (fun u => binOf nr.1 u.msg.ctx u.msg.rank u.msg.tag == bin)).map (fun u => (nr.1, u))))

/-- [R334] the wildcard list of a context of an SRQ. -/
def wildList (r : Srq) (m : TagMsg) : List Posted := r.posted.filter (fun p => p.wild && p.ctx == m.ctx)

/-- [R333] an entry of the receive store as it lies in HBM, little-endian; `next` is the entry after it in its list. -/
def encPosted (srq : Nat) (next : Option Nat) (p : Posted) : List Byte :=
  leBytes 2 p.ctx ++ leBytes 1 (1 + (if p.wild then 2 else 0)) ++ leBytes 1 0 ++ leBytes 4 p.rank.toNat ++ leBytes 8 p.tag.toNat ++
    leBytes 8 p.ignore.toNat ++ leBytes 6 p.stamp.toNat ++ leBytes 2 p.wqe.toNat ++ leBytes 8 p.ctag.toNat ++ leBytes 4 p.key.toNat ++
    leBytes 4 p.len ++ leBytes 8 p.off.toNat ++ leBytes 3 (next.getD 0xFFFFFF) ++ leBytes 3 srq ++ leBytes 2 0

/-- [R333 R334] the entries of a posted list as they lie in HBM, each with its index and naming the next. -/
def encList : List (Nat × Posted) → List (Nat × List Byte)
  | [] => []
  | (n, p) :: rest => (p.idx, encPosted n (rest.head?.map (·.2.idx)) p) :: encList rest

/-- [R335] `a` was stamped before `b`, modulo 2^48. -/
def stampBefore (a b : BitVec 48) : Bool := let d := (b - a).toNat; decide (1 ≤ d) && decide (d ≤ 2 ^ 47 - 1)

/-- [R336] the receive a released message matches: of the two lists' first matches, the one posted earlier. -/
def matchPosted (s : State) (r : Srq) (srq : Nat) (m : TagMsg) : Option Posted :=
  match ((binList s r.home (binOf srq m.ctx m.rank m.tag)).find? (fun e => e.1 == srq && matches_ e.2 m)).map (·.2),
    (wildList r m).find? (fun p => matches_ p m) with
  | some a, some b => if stampBefore b.stamp a.stamp then some b else some a
  | some a, none => some a
  | none, b => b

/-- [R344 R386] pool chunks and store entries of a quadrant. -/
def poolChunks : Nat := 1572864
def storeSize : Nat := 4194304
def ctxListSize : Nat := 262144

/-- [R344] chunks of an eager message. -/
def chunksFor (m : TagMsg) : Nat := if m.rts.isSome then 0 else (m.len + 1023) / 1024

/-- [R345] chunks are there, in the pool and in the function's quota. -/
def chunksOk (s : State) (r : Srq) (n : Nat) : Bool :=
  decide ((s.quad r.home).chunksUsed + n ≤ poolChunks) && (!isVf s r.fn || (s.fn r.fn).quota.unexp == 0xFFFFFFFF || decide ((s.fn r.fn).unexpUse + n ≤ (s.fn r.fn).quota.unexp))

/-- [R345 R387] a store entry and, where needed, a context list entry are there. -/
def storeOk (s : State) (r : Srq) (ctx : Nat) : Bool :=
  decide ((s.quad r.home).storeUsed < storeSize) && (r.ctxs.contains ctx || decide ((s.quad r.home).ctxListUsed < ctxListSize))

/-- [R345] a refusal for want of store or pool. -/
def unexpFull (s : State) (ep : Nat) (f srq : Nat) : State × Nat :=
  (limited (count s .host ep .unexpFull) .unexpectedFull srq oneSec (fun t n more =>
    recordEv t .unexpectedFull (quadOfHost (hostOfFn f)) f srq n 0 more), 1)

/-! ### Receives that have matched -/

/-- The message has that MSN of that synchronisation. -/
def TagMsg.is (m : TagMsg) (msn : BitVec 32) (gen : Nat) : Bool := m.msn == msn && m.gen == gen

/-- Change the matched receive of one message. -/
def updMatched (s : State) (q : Nat) (m : TagMsg) (f : Matched → Matched) : State :=
  updQp s q (fun x => { x with matched := x.matched.map (fun y => if y.msg.is m.msn m.gen then f y else y) })
def dropMatched (s : State) (q : Nat) (m : TagMsg) : State :=
  updQp s q (fun x => { x with matched := x.matched.filter (fun y => !y.msg.is m.msn m.gen) })

/-- [R342 R343 R352] the status of an eager receive whose bytes have all come, and whether it is truncated. -/
def Matched.outcome (m : Matched) : Nat × Bool :=
  if m.lost then (stCONTEXT_LOST, false) else if m.cap < m.msg.len then (stREMOTE_ACCESS, true) else (stSUCCESS, false)

/-- [R342 R343 R352] a matched eager receive whose bytes have all come completes. -/
def matchedDone (s : State) (q : Nat) (m : Matched) : State :=
  if m.failed ∨ m.got < m.msg.len then s
  else
    let t := dropMatched s q m.msg
    let ep := ((getQp s q).map (fun x => epOfFn s x.fn)).getD 0
    completeMatched (if m.outcome.2 then count t .host ep .truncated else t) q m m.outcome.1 m.placed m.outcome.2

/-- [R342 R343] bytes of a matched eager message: placed, discarded beyond the buffer, or, where the buffer's window no longer
admits them, the receive ends with REMOTE_ACCESS. -/
def matchedData (s : State) (q : Nat) (msg : TagMsg) (off : Nat) (bytes : List Byte) (fromPool : Bool) : State :=
  match getQp s q with
  | none => s
  | some x =>
    match x.matched.find? (fun y => y.msg.is msg.msn msg.gen) with
    | none => s
    | some m =>
      if m.failed then
        (if m.msg.len ≤ m.got + bytes.length then dropMatched s q msg else updMatched s q msg (fun y => { y with got := y.got + bytes.length }))
      else
        match placeMatched s x.fn (x.recvPd s) m off bytes with
        | none => completeMatched (updMatched s q msg (fun y => { y with failed := true, got := y.got + bytes.length })) q m stREMOTE_ACCESS m.placed false
        | some t =>
          let m' := { m with got := m.got + bytes.length, placed := m.placed + min bytes.length (m.cap - off), buffered := m.buffered || (fromPool && !bytes.isEmpty) }
          matchedDone (updMatched t q msg (fun _ => m')) q m'

/-- [R340] the queue pair that carried a message, if it is still the same one. -/
def carrier (s : State) (m : TagMsg) : Option Qp := (getQp s m.qp).bind (fun x => if x.born ≤ m.gen then some x else none)

/-- [R340 R346] held bytes of a message whose queue pair is gone go to the receive that takes it: the receive, and whether a placement failed. -/
def orphanData (s : State) (r : Srq) : Matched → List (Nat × List Byte) → State × Matched
  | m, [] => (s, m)
  | m, (off, bytes) :: rest =>
    match placeMatched s r.fn r.pd m off bytes with
    | none => (s, { m with failed := true })
    | some t =>
      orphanData t r { m with got := m.got + bytes.length, placed := m.placed + min bytes.length (m.cap - off), buffered := m.buffered || !bytes.isEmpty } rest

/-- [R340 R346] a receive takes a message whose queue pair is gone: what is held is copied, and where that is the whole message the receive
completes; bytes still to come never do. A rendezvous cannot be read: its status is open (log 7). -/
def orphanMatch (s : State) (srq : Nat) (r : Srq) (x : Matched) (data : List (Nat × List Byte)) : State :=
  let op := if x.msg.rts.isSome then 0x11 else 0x10
  let ends (s : State) (m : Matched) (st : Nat) (trunc : Bool) : State :=
    completeRecv s srq m.wqe m.msg.qp op st m.placed (matchExtra m.msg (m.flags trunc)) false m.ctag true
  if x.msg.rts.isSome then ends (drawn s) x (openStatus s) false
  else
    let y := orphanData s r x data
    if y.2.failed then ends y.1 y.2 stREMOTE_ACCESS false
    else if y.2.got < y.2.msg.len then updSrq y.1 srq (fun r => { r with orphans := r.orphans ++ [y.2] })
    else ends (if y.2.outcome.2 then count y.1 .host (epOfFn s r.fn) .truncated else y.1) y.2 y.2.outcome.1 y.2.outcome.2

/-- [R342] a match: a rendezvous starts its READ, an eager message is copied from what the pool holds. -/
def startMatch (s : State) (srq : Nat) (r : Srq) (m : TagMsg) (p : Posted) (unexp lost : Bool) (data : List (Nat × List Byte)) : State :=
  let x : Matched := { msg := m, wqe := p.wqe, ctag := p.ctag, key := p.key, off := p.off, cap := p.len, got := 0, placed := 0, buffered := false,
                       unexp := unexp, lost := lost }
  let q := m.qp
  match carrier s m with
  | none => orphanMatch s srq r x data
  | some y =>
    let t := updQp s q (fun y => { y with matched := y.matched ++ [x] })
    if m.rts.isSome then
      if y.st != 1 then
        completeMatched (drawn (dropMatched t q m)) q x (openStatus s) 0 false
      else pumpRdvs (count t .host (epOfFn s y.fn) .rdvRead) q
    else
      let t := data.foldl (fun t d => matchedData t q m d.1 d.2 true) t
      match (getQp t q).bind (fun y => y.matched.find? (fun z => z.msg.is m.msn m.gen)) with
      | some z => matchedDone t q z
      | none => t

/-! ### Release -/

/-- [R334] an entry has joined Garnet's lists. -/
def nextOrd (s : State) : State := updEp s (fun e => { e with storeOrd := e.storeOrd + 1 })

/-- [R344] bytes of a message that is unexpected go to its chunks. -/
def unexpData (s : State) (srq : Nat) (m : TagMsg) (data : List (Nat × List Byte)) (n : Nat) : State :=
  updSrq s srq (fun r => { r with unexp := r.unexp.map (fun u =>
    if u.msg.qp = m.qp ∧ u.msg.is m.msn m.gen = true then { u with data := u.data ++ data, got := u.got + n } else u) })

/-- [R336 R344] release a message: it matches a posted receive or becomes unexpected, when there is room; `held` are chunks it
holds already. None: it must be refused. -/
def release (s : State) (q : Nat) (x : Qp) (srq : Nat) (r : Srq) (m : TagMsg) (data : List (Nat × List Byte)) (held : List Nat) : Option State :=
  let ep := epOfFn s x.fn
  if r.err then none
  else
    let w := walked (fun e => e.1 == srq && matches_ e.2 m) (binList s r.home (binOf srq m.ctx m.rank m.tag)) + walked (fun p => matches_ p m) (wildList r m)
    match matchPosted s r srq m with
    | some p =>
      let t := countWalk (count s .host ep .matchPosted) ep w
      let t := updSrqStore t srq (fun r => { r with posted := r.posted.filter (fun y => y.stamp != p.stamp) })
      let t := if held.isEmpty then t else freeChunks t r.home r.fn held.length
      let t := updQp t q (fun x => { x with expMsn := x.expMsn + 1 })
      some (startMatch t srq r m p false false data)
    | none =>
      let need := chunksFor m - held.length
      if storeOk s r m.ctx && chunksOk s r need then
        let t := countWalk (count s .host ep .unexpEnq) ep w
        let t := takeChunks t r.home r.fn need
        let got := (data.map (·.2.length)).foldl (· + ·) 0
        let u : Unexp := { msg := m, stamp := r.arrStamp, got := got, pool := held ++ freshChunks s r.home need, data := data,
                           idx := freshEntry s r.home, ord := s.ep.storeOrd }
        let t := nextOrd (updSrqStore t srq (fun r => { r with unexp := r.unexp ++ [u], arrStamp := r.arrStamp + 1 }))
        some (updQp t q (fun x => { x with expMsn := x.expMsn + 1 }))
      else none

/-- [R339] release the headers that wait for the expected MSN, one after another. -/
def releaseWaiting (s : State) (q srq : Nat) : Nat → State
  | 0 => s
  | k + 1 =>
    match getQp s q, getSrq s srq with
    | some x, some r =>
      match x.waiting.find? (fun w => w.msg.msn == x.expMsn) with
      | none => s
      | some w =>
        match release s q x srq r w.msg w.data w.pool with
        | none => s
        | some t =>
          let t := updQp t q (fun x => { x with waiting := x.waiting.filter (fun y => y.msg.msn != w.msg.msn) })
          releaseWaiting (updHost t (reorderEp (epOfFn s x.fn)) (fun h => { h with reorderUsed := h.reorderUsed - 1 })) q srq k
    | _, _ => s

/-- [R338 R339 R344] a packet of a tagged message: released at the expected MSN, held ahead of it, or following its message. -/
def tagPacket (s : State) (q : Nat) (x : Qp) (srq : Nat) (r : Srq) (m : TagMsg) (off : Nat) (bytes : List Byte) : State × Nat :=
  let ep := epOfFn s x.fn
  let data := if m.rts.isSome then [] else [(off, bytes)]
  if x.waiting.any (fun w => w.msg.msn == m.msn) then
    let t := updQp s q (fun x => { x with waiting := x.waiting.map (fun w => if w.msg.msn = m.msn then { w with data := w.data ++ data } else w) })
    (releaseWaiting t q srq 1100, 0)
  else if m.msn = x.expMsn then
    match release s q x srq r m [] [] with
    | none => if r.err then (s, 1) else unexpFull s ep r.fn srq
    | some t =>
      let t := if m.rts.isSome then t
        else if (getQp t q).any (fun x => x.matched.any (fun y => y.msg.is m.msn m.gen)) then matchedData t q m off bytes false
        else unexpData t srq m data bytes.length
      (releaseWaiting t q srq 1100, 0)
  else if (m.msn - x.expMsn).toNat < 2 ^ 31 then
    if 1024 ≤ (s.hostEp (reorderEp ep)).reorderUsed then
      (limited (count s .host ep .reorderFull) .reorderFull (reorderEp ep) oneSec (fun t n more =>
        recordEv t .reorderFull (quadOfEp ep) (endpointOf s ep) q n 0 more), 1)
    else
      let n := chunksFor m
      if !chunksOk s r n then unexpFull s ep r.fn srq
      else
        let t := takeChunks (count s .host ep .reorderHold) r.home r.fn n
        let t := updHost t (reorderEp ep) (fun h => { h with reorderUsed := h.reorderUsed + 1 })
        (updQp t q (fun x => { x with waiting := x.waiting ++ [{ msg := m, data := data, pool := freshChunks s r.home n }] }), 0)
  else if x.matched.any (fun y => y.msg.is m.msn m.gen) then (matchedData s q m off bytes false, 0)
  else (unexpData s srq m data bytes.length, 0)

/-- [R34 R324 R329 R338] a tagged request must find a GARNET queue pair and its SRQ; Garnet uses the stream's entry and the SRQ's lists, and a use
that the access table denies is not performed. -/
def onTagged (s : State) (q : Nat) (x : Qp) (f : State → Nat → Srq → State × Nat) : State × Nat :=
  match x.srq.bind (fun n => (getSrq s n).map (fun r => (n, r))) with
  | some (srq, r) =>
    if !x.garnet then (s, 2)
    else match useLine s x.fn engGarnet true 4 q with
      | .inl t => (t, 255)
      | .inr t => match useStores t x.fn srq with
        | .inl t => (t, 255)
        | .inr t => f t srq r
  | none => (s, 2)

/-- [R338 R341] a TAG_EAGER packet. -/
def doEager (s : State) (q : Nat) (x : Qp) (a : Arrival) : State × Nat :=
  match a.ext with
  | .eager c rank tag len =>
    if 65536 < len then (s, 2)
    else onTagged s q x (fun s srq r =>
      tagPacket s q x srq r { ctx := c, rank := rank, tag := tag, len := len, rts := none, qp := q, msn := a.th.msn, gen := x.gen } a.th.remoteOffset.toNat a.payload)
  | _ => (s, 2)

/-- [R338] a TAG_EAGER packet. -/
def execTagEagerRx (ep : Nat) (s : State) : Res :=
  guardRes (epExists s ep) (onRequest s ep 0x10 (fun _ => 1) doEager (fun s q _ a => duplicate s q a))

/-- [R342] a TAG_RTS. -/
def doRts (s : State) (q : Nat) (x : Qp) (a : Arrival) : State × Nat :=
  match a.ext with
  | .rts c rank tag len k o =>
    onTagged s q x (fun s srq r =>
      tagPacket s q x srq r { ctx := c, rank := rank, tag := tag, len := len, rts := some (k, o), qp := q, msn := a.th.msn, gen := x.gen } 0 [])
  | _ => (s, 2)

/-- [R342] a TAG_RTS packet. -/
def execTagRtsRx (ep : Nat) (s : State) : Res :=
  guardRes (epExists s ep) (onRequest s ep 0x11 (fun _ => 1) doRts (fun s q _ a => duplicate s q a))

/-- [R342 R343] the rendezvous read of the oldest receive that has all its bytes ends: with SUCCESS the receive completes and
TAG_FIN goes out, with another status the queue pair enters ERROR and no TAG_FIN is sent. -/
def execRdvReadComplete (q : Nat) (status : Nat) (s : State) : Res :=
  .next (match getQp s q with
    | none => s
    | some x =>
      match x.matched.find? (fun m => m.msg.rts.isSome && (status != 0 || (decide (min m.msg.len m.cap ≤ m.got) && decide (0 < m.asked) &&
          !x.pend.any (fun p => p.owner == .rdv m.msg.msn m.msg.gen)))) with
      | none => s
      | some m =>
        if x.st != 1 then s
        else if status ≠ 0 then failOwner s q (.rdv m.msg.msn m.msg.gen) status
        else
          let t := updQp s q (fun x => { x with matched := x.matched.filter (fun y => !y.isRdv m.msg.msn m.msg.gen) })
          let t :=
            if m.failed then completeMatched t q m stREMOTE_ACCESS m.placed false
            else completeMatched (if m.outcome.2 then count t .host (epOfFn s x.fn) .truncated else t) q m m.outcome.1 m.placed m.outcome.2
          sendFin t q m.msg m.got stSUCCESS)

/-- [R341] TAG_FIN completes the rendezvous TSEND of its MSN with its status; the queue pair stays READY. -/
def doFin (s : State) (q : Nat) (x : Qp) (a : Arrival) : State × Nat :=
  match a.ext with
  | .fin _ m _ n st =>
    match x.ring.ents.find? (fun e => e.st == 1 && e.awaitFin && e.msn == m) with
    | some e => (completeEnt s q e.idx st n, 0)
    | none => (s, 0)
  | _ => (s, 2)

/-- [R341] a TAG_FIN packet. -/
def execTagFinRx (ep : Nat) (s : State) : Res :=
  guardRes (epExists s ep) (onRequest s ep 0x12 (fun _ => 1) doFin (fun s q _ a => duplicate s q a))

/-! ### Posting -/

/-- [R330] a TRECV entry as a posted receive. -/
def postedOf (e : Ent) (stamp : BitVec 48) : Posted :=
  let sl := e.slot0
  let g := e.sges.headD { key := 0, len := 0, off := 0 }
  { ctx := leAt sl 8 2, rank := BitVec.ofNat 32 (leAt sl 12 4), tag := BitVec.ofNat 64 (leAt sl 16 8), ignore := BitVec.ofNat 64 (leAt sl 24 8),
    stamp := stamp, wqe := e.wqe, ctag := BitVec.ofNat 64 (leAt sl 32 8), key := g.key, len := g.len, off := g.off }

/-- [R346] the unexpected messages a post walks: the arrival list of its context, or the bin's, which other SRQs share. -/
def unexpList (s : State) (r : Srq) (srq : Nat) (p : Posted) : List (Nat × Unexp) :=
  if p.wild then (r.unexp.filter (fun u => u.msg.ctx == p.ctx)).map (fun u => (srq, u))
  else unexpBin s r.home (binOf srq p.ctx p.rank p.tag)

/-- [R337 R318] the check of a receive's buffer element against the SRQ's domain. -/
def postCheck (s : State) (r : Srq) (e : Ent) : Nat :=
  match e.sges with
  | [] => stSUCCESS
  | g :: _ =>
    match winOf s g.key with
    | none => stNOT_FOUND
    | some w =>
      if w.pd ≠ r.pd then stNOT_FOUND
      else if w.rights.getLsbD 1 && decide (g.off.toNat + g.len ≤ w.len) then stSUCCESS else stREMOTE_ACCESS

/-- The SRQ's ring moves past an entry that has left it. -/
def popRecv (s : State) (srq : Nat) (e : Ent) : State :=
  issueFetch (updRing s srq (fun r =>
    { r with ents := r.ents.filter (fun y => y.idx != e.idx), head := r.head + BitVec.ofNat 32 e.nslots })) srq

/-- [R339] headers that wait at their stream's expected MSN for want of store, on any queue pair, are tried again (DEDUCED, log 107). -/
def retryWaiting (s : State) : State :=
  foldS ((s.ep.qps.cells.filter (fun kv => kv.2.any (fun x => x.waiting.any (fun w => w.msg.msn == x.expMsn)))).map (·.1)) s (fun s q =>
    match (getQp s q).bind (·.srq) with
    | some srq => releaseWaiting s q srq 1100
    | none => s)

/-- [R337] the entry of an SRQ's store that a new receive takes. -/
def postedNext (s : State) (r : Srq) (e : Ent) : Posted := { postedOf e r.postStamp with idx := freshEntry s r.home, ord := s.ep.storeOrd }

/-- [R346] a checked receive is matched with the earliest unexpected message, or posted. -/
def postRecv (s : State) (srq : Nat) (r : Srq) (e : Ent) : State :=
  let ep := epOfFn s r.fn
  let p := postedNext s r e
  let l := unexpList s r srq p
  let hit (u : Nat × Unexp) : Bool := u.1 == srq && matches_ p u.2.msg
  let t := countWalk (popRecv s srq e) ep (walked hit l)
  let t := updSrq t srq (fun r => { r with postStamp := r.postStamp + 1 })
  match l.find? hit with
  | some (_, u) =>
    let t := updSrqStore t srq (fun r => { r with unexp := r.unexp.filter (fun y => y.stamp != u.stamp) })
    let t := freeChunks (count t .host ep .matchUnexpected) r.home r.fn u.pool.length
    retryWaiting (startMatch t srq r u.msg p true u.lost u.data)
  | none => retryWaiting (nextOrd (updSrqStore t srq (fun r => { r with posted := r.posted ++ [p] })))

/-- [R273 R337 R346] a tagged receive: a full store makes it wait at the ring, and FENCE makes it wait for every earlier receive; then it is
checked, and matched or posted. -/
def execTrecv (srq : Nat) (s : State) : Res :=
  .next (match getSrq s srq with
    | none => s
    | some r =>
      match r.ring.next with
      | none => s
      | some e =>
        let wild := (postedOf e r.postStamp).wild
        if !r.garnet || r.err || r.quiesced || decide (storeSize ≤ (s.quad r.home).storeUsed) || (e.fence && srqOpen s srq r) then s
        else if e.status ≠ stSUCCESS then failRecv s srq e e.status
        else match useStores s r.fn srq with
        | .inl t => t
        | .inr s => match useWins s r.fn engGarnet e.sges with
        | .inl t => t
        | .inr s =>
          if postCheck s r e ≠ stSUCCESS then
            popRecv (completeRecv s srq e.wqe 0 0x41 (postCheck s r e) 0 [] false e.recvTag) srq e
          else if wild && !storeOk s r (postedOf e r.postStamp).ctx then s
          else postRecv s srq r e)

end Sys2Proof.Machine
end

