-- ==== Sys2Proof/Machine/Lanes.lean ====
section
/-! DEFINITION. Meanings of the lane commands: PLLs, codewords and FEC lock, training and retraining, electrical idle and wake,
adaptation, PRBS and injections, LTB lock (R161 to R189). -/

namespace Sys2Proof.Machine

/-- The device has this lane. -/
def laneOk (l : Nat) : Bool := decide (l < 512)

/-! ### PLLs and references -/

/-- [R163] all lanes of a port have gone to PARKED at once: a port that ran its link goes through link-down handling. -/
def portUnlocked (s : State) (p : Nat) : State :=
  let t := updPort s p (fun x => { x with rxMap := 0 })
  match (s.port p).link with
  | .active | .drain => linkFailure t p 0
  | .init => askTraining (setLink (clearLink t p) p .train) p
  | _ => t

/-- [R163] an octet PLL is unlocked: its lanes go to PARKED and their ports through link-down handling. -/
def unlockPll (s : State) (o : Nat) : State :=
  if (s.octet o).pll then
    let t := count (updOctet s o (fun x => { x with pll := false })) .octet o .octPllUnlock
    foldS (portsOfOctet s o) (foldS (lanesOfOctet o) t parkLane) portUnlocked
  else s

/-- [R163] an octet PLL loses lock. -/
def execOctetPllUnlock (o : Nat) (s : State) : Res :=
  guardRes (decide (o < 64)) (if (s.octet o).pll then recordEv (unlockPll s o) .octetPllUnlock (o / 16) o else s)

/-- [R163 R169 R185] an octet PLL has relocked, which shows that REFCLK_NETq is present (log 94): lanes of ports still UP train again or
return to DIAG. -/
def execOctetPllRelock (o : Nat) (s : State) : Res :=
  let t := updQuad (updOctet s o (fun x => { x with pll := true })) (o / 16) (fun x => { x with refOk := true, refLost := false })
  let t := foldS (lanesOfOctet o) t (fun s l =>
    match portOfLane s l with
    | none => s
    | some p =>
      if (s.port p).up && (s.lane l).st == .parked then
        if (s.port p).role = 2 then diagLane s l else if runsLink s p then askTraining (trainLane s l) p else s
      else s)
  guardRes (decide (o < 64)) (if !(s.octet o).pll && ((s.quad (o / 16)).refOk || (s.quad (o / 16)).refLost) then t else s)

/-- [R163] loss of REFCLK_NETq: all 16 octets unlock, with one event. -/
def execRefclkNetLost (q : Nat) (s : State) : Res :=
  let t := updQuad s q (fun x => { x with refOk := false, refLost := true })
  guardRes (decide (q < 4))
    (if (s.quad q).refOk then recordEv (foldS ((List.range 16).map (q * 16 + ·)) t unlockPll) .refclkNetLost q q else s)

/-! ### Codewords and FEC lock -/

/-- [R182] the histogram counter of a number of corrected symbols. -/
def histCounter (n : Nat) : Cn :=
  [Cn.fecHist0, .fecHist1, .fecHist2, .fecHist3, .fecHist4, .fecHist5, .fecHist6, .fecHist7].getD n
    ([Cn.fecHist8, .fecHist9, .fecHist10, .fecHist11, .fecHist12, .fecHist13, .fecHist14, .fecHist15].getD (n - 8) .fecHist15)

/-- [R167 R168 R175] a codeword decodes without failure: it ends a run of uncorrectable ones short of four, counts towards FEC lock, and
ends WAKE_ALIGN_TMO where the receiver is aligned. -/
def goodCodeword (x : Lane) : Lane :=
  { x with uncorr := if x.uncorr = 4 then 4 else 0, good := min 8 (x.good + 1), marks := (false :: x.marks).take 8,
           alignTmr := x.alignTmr && !x.fec }

/-- [R167 R168] an uncorrectable codeword goes on to the link layer marked; the fourth in a row ends FEC lock. -/
def badCodeword (x : Lane) : Lane :=
  { x with uncorr := min 4 (x.uncorr + 1), good := 0, marks := (true :: x.marks).take 8, fec := x.fec && decide (x.uncorr < 3) }

/-- [R165 R168 R182] a codeword is decoded; up to 15 symbols are corrected, and an uncorrectable one is marked and counted. -/
def execCodewordRx (l : Nat) (corrected : Option Nat) (s : State) : Res :=
  let t := count s .lane l .fecCw
  guardRes (laneOk l)
    (match (s.lane l).st, corrected with
     | .off, _ | .parked, _ => s
     | _, some n =>
       if n ≤ 15 then
         let t := count (updLane t l goodCodeword) .lane l (histCounter n)
         if n = 0 then t else count (count t .lane l .fecCorrCw) .lane l .fecCorrSym n
       else count (updLane t l badCodeword) .lane l .fecUncorrCw
     | _, none => count (updLane t l badCodeword) .lane l .fecUncorrCw)

/-- [R172] write a lane's set to CALIB, with the values of the last completed adaptation pass; at the first lock, before any pass, these are the
values training started from (DESIGN CHOICE, log 95). -/
def storeCoeffs (s : State) (l : Nat) : State :=
  agentWrite (updLane s l (fun x => { x with calibAt := s.clk.now, lockedSinceCold := true })) molzuMaster 2 (fun t =>
    updLane t l (fun x => { x with calibSets := x.calibSets.set (calibKey s l) (some x.rxEq) }))

/-- The port of a lane looks at its lanes again. -/
def checkLaneOf (s : State) (l : Nat) : State := match portOfLane s l with | some p => checkLanes s p | none => s

/-- [R169 R174] the state of a lane that is locked again in RETRAIN: its port's transmitters may be squelched or wake just then. -/
def lockedSt (s : State) (l : Nat) : LaneSt :=
  match (portOfLane s l).elim 0 (fun p => (s.port p).txIdle) with | 2 => .eidle | 3 => .wake | _ => .up

/-- [R167 R169 R172] eight codewords in a row have decoded at one boundary: TRAIN or RETRAIN becomes UP. -/
def execFecLockGained (l : Nat) (rxInv : Bool) (s : State) : Res :=
  let lock := updLane s l (fun x => { x with
    fec := true, cdr := true, sig := true, eidleRx := false, uncorr := 0, rxInv := rxInv, noLock := false, noLockTmr := false, retryWait := false })
  guardRes (laneOk l)
    (match if (s.lane l).good = 8 then (s.lane l).st else .off with
     | .train =>
       if (s.lane l).trainReq then s
       else
         let t := updLane lock l (fun x => { x with st := .up })
         checkLaneOf (showLane (if (s.lane l).lockedSinceCold then t else storeCoeffs t l) l) l
     | .retrain => checkLaneOf (showLane (updLane lock l (fun x => { x with st := lockedSt s l, trainReq := false, burst := x.burst || lockedSt s l == .wake })) l) l
     | .diag => lock
     | _ => s)

/-- [R167 R169] four consecutive uncorrectable codewords have ended FEC lock: a lane in UP fails; fewer never do. -/
def execFecLockLost (l : Nat) (s : State) : Res :=
  guardRes (laneOk l)
    (if (s.lane l).uncorr = 4 then
       (if laneUp s l then laneLost (retrainLane s l 0) l 0 else updLane s l (fun x => { x with fec := false, uncorr := 0, good := 0 }))
     else s)

/-- [R169 R176] signal is lost: a failure unless the partner's idle sequence came before. -/
def execLossOfSignal (l : Nat) (s : State) : Res :=
  let t := updLane s l (fun x => { x with sig := false, cdr := false })
  guardRes (laneOk l) (if laneUp s l && !(s.lane l).eidleRx then laneLost (retrainLane t l 1) l 0 else t)

/-! ### Training timers -/

/-- [R169] the NO_LOCK timer expires in TRAIN: NO_LOCK, its event once per episode, and RETRY_WAIT. -/
def execNoLockTimerExpire (l : Nat) (s : State) : Res :=
  let x := s.lane l
  let t := count (updLane s l (fun x => { x with noLock := true, noLockTmr := false, retryWait := true })) .lane l .noLock
  guardRes (laneOk l)
    (if x.st == .train && x.noLockTmr then
       (if x.noLock then t else recordEv t .laneNoLock (quadOfLane l) l (s.octet (octetOfLane l)).rate)
     else s)

/-- [R169 R170] RETRY_WAIT ends: training starts again. -/
def execRetryWaitExpire (l : Nat) (s : State) : Res :=
  guardRes (laneOk l)
    (if (s.lane l).st == .train && (s.lane l).retryWait then
       match portOfLane s l with
       | some p => askTraining (trainLane s l) p
       | none => s
     else s)

/-- [R169 R195] RETRAIN_TMO expires: the lane trains from the start, and a link whose lanes have all come to this is in
TRAIN. -/
def execRetrainTmoExpire (l : Nat) (s : State) : Res :=
  let t := recordEv (count s .lane l .retrainFail) .laneRetrainFail (quadOfLane l) l ((s.octet (octetOfLane l)).retrain * 1000)
  guardRes (laneOk l)
    (if (s.lane l).st == .retrain then
       match portOfLane s l with
       | some p =>
         let t := askTraining (trainLane t l) p
         if (t.port p).link == .retrain && (portLanes t p).all (fun l => (t.lane l).st == .train) then setLink t p .train else t
       | none => trainLane t l
     else s)

/-! ### Electrical idle and wake -/

/-- [R174 R201 R203] something is owed to the partner: returns, a HELD notice, an acknowledgement that no LTB has carried yet, TIME LTBs. -/
def owesPartner (s : State) (p : Nat) : Bool :=
  let x := s.port p
  !x.owed.isEmpty || x.owedShared != 0 || x.eqx.oweResp.isSome || x.eqx.dueReg || x.eqx.dueExtra || x.downDue ||
    decide (s.clk.now < x.ackAt + roundNs s p) || (List.range 16).any (heldDue x s.clk.now)

/-- [R174] nothing keeps the port awake: no packet may start or is leaving, nothing is owed. -/
def portQuiet (s : State) (p : Nat) : Bool :=
  let x := s.port p
  x.leaving.all (·.departed) && x.txq.isEmpty && !owesPartner s p &&
    x.vcq.cells.all (fun kv => kv.2.isEmpty || !x.gate.openVc s.clk.ft kv.1)

/-- [R175] a refresh wake keeps the port out of idle for 2 us. -/
def refreshOver (s : State) (p : Nat) : Bool := !(s.port p).refreshWake || decide ((s.port p).lastWake + 2000 ≤ s.clk.now)

/-- [R174] IDLE_ENTER has passed without traffic: the idle sequence begins. -/
def execIdleEnterExpire (p : Nat) (s : State) : Res :=
  guardRes (decide (p < 512))
    (if (s.port p).link == .active && (s.port p).txIdle == 0 && (s.octet (octetOfLane p)).idleEn && portQuiet s p && refreshOver s p then
       foldS (portLanes s p) (updPort s p (fun x => { x with txIdle := 1, refreshWake := false })) showLane
     else s)

/-- [R169 R174] the idle sequence has been sent: the transmitter squelches. -/
def execIdleSequenceSent (p : Nat) (s : State) : Res :=
  guardRes (decide (p < 512))
    (if (s.port p).txIdle == 1 then
       let t := foldS ((portLanes s p).filter (fun l => (s.lane l).st == .up)) (updPort s p (fun x => { x with txIdle := 2 })) (fun s l =>
         count (updLane s l (fun x => { x with st := .eidle })) .lane l .eidleEntry)
       foldS (portLanes s p) t showLane
     else s)

/-- [R169] the partner's idle sequence arrives. -/
def execPartnerIdleRx (l : Nat) (s : State) : Res :=
  guardRes (laneOk l) (if laneUp s l then updLane s l (fun x => { x with eidleRx := true }) else s)

/-- [R175] EIDLE_REFRESH has passed since the last wake: a refresh wake is asked for; lanes that wait to train do not change what it is. -/
def execEidleRefreshExpire (p : Nat) (s : State) : Res :=
  guardRes (decide (p < 512))
    (if (s.port p).txIdle == 2 && decide ((s.port p).lastWake + (s.octet (octetOfLane p)).refresh * 1000000 ≤ s.clk.now) then
       updPort s p (fun x => { x with refreshWake := x.wakeReq.all (fun r => r.1 == 4), wakeReq := betterReq x.wakeReq 4 s.clk.now })
     else s)

/-- [R177] the lanes a waiting port would start: those asking to train and, from a squelch, those in EIDLE. -/
def startsOf (s : State) (p : Nat) : List Nat :=
  (portLanes s p).filter (fun l => (s.lane l).trainReq || ((s.port p).txIdle == 2 && (s.lane l).st == .eidle))

/-- [R177] start a port's lanes: training streams and exit bursts. -/
def startPort (s : State) (p : Nat) : State :=
  let ls := startsOf s p
  let waking := (s.port p).txIdle == 2
  let t := updPort s p (fun x => { x with
    wakeReq := none, txIdle := if waking then 3 else x.txIdle, lastWake := if waking then s.clk.now else x.lastWake,
    refreshWake := waking && x.refreshWake && x.wakeReq.all (fun r => r.1 == 4) })
  let t := foldS ls t (fun s l =>
    if (s.lane l).trainReq then updLane s l (fun x => { x with trainReq := false, noLockTmr := x.st == .train })
    else count (updLane s l (fun x => { x with st := .wake, burst := true })) .lane l .wake)
  foldS (if waking then portLanes s p else ls) t showLane

/-- [R177] class, age and number order of two waiting ports. -/
def batchBefore (s : State) (a b : Nat) : Bool :=
  match (s.port a).wakeReq, (s.port b).wakeReq with
  | some (ca, ta), some (cb, tb) => decide (ca < cb) || (ca == cb && (decide (ta < tb) || (ta == tb && decide (a ≤ b))))
  | _, _ => true

/-- [R177] the ports waiting, in the order they are served. -/
def waitingPorts (s : State) : List Nat := sortBy (batchBefore s) ((portsOf s).filter (fun p => (s.port p).wakeReq.isSome))

/-- [R177] serve in strict order while the next port fits into `room` lanes. -/
def serveBatch (s : State) (room : Nat) : List Nat → State
  | [] => s
  | p :: rest => if (startsOf s p).length ≤ room then serveBatch (startPort s p) (room - (startsOf s p).length) rest else s

/-- [R175] a woken port sends what waited for the wake: TIME LTBs first (R147), then the other LTBs in order, then returns. -/
def wokenPort (s : State) (p : Nat) : State :=
  let x := s.port p
  let t := updPort s p (fun x => { x with txWait := [], eqx := { x.eqx with oweResp := none } })
  let t := match x.eqx.oweResp with | some (q, t2) => answerReq t p q t2 | none => t
  let t := if x.eqx.dueReg then beginExchange t p false else t
  let t := if x.eqx.dueExtra then beginExchange t p true else t
  sendCredits (x.txWait.foldl (fun t w => putLtb t p w.1 w.2.1 w.2.2) t) p

/-- [R169 R175] a lane's exit burst ends, also where its receiver has failed meanwhile: it sends codewords again, and a port whose lanes are all
awake sends what it owes. -/
def execExitBurstDone (l : Nat) (s : State) : Res :=
  guardRes (laneOk l)
    (if (s.lane l).burst then
       let t := updLane s l (fun x => { x with st := if x.st == .wake then .up else x.st, burst := false })
       match portOfLane t l with
       | none => showLane t l
       | some p =>
         if (t.port p).txIdle != 3 || (portLanes t p).any (fun l => (t.lane l).burst) then laneTx t l 2
         else
           let u := updPort t p (fun x => { x with txIdle := 0, lastWake := s.clk.now })
           wokenPort (foldS (portLanes u p) u showLane) p
     else s)

/-- [R175] signal is seen again after the partner's idle: WAKE_ALIGN_TMO starts. -/
def execSignalDetect (l : Nat) (s : State) : Res :=
  guardRes (laneOk l) (updLane s l (fun x => { x with sig := true, alignTmr := x.eidleRx && laneUp s l }))

/-- [R175] the start-of-stream marker is seen: the receiver is aligned; WAKE_ALIGN_TMO runs on until a codeword follows. -/
def execStartOfStreamRx (l : Nat) (s : State) : Res :=
  guardRes (laneOk l)
    (if (s.lane l).eidleRx then
       updLane s l (fun x => { x with eidleRx := false, sig := true, cdr := true, fec := true, uncorr := 0, good := 0 })
     else s)

/-- [R175 R183] no aligned codeword came within WAKE_ALIGN_TMO: WAKE_FAIL, its event, RETRAIN. -/
def execWakeAlignTmoExpire (l : Nat) (s : State) : Res :=
  let t := count (updLane s l (fun x => { x with alignTmr := false, eidleRx := false })) .lane l .wakeFail
  let t := limited t .laneWakeFail l oneSec (fun t n more => recordEv t .laneWakeFail (quadOfLane l) l 0 n 0 more)
  guardRes (laneOk l) (if (s.lane l).alignTmr then laneLost (toRetrain t l) l 0 else s)

/-! ### Adaptation, PRBS and injections -/

/-- [R173] one step from a coefficient towards the value the pass aims at. -/
def stepTo (cur aim : Int) : Int := if cur < aim then cur + 1 else if aim < cur then cur - 1 else cur

/-- [R173 R184] CTLE, VGA and the signed DFE tap 1 each moved by at most one step. -/
def stepEq (cur aim : Word32) : Word32 :=
  let f := fun (w : Word32) (lo n : Nat) => ((w.extractLsb' lo n).toNat : Int)
  BitVec.ofInt 32 (stepTo (f cur 0 5) (f aim 0 5) + stepTo (f cur 5 6) (f aim 5 6) * 2 ^ 5 +
    (stepTo (cur.extractLsb' 11 8).toInt (aim.extractLsb' 11 8).toInt % 256) * 2 ^ 11)

/-- [R184] eye heights as LANE.EYE holds them: EYE0 is the only one at 28G, where the others read zero (DESIGN CHOICE, log 95). -/
def eyeFor (s : State) (l : Nat) (w : Word32) : Word32 := w &&& (if (s.octet (octetOfLane l)).rate = 3 then 0x3FF else 0x3FFFFFFF)

/-- [R173 R184] a lane in UP completes an adaptation pass; `rxEq` holds the coefficients the pass aims at. -/
def execAdaptationPass (l : Nat) (rxEq snr eye ber : Word32) (s : State) : Res :=
  guardRes (laneOk l)
    (if (s.lane l).st == .up then
       updLane s l (fun x => { x with adaptSeq := x.adaptSeq + 1, rxEq := eqFor s l (stepEq x.rxEq rxEq), snr := snr.setWidth 12, eye := eyeFor s l eye, ber := ber &&& 0xFFFF })
     else s)

/-- [R172] a lane's set is written to CALIB, at most once per 24 h after the first. -/
def execCalibCoeffWrite (l : Nat) (s : State) : Res :=
  guardRes (laneOk l)
    (if (s.lane l).lockedSinceCold && decide ((s.lane l).calibAt + 86400 * oneSec ≤ s.clk.now) then storeCoeffs s l else s)

/-- [R179] the checker locks. -/
def execPrbsCheckerLock (l : Nat) (s : State) : Res :=
  guardRes (laneOk l) (if (s.lane l).st == .diag && (s.lane l).prbsChk then updLane s l (fun x => { x with prbsLock := true }) else s)

/-- [R179] the checker loses lock after counting `bits` and `errs` in it; its counts stay. -/
def execPrbsCheckerLoss (l bits errs : Nat) (s : State) : Res :=
  guardRes (laneOk l) (if (s.lane l).prbsLock then updLane s l (fun x => endCheck (checkedSo x bits errs)) else s)

/-- [R180 R181] the lane is in the state its injections need; under far-end loopback the generator is disconnected. -/
def injectable (x : Lane) : Bool := if x.injKind = 0 then x.st == .diag && x.prbsGen && x.loopback != 3 else x.st == .up

/-- [R180] the spacing has passed: one injection. -/
def execErrInjectFire (l : Nat) (s : State) : Res :=
  let x := s.lane l
  guardRes (laneOk l)
    (if x.inj != 0 && injectable x then
       let t := emit (updLane s l (fun x => { x with inj := if x.inj = 0xFFFFFFFF then x.inj else x.inj - 1 })) (.laneInject l x.injKind)
       if x.injKind = 3 then laneTx (updLane t l (fun x => { x with dropping := true })) l 0 else t
     else s)

/-- [R180] the 2 us squelch of LANE_DROP ends. -/
def execLaneDropEnd (l : Nat) (s : State) : Res :=
  guardRes (laneOk l) (if (s.lane l).dropping then showLane (updLane s l (fun x => { x with dropping := false })) l else s)

/-! ### LTB lock -/

/-- [R189 R209] four consecutive LTBs pass at one position. -/
def execLtbLockGained (l : Nat) (s : State) : Res :=
  guardRes (laneOk l)
    (if laneUp s l && !(s.lane l).ltbLock then laneBack (updLane s l (fun x => { x with ltbLock := true })) l else s)

/-- [R189] sixteen consecutive LTBs fail: the link layer treats the lane as failed and asks it to retrain. -/
def execLtbLockLost (l : Nat) (s : State) : Res :=
  guardRes (laneOk l) (if laneUp s l && (s.lane l).ltbLock then laneLost (retrainLane s l 2) l 3 else s)

end Sys2Proof.Machine
end

