-- ==== Sys2Proof/Machine/MbFabric.lean ====
section
/-! DEFINITION. Meanings of the route, time, snapshot, Almanac, scheduler and tree commands (R124 to R129, R147, R249 to R260, R356 to
R360). -/

namespace Sys2Proof.Machine

/-! ### Adoption times -/

/-- [R125 R127] checks 4 and 5: what is wrong with an ADOPT_FT, 0 when nothing is. -/
def adoptFtFault (s : State) (ft : Nat) : Nat :=
  if ft = 0 then 0
  else if !s.tu.valid then stNO_TIME_LOCK
  else if ft ≤ s.clk.ft.toNat + 10000 then stADOPT_FT_PAST
  else 0

/-! ### Routes -/

/-- [R124] the entries of a route table. -/
def routeEntries (t : Nat) : Nat := if t = 0 then 4096 else if t = 1 then 256 else 16

/-- [R227] the entry breaks no rule of its table. -/
def routeEntryOk (t : Nat) (e : Nat) : Bool :=
  fld e 99 28 == 0 &&
    (if t = 2 then fld e 0 99 == 0
     else fld e 127 1 == 0 && (List.range 8).all (fun c => fld e (12 * c + 9) 1 == 0 && (t == 0 || fld e (12 * c + 10) 1 == 0)))

/-- [R124] entry `i` of an MB_ROUTE_WRITE payload. -/
def routeEntryAt (l : List Byte) (i : Nat) : Nat := leAt l (8 + 16 * i) 16

/-- [R124] the fields of MB_ROUTE_WRITE. -/
def routeWriteFields (l : List Byte) : Bool :=
  let t := byteAt l 0
  let n := byteAt l 1
  decide (t < 3) && decide (1 ≤ n) && lenIs (8 + 16 * n) [(6, 2)] l && decide (leAt l 2 2 + n ≤ routeEntries t) &&
    (List.range n).all (fun i => routeEntryOk t (routeEntryAt l i))

/-- Write one entry of a bank. -/
def RouteBank.put (b : RouteBank) (t i e : Nat) : RouteBank :=
  match t with
  | 0 => { b with group := b.group.set i (BitVec.ofNat 128 e) }
  | 1 => { b with router := b.router.set i (BitVec.ofNat 128 e) }
  | _ => { b with endpoint := b.endpoint.set i (BitVec.ofNat 128 e) }

/-- [R124 R126] MB_ROUTE_WRITE. An epoch lost to a Molzu restart is refused until the next write or commit that succeeds (DESIGN CHOICE, log 98). -/
def doRouteWrite (s : State) (c : MbCmd) : MbAns :=
  let l := c.payload
  let r := s.routes
  let ep := BitVec.ofNat 16 (leAt l 4 2)
  if r.stage = .pending then ansFail s stADOPT_PENDING
  else if (r.stage = .staged ∧ r.stagedEpoch ≠ ep) ∨ (r.stage = .none ∧ r.lostEpoch = some ep) then ansFail s stSEQUENCE_ERROR
  else
    let base := if r.stage = .staged then r.other else r.active
    let bank := (List.range (byteAt l 1)).foldl (fun b i => b.put (byteAt l 0) (leAt l 2 2 + i) (routeEntryAt l i)) base
    ansOk { s with routes := { r with other := bank, stage := .staged, stagedEpoch := ep, lostEpoch := none } }

def execMbRouteWrite (s : State) : Res := .next (mbRun s 0x0200 routeWriteFields [(tgtSWITCH, true)] doRouteWrite)

/-- The four values of SL0 to SL3 as a table. -/
def bySl (f : Nat → Nat) : Tbl Nat := (List.range 4).foldl (fun t i => t.set i (f i)) { dflt := 0 }

/-- [R125 R126] MB_ROUTE_COMMIT. -/
def doRouteCommit (s : State) (c : MbCmd) : MbAns :=
  let l := c.payload
  let r := s.routes
  let ep := BitVec.ofNat 16 (leAt l 0 2)
  let ft := leAt l 4 8
  if r.stage = .pending then ansFail s stADOPT_PENDING
  else if r.stage = .staged ∧ r.stagedEpoch ≠ ep then ansFail s stSEQUENCE_ERROR
  else if (ep - r.epoch).toNat = 0 ∨ 32767 < (ep - r.epoch).toNat then ansFail s stEPOCH_STALE
  else if fld (byteAt l 12) 6 2 = 2 then ansFail s stROUTE_MODE_ILLEGAL
  else if adoptFtFault s ft ≠ 0 then ansFail s (adoptFtFault s ft)
  else
    let base := if r.stage = .staged then r.other else r.active
    let bank := { base with mode := bySl (fun i => fld (byteAt l 12) (2 * i) 2), alpha := bySl (fun i => byteAt l (16 + i)), beta := bySl (fun i => byteAt l (20 + i)) }
    let t := { s with routes := { r with other := bank, stage := .pending, stagedEpoch := ep, adoptFt := BitVec.ofNat 64 ft, lostEpoch := none } }
    ansOk (if ft = 0 then adoptRoute t else t)

def execMbRouteCommit (s : State) : Res :=
  .next (mbRun s 0x0201
    (fun l => lenIs 24 [(2, 2), (13, 3)] l && (List.range 4).all (fun i => decide (fld (byteAt l 12) (2 * i) 2 < 3)))
    [(tgtSWITCH, true)] doRouteCommit)

/-- [R122] MB_ROUTE_STATUS. -/
def doRouteStatus (s : State) (_ : MbCmd) : MbAns :=
  let r := s.routes
  let idle := r.stage == .none
  ansData s (leBytes 2 r.epoch.toNat ++ leBytes 2 (if idle then r.epoch.toNat else r.stagedEpoch.toNat) ++
    leBytes 1 (match r.stage with | .none => 0 | .staged => 1 | .pending => 2) ++ [0, 0, 0] ++
    leBytes 8 (if r.stage = .pending then r.adoptFt.toNat else 0))

def execMbRouteStatus (s : State) : Res := .next (mbRun s 0x0202 (lenIs 0 []) [(tgtSWITCH, false)] doRouteStatus)

/-- [R126] MB_ROUTE_ABANDON. -/
def doRouteAbandon (s : State) (c : MbCmd) : MbAns :=
  if s.routes.stage ≠ .none then ansOk { s with routes := { s.routes with stage := .none } }
  else if s.cmds.lastAdopt.any (fun t => decide (c.at_ ≤ t)) then ansFail s stALREADY_DONE
  else ansFail s stNOT_FOUND

def execMbRouteAbandon (s : State) : Res := .next (mbRun s 0x0203 (lenIs 0 []) [(tgtSWITCH, true)] doRouteAbandon)

/-! ### Time and snapshots -/

/-- [R128 R153 R155] the device stops following and becomes a source of class 1; steering by the last offset ends with it. -/
def becomeSource (s : State) : State :=
  changeTime s (fun u => { u with
    st := .source, upstream := none, cls := 1, hops := 0, srcFea := myFea s, lockCount := 0, offset := 0, rate := u.integ, slew := 0, stepWait := none,
    tod := none, ppsOn := false })

/-- [R128 R153] MB_TIME_SET. -/
def doTimeSet (s : State) (c : MbCmd) : MbAns :=
  if !s.grp.manager then ansFail s stWRONG_STATE
  else
    let t := becomeSource s
    if byteAt c.payload 8 = 1 then
      ansOk { t with tu := { t.tu with tod := some (BitVec.ofNat 64 (leAt c.payload 0 8)), todAt := t.clk.now } }
    else ansOk (setTime t ((leAt c.payload 0 8 : Nat) * 65536 : Int))

def execMbTimeSet (s : State) : Res :=
  .next (mbRun s 0x0300 (fun l => lenIs 16 [(9, 7)] l && decide (byteAt l 8 < 2)) [(tgtTIME, true)] doTimeSet)

/-- [R107] TIME.STATE. -/
def timeStateBits (s : State) : Nat := b2n (timeLocked s) + 2 * b2n (s.tu.st == .holdover) + 4 * b2n s.tu.valid

/-- [R122] MB_TIME_STATUS. -/
def execMbTimeStatus (s : State) : Res :=
  .next (mbRun s 0x0301 (lenIs 0 []) [(tgtTIME, false)] (fun s _ =>
    ansData s (leBytes 1 (timeStateBits s) ++ [0, 0, 0] ++ leBytes 4 (sourceFea s).toNat ++ leBytes 8 (BitVec.ofInt 64 (s.tu.offset / 65536)).toNat)))

/-- [R129 R431] the group manager sends SNAP_FT to every member. -/
def distributeSnap (s : State) (ft : Nat) : State :=
  if s.grp.yielded then s
  else s.grp.members.foldl (fun s g =>
    sendCmd s { mtag := 0 } (some g.fea) (.snap g.fea (BitVec.ofNat 64 ft)) (cmdBytes 0x0302 0 (leBytes 8 ft ++ List.replicate 8 0))) s

/-- [R108 R129] MB_SNAP_ARM. -/
def doSnapArm (s : State) (c : MbCmd) : MbAns :=
  let ft := leAt c.payload 0 8
  let grp := byteAt c.payload 8 == 1
  let t := { s with snap := { s.snap with ft := BitVec.ofNat 64 ft } }
  if grp && !s.grp.manager then ansFail s stWRONG_STATE
  else if s.snap.st = 1 then ansFail s stADOPT_PENDING
  else if !s.tu.valid then ansFail (snapMissed t) stNO_TIME_LOCK
  else if ft ≤ s.clk.ft.toNat then ansFail (snapMissed t) stADOPT_FT_PAST
  else
    let t := { t with snap := { t.snap with st := 1 } }
    ansOk (if grp then distributeSnap t ft else t)

def execMbSnapArm (s : State) : Res :=
  .next (mbRun s 0x0302 (fun l => lenIs 16 [(9, 7)] l && decide (byteAt l 8 < 2)) [(tgtTIME, true)] doSnapArm)

/-- [R129] MB_SNAP_CANCEL. -/
def doSnapCancel (s : State) (c : MbCmd) : MbAns :=
  if s.snap.st = 1 then ansOk (cancelSnap s)
  else if s.cmds.lastSnap.any (fun t => decide (c.at_ ≤ t)) then ansFail s stALREADY_DONE
  else ansFail s stNOT_FOUND

def execMbSnapCancel (s : State) : Res := .next (mbRun s 0x0303 (lenIs 0 []) [(tgtTIME, true)] doSnapCancel)

/-- [R147] MB_EQX_SET. -/
def doEqxSet (s : State) (c : MbCmd) : MbAns :=
  let p := leAt c.payload 0 2
  portNamed s p (ansOk (updPort s p (fun x => { x with eqx := { x.eqx with interval := leAt c.payload 2 2 * 125000 } })))

def execMbEqxSet (s : State) : Res :=
  .next (mbRun s 0x0304 (fun l => lenIs 4 [] l && decide (leAt l 0 2 < 512) && decide (1 ≤ leAt l 2 2) && decide (leAt l 2 2 ≤ 128))
    [(tgtTIME, true)] doEqxSet)

/-! ### Almanac -/

/-- [R127] the entries of an MB_ALMANAC_LOAD payload. -/
def almEntries (l : List Byte) : List (Nat × BitVec 16) :=
  (List.range (leAt l 4 2)).map (fun i => (leAt l (16 + 8 * i) 3, BitVec.ofNat 16 (leAt l (20 + 8 * i) 2)))

/-- [R127 R258] the fields of MB_ALMANAC_LOAD. -/
def almFields (l : List Byte) : Bool :=
  let n := leAt l 4 2
  let gating := byteAt l 2 == 1
  let es := almEntries l
  lenIs (16 + 8 * n) [(3, 1), (6, 2)] l && decide (16 ≤ l.length) && decide (leAt l 0 2 < 512) && decide (byteAt l 2 < 2) && decide (n ≤ 256) &&
    (decide (1 ≤ n) || !gating) && (List.range n).all (fun i => zeroAt l (19 + 8 * i) 1 && zeroAt l (22 + 8 * i) 2) &&
    es.all (fun e => decide (64 ≤ e.1)) &&
    (!gating || (es.all (fun e => fld e.2.toNat 12 4 == 15) && (List.range 16).all (fun v => es.any (fun e => e.2.getLsbD v))))

/-- [R57 R58 R127] MB_ALMANAC_LOAD. -/
def doAlmanacLoad (s : State) (c : MbCmd) : MbAns :=
  let l := c.payload
  let p := leAt l 0 2
  let gating := byteAt l 2 == 1
  let ft := leAt l 8 8
  let g := (s.port p).gate
  let bank : AlmBank := { gating := gating, entries := almEntries l, ft := BitVec.ofNat 64 ft }
  portNamed s p
    (if g.pending then ansFail s stADOPT_PENDING
     else if gating && (s.port p).role == 1 then ansFail s stLEGACY_PARTNER
     else if gating && (s.port p).role != 0 then ansFail s stGATE_NOT_ALLOWED
     else if gating && !timeLocked s then ansFail s stNO_TIME_LOCK
     else if adoptFtFault s ft ≠ 0 then ansFail s (adoptFtFault s ft)
     else
       let t := updPort s p (fun x => { x with gate := { x.gate with
         pending := true, bank0 := if g.active then bank else g.bank0, bank1 := if g.active then g.bank1 else bank } })
       ansOk (if ft = 0 then adoptAlmanac t p s.clk.ft else t))

def execMbAlmanacLoad (s : State) : Res := .next (mbRun s 0x0400 almFields [(tgtSWITCH, true)] doAlmanacLoad)

/-- [R127] one bank of a port, in the layout of MB_ALMANAC_LOAD. -/
def almBytes (p : Nat) (b : AlmBank) : List Byte :=
  leBytes 2 p ++ leBytes 1 (b2n b.gating) ++ [0] ++ leBytes 2 b.entries.length ++ [0, 0] ++ leBytes 8 b.ft.toNat ++
    b.entries.flatMap (fun e => leBytes 3 e.1 ++ [0] ++ leBytes 2 e.2.toNat ++ [0, 0])

/-- [R123 R127 R524] MB_ALMANAC_GET. -/
def doAlmanacGet (s : State) (c : MbCmd) : MbAns :=
  let p := leAt c.payload 0 2
  let g := (s.port p).gate
  portNamed s p (ansData s (almBytes p (if byteAt c.payload 2 = 0 then g.bank0 else g.bank1)))

def execMbAlmanacGet (s : State) : Res :=
  .next (mbRun s 0x0401 (fun l => lenIs 4 [(3, 1)] l && decide (leAt l 0 2 < 512) && decide (byteAt l 2 < 2)) [(tgtSWITCH, false)] doAlmanacGet)

/-! ### Shapers, policers and weights -/

/-- [R251 R524] checks for a command that names a partition shaper or policer. -/
def partNamed (s : State) (k : Nat) (a : MbAns) : MbAns :=
  if quadOut s (k / 4096) then ansFail s stWRONG_STATE
  else if !fnExists s (shaperFn k) then ansFail s stNOT_FOUND
  else if quadBusy s (k / 4096) then ansFail s stWRONG_STATE
  else a

/-- [R92 R252] the fields of MB_SHAPER_SET. -/
def shaperFields (l : List Byte) : Bool :=
  let v := leAt l 0 4
  let rate := leAt l 4 4
  let burst := leAt l 8 4
  lenIs 12 [] l && fld v 14 17 == 0 && (!shpPort v || fld v 9 5 == 0) && decide (rate ≤ 1600000) &&
    (rate == 0 || (decide (4224 ≤ burst) && decide (burst ≤ 16777216)))

/-- [R252] MB_SHAPER_SET. -/
def doShaperSet (s : State) (c : MbCmd) : MbAns :=
  let v := leAt c.payload 0 4
  let h : Shaper := { rate := leAt c.payload 4 4, burst := leAt c.payload 8 4, at_ := s.clk.now }
  if shpPort v then portNamed s (fld v 0 9) (ansOk (updPort s (fld v 0 9) (fun x => { x with shaper := h })))
  else partNamed s (fld v 0 14) (ansOk { s with ep := { s.ep with shapers := s.ep.shapers.set (fld v 0 14) h } })

def execMbShaperSet (s : State) : Res := .next (mbRun s 0x0402 shaperFields [(tgtSHAPER, true)] doShaperSet)

/-- [R255] the fields of MB_POLICER_SET. -/
def policerFields (l : List Byte) : Bool :=
  let v := leAt l 0 4
  let part := fld v 31 1 == 1
  let cir := leAt l 4 4
  let pir := leAt l 8 4
  let size := fun (n : Nat) => decide (4224 ≤ n) && decide (n ≤ 16777216)
  lenIs 20 [] l && fld v 14 14 == 0 && (if part then fld v 28 1 == 0 else fld v 11 3 == 0 && decide (fld v 9 2 < 3)) &&
    (fld v 30 1 == 0 || (decide (1 ≤ cir) && decide (cir ≤ pir) && decide (pir ≤ 1600000) && size (leAt l 12 4) && size (leAt l 16 4)))

/-- [R255] the policer a payload sets, with both buckets full. -/
def policerOf (s : State) (l : List Byte) : Policer :=
  let v := leAt l 0 4
  ({ dropRed := fld v 28 1 == 1, aware := fld v 29 1 == 1, enable := fld v 30 1 == 1, cir := leAt l 4 4, pir := leAt l 8 4,
     cbs := leAt l 12 4, pbs := leAt l 16 4 } : Policer).fill s.clk.now

/-- [R255] MB_POLICER_SET. -/
def doPolicerSet (s : State) (c : MbCmd) : MbAns :=
  let v := leAt c.payload 0 4
  let pol := policerOf s c.payload
  let p := fld v 0 9
  if fld v 31 1 = 0 then
    portNamed s p (ansOk (updPort s p (fun x =>
      match fld v 9 2 with
      | 0 => { x with pol0 := pol }
      | 1 => { x with pol1 := pol }
      | _ => { x with pol2 := pol })))
  else partNamed s (fld v 0 14) (ansOk { s with ep := { s.ep with policers := s.ep.policers.set (fld v 0 14) pol } })

def execMbPolicerSet (s : State) : Res := .next (mbRun s 0x0403 policerFields [(tgtSHAPER, true)] doPolicerSet)

/-- [R249] MB_SL_WEIGHTS_SET. -/
def doSlWeightsSet (s : State) (c : MbCmd) : MbAns :=
  let p := leAt c.payload 0 2
  portNamed s p (ansOk (updPort s p (fun x => { x with quanta := (leAt c.payload 2 2, leAt c.payload 4 2, leAt c.payload 6 2) })))

def execMbSlWeightsSet (s : State) : Res :=
  .next (mbRun s 0x0404
    (fun l => lenIs 8 [] l && decide (leAt l 0 2 < 512) && [2, 4, 6].all (fun i => decide (1 ≤ leAt l i 2) && decide (leAt l i 2 ≤ 4095)))
    [(tgtPORT, true)] doSlWeightsSet)

/-! ### Trees -/

/-- [R356] a child word: a port field or a host endpoint number. -/
def childWord (w : Nat) : EdgeTo := if w < 0x8000 then .port w else .host (w - 0x8000)
def childWords (l : List Byte) : List Nat := (List.range (leAt l 6 2)).map (fun i => leAt l (16 + 2 * i) 2)

/-- [R119 R356] the shape of MB_TREE_SETUP: its length and its reserved fields. -/
def treeFields (l : List Byte) : Bool :=
  decide (16 ≤ l.length) && lenIs (16 + 2 * leAt l 6 2) [(3, 1), (14, 2)] l && (decide (leAt l 4 2 < 512) || leAt l 4 2 == 0xFFFF) &&
    decide (byteAt l 10 < 4) && (childWords l).all (fun w => decide (w < 512) || (decide (0x8000 ≤ w) && decide (w < 0x8010)))

/-- No two members are equal. -/
def allDistinct : List Nat → Bool
  | [] => true
  | a :: rest => !rest.contains a && allDistinct rest

/-- [R357] check 1. -/
def treeRanges (l : List Byte) : Bool :=
  leAt l 0 4 != 0 && decide (1 ≤ leAt l 6 2) && decide (leAt l 6 2 ≤ 256) && byteAt l 10 != 3 && decide (1 ≤ byteAt l 11) && decide (byteAt l 11 ≤ 32) &&
    decide (1 ≤ leAt l 12 2) && decide (leAt l 12 2 ≤ 60000) && allDistinct (childWords l)

/-- [R357 R359] MB_TREE_SETUP. -/
def doTreeSetup (s : State) (c : MbCmd) : MbAns :=
  let l := c.payload
  let id := leAt l 0 4
  let q := treeQuad id
  let parent := if leAt l 4 2 = 0xFFFF then none else some (leAt l 4 2)
  let children := (childWords l).map childWord
  let ports := parent.toList ++ children.filterMap (fun e => match e with | .port p => some p | .host _ => none)
  let hosts := children.filterMap (fun e => match e with | .host n => some n | .port _ => none)
  let need := ports.length * (byteAt l 11 * 66)
  if ports.any (fun p => quadOut s (quadOfLane p)) then ansFail s stWRONG_STATE
  else if ports.any (portBusy s) || quadBusy s q then ansFail s stWRONG_STATE
  else if !treeRanges l then ansFail s stINVALID_FIELD
  else if quadOut s q then ansFail s stTREE_QUADRANT_DOWN
  else if (getTree s id).isSome then ansFail s stWRONG_STATE
  else if ports.any (fun p => !isFabric s p) then ansFail s stWRONG_STATE
  else if hosts.any (fun n => (epOfEndpoint s n).isNone) then ansFail s stNOT_FOUND
  else if 16384 ≤ (s.quad q).treeUsed ∨ poolLeft s q 512 < need then ansFail s stNO_RESOURCES
  else
    let t : Tree := { parent := parent, children := children, pkey := BitVec.ofNat 16 (leAt l 8 2), sl := byteAt l 10, window := byteAt l 11,
                      stall := leAt l 12 2, reserved := need }
    let u := updQuad { s with ep := { s.ep with trees := s.ep.trees.set id (some t) } } q (fun x => { x with treeUsed := x.treeUsed + 1, poolUsed := x.poolUsed + need })
    ansOk (foldS t.allEdges u (fun s e => edgeUp s id e))

def execMbTreeSetup (s : State) : Res := .next (mbRun s 0x0500 treeFields [(tgtSWITCH, true)] doTreeSetup)

/-- [R360] take a tree away: what it reserved returns to the pool. -/
def removeTree (s : State) (id : Nat) : State :=
  match getTree s id with
  | none => s
  | some t =>
    updQuad (updEp (dropLines s 5 id) (fun e => { e with trees := e.trees.set id none })) (treeQuad id) (fun x => { x with treeUsed := x.treeUsed - 1, treeCache := x.treeCache.filter (· != id), poolUsed := x.poolUsed - t.reserved })

/-- [R357 R360] MB_TREE_TEARDOWN. -/
def doTreeTeardown (s : State) (c : MbCmd) : MbAns :=
  let id := leAt c.payload 0 4
  match getTree s id with
  | none => ansFail s stNOT_FOUND
  | some t => ansOk (removeTree (t.colls.foldl (fun s x => endColl s id x.seq stCOLL_ABORTED none) s) id)

def treeIdFields (l : List Byte) : Bool := lenIs 4 [(3, 1)] l

def execMbTreeTeardown (s : State) : Res := .next (mbRun s 0x0501 treeIdFields [(tgtSWITCH, true)] doTreeTeardown)

/-- [R356] MB_TREE_GET's response. -/
def treeBytes (id : Nat) (t : Tree) : List Byte :=
  leBytes 4 id ++ leBytes 2 (t.parent.getD 0xFFFF) ++ leBytes 2 t.children.length ++ leBytes 2 t.pkey.toNat ++ leBytes 1 t.sl ++ leBytes 1 t.window ++
    leBytes 2 t.stall ++ leBytes 1 (b2n t.broken) ++ leBytes 1 t.colls.length ++
    t.children.flatMap (fun e => leBytes 2 (match e with | .port p => p | .host n => 0x8000 + n)) ++
    leBytes 4 (match t.colls with | x :: _ => x.seq.toNat | [] => 0)

def doTreeGet (s : State) (c : MbCmd) : MbAns :=
  match getTree s (leAt c.payload 0 4) with
  | none => ansFail s stNOT_FOUND
  | some t => ansData s (treeBytes (leAt c.payload 0 4) t)

/-- [R122 R356] MB_TREE_GET. -/
def execMbTreeGet (s : State) : Res := .next (mbRun s 0x0502 treeIdFields [(tgtSWITCH, false)] doTreeGet)

end Sys2Proof.Machine
end

