-- ==== Sys2Proof/Machine/Mgmt.lean ====
section
/-! DEFINITION. Meanings of the management agent and the group manager: in-band commands and answers, remote events, announcements,
elections and the walk of the group (R426 to R435). -/

namespace Sys2Proof.Machine

/-! ### Packets at the agent -/

/-- Take the oldest waiting packet of a TYPE from the agent. -/
def takeMgmt (type : Nat) : List QPkt → Option (QPkt × List QPkt)
  | [] => none
  | x :: rest => if x.pkt.hdr.type = type then some (x, rest) else (takeMgmt type rest).map (fun r => (r.1, x :: r.2))

/-- [R29 R220 R427] the agent takes a whole packet, whose buffer space is free, and discards one whose ICRC fails: a DIRECT one with steps left goes on along its path (log 26), a returning one goes back along it,
and any other is for this device. -/
def agentTake (s : State) (type : Nat) (act : State → ArrSrc → FabHdr → MgmtHdr → List Byte → State) : State :=
  match takeMgmt type s.grp.rx with
  | none => s
  | some (q, rest) =>
    if stillArriving s q.orig then s
    else
    let p := q.pkt
    let src := q.orig.src
    let s := freeOrigin { s with grp := { s.grp with rx := rest } } q.orig
    if p.icrc != icrcOf p then s
    else match p.body with
    | .mgmt mh body =>
      if mh.direct && !mh.ret && decide (mh.pathPtr < mh.pathLen) then
        let back := match src with | .net a => setNth mh.path (mh.pathPtr - 1) a | _ => mh.path
        passOn s (mh.path.getD mh.pathPtr 0) p { mh with path := back, pathPtr := mh.pathPtr + 1 } body
      else if mh.direct && mh.ret && decide (0 < mh.pathPtr) then
        passOn s (mh.path.getD (mh.pathPtr - 1) 0) p { mh with pathPtr := mh.pathPtr - 1 } body
      else act s src p.hdr mh body
    | _ => s

/-! ### Commands -/

/-- [R111] the slot of a P_KEY: an identical key first, then a match under R224. -/
def slotOfKey (s : State) (k : BitVec 16) : Option Nat :=
  let t := s.routes.slots
  if k &&& 0x7FFF = 0 then none
  else
    match (t.cells.find? (fun kv => decide (kv.1 < 2048) && kv.2 == k)).map (·.1) with
    | some i => some i
    | none => (t.cells.find? (fun kv => decide (kv.1 < 2048) && kv.2 != 0 && keyMatch k kv.2)).map (·.1)

/-- [R102] in-band commands that wait. -/
def inbandWaiting (s : State) : Nat := (s.cmds.queue.filter (fun c => c.inband.isSome)).length

/-- [R102 R111 R427] an in-band command for this device joins the queue, or is refused with BUSY; a P_KEY with no slot drops it. -/
def takeCommand (s : State) (src : ArrSrc) (h : FabHdr) (mh : MgmtHdr) (body : List Byte) : State :=
  match slotOfKey s h.pkey with
  | none => s
  | some k =>
    let tag := leAt body 2 2
    if body.length < 8 then mgmtAnswer s src mh h.src 0x11 (rspBytes tag stINVALID_FIELD [])
    else if 64 ≤ inbandWaiting s then mgmtAnswer s src mh h.src 0x11 (rspBytes tag stBUSY [])
    else
      { s with cmds := { s.cmds with queue := s.cmds.queue ++
          [{ m := 0x800 + k, inband := some (src, mh, h.src), op := leAt body 0 2, tag := tag, len := leAt body 4 2, flags := leAt body 6 2,
             payload := body.drop 8, at_ := s.clk.now }] } }

/-- [R427] MGMT_CMD. -/
def execMgmtCmdRx (s : State) : Res := .next (agentTake s 0x10 takeCommand)

/-! ### The walk -/

/-- [R434] the ports the walk starts by, in ascending order: Local ports, and FABRIC ports whose partner has no FEA yet (log 36). -/
def walkStart (s : State) : List Nat :=
  (portsOf s).filter (fun p => (s.port p).link == .active && (portKind s p == 1 || (isFabric s p && (s.port p).partner.fea == 0)))

/-- [R434] the lowest router number of the group that no router found holds. -/
def freeRouter (s : State) (taken : List Nat) : Option Nat :=
  (List.range 256).find? (fun r => r != feaRouter (myFea s) && !taken.contains r && !s.grp.members.any (fun g => feaRouter g.fea == r))

/-- [R434] send MB_FEA_SET to each router found without a valid FEA. -/
def assignFeas (s : State) : List GrpMember → List Nat → State
  | [], _ => s
  | g :: rest, taken =>
    match freeRouter s taken with
    | none => s
    | some r =>
      let f := feaGroup (myFea s) * 256 + r
      assignFeas (sendCmd s (directHdr 0 g.path) none (.walkFea g.path (BitVec.ofNat 24 (16 * f)) g.serial) (cmdBytes 0x0806 0 (leBytes 4 f))) rest (r :: taken)

/-- [R434] a walk ends: routers it did not find have failed once more, and leave after three; missing FEAs are assigned. -/
def endWalk (s : State) : State :=
  let ms := s.grp.members.map (fun g => if g.seen then { g with fails := 0, seen := false } else { g with fails := g.fails + 1 })
  let gone := ms.filter (fun g => decide (3 ≤ g.fails))
  let t := { s with grp := { s.grp with members := ms.filter (fun g => decide (g.fails < 3)), walk := [], blank := [] } }
  let t := gone.foldl (fun s g => recordEv s .groupMemberLost svcDie g.fea.toNat) t
  assignFeas t s.grp.blank []

/-- [R434] visit the next router by DIRECT MB_IDENT_GET, or end the walk. -/
def walkNext (s : State) : State :=
  match s.grp.walk with
  | [] => endWalk s
  | p :: rest => sendCmd { s with grp := { s.grp with walk := rest } } (directHdr 0 p) none (.walkIdent p) (cmdBytes 0x0000 0 [])

/-- A walk is under way. -/
def walking (s : State) : Bool :=
  !s.grp.walk.isEmpty || s.grp.sent.any (fun x => match x.2 with | .walkIdent _ => true | _ => false)

/-- [R37 R434] WALK: a manager with a valid FEA visits its group, once Molzu is there; what an unfinished walk did not reach has failed in it. -/
def execGroupWalk (s : State) : Res :=
  .next (if molzuUp s && s.grp.manager && !s.grp.yielded && s.routes.fea.isSome then
    let t := if walking s then endWalk s else s
    let t := { t with grp := { t.grp with sent := t.grp.sent.filter (fun x => match x.2 with | .walkIdent _ => false | _ => true) } }
    walkNext { t with grp := { t.grp with walk := (walkStart t).map (fun p => [p]), blank := [] } }
  else s)

/-- [R431 R434] a router of the group is found: known by its serial number, it is a member; one that shares its FEA is recorded. -/
def foundRouter (s : State) (path : List Nat) (serial : List Byte) (fea : BitVec 24) : State :=
  let dup := s.grp.members.any (fun g => g.seen && g.serial != serial && g.fea == fea) || (fea == myFea s)
  let rest := s.grp.members.filter (fun g => g.serial != serial)
  let t := { s with grp := { s.grp with members := rest ++ [{ fea := fea, serial := serial, path := path, seen := true }] } }
  if dup then recordEv t .feaDuplicate svcDie fea.toNat else t

/-- [R434] an IDENT comes back from the end of a path: the router is noted once in a walk, and the walk goes on by its ports, up to 8 hops. -/
def onIdent (s : State) (path : List Nat) (d : List Byte) : State :=
  let serial := (d.drop 8).take 12
  let w := leAt d 0x1C 4
  let fea := BitVec.ofNat 24 (w % 2 ^ 24 / 16 * 16)
  let valid := fld w 31 1 == 1
  let known := serial == s.ident.serial || s.grp.blank.any (fun g => g.serial == serial) || s.grp.members.any (fun g => g.seen && g.serial == serial)
  if known || (valid && feaGroup fea != feaGroup (myFea s)) then walkNext s
  else
    let t := if valid then foundRouter s path serial fea
      else { s with grp := { s.grp with blank := s.grp.blank ++ [{ fea := 0, serial := serial, path := path }] } }
    if 8 ≤ path.length then walkNext t
    else
      let t := { t with free := t.free + 1 }
      let more := (sortBy (fun a b => decide (a ≤ b)) (Config.walkPorts s.free)).map (fun p => path ++ [p % 512])
      walkNext { t with grp := { t.grp with walk := t.grp.walk ++ more } }

/-! ### Answers -/

/-- [R428 R431 R432 R434] an answer to a command this manager sent. -/
def onAnswer (s : State) (what : SentFor) (body : List Byte) : State :=
  let st := leAt body 2 2
  match what with
  | .relay ftag _ => chainUp s 0x31 ftag body
  | .walkIdent path => if st = stSUCCESS then onIdent s path (body.drop 8) else walkNext s
  | .walkFea _ fea serial =>
    if st = stSUCCESS then recordEv s .feaAssigned svcDie fea.toNat (leAt serial 0 4)
    else if st = stACCESS_DENIED then recordEv s .mgmtDenied svcDie fea.toNat 0x0806
    else s
  | .snap fea ft =>
    if st = stADOPT_FT_PAST then recordEv s .snapWorkerMissed svcDie fea.toNat (ft.toNat % 2 ^ 32)
    else if st = stACCESS_DENIED then recordEv s .mgmtDenied svcDie fea.toNat 0x0302
    else s

/-- [R37 R428] MGMT_RESP: it answers the command with its MTAG; a response to nothing that waits is discarded. It waits for Molzu. -/
def execMgmtRespRx (s : State) : Res :=
  .next (if !molzuUp s then s else agentTake s 0x11 (fun s _ _ mh body =>
    match s.grp.sent.find? (fun x => x.1 == mh.mtag) with
    | none => s
    | some x => onAnswer { s with grp := { s.grp with sent := s.grp.sent.filter (fun y => y.1 != mh.mtag) } } x.2 body))

/-- [R428] RELAY_TMO: the relay answers RELAY_TIMEOUT; any other command sent in-band is given up, and a walk goes on. -/
def execRelayTmoExpire (mtag : Nat) (s : State) : Res :=
  .next (match s.grp.sent.find? (fun x => x.1 == mtag) with
    | none => s
    | some x =>
      let t := { s with grp := { s.grp with sent := s.grp.sent.filter (fun y => y.1 != mtag) } }
      match x.2 with
      | .relay ftag tag => count (mbRspOut t ftag tag stRELAY_TIMEOUT) .device 0 .relayTimeout
      | .walkIdent _ => if molzuUp s then walkNext t else s
      | _ => t)

/-! ### Remote events -/

/-- [R431] the manager records each record of a MGMT_EVENT. -/
def remoteRecords (s : State) (src : BitVec 24) : Nat → List Byte → State
  | 0, _ => s
  | n + 1, l =>
    if l.length < 32 then s
    else remoteRecords (recordEv s .remoteEvent svcDie src.toNat (leAt l 0 3) (leAt l 4 4) (leAt l 16 4)) src n (l.drop 32)

/-- [R37 R431] MGMT_EVENT; it waits for Molzu. -/
def execMgmtEventRx (s : State) : Res :=
  .next (if !molzuUp s then s else agentTake s 0x12 (fun s _ h _ body => if s.grp.manager then remoteRecords s h.src 32 body else s))

/-! ### Announcements -/

/-- [R429] the body of an ANNOUNCE (log 35). -/
def announceBody (fea : BitVec 24) (configured candidate : Bool) (seq : BitVec 16) (hops : Nat) : List Byte :=
  beBytes 3 fea.toNat ++ leBytes 1 (b2n configured + 2 * b2n candidate) ++ beBytes 2 seq.toNat ++ leBytes 1 hops

/-- [R429] the ACTIVE Local ports. -/
def localPorts (s : State) : List Nat := (portsOf s).filter (fun p => portKind s p == 1 && (s.port p).link == .active)

/-- [R429] send a one-hop DIRECT MGMT_DIST out of each port named. -/
def distOut (s : State) (ports : List Nat) (body : List Byte) : State :=
  foldS ports s (fun s p =>
    sendPath { s with grp := { s.grp with mtag := (s.grp.mtag + 1) % 65536 } } 0x13 (directHdr (s.grp.mtag % 65536) [p]) body)

/-- [R37 R429] a manager, or a candidate, announces itself while Molzu is there; a device without a valid FEA has nothing to announce (log 36). -/
def execAnnounceSend (s : State) : Res :=
  .next (if molzuUp s && (s.grp.manager || s.grp.candidate) && s.routes.fea.isSome then
    let t := { s with grp := { s.grp with annSeq := s.grp.annSeq + 1 } }
    distOut t (localPorts t) (announceBody (routerFea s 15) (s.grp.manager && s.grp.configured) (!s.grp.manager) t.grp.annSeq 1)
  else s)

/-- [R429] `a` is a newer ANN_SEQ than `b`. -/
def newerSeq (a b : BitVec 16) : Bool := a != b && decide ((a - b).toNat < 2 ^ 15)

/-- [R429] note what is heard of a manager or candidate. -/
def hear (s : State) (h : Heard) : State :=
  { s with grp := { s.grp with heard := s.grp.heard.filter (fun x => x.fea != h.fea) ++ [h], lostRec := s.grp.lostRec && h.candidate } }

/-- [R151 R155 R430] a manager hears another: an elected one yields to a configured one, and a worker is no source of time; of two configured, the lower FEA wins. -/
def settle (s : State) (h : Heard) : State :=
  if !s.grp.manager || h.candidate || !h.configured then s
  else if !s.grp.configured then
    let t := { s with grp := { s.grp with manager := false, walk := [], blank := [] } }
    recordEv (noteWait (if s.tu.st = .source then holdTime t else t)) .groupMgrYield svcDie h.fea.toNat
  else if decide (h.fea.toNat < (routerFea s 15).toNat) && !s.grp.yielded then
    recordEv { s with grp := { s.grp with yielded := true, walk := [], blank := [] } } .groupMgrConflict svcDie h.fea.toNat
  else s

/-- [R429 R430] an ANNOUNCE with a newer ANN_SEQ: noted, settled, and repeated once by a worker. -/
def onAnnounce (s : State) (src : ArrSrc) (body : List Byte) : State :=
  let fea := BitVec.ofNat 24 (beNat (body.take 3))
  let fl := byteAt body 3
  let seq := BitVec.ofNat 16 (beNat ((body.drop 4).take 2))
  let hops := byteAt body 6
  let h : Heard := { fea := fea, configured := fld fl 0 1 == 1, candidate := fld fl 1 1 == 1, seq := seq, at_ := s.clk.now }
  let fresh := match s.grp.heard.find? (fun x => x.fea == fea) with
    | some x => newerSeq seq x.seq
    | none => true
  if body.length < 7 || (s.routes.fea.isSome && fea == routerFea s 15) || !fresh then s
  else
    let t := settle (hear s h) h
    if !t.grp.manager && decide (hops < 8) then
      distOut t ((localPorts t).filter (fun p => src != .net p)) (announceBody fea h.configured h.candidate seq (hops + 1))
    else t

/-- [R429] MGMT_DIST. -/
def execMgmtDistRx (s : State) : Res := .next (agentTake s 0x13 (fun s src _ _ body => onAnnounce s src body))

/-! ### Loss of a manager, and elections -/

/-- Drop what has not been heard for a second (MGR_LOSS_TMO and ELECT_TMO, R440). -/
def forget (s : State) : State :=
  { s with grp := { s.grp with heard := s.grp.heard.filter (fun h => decide (s.clk.now < h.at_ + oneSec)) } }

/-- [R430] MGR_LOSS_TMO: a worker that hears no manager records it once and, if eligible, becomes a candidate; a manager that had yielded
goes on when the winner is no longer heard. -/
def execMgrLossTmoExpire (s : State) : Res :=
  let t := forget s
  let won := t.grp.heard.any (fun h => !h.candidate && h.configured && decide (h.fea.toNat < (routerFea s 15).toNat))
  .next (if s.grp.manager then { t with grp := { t.grp with yielded := t.grp.yielded && won } }
    else if (followed t).isSome then t
    else
      let u := if s.grp.lostRec then t
        else recordEv { t with grp := { t.grp with lostRec := true } } .groupMgrLost svcDie ((followed s).getD 0).toNat
      { u with grp := { u.grp with candidate := u.grp.candidate || (s.boot.straps.mgrEligible && s.routes.fea.isSome) } })

/-- [R429] ELECT_TMO: a candidate that hears no candidate or manager with a lower FEA takes the role; with a manager heard, it is a
candidate no longer. -/
def execElectTmoExpire (s : State) : Res :=
  let t := forget s
  .next (if !s.grp.candidate then s
    else if t.grp.heard.any (fun h => decide (h.fea.toNat < (routerFea s 15).toNat)) then
      { t with grp := { t.grp with candidate := (followed t).isNone } }
    else recordEv (noteWait { t with grp := { t.grp with manager := true, configured := false, candidate := false, lostRec := false } }) .groupMgrElected svcDie
      (routerFea s 15).toNat)

/-! ### The isolated router -/

/-- [R435] no FABRIC or EDGE_LEGACY port has been ACTIVE for ISOLATE_TMO. -/
def execIsolateTmoExpire (s : State) : Res :=
  .next (if s.grp.isolated || s.boot.power != .run || (portsOf s).any (fun p => runsLink s p && (s.port p).link == .active) then s
    else recordEv { s with grp := { s.grp with isolated := true } } .isolated svcDie)

end Sys2Proof.Machine
end

