-- ==== Sys2Proof/Machine/Polling.lean ====
section
/-! DEFINITION. The meanings of nudges, polls, fetches, chain lists, the service turn, head records and CQ heads
(R277 to R294). -/

namespace Sys2Proof.Machine

/-- [R281] the poll timers of a queue's endpoint. -/
def pollActiveOf (s : State) (f : Nat) : Nat := (s.hostEp (epOfFn s f)).pollActive
def pollIdleMaxOf (s : State) (f : Nat) : Nat := max (pollActiveOf s f) ((s.hostEp (epOfFn s f)).pollIdleMax * 1000)

/-- [R280 R282 R400] a nudge of a queue that exists; one that meets its page-out is served when the queue pair has come back. -/
def nudgeQueue (s : State) (q : Nat) : State :=
  match ringOf s q with
  | none => s
  | some (f, r) =>
    if queueQuiesced s q || r.poll == .none then s
    else if inWriteback s q then stallUse (updQp s q (fun x => { x with stalled := true, ring := { x.ring with poll := .active } })) q
    else match useQueue s f q engHost with
    | .inl t => t
    | .inr s =>
      let parked := r.poll == .parked
      let t := updRing s q (fun r => if r.poll == .active then r else
        { r with poll := .active, interval := pollActiveOf s f, empty := 0, maxAt := none, parking := false, parkedBit := false,
                 headDue := r.headDue || r.parkedBit })
      let t := if parked then
          updRing (count t .host (epOfFn s f) .unpark) q (fun r => { r with headDue := true })
        else t
      if (getQp t q).any (fun x => !x.resident) && parked then startPageIn t q else pollNow t q

/-- [R84 R87] the function's BAR2 has that nudge slot: 16,384 pages of 512 on a PF0, 256 on a VF, none on a PF1. -/
def nudgeSlotOk (s : State) (fn idx : Nat) : Bool := !isPf1 s fn && decide (idx < nudgePages s fn * 512)

/-- [R87 R282] a write to a nudge slot; one outside the function's BAR2 reaches nothing. -/
def execNudgeWrite (fn idx : Nat) (s : State) : Res :=
  guardRes (fnExists s fn && decide (idx < 2 ^ 23))
    (if !nudgeSlotOk s fn idx then s else match s.ep.nudges.get (fn * 2 ^ 23 + idx) with
     | none => count s .host (epOfFn s fn) .nudgeUnused
     | some q => nudgeQueue (count s .host (epOfFn s fn) .nudge) q)

/-- [R34 R280 R283 R284] the poll interval has passed: the host engine uses the queue and reads its doorbell record. -/
def execDoorbellPoll (q : Nat) (s : State) : Res :=
  .next (match ringOf s q with
    | none => s
    | some (f, r) =>
      if (r.poll == .active || r.poll == .backoff) && decide (r.pollAt + r.interval ≤ s.clk.now) && !r.reading then
        match useQueue s f q engHost with
        | .inl t => t
        | .inr t => pollNow t q
      else s)

/-- [R277 R290 R279] take assembled entries: counted; in ERROR they are flushed. -/
def assembleQueue (s : State) (q : Nat) : State :=
  match ringOf s q with
  | none => s
  | some (f, r) =>
    let srq := isSrq s q
    let garnet := (getQp s q).any (·.garnet) || (getSrq s q).any (·.garnet)
    if queueErr s q then issueFetch (flushPartial s q) q
    else
      let x := r.assemble srq garnet 40
      let t := updRing s q (fun _ => x.1)
      let t := count t .host (epOfFn s f) .wqeFetched x.2
      if x.1.slotWait.isSome && r.slotWait.isNone then waitSlot t f q else t

/-- [R277] an overrun: the next completion carries MALFORMED with WQE_ID 0xFFFF, and the queue enters ERROR. -/
def overrun (s : State) (q : Nat) : State :=
  match getQp s q with
  | some x => enterError (reportSend s q x 0xFFFF true 0 stMALFORMED 0 []) q stMALFORMED
  | none => errorSrq (completeRecv s q 0xFFFF 0 0 stMALFORMED 0 []) q stMALFORMED 0xFFFF

/-- [R284 R295] the last poll of a parking queue was empty: it stops polling, and has parked. -/
def parkNow (s : State) (f q : Nat) : State :=
  count (updRing s q (fun r => { r with poll := .parked, parking := false, parkedAt := s.clk.now })) .host (epOfFn s f) .park

/-- [R280 R284] the poll that was asked for while one was outstanding. -/
def pollAgain (s : State) (q : Nat) : State :=
  match ringOf s q with
  | some (_, r) => if r.again && r.poll != .none then pollNow (updRing s q (fun r => { r with again := false })) q else s
  | none => s

/-- [R280 R284] what an empty poll leaves: the back-off, a parked queue, or the next fetch. -/
def emptyPoll (s : State) (f q : Nat) (r : Ring) : State :=
  let t := count s .host (epOfFn s f) .dbEmpty
  let iv := if r.poll == .backoff then min (r.interval * 2) (pollIdleMaxOf s f) else pollActiveOf s f
  let t := updRing t q (fun r =>
    { r with empty := r.empty + 1, interval := iv,
             maxAt := if r.poll == .backoff && decide (pollIdleMaxOf s f ≤ iv) then some (r.maxAt.getD s.clk.now) else none })
  if r.parking && !r.again then parkNow t f q else issueFetch t q

/-- [R280 R271 R284 R392] a doorbell record read returns. -/
def execDoorbellReadComplete (q : Nat) (db : List Byte) (s : State) : Res :=
  let db := decDbRec db
  .next (finishDestroys (match ringOf s q with
    | none => s
    | some (f, r) =>
      if !r.reading then s
      else
        let ep := epOfFn s f
        let t := readBack (updRing s q (fun r => { r with reading := false })) f
        if queueQuiesced s q then t
        else if db.epoch != r.epoch || db.index == r.index then
          pollAgain (emptyPoll (if db.epoch != r.epoch then count t .host ep .dbStale else t) f q r) q
        else match useQueue t f q engHost with
        | .inl t => t
        | .inr t =>
          let t := updRing t q (fun r =>
            { r with index := db.index, poll := if r.poll == .none then .none else .active, interval := pollActiveOf s f, empty := 0, maxAt := none,
                     parkedBit := false, headDue := r.headDue || r.parkedBit, parking := false, lastWork := s.clk.now })
          let t := if (getQp t q).any (fun x => !x.resident) then startPageIn t q else t
          pollAgain (if 2 ^ r.log2 < (db.index - r.head).toNat then overrun t q else issueFetch t q) q))

/-- [R280] the 64th consecutive empty poll. -/
def execEmptyPollLimit (q : Nat) (s : State) : Res :=
  .next (match ringOf s q with
    | none => s
    | some (f, r) =>
      if r.poll == .active && decide (64 ≤ r.empty) then
        let iv := min (2 * pollActiveOf s f) (pollIdleMaxOf s f)
        updRing s q (fun r => { r with poll := .backoff, interval := iv, maxAt := if pollIdleMaxOf s f ≤ iv then some s.clk.now else none })
      else s)

/-- [R277] fetched slots arrive. -/
def execSlotReadComplete (q : Nat) (slots : List (List Byte)) (s : State) : Res :=
  .next (finishDestroys (match ringOf s q with
    | none => s
    | some (f, r) =>
      if r.fetching = 0 || slots.isEmpty || decide (r.fetching < slots.length) then s
      else
        let t := readBack s f
        if queueQuiesced s q then updRing t q (fun r => { r with fetching := r.fetching - slots.length })
        else
          assembleQueue (updRing t q (fun r => { r with partial_ := r.partial_ ++ slots, fetching := r.fetching - slots.length })) q))

/-- [R279] a reread slot arrives: when its GEN agrees the entry proceeds, otherwise it is read again. -/
def execSlotReread (q : Nat) (slot : List Byte) (s : State) : Res :=
  .next (finishDestroys (match ringOf s q with
    | none => s
    | some (f, r) =>
      match r.slotWait with
      | none => s
      | some k =>
        let t := readBack s f
        if genOk r.log2 (r.base0 + BitVec.ofNat 32 k) slot then
          assembleQueue (updRing t q (fun r => { r with slotWait := none, partial_ := r.partial_.set k slot })) q
        else rereadSlot t q))

/-- The entry at the head of `partial_`, ended before it is whole: `k` = 0 where not even slot 0 is known. -/
def Ring.broken (r : Ring) (srq : Bool) (k status : Nat) : Ent :=
  { parseEnt srq true r.base0 (r.partial_.take (if k = 0 then 1 else r.headSlots)) with
    op := if k = 0 then 0 else byteAt (r.partial_.headD []) 0, wqe := if k = 0 then 0xFFFF else BitVec.ofNat 16 (leAt (r.partial_.headD []) 4 2),
    status := status }

/-- [R279 R283 R290] SLOT_WAIT expires: MALFORMED with the entry's WQE_ID, or 0xFFFF when slot 0 never agreed; in ERROR the device stops
polling a queue pair's ring, while an SRQ's is polled on and its slot read again at a later INDEX. -/
def execSlotWaitExpire (q : Nat) (s : State) : Res :=
  .next (finishDestroys (match ringOf s q with
    | none => s
    | some (f, r) =>
      match r.slotWait with
      | none => s
      | some k =>
        if s.clk.now < r.waitAt + (s.hostEp (epOfFn s f)).slotWait then s
        else if isSrq s q && queueErr s q then
          updRing s q (fun r => { r with slotWait := none, partial_ := [], fetch := r.base0, held := some r.index })
        else if queueErr s q then updRing s q (fun r => { r with stopped := true, slotWait := none })
        else
          let t := count s .host (epOfFn s f) .slotWaitExpired
          let n := if k = 0 then 1 else r.headSlots
          let e := r.broken (isSrq s q) k stMALFORMED
          let t := updRing t q (fun r => { r with slotWait := none, partial_ := r.partial_.drop n, ents := r.ents ++ [e] })
          if isSrq s q then failRecv t q e stMALFORMED else failEnt t q e.idx stMALFORMED))

/-- The entry a list being read belongs to: of elements, or of extents for BIND_WINDOW. -/
def Ring.listEnt (r : Ring) (i : BitVec 32) : Option Ent := r.ents.find? (fun e => e.idx == i && e.chainRead && e.st == 0)

/-- An SRQ's or a send queue's entry ends with a status. -/
def failAny (s : State) (q : Nat) (e : Ent) (st : Nat) : State := if isSrq s q then failRecv s q e st else failEnt s q e.idx st

/-- [R275 R276] the elements of a chain list join the entry, or a limit or rule ends it. -/
def chainJoin (s : State) (f q : Nat) (e : Ent) (elems : List Sge) : State :=
  let want := (e.chain.map (·.2)).getD 0
  let l := elems.take want
  if !chainOk l || l.length != want then failAny s q e stMALFORMED
  else
    let last := l.getLast?
    let more := last.any isChain
    let all := e.sges ++ (if more then l.dropLast else l)
    let e' : Ent := { e with sges := all, chainRead := false, chain := if more then last.map (fun y => (y.off.toNat, y.len)) else none }
    let t := updEnt s q e.idx (fun _ => e')
    if 2 ^ 32 ≤ sgeLen all then failAny t q e stSGL_LIMIT
    else match e'.chain with
      | some (a, n) => followChain t q f e' a n (fun t st => failAny t q e st)
      | none => if isSrq s q then t else startAndSend t q

/-- [R276 R292] a chain list arrives; that of an entry that has ended meanwhile serves nothing. -/
def execChainListReadComplete (q : Nat) (elems : List Byte) (s : State) : Res :=
  .next (finishDestroys (match ringOf s q with
    | none => s
    | some (f, r) =>
      match r.chainQ with
      | (i, false) :: rest =>
        let t := readBack (updRing s q (fun r => { r with chainQ := rest })) f
        (r.listEnt i).elim t (fun e => chainJoin t f q e (decSges elems))
      | _ => s))

/-- [R294] the entry a failed read of a queue's structures belongs to: the one whose list is read, or the one whose first slot is known. -/
def Ring.current (r : Ring) (srq : Bool) : Option Ent :=
  match (r.chainQ.head?).bind (fun c => r.listEnt c.1) with
  | some e => some e
  | none => if !r.partial_.isEmpty && genOk r.log2 r.base0 (r.partial_.headD []) then some (r.broken srq 1 stHOST_TIMEOUT) else none

/-- [R294] what a failed read leaves of the ring: nothing is outstanding, and an entry that was known only in part is the last of the ring. -/
def Ring.readFailed (r : Ring) (srq : Bool) : Ring :=
  let r' := { r with reading := false, again := false, fetching := 0, slotWait := none, chainQ := [] }
  match (r.chainQ.head?).bind (fun c => r.listEnt c.1), r.current srq with
  | none, some e => { r' with partial_ := [], fetch := r.base0 + BitVec.ofNat 32 e.nslots, ents := r.ents ++ [e] }
  | _, _ => { r' with partial_ := [], fetch := r.base0 }

/-- [R283 R294] a host read of a queue's own structures fails. A queue that is in ERROR already reports it and is polled on. -/
def execHostReadError (q : Nat) (why : ReadFail) (s : State) : Res :=
  .next (finishDestroys (match why, getCq s q with
    | _, some c => errorCq (count (readBack s c.fn) .host (epOfFn s c.fn) .hostTimeout) q
    | _, none =>
      match ringOf s q with
      | none => s
      | some (f, r) =>
        let srq := isSrq s q
        let t := updRing (readBack s f) q (fun r => r.readFailed srq)
        if queueQuiesced s q then t
        else
          match getQp t q, r.current srq with
          | some _, some e => failEnt t q e.idx stHOST_TIMEOUT
          | some x, none => enterError (reportSend t q x 0xFFFF true 0 stHOST_TIMEOUT 0 []) q stHOST_TIMEOUT
          | none, some e => failRecv t q e stHOST_TIMEOUT
          | none, none => errorSrq (completeRecv t q 0xFFFF 0 0 stHOST_TIMEOUT 0 []) q stHOST_TIMEOUT 0xFFFF))

/-- [R280 R284] PARK_IDLE has passed at POLL_IDLE_MAX with nothing fetched or outstanding: the head record with PARKED, then one more poll. -/
def execParkIdleExpire (q : Nat) (s : State) : Res :=
  .next (match getQp s q with
    | none => s
    | some x =>
      let long := x.ring.maxAt.any (fun t => decide (t + (s.hostEp (epOfFn s x.fn)).parkIdle * 1000000 ≤ s.clk.now))
      if x.ring.poll == .backoff && long && x.idle && x.st == 1 && x.ring.index == x.ring.fetch && x.ring.fetching == 0 && x.ring.partial_.isEmpty &&
          x.ring.slotWait.isNone && !x.ring.parking then
        pollNow (writeHead (updRing s q (fun r => { r with parkedBit := true, parking := true })) q) q
      else s)

/-- [R285] the send queue is ready. -/
def readyQueue (s : State) (q : Nat) (x : Qp) : Bool :=
  x.st == 1 && x.resident &&
    (match x.ring.ents.find? (fun e => e.st == 1 && !e.cut && e.op != 0x20) with
     | some e => (sendOne s q x e).isSome
     | none =>
       match x.ring.next with
       | none => false
       | some e => fenceOk x.ring e && mayWork s q x && !e.chainRead && mayPass s x (nextPkt s x e))

/-- [R285] the next ready queue of an SL after the last served one, in rotation. -/
def nextReady (s : State) (quad sl : Nat) : Option Nat :=
  let ready := (s.ep.qps.cells.filter (fun kv => kv.2.any (fun x =>
    x.sl == sl && quadOfHost (hostOfFn x.fn) == quad && readyQueue s kv.1 x))).map (·.1)
  let last := (s.quad quad).lastServed.get sl
  match ready.find? (fun q => decide (last < q)) with
  | some q => some q
  | none => ready.head?

/-- [R285] the turn cycle of SL0 to SL2. -/
def turnCycle : List Nat := [1, 2, 1, 0, 1, 2, 1]

/-- [R285] the queue of the next selection and the turn position after it. -/
def selectTurn (s : State) (quad : Nat) : Option (Nat × Nat × Nat) :=
  match nextReady s quad 3 with
  | some q => some (q, 3, (s.quad quad).turn)
  | none =>
    (List.range 7).findSome? (fun i =>
      let pos := ((s.quad quad).turn + i) % 7
      (nextReady s quad (turnCycle.getD pos 0)).map (fun q => (q, turnCycle.getD pos 0, (pos + 1) % 7)))

/-- [R251 R267 R391] the queues with work that are passed over for want of tokens, or of a place among the working. -/
def noteWaits (s : State) (quad : Nat) : State :=
  s.ep.qps.cells.foldl (fun t kv =>
    match kv.2 with
    | some x =>
      if quadOfHost (hostOfFn x.fn) == quad && x.st == 1 then
        match x.ring.ents.find? (fun e => decide (e.st ≤ 1) && !e.cut) with
        | some e => noteShaper (noteWorking t kv.1 x) kv.1 x e
        | none => t
      else t
    | none => t) s

/-- [R251 R285] one selection of the host engine: packets that wait for tokens go on, and the chosen queue sends up to one turn. -/
def execQueueServiceTurn (quad : Nat) (s : State) : Res :=
  let s := noteWaits (pumpShapers s) quad
  guardRes (decide (quad < 4))
    (match selectTurn s quad with
     | none => s
     | some (q, sl, pos) =>
       let t := updQuad s quad (fun y => { y with turn := pos, lastServed := y.lastServed.set sl q })
       match useQueue t (((getQp s q).map (·.fn)).getD 0) q engHost with
       | .inl t => t
       | .inr t =>
       if (getQp s q).any (fun x => x.ring.ents.any (fun e => e.st == 1 && !e.cut && e.op != 0x20)) then sendTurn t q 300 turnBytes
       else startAndSend t q)

/-- [R286] merged head advances leave in one write. -/
def execHeadRecordWrite (q : Nat) (s : State) : Res :=
  .next (match getQp s q with
    | none => s
    | some x => if x.ring.headDue && x.st != 3 then finishDestroys (writeHead s q) else s)

/-- [R288] a full CQ's head record is read again. -/
def execCqHeadReread (cq : Nat) (s : State) : Res :=
  .next (match getCq s cq with
    | none => s
    | some c =>
      if c.full && !c.err && !c.quiesced && c.mode != 0 then
        match useLine s c.fn engHost false 1 cq with
        | .inl t => t
        | .inr s => count (readOut s c.fn c.headAddr 8 cq) .host (epOfFn s c.fn) .cqFullStall
      else s)

/-- [R288 R271] a CQ head record read returns: the cached head moves and waiting completions are written. -/
def execCqHeadReadComplete (cq : Nat) (head : List Byte) (s : State) : Res :=
  let head := decDbRec head
  .next (finishDestroys (match getCq s cq with
    | none => s
    | some c =>
      let t := readBack s c.fn
      if c.err || c.quiesced || c.mode == 0 then t
      else if head.epoch != c.epoch then count t .host (epOfFn s c.fn) .dbStale
      else match useLine t c.fn engHost true 1 cq with
      | .inl t => t
      | .inr t =>
        let t := updCq t cq (fun c => let c := { c with head := head.index }; if c.full then c else { c with fullAt := none })
        cqRelease t cq (c.waiting.length + 1)))

/-- [R288] the CQ has stayed full for CQ_FULL_TMO. -/
def execCqFullTimeout (cq : Nat) (s : State) : Res :=
  .next (finishDestroys (match getCq s cq with
    | none => s
    | some c =>
      let long := c.fullAt.any (fun t => decide (t + (s.hostEp (epOfFn s c.fn)).cqFull * 1000 ≤ s.clk.now))
      if c.full && long && !c.quiesced && c.mode != 0 then errorCq s cq else s))

/-- [R289] the end of a holdoff: one message for the writes that fell within it. -/
def execInterruptHoldoffEnd (fn vec : Nat) (s : State) : Res :=
  guardRes (fnExists s fn)
    (match (s.fn fn).holdoff.get vec with
     | 0 => s
     | 1 => updFn s fn (fun x => { x with holdoff := x.holdoff.set vec 0 })
     | _ => updFn (sendMsix s fn vec) fn (fun x => { x with holdoff := x.holdoff.set vec 1 }))

/-! ### The operations of the send queue -/

/-- [R302] start the queue's next entry when it is of opcode `op`, and send its first turn. -/
def startOp (s : State) (q op : Nat) : State :=
  if nextIs s q op then
    match useQueue s (((getQp s q).map (·.fn)).getD 0) q engHost with
    | .inl t => t
    | .inr t => startAndSend t q
  else s

/-- [R302] WRITE. -/
def execWrite (q : Nat) (s : State) : Res := .next (startOp s q 0x01)
/-- [R302] WRITE_WITH_COUNT. -/
def execWriteWithCount (q : Nat) (s : State) : Res := .next (startOp s q 0x02)
/-- [R302] READ. -/
def execRead (q : Nat) (s : State) : Res := .next (startOp s q 0x03)
/-- [R302] SEND. -/
def execSend (q : Nat) (s : State) : Res := .next (startOp s q 0x04)
/-- [R304] FETCH_ADD. -/
def execFetchAdd (q : Nat) (s : State) : Res := .next (startOp s q 0x05)
/-- [R304] CSWAP64. -/
def execCswap64 (q : Nat) (s : State) : Res := .next (startOp s q 0x06)
/-- [R304] CSWAP128. -/
def execCswap128 (q : Nat) (s : State) : Res := .next (startOp s q 0x07)
/-- [R322] COUNTER_FETCH. -/
def execCounterFetch (q : Nat) (s : State) : Res := .next (startOp s q 0x09)
/-- [R341] TSEND. -/
def execTsend (q : Nat) (s : State) : Res := .next (startOp s q 0x10)
/-- [R34 R362] a COLLECTIVE entry that may start uses its tree's entry. -/
def startCollective (s : State) (q : Nat) : State :=
  match ((getQp s q).bind (·.ring.next)).map (·.treeId) with
  | some id =>
    if nextIs s q 0x20 && (getTree s id).isSome then
      match useTree s id with
      | .inl t => t
      | .inr t => startOp t q 0x20
    else startOp s q 0x20
  | none => s

/-- [R362] COLLECTIVE. -/
def execCollective (q : Nat) (s : State) : Res := .next (startCollective s q)

end Sys2Proof.Machine
end

