-- ==== Sys2Proof/Machine/Onyx.lean ====
section
/-! DEFINITION. The meanings of Onyx's paging, the coherence messages, the scrubs and the end of a number's quarantine
(R389, R393 to R411). -/

namespace Sys2Proof.Machine

/-! ### Errors in stored state -/

/-- [R413] EV_CONTEXT_LOST. -/
def contextLostEvent (s : State) (home kind num f : Nat) : State := recordEv s .contextLost home kind num f

/-- [R410] a queue loses its context. -/
def loseQueue (s : State) (kind q : Nat) : State :=
  match getQp s q, getSrq s q, getCq s q with
  | some x, _, _ => queueToError (contextLostEvent s x.home kind q x.fn) q stCONTEXT_LOST
  | _, some r, _ => queueToError (contextLostEvent s r.home kind q r.fn) q stCONTEXT_LOST
  | _, _, some c => errorCqWith (contextLostEvent s c.home kind q c.fn) q stCONTEXT_LOST
  | _, _, _ => updEq s q (fun e => { e with lost := true })

/-- [R410] a queue map entry is lost: the queue goes to ERROR, or, where its context cannot be found without the entry, because only its image
exists, it is destroyed (DEDUCED, log 110). -/
def loseMapEntry (s : State) (q : Nat) : State :=
  match getQp s q with
  | some x => if x.resident || x.paging == 2 then loseQueue s 0 q else freeQp (contextLostEvent s x.home 0 q x.fn) q
  | none => loseQueue s 1 q

/-- [R410] the effect of losing what a line holds. -/
def loseContext (s : State) (l : LineId) : State :=
  match l.kind with
  | 0 => loseQueue s 0 l.num
  | 1 => loseQueue s 1 l.num
  | 2 => revokeWindow s l.num
  | 3 => foldS ((s.ep.qps.cells.filter (fun kv => kv.2.any (fun x => x.pd == l.num))).map (·.1)) s (fun s q => queueToError s q stCONTEXT_LOST)
  | 4 => queueToError s l.num stCONTEXT_LOST
  | 5 => breakTree s l.num 0xFFFF stCONTEXT_LOST
  | 7 => queueToError s l.num stCONTEXT_LOST
  | 8 => updSrq s l.num (fun r => { r with unexp := (List.range r.unexp.length).zip r.unexp |>.map (fun iu =>
      if iu.1 = l.idx then { iu.2 with lost := true } else iu.2) })
  | 9 => loseMapEntry s l.num
  | _ => s

/-- [R386] units of 32 B in a region of a stack. -/
def regionUnits (s : State) : Nat := if s.ident.h96 then 50331648 else 25165824

/-- [R386 R410] the address divided by 32 of what an uncorrectable read of a line lost: in a queue pair's slot, the line and one of its
four units of 32 B; elsewhere where Onyx has put the entry, within the regions of its area. -/
def lineUnit (s : State) (l : LineId) : Nat :=
  let f := (Config.lineAddress s.free).toNat
  match l.kind, getQp s l.num with
  | 0, some x => x.slot * 1536 + l.idx % 384 * 4 + f % 4
  | _, _ =>
    let r := lineRegions s l
    r.headD 0 * regionUnits s + f % (max 1 r.length * regionUnits s)

/-- [R410] an uncorrectable read of a line of a context on a stack, at an address divided by 32: counted, recorded, and the 32 B written anew. -/
def hbmLost (s : State) (stack : Nat) (l : LineId) (a : Nat) : State :=
  let s := drawn (count s .quadrant stack .hbmUe)
  let s := limited s .hbmUe stack oneSec (fun t n more => recordEv t .hbmUe stack stack a n 0 more)
  loseContext (emit s (.hbmZero stack a)) l

/-! ### Paging -/

/-- [R393] the image of a marked victim has left HBM. -/
def execEvictionComplete (q : Nat) (s : State) : Res := .next (evictDone s q)

/-- [R397] a control block rebuilt with zero transport state. -/
def rebuilt (x : Qp) : Qp :=
  { x with psn := 0, syn := true, msn := 0, pend := [], rtt := none, backoff := 0, rnr := 0, rnrPsn := none, cwnd := 262144, cutAt := none,
           paths := [], pathNext := 0, synced := false, expPsn := 0, bitmap := 0, ackDue := 0, ackTs := 0, ackQd := 0, rxMsgs := [],
           rxNext := 0, atomics := [], ctrs := { dflt := 0 } }

/-- [R397] the first check an image fails: 0 MAGIC, 1 number, 2 epoch, 3 CRC. -/
def almanacImageCheck (q epoch : Nat) (img : Bool × Nat × Nat × Bool) : Option Nat :=
  if !img.1 then some 0
  else if img.2.1 != q then some 1
  else if img.2.2.1 != epoch then some 2
  else if !img.2.2.2 then some 3
  else none

/-- [R393] the queue pair whose page-in has ended holds its slot, and its store slot is free. -/
def nowResident (s : State) (q : Nat) (x : Qp) : State :=
  let s := match x.image with
    | some i => updHost s (qpEp s x) (fun h => { h with images := h.images.set i none })
    | none => s
  updQp s q (fun x => { x with resident := true, paging := 0, image := none })

/-- [R118 R393] Onyx may not write the slot: the queue pair stays in its store, and the slot is free again. -/
def pageInDenied (s : State) (q : Nat) (x : Qp) (t : Nat) : State :=
  let s := updQuad (updQp s q (fun x => { x with paging := 0 })) x.home (fun y => { y with slotsUsed := y.slotsUsed - 1 })
  servePageIn (denied s (engineMaster x.home engOnyx) t) x.home

/-- [R292 R393 R397] an image returns from the store, or cannot be read. A queue pair being destroyed is freed instead. -/
def execPageInReadComplete (q : Nat) (img : Option (Bool × Nat × Nat × Bool)) (s : State) : Res :=
  .next (match getQp s q with
    | none => s
    | some x =>
      if x.paging != 2 then s
      else
        let s := readBack s (qpPf0 s x)
        let s := if img.isSome then count s .quadrant x.home .pageIn else s
        match slotDenied s x true with
        | some t => if x.destroy.isSome then finishDestroys (nowResident s q x) else pageInDenied s q x t
        | none =>
        let s := nowResident s q x
        if x.destroy.isSome then finishDestroys s
        else match img with
          | none => queueToError (updQp s q rebuilt) q stHOST_TIMEOUT
          | some i =>
            match almanacImageCheck q x.ring.epoch.toNat i with
            | some c =>
              let s := recordEv s .backingCorrupt x.home x.fn q c
              queueToError (updQp s q rebuilt) q stCONTEXT_LOST
            | none => if x.ring.poll == .none then s else pollNow s q)

/-! ### The caches and the directory -/

/-- A requester of the directory that is a cache of an ACTIVE quadrant. -/
def cacheOk (s : State) (c : Nat) : Bool := quadActive s c

/-- [R399] a dirty line not touched for 100 us is written back: it stays, clean, and its home's copy is current. -/
def execIdleWriteback (quad : Nat) (line : LineId) (s : State) : Res :=
  guardRes (decide (quad < 4))
    (let x := getLine s quad line
     if !cacheOk s quad || !x.dirty || x.phase != 0 || x.req.isSome || (getDir s line).busy || decide (s.clk.now < x.touched + 100000) then s
     else
       let o := x.st == .o
       let s := updLine s quad line (fun x => { x with dirty := false, st := if o then .s else .e, touched := s.clk.now })
       let s := updDir s line (fun d => if o then { d with st := .s, owner := 0 } else { d with st := .e })
       count s .quadrant ((lineHome s line).getD quad) .bgHbmBytes 128)

/-- [R404] a GET_S of a cache. -/
def execGetS (req : CacheId) (line : LineId) (s : State) : Res :=
  guardRes (decide (req < 4)) (if cacheOk s req then lookup s .getS req line else s)
/-- [R404] a GET_M of a cache. -/
def execGetM (req : CacheId) (line : LineId) (s : State) : Res :=
  guardRes (decide (req < 4)) (if cacheOk s req then lookup s .getM req line else s)
/-- [R404] an UPGRADE of a cache that holds the line in S or O. -/
def execUpgrade (req : CacheId) (line : LineId) (s : State) : Res :=
  guardRes (decide (req < 4))
    (let st := (getLine s req line).st
     if cacheOk s req && (st == .s || st == .o) then lookup s .upgrade req line else s)

/-- [R400 R404] a cache writes a dirty line back: WRITEBACK begins, and the home takes the data. -/
def execPut (req : CacheId) (line : LineId) (s : State) : Res :=
  guardRes (decide (req < 4))
    (match lineHome s line with
     | none => s
     | some home =>
       let x := getLine s req line
       if !cacheOk s req || !(x.st == .m || x.st == .o) || x.phase == 2 || x.req.isSome then s
       else sendReq (updLine s req line (fun x => { x with phase := 2 })) home .put req line)

/-- [R400 R404] a clean line leaves a cache, and the home removes the sharer. -/
def execPutClean (req : CacheId) (line : LineId) (s : State) : Res :=
  guardRes (decide (req < 4))
    (match lineHome s line with
     | none => s
     | some home =>
       let x := getLine s req line
       if !cacheOk s req || !(x.st == .s || x.st == .e) || x.phase == 2 || x.req.isSome then s
       else sendReq (updLine s req line (fun _ => {})) home .putClean req line)

/-- [R404] the state an owner keeps after FWD_S. -/
def Moesi.shared : Moesi → Moesi
  | .e => .s
  | .m => .o
  | st => st

/-- [R403] a FWD is on its way to a cache that holds the line no more, its PUT_CLEAN not yet taken by the home: it is answered all the
same. -/
def fwdToGone (s : State) (c : Nat) (line : LineId) : Bool := (getLine s c line).st == .i && (getDir s line).busy

/-- [R400 R403 R404] the effect of a FWD_S at an owner cache, from the line or from its write-back buffer. -/
def fwdShared (s : State) (owner req : Nat) (line : LineId) : State :=
  let x := getLine s owner line
  if fwdToGone s owner line then
    cohSend (updDir s line (fun d => if d.owner = owner then { d with st := .s, owner := 0 } else d)) mDATA owner req line 0
  else if x.st == .i || x.st == .s then s
  else
    let new := x.st.shared
    let s := updLine s owner line (fun x => { x with st := new })
    let s := updDir s line (fun d => { d with st := new, owner := if new = .o then owner else 0 })
    cohSend s mDATA owner req line 0

/-- [R404] FWD_S: the owner sends DATA and keeps S or O. -/
def execFwdS (owner req : CacheId) (line : LineId) (s : State) : Res :=
  guardRes (decide (owner < 4) && decide (req < 4)) (fwdShared s owner req line)

/-- [R400 R403 R404] FWD_M: the owner sends DATA and goes to I. A PUT under way ends with its PUT_ACK. -/
def execFwdM (owner req : CacheId) (line : LineId) (s : State) : Res :=
  guardRes (decide (owner < 4) && decide (req < 4))
    (let x := getLine s owner line
     if fwdToGone s owner line then cohSend s mDATA owner req line (getDir s line).acks
     else if x.st == .i || x.st == .s then s
     else
       let s := updLine s owner line (fun x => { x with st := .i, dirty := false, phase := if x.phase = 2 then 2 else 0 })
       cohSend s mDATA owner req line (getDir s line).acks)

/-- [R403 R404] INV: the sharer drops the line and ACKs the requester. -/
def execInv (sharer req : CacheId) (line : LineId) (s : State) : Res :=
  guardRes (decide (sharer < 4) && decide (req < 4))
    (if fwdToGone s sharer line then cohSend s mACK sharer req line 0
     else if (getLine s sharer line).st == .i then s
     else
       let s := updLine s sharer line (fun x => { x with st := .i, dirty := false, phase := if x.phase = 2 then 2 else 0 })
       cohSend s mACK sharer req line 0)

/-- [R404] an ACK reaches the requester. -/
def execCohAck (req : CacheId) (line : LineId) (s : State) : Res :=
  guardRes (decide (req < 4))
    (if (getLine s req line).req.isSome then finishReq (updLine s req line (fun x => { x with acks := x.acks + 1 })) req line else s)

/-- [R400] PUT_ACK: the leaving line is gone; a request that stalled behind it goes out again. -/
def execPutAck (req : CacheId) (line : LineId) (s : State) : Res :=
  guardRes (decide (req < 4))
    (let x := getLine s req line
     if x.phase != 2 then s
     else
       let s := updLine s req line (fun _ => {})
       match x.req with
       | some k => lookup s k req line
       | none => s)

/-- [R404] GRANT reaches the requester of an UPGRADE. -/
def execGrant (req : CacheId) (line : LineId) (acks : Nat) (s : State) : Res :=
  guardRes (decide (req < 4)) (answerReqst s req line acks .m)

/-- The state a DATA message names. -/
def moesiOf : Nat → Moesi
  | 0 => .i | 1 => .s | 2 => .e | 3 => .m | _ => .o

/-- [R404 R410] DATA reaches the requester; a home read that ECC cannot correct loses what the line holds. -/
def execCohData (req : CacheId) (line : LineId) (acks : Nat) (state : Nat) (ecc : Ecc) (s : State) : Res :=
  guardRes (decide (req < 4) && decide (state < 5))
    (let home := lineHome s line
     let asked := (getLine s req line).req.isSome
     let s := answerReqst s req line acks (moesiOf state)
     match ecc, home with
     | .uncorrectable, some h => if asked then hbmLost s h line (lineUnit s line) else s
     | _, _ => s)

/-- [R406] a CXL host snoop of a line the device owns: for its data (as FWD_S) or to invalidate it (as FWD_M). -/
def execHostSnoop (quad : Nat) (line : LineId) (invalidate : Bool) (s : State) : Res :=
  guardRes (decide (quad < 4))
    (let x := getLine s quad line
     if line.kind != 6 || x.st == .i then s
     else
     let s := lineOut s quad line
     if invalidate then
       let s := updLine s quad line (fun x => { x with st := .i, dirty := false, data := [], phase := if x.phase = 2 then 2 else 0 })
       let s := updDir s line (fun d => { d with st := .i, owner := 0, sharers := 0 })
       cohSend s mDATA quad 4 line 0
     else fwdShared s quad 4 line)

/-! ### Scrubs -/

/-- [R39] 64 B units of a stack. -/
def stackUnits (s : State) : Nat := if s.ident.h96 then 402653184 else 201326592

/-- 24 hours of model time. -/
def oneDay : Nat := 86400 * oneSec

/-- [R409] a corrected error in a row: the eighth within 24 h puts the row on the repair list. -/
def rowError (s : State) (stack row : Nat) : State :=
  let l := ((s.quad stack).rowErrs.get row).filter (fun t => decide (s.clk.now < t + oneDay)) ++ [s.clk.now]
  let s := updQuad s stack (fun y => { y with rowErrs := y.rowErrs.set row l })
  if 8 ≤ l.length ∧ !(s.quad stack).repairRows.contains row then updQuad s stack (fun y => { y with repairRows := y.repairRows ++ [row] }) else s

/-- [R386] the kinds of line the area of a stack address (64 B units) holds: queue-pair slots, windows, the unexpected pool, the tables;
nothing in Molzu's working area and the reserved regions. -/
def areaKinds (s : State) (a : Nat) : List Nat :=
  let r := a * 16 / stackUnits s
  if r < 8 then [0]
  else if s.ident.h96 then (if r = 8 then [2] else if r = 9 then [8] else if r = 10 then [1, 3, 4, 5, 7, 9] else [])
  else if r < 10 then [2]
  else if r < 12 then [8]
  else if r = 12 then [1, 3, 4, 5, 7, 9]
  else []

/-- [R386 R410] the context line at a stack address (64 B units): in a slot, the resident queue pair that holds it; elsewhere the number
and line that lie there are open, but not the kinds its area holds (log 7). -/
def patrolLine (s : State) (stack a : Nat) : Option LineId :=
  if areaKinds s a = [0] then
    (s.ep.qps.cells.find? (fun kv => kv.2.any (fun x => x.home == stack && x.resident && x.slot == a / 768))).map
      (fun kv => { kind := 0, num := kv.1, idx := a % 768 / 2 })
  else
    match Config.patrolContext s.free a with
    | some (k, n, i) => if (areaKinds s a).contains k then some { kind := k, num := n, idx := i } else none
    | none => none

/-- [R41 R42 R43 R409 R410] one patrol read of 64 B; a finished pass waits for the next one's start. -/
def execPatrolScrubRead (stack : Nat) (ecc : Ecc) (row : Nat) (s : State) : Res :=
  guardRes (decide (stack < 4))
    (let a := (s.quad stack).patrolAddr
     if !quadActive s stack || decide (stackUnits s ≤ a) then s
     else
       let s := updQuad s stack (fun y => { y with patrolAddr := a + 1 })
       match ecc with
       | .ok => count s .quadrant stack .bgHbmBytes 64
       | .corrected => rowError (count (count s .quadrant stack .hbmCe) .quadrant stack .bgHbmBytes 128) stack row
       | .uncorrectable =>
         let s := count s .quadrant stack .bgHbmBytes 64
         match patrolLine s stack a with
         | some l => if lineHome s l = some stack then hbmLost (drawn s) stack l (2 * a + (Config.lineAddress s.free).toNat % 2) else count (drawn s) .quadrant stack .hbmUe
         | none => count (drawn s) .quadrant stack .hbmUe)

/-- [R41 R43] a patrol pass starts at the stack's first address, 24 h after the one before it started. -/
def execPatrolPassStart (stack : Nat) (s : State) : Res :=
  guardRes (decide (stack < 4))
    (if quadActive s stack && decide ((s.quad stack).patrolStart + oneDay ≤ s.clk.now) then updQuad s stack (fun y => { y with patrolAddr := 0, patrolStart := s.clk.now }) else s)

/-- [R411] the scrub meets an error in a cached line or, where the quadrant's cache holds no such line, in its directory entry. -/
def execCacheScrubPass (quad : Nat) (line : LineId) (ecc : Ecc) (s : State) : Res :=
  guardRes (decide (quad < 4))
    (if !quadActive s quad then s
     else match ecc with
       | .ok => s
       | .corrected => count s .quadrant quad .ccCe
       | .uncorrectable =>
         let x := getLine s quad line
         let dir := x.st == .i && lineHome s line == some quad && (getDir s line).st != .i
         if x.st != .i && !x.dirty then
           updDir (updLine s quad line (fun _ => {})) line (fun d => d.without quad)
         else if x.st != .i || dir then
           let s := count s .quadrant quad .ccUe
           let s := if dir then s else updDir (updLine s quad line (fun _ => {})) line (fun d => d.without quad)
           hbmLost s ((lineHome s line).getD quad) line (lineUnit s line)
         else s)

/-! ### Numbers -/

/-- [R319 R389] a second has passed since a queue number (space 0) or a window index (space 1) was freed. -/
def execNumberQuarantineEnd (space num : Nat) (s : State) : Res :=
  guardRes (decide (space < 2))
    (updEp s (fun e => if space = 0 then { e with qnums := e.qnums.endQuarantine num } else { e with wnums := e.wnums.endQuarantine num }))

end Sys2Proof.Machine
end

