-- ==== Sys2Proof/Machine/PowerSteps.lean ====
section
/-! DEFINITION. Meanings of the power-step grants and of the wake batch they govern (R177, R496 to R498, R505). -/

namespace Sys2Proof.Machine

/-- [R497] NOTICE_LEAD has passed since the strobe. -/
def leadPassed (s : State) (g : Nat) : Bool := decide ((getStep s g).stbAt + 2000 ≤ s.clk.now)

/-- [R498 R505] with a grant held and the lead past, the rest of the rise is taken at once. -/
def useGrant (s : State) (g : Nat) : State :=
  let x := getStep s g
  if x.grant.isSome && isRise x.code && !x.used then count (updStep s g (fun y => { y with used := true })) .device 0 .pstepGrant else s

/-- [R497] PSTEP_ACK rises: a grant where a rise is notified and ACK was low at its strobe. -/
def execPstepAckRise (g : Nat) (s : State) : Res :=
  let x := getStep s g
  let t := updStep s g (fun y => { y with ack := true, grant := if isRise x.code && !x.armLow then some s.clk.now else y.grant })
  guardRes (decide (g < 2)) (if x.ack then s else if leadPassed t g then useGrant t g else t)

/-- [R497] PSTEP_ACK falls: its next rise counts. -/
def execPstepAckFall (g : Nat) (s : State) : Res := guardRes (decide (g < 2)) (updStep s g (fun y => { y with ack := false, armLow := false }))

/-- [R497 R498] NOTICE_LEAD after the strobe. -/
def execNoticeLeadExpire (g : Nat) (s : State) : Res := guardRes (decide (g < 2)) (if leadPassed s g then useGrant s g else s)

/-- [R497] GRANT_HOLD: a grant ends, and an ACK still high is recorded. -/
def execGrantHoldExpire (g : Nat) (s : State) : Res :=
  let t := updStep s g (fun y => { y with grant := none })
  guardRes (decide (g < 2)) (if (getStep s g).ack then recordEv t .pstepAckStuck svcDie g else t)

/-- [R497] the notified step is done. -/
def execPstepStepDone (g : Nat) (s : State) : Res := guardRes (decide (g < 2)) (endStep s g)

/-- [R177 R498] 100 ns have passed: waiting ports start up to 32 lanes, or all of them under a grant notified in time; where lanes wait, the
rise they make is forecast. -/
def execWakeBatch (s : State) : Res :=
  let ps := waitingPorts s
  let lanes := (ps.map (fun p => (startsOf s p).length)).sum
  let s := if lanes = 0 ∨ (getStep s 1).rise ≠ 0 then s else forecast s 1 lanes
  .next (if (getStep s 1).grant.isSome && leadPassed s 1 then foldS ps (useGrant s 1) startPort else serveBatch s 32 ps)

end Sys2Proof.Machine
end

