-- ==== Sys2Proof/Machine/Quadrants.lean ====
section
/-! DEFINITION. Meanings of gating, ungating and retiring a quadrant, with Onyx's rehoming (R22, R43, R72 to R75, R389, R407, R479). -/

namespace Sys2Proof.Machine

/-! ### Rooms on a stack (R386, R388) -/

/-- [R333 R344 R387] entries per stack of the receive store, the chunks of the pool and the context lists. -/
def storeTop : Nat := 4194304
def chunkTop : Nat := 1572864
def ctxListTop : Nat := 262144

/-- [R73 R407] the kinds of space a gating quadrant's contexts need: what is used on a stack, and what a stack holds. -/
def stackSpaces (s : State) : List ((Quad → Nat) × Nat) :=
  [(Quad.slotsUsed, qpSlots s), (Quad.smallUsed, smallMax), (Quad.winUsed, winMax), (Quad.pdUsed, pdMax), (Quad.streamUsed, streamMax),
   (Quad.storeUsed, storeTop), (Quad.chunksUsed, chunkTop), (Quad.ctxListUsed, ctxListTop)]

/-- The quadrants that stay in service while `q` leaves it. -/
def staying (s : State) (q : Nat) : List Nat := (List.range 4).filter (fun k => k != q && quadActive s k && (s.quad k).stage == .idle)

/-- [R73] check 4. -/
def rehomeRoom (s : State) (q : Nat) : Bool :=
  (stackSpaces s).all (fun e => decide (e.1 (s.quad q) ≤ ((staying s q).map (fun k => e.2 - e.1 (s.quad k))).sum))

/-- [R407] the stack with the most free entries: the least used, the lowest number first. -/
def roomiest (s : State) (q : Nat) (used : Quad → Nat) : Nat :=
  ((staying s q).foldl (fun (b : Option Nat) k => match b with
    | none => some k
    | some j => if used (s.quad k) < used (s.quad j) then some k else some j) none).getD q

/-! ### Rehoming (R407) -/

/-- One context leaves stack `q` for stack `h`: a change of what each holds. -/
def moveSpace (s : State) (q h : Nat) (less more : Quad → Quad) : State := updQuad (updQuad s q less) h more

/-- [R389 R407] recall the lines of a numbered context and of its queue map entry, which will name another home. -/
def recallCtx (s : State) (q kind n : Nat) : State := recallLines (recallLines s q kind n) (stripeHome s n) 9 n

/-- [R407] a stream entry goes to the stack with the most free ones. -/
def rehomeStrm (s : State) (q n : Nat) : State :=
  match getQp s n with
  | none => s
  | some x =>
    if x.strm ≠ q ∨ x.garnet = false then s
    else
      let h := roomiest s q Quad.streamUsed
      let t := moveSpace s q h (fun y => { y with streamUsed := y.streamUsed - 1 }) (fun y => { y with streamUsed := y.streamUsed + 1 })
      updQp (recallLines t q 4 n) n (fun x => { x with strm := h })

/-- [R407] a queue pair: its slot and its place among the waiting page-ins; an image of a function of the gated quadrant is abandoned. A slot
that was leaving stays. -/
def rehomeQp (s : State) (q n : Nat) : State :=
  match getQp s n with
  | none => s
  | some x =>
    if x.home ≠ q then s
    else
      let h := roomiest s q Quad.slotsUsed
      let slot := if x.resident || x.paging == 2 then 1 else 0
      let waits := (s.quad q).pageInWait.contains n
      let t := moveSpace s q h
        (fun y => { y with slotsUsed := y.slotsUsed - slot, pageInWait := y.pageInWait.filter (· != n) })
        (fun y => { y with slotsUsed := y.slotsUsed + slot, pageInWait := if waits then y.pageInWait ++ [n] else y.pageInWait })
      let own := quadOfHost (hostOfFn x.fn) == q
      let t := match x.image with
        | some i => if own && !x.resident then updHost t (qpEp s x) (fun y => { y with images := y.images.set i none }) else t
        | none => t
      let held := freeSlotOf s h
      updQp (recallCtx t q 0 n) n (fun x => { x with
        home := h, slot := if slot = 1 then held else x.slot, marked := false, paging := if x.paging = 3 then 0 else x.paging, image := if own && !x.resident then none else x.image })

/-- [R344 R407] a list of chunks cut into pieces of stated lengths. -/
def deal : List Nat → List Nat → List (List Nat)
  | _, [] => []
  | free, n :: ns => free.take n :: deal (free.drop n) ns

/-- [R344 R407] the messages that wait for release on the streams of an SRQ take their new chunks in turn. -/
def rechunk (s : State) : List Nat → List (List Nat) → State
  | [], _ => s
  | q :: qs, cs =>
    rechunk (updQp s q (fun x => { x with waiting := List.zipWith (fun w c => { w with pool := c }) x.waiting cs })) qs
      (cs.drop (((getQp s q).map (·.waiting.length)).getD 0))

/-- [R407] the copy of Garnet's entries and chunks takes free places of the new stack. -/
def renumber (s : State) (h n : Nat) (r : Srq) : State :=
  let es := lowestFree (usedEntries s h) (r.posted.length + r.unexp.length)
  let carriers := (s.ep.qps.cells.filter (fun kv => kv.2.any (fun x => x.srq == some n))).map (·.1)
  let held := carriers.flatMap (fun q => ((getQp s q).elim [] (·.waiting)).map (·.pool.length))
  let cs := deal (lowestFree (usedChunks s h) ((r.unexp.map (·.pool.length)).sum + held.sum)) (r.unexp.map (·.pool.length) ++ held)
  let t := updSrq s n (fun r => { r with
    home := h,
    posted := List.zipWith (fun p i => { p with idx := i }) r.posted es,
    unexp := List.zipWith (fun u (i : Nat × List Nat) => { u with idx := i.1, pool := i.2 }) r.unexp ((es.drop r.posted.length).zip cs) })
  rechunk t carriers (cs.drop r.unexp.length)

/-- [R407] an SRQ, with its posted receives, unexpected messages, pool chunks and context lists. -/
def rehomeSrq (s : State) (q n : Nat) : State :=
  match getSrq s n with
  | none => s
  | some r =>
    if r.home ≠ q then s
    else
      let h := roomiest s q Quad.smallUsed
      let held := (s.ep.qps.cells.filterMap (fun kv => kv.2.bind (fun x => if x.srq = some n then some ((x.waiting.map (·.pool.length)).sum) else none))).sum
      let chunks := (r.unexp.map (·.pool.length)).sum + held
      let t := moveSpace s q h
        (fun y => { y with smallUsed := y.smallUsed - 1, storeUsed := y.storeUsed - r.entries, ctxListUsed := y.ctxListUsed - r.ctxs.length, chunksUsed := y.chunksUsed - chunks })
        (fun y => { y with smallUsed := y.smallUsed + 1, storeUsed := y.storeUsed + r.entries, ctxListUsed := y.ctxListUsed + r.ctxs.length, chunksUsed := y.chunksUsed + chunks })
      renumber (recallLines (recallLines (recallCtx t q 1 n) q 7 n) q 8 n) h n r

/-- One small context (CQ or EQ), or a PD, or a window, leaves the stack. -/
def moveSmall (s : State) (q : Nat) : State × Nat :=
  let h := roomiest s q Quad.smallUsed
  (moveSpace s q h (fun y => { y with smallUsed := y.smallUsed - 1 }) (fun y => { y with smallUsed := y.smallUsed + 1 }), h)

def rehomeCq (s : State) (q n : Nat) : State :=
  match getCq s n with
  | none => s
  | some c => if c.home ≠ q then s else updCq (recallCtx (moveSmall s q).1 q 1 n) n (fun c => { c with home := (moveSmall s q).2 })

def rehomeEq (s : State) (q n : Nat) : State :=
  match s.ep.eqs.get n with
  | none => s
  | some c => if c.home ≠ q then s else updEq (recallCtx (moveSmall s q).1 q 1 n) n (fun c => { c with home := (moveSmall s q).2 })

def rehomePd (s : State) (q n : Nat) : State :=
  match s.ep.pds.get n with
  | none => s
  | some d =>
    if d.home ≠ q then s
    else
      let h := roomiest s q Quad.pdUsed
      let t := moveSpace s q h (fun y => { y with pdUsed := y.pdUsed - 1 }) (fun y => { y with pdUsed := y.pdUsed + 1 })
      updEp (recallLines t q 3 n) (fun e => { e with pds := e.pds.set n (some { d with home := h }) })

def rehomeWin (s : State) (q n : Nat) : State :=
  match (s.ep.wins.get n).win with
  | none => s
  | some w =>
    if w.home ≠ q then s
    else
      let h := roomiest s q Quad.winUsed
      let t := moveSpace s q h (fun y => { y with winUsed := y.winUsed - 1 }) (fun y => { y with winUsed := y.winUsed + 1 })
      updEp (recallLines t q 2 n) (fun e => { e with wins := e.wins.upd n (fun x => { x with win := some { w with home := h } }) })

/-- Keys of a table, ascending. -/
def keysOfTbl {α : Type} (t : Tbl α) : List Nat := t.cells.map (·.1)

/-- [R389 R407] the stack's queue map stripe moves: its entries' lines are recalled. -/
def moveStripe (s : State) (q : Nat) : State :=
  (s.ep.kinds.cells.filter (fun kv => stripeHome s kv.1 == q)).foldl (fun t kv => recallLines t q 9 kv.1) s

/-- [R407] every context homed in a quadrant moves. -/
def rehomeAll (s : State) (q : Nat) : State :=
  let t := foldS (keysOfTbl s.ep.qps) (moveStripe s q) (fun s n => rehomeStrm (rehomeQp s q n) q n)
  let t := foldS (keysOfTbl s.ep.srqs) t (fun s n => rehomeSrq s q n)
  let t := foldS (keysOfTbl s.ep.cqs) t (fun s n => rehomeCq s q n)
  let t := foldS (keysOfTbl s.ep.eqs) t (fun s n => rehomeEq s q n)
  let t := foldS (keysOfTbl s.ep.pds) t (fun s n => rehomePd s q n)
  foldS (keysOfTbl s.ep.wins) t (fun s n => rehomeWin s q n)

/-- The lines a quadrant's cache holds are gone, and the directories no longer name it. -/
def dropCacheOf (s : State) (q : Nat) : State :=
  let s := (s.ep.collRx.get q).foldl (fun t x => freeOrigin t x.orig) s
  updEp (updQuad s q (fun x => { x with treeCache := [] })) (fun e => { e with
    cache := e.cache.eraseIf (fun k _ => k / 2 ^ 100 == q)
    dir := e.dir.mapCells (fun _ d =>
      let sh := d.sharers &&& ~~~ bit5 q
      let owned := match d.st with | .e | .m | .o => d.owner == q | _ => false
      let st := if owned || d.st == .s then (if sh = 0 then Moesi.i else if owned then .s else d.st) else d.st
      { d with st := st, owner := if owned then 0 else d.owner, sharers := sh, wait := d.wait.filter (fun w => w.2 != q) })
    collRx := e.collRx.set q []
    collTx := e.collTx.set q [] })

/-! ### MB_QUAD_GATE and MB_QUAD_RETIRE -/

/-- [R22 R73] Q0 or Q2 stays ACTIVE when `q` leaves service. -/
def serviceKept (s : State) (q : Nat) : Bool := (staying s q).any (fun k => k == 0 || k == 2)

/-- [R73] functions of both host ports of a quadrant. -/
def fnsOfQuad (s : State) (q : Nat) : List Nat := ((List.range 4).map (4 * q + ·)).flatMap (fnsOfEp s)

/-- The configured ports of a quadrant. -/
def portsOfQuad (s : State) (q : Nat) : List Nat := (portsOf s).filter (fun p => quadOfLane p == q)

/-- [R73 R523] gating begins: every network port of the quadrant drains. The DOWN this gives a port is not written to its stored STATE
(DESIGN CHOICE, log 109). -/
def beginGate (s : State) (q : Nat) : State :=
  foldS (portsOfQuad s q) (updQuad s q (fun x => { x with stage := .draining }))
    (fun s p => portDown (updPort s p (fun x => { x with up := false, again := false })) p)

/-- [R73 R74 R123] MB_QUAD_GATE. -/
def doQuadGate (s : State) (c : MbCmd) : MbAns :=
  let q := byteAt c.payload 0
  let on := byteAt c.payload 1 == 1
  let st := (s.quad q).st
  if quadBusy s q then ansFail s stWRONG_STATE
  else if st = 2 then ansFail s stWRONG_STATE
  else if st = (if on then 1 else 0) then ansOk s
  else if on then
    if !serviceKept s q then ansFail s stQUADRANT_LAST_SERVICE
    else if (fnsOfQuad s q).any (fun f => (s.fn f).bme) then ansFail s stHOST_ACTIVE
    else if s.ep.trees.cells.any (fun kv => kv.2.isSome && kv.1 % 4 == q) then ansFail s stTREES_HOMED
    else if !rehomeRoom s q then ansFail s stNO_REHOME_SPACE
    else accept (beginGate s q) c (.quadGate q) true stSUCCESS false
  else accept (forecast (updQuad s q (fun x => { x with stage := .ungating })) 0 1) c (.quadUngate q) true stSUCCESS false

def execMbQuadGate (s : State) : Res :=
  .next (mbRun s 0x0807 (fun l => lenIs 4 [(2, 2)] l && decide (byteAt l 0 < 4) && decide (byteAt l 1 < 2)) [(tgtDEVICE, true)] doQuadGate)

/-- [R75 R123] MB_QUAD_RETIRE: a record for the next cold start; records that would retire both Q0 and Q2 are refused. -/
def doQuadRetire (s : State) (c : MbCmd) : MbAns :=
  let q := byteAt c.payload 0
  let m := BitVec.ofNat 4 (2 ^ q)
  let r := if byteAt c.payload 1 = 1 then s.cfg.retire ||| m else s.cfg.retire &&& ~~~ m
  if quadBusy s q then ansFail s stWRONG_STATE
  else if byteAt c.payload 1 = 1 ∧ r.getLsbD 0 ∧ r.getLsbD 2 then ansFail s stQUADRANT_LAST_SERVICE
  else withConfig s (ansOk (storeCfg s (fun g => { g with retire := r })))

def execMbQuadRetire (s : State) : Res :=
  .next (mbRun s 0x0808 (fun l => lenIs 4 [(2, 2)] l && decide (byteAt l 0 < 4) && decide (byteAt l 1 < 2)) [(tgtDEVICE, true), (tgtCONFIG, true)] doQuadRetire)

/-! ### The steps of gating and ungating -/

/-- [R73] every network port of the quadrant is DOWN: rehoming begins. -/
def execQuadPortsDrained (q : Nat) (s : State) : Res :=
  guardRes (decide (q < 4))
    (if (s.quad q).stage == .draining && (portsOfQuad s q).all (fun p => (s.port p).link == .down) then updQuad s q (fun x => { x with stage := .rehoming }) else s)

/-- [R407] the contexts are moved, and the die is about to be gated. -/
def execQuadRehomeDone (q : Nat) (s : State) : Res :=
  guardRes (decide (q < 4))
    (if (s.quad q).stage == .rehoming then forecastFall (updQuad (rehomeAll s q) q (fun x => { x with stage := .gating })) 0 1 else s)

/-- [R72 R73 R407 R470] the die and its stack are off: lanes OFF, host links down, the stack's contents and the buffered records lost. -/
def gateOff (s : State) (q : Nat) : State :=
  let t := foldS (((List.range 4).map (4 * q + ·)).filter (epExists s)) s hostDown
  let t := foldS ((List.range 128).map (128 * q + ·)) t offLane
  let t := foldS ((List.range 16).map (16 * q + ·)) t (fun s o => updOctet s o (fun x => { x with pll := false }))
  updQuad (dropCacheOf t q) q (fun x =>
    { st := 1, patrolAddr := x.patrolAddr, patrolStart := x.patrolStart, gatedAt := s.clk.now, evLost := x.evLost + x.evBuf.length, repairRows := x.repairRows })

/-- [R73] the quadrant is GATED: EV_QUAD_GATED. -/
def execQuadGateDone (q : Nat) (s : State) : Res :=
  guardRes (decide (q < 4)) (if (s.quad q).stage == .gating then recordEv (gateOff s q) .quadGated svcDie q else s)

/-- [R479] the quadrant whose instance a counter belongs to, by its key. -/
def ctrQuad (key : Nat) : Option Nat :=
  let i := key / 2 ^ 16 % 2 ^ 24
  let k := key % 2 ^ 16
  match Scope.ofCode (key / 2 ^ 40) with
  | some .port => some (quadOfLane (if (portCounters[k]?).any perSl then i / 4 else i))
  | some .lane => some (quadOfLane i)
  | some .octet => some (i / 16)
  | some .host => some (quadOfEp i)
  | some .quadrant => some i
  | some .shaper => some (i / 4096)
  | _ => none

/-- [R43 R74 R169 R470 R479] the die and stack are powered and trained: ACTIVE again, ports and host ports DOWN, the lanes of ports with a
role powered, its counters from zero; records lost at gating are counted, and the patrol goes on where it stopped or, after more than a day,
makes a pass at once. -/
def execQuadUngateTrained (q : Nat) (s : State) : Res :=
  let x := s.quad q
  let t := { s with ctrs := s.ctrs.eraseIf (fun k _ => ctrQuad k == some q) }
  let t := foldS ((List.range 16).map (16 * q + ·)) t (fun s o => updOctet s o (fun x => { x with pll := true }))
  let late := decide (x.gatedAt + 86400 * oneSec < s.clk.now)
  let t := updQuad t q (fun x => { x with
    st := 0, stage := .idle, refOk := true, evLost := 0, patrolAddr := if late then 0 else x.patrolAddr, patrolStart := if late then s.clk.now else x.patrolStart })
  let t := if x.evLost = 0 then t else count t .quadrant q .eventLost x.evLost
  let t := foldS (portsOfQuad t q) t (fun s p => relane s [] p)
  guardRes (decide (q < 4)) (if x.stage == .ungating then endStep t 0 else s)

end Sys2Proof.Machine
end

