-- ==== Sys2Proof/Machine/Dispatch.lean ====
section
/-! DEFINITION. The dispatcher: one arm per command, each one direct call of the command's meaning. -/

namespace Sys2Proof.Machine

/-- The effect of a command on everything but the queue. -/
def exec (i : Instr) (s : State) : Host.Outcome State Fault Refusal :=
  match i with
  | .porstNAssert => Sys2Proof.Machine.execPorstNAssert s
  | .coldStart straps => Sys2Proof.Machine.execColdStart straps s
  | .rootPllLock => Sys2Proof.Machine.execRootPllLock s
  | .bootRomConfigRead newerCopyOk => Sys2Proof.Machine.execBootRomConfigRead newerCopyOk s
  | .serviceDieSelfTest => Sys2Proof.Machine.execServiceDieSelfTest s
  | .quadrantPowerUp q => Sys2Proof.Machine.execQuadrantPowerUp q s
  | .quadrantArraySelfTest => Sys2Proof.Machine.execQuadrantArraySelfTest s
  | .hbmTraining => Sys2Proof.Machine.execHbmTraining s
  | .imageSelection a b golden => Sys2Proof.Machine.execImageSelection a b golden s
  | .molzuStart vkeepLost => Sys2Proof.Machine.execMolzuStart vkeepLost s
  | .hbmClearing => Sys2Proof.Machine.execHbmClearing s
  | .laneCalibration => Sys2Proof.Machine.execLaneCalibration s
  | .quadrantInitialisation => Sys2Proof.Machine.execQuadrantInitialisation s
  | .fwReadySet => Sys2Proof.Machine.execFwReadySet s
  | .warmRstNAssert => Sys2Proof.Machine.execWarmRstNAssert s
  | .warmStart => Sys2Proof.Machine.execWarmStart s
  | .bootTmoExpire => Sys2Proof.Machine.execBootTmoExpire s
  | .watchdogExpire => Sys2Proof.Machine.execWatchdogExpire s
  | .antiRollbackRaise => Sys2Proof.Machine.execAntiRollbackRaise s
  | .perstNAssert h => Sys2Proof.Machine.execPerstNAssert h s
  | .hostLinkDown ep => Sys2Proof.Machine.execHostLinkDown ep s
  | .hostLinkUp ep speed width => Sys2Proof.Machine.execHostLinkUp ep speed width s
  | .configRequest r => Sys2Proof.Machine.execConfigRequest r s
  | .busMasterEnableClear fn => Sys2Proof.Machine.execBusMasterEnableClear fn s
  | .flr fn => Sys2Proof.Machine.execFlr fn s
  | .flrComplete fn => Sys2Proof.Machine.execFlrComplete fn s
  | .lateCompletion fn => Sys2Proof.Machine.execLateCompletion fn s
  | .flashReqAssert => Sys2Proof.Machine.execFlashReqAssert s
  | .flashGntAssert => Sys2Proof.Machine.execFlashGntAssert s
  | .flashReqDeassert => Sys2Proof.Machine.execFlashReqDeassert s
  | .registerWrite m off bytes => Sys2Proof.Machine.execRegisterWrite m off bytes s
  | .windowRead m off width => Sys2Proof.Machine.execWindowRead m off width s
  | .statusCauseWrite m val => Sys2Proof.Machine.execStatusCauseWrite m val s
  | .statusMaskWrite m val => Sys2Proof.Machine.execStatusMaskWrite m val s
  | .msixUnmask fn vec => Sys2Proof.Machine.execMsixUnmask fn vec s
  | .mailboxDoorbell m val => Sys2Proof.Machine.execMailboxDoorbell m val s
  | .nudgeWrite fn idx => Sys2Proof.Machine.execNudgeWrite fn idx s
  | .aqSqTailWrite fn val => Sys2Proof.Machine.execAqSqTailWrite fn val s
  | .aqCqHeadWrite fn val => Sys2Proof.Machine.execAqCqHeadWrite fn val s
  | .aqEnableSet fn irqEn => Sys2Proof.Machine.execAqEnableSet fn irqEn s
  | .aqEnableClear fn irqEn => Sys2Proof.Machine.execAqEnableClear fn irqEn s
  | .aqCommandFetch fn r => Sys2Proof.Machine.execAqCommandFetch fn r s
  | .timeFtLoRead m => Sys2Proof.Machine.execTimeFtLoRead m s
  | .snapCtrlArm m => Sys2Proof.Machine.execSnapCtrlArm m s
  | .snapCtrlCancel m => Sys2Proof.Machine.execSnapCtrlCancel m s
  | .eventData7Read m => Sys2Proof.Machine.execEventData7Read m s
  | .counterLoRead m k => Sys2Proof.Machine.execCounterLoRead m k s
  | .laneCfgWrite m val => Sys2Proof.Machine.execLaneCfgWrite m val s
  | .octetTimersWrite m val => Sys2Proof.Machine.execOctetTimersWrite m val s
  | .portSharedLimitsWrite m val => Sys2Proof.Machine.execPortSharedLimitsWrite m val s
  | .hostBackingWrite m off val => Sys2Proof.Machine.execHostBackingWrite m off val s
  | .mbIdentGet => Sys2Proof.Machine.execMbIdentGet s
  | .mbCapsGet => Sys2Proof.Machine.execMbCapsGet s
  | .mbOctetSet => Sys2Proof.Machine.execMbOctetSet s
  | .mbPortSet => Sys2Proof.Machine.execMbPortSet s
  | .mbPortGet => Sys2Proof.Machine.execMbPortGet s
  | .mbHostModeStore => Sys2Proof.Machine.execMbHostModeStore s
  | .mbPartitionSet => Sys2Proof.Machine.execMbPartitionSet s
  | .mbRouteWrite => Sys2Proof.Machine.execMbRouteWrite s
  | .mbRouteCommit => Sys2Proof.Machine.execMbRouteCommit s
  | .mbRouteStatus => Sys2Proof.Machine.execMbRouteStatus s
  | .mbRouteAbandon => Sys2Proof.Machine.execMbRouteAbandon s
  | .mbTimeSet => Sys2Proof.Machine.execMbTimeSet s
  | .mbTimeStatus => Sys2Proof.Machine.execMbTimeStatus s
  | .mbSnapArm => Sys2Proof.Machine.execMbSnapArm s
  | .mbSnapCancel => Sys2Proof.Machine.execMbSnapCancel s
  | .mbEqxSet => Sys2Proof.Machine.execMbEqxSet s
  | .mbAlmanacLoad => Sys2Proof.Machine.execMbAlmanacLoad s
  | .mbAlmanacGet => Sys2Proof.Machine.execMbAlmanacGet s
  | .mbShaperSet => Sys2Proof.Machine.execMbShaperSet s
  | .mbPolicerSet => Sys2Proof.Machine.execMbPolicerSet s
  | .mbSlWeightsSet => Sys2Proof.Machine.execMbSlWeightsSet s
  | .mbTreeSetup => Sys2Proof.Machine.execMbTreeSetup s
  | .mbTreeTeardown => Sys2Proof.Machine.execMbTreeTeardown s
  | .mbTreeGet => Sys2Proof.Machine.execMbTreeGet s
  | .mbEventClearNonce => Sys2Proof.Machine.execMbEventClearNonce s
  | .mbEventClear sigOk => Sys2Proof.Machine.execMbEventClear sigOk s
  | .mbTelemetryGet => Sys2Proof.Machine.execMbTelemetryGet s
  | .mbLifeGet => Sys2Proof.Machine.execMbLifeGet s
  | .mbFwUpdateBegin => Sys2Proof.Machine.execMbFwUpdateBegin s
  | .mbFwUpdateWrite queueFull => Sys2Proof.Machine.execMbFwUpdateWrite queueFull s
  | .mbFwUpdateEnd img => Sys2Proof.Machine.execMbFwUpdateEnd img s
  | .mbFwActivate img => Sys2Proof.Machine.execMbFwActivate img s
  | .mbMeasureGet => Sys2Proof.Machine.execMbMeasureGet s
  | .mbAccessSet => Sys2Proof.Machine.execMbAccessSet s
  | .mbAccessGet => Sys2Proof.Machine.execMbAccessGet s
  | .mbConfigRead => Sys2Proof.Machine.execMbConfigRead s
  | .mbConfigExport => Sys2Proof.Machine.execMbConfigExport s
  | .mbConfigExportRead => Sys2Proof.Machine.execMbConfigExportRead s
  | .mbConfigImportWrite => Sys2Proof.Machine.execMbConfigImportWrite s
  | .mbConfigImportCommit => Sys2Proof.Machine.execMbConfigImportCommit s
  | .mbGroupRoleSet => Sys2Proof.Machine.execMbGroupRoleSet s
  | .mbFeaSet => Sys2Proof.Machine.execMbFeaSet s
  | .mbQuadGate => Sys2Proof.Machine.execMbQuadGate s
  | .mbQuadRetire => Sys2Proof.Machine.execMbQuadRetire s
  | .mbChainStatus => Sys2Proof.Machine.execMbChainStatus s
  | .mbPrbsSet => Sys2Proof.Machine.execMbPrbsSet s
  | .mbPrbsGet bits errs => Sys2Proof.Machine.execMbPrbsGet bits errs s
  | .mbLoopbackSet => Sys2Proof.Machine.execMbLoopbackSet s
  | .mbErrInject => Sys2Proof.Machine.execMbErrInject s
  | .mbInvalidOpcode => Sys2Proof.Machine.execMbInvalidOpcode s
  | .cmdDone m tag => Sys2Proof.Machine.execCmdDone m tag s
  | .stagingIdleTimeout importBuf => Sys2Proof.Machine.execStagingIdleTimeout importBuf s
  | .nonceExpire => Sys2Proof.Machine.execNonceExpire s
  | .fwUpdateIdleTimeout => Sys2Proof.Machine.execFwUpdateIdleTimeout s
  | .quadPortsDrained q => Sys2Proof.Machine.execQuadPortsDrained q s
  | .quadRehomeDone q => Sys2Proof.Machine.execQuadRehomeDone q s
  | .quadGateDone q => Sys2Proof.Machine.execQuadGateDone q s
  | .quadUngateTrained q => Sys2Proof.Machine.execQuadUngateTrained q s
  | .aqCreateQp fn db => Sys2Proof.Machine.execAqCreateQp fn db s
  | .aqModifyQp fn => Sys2Proof.Machine.execAqModifyQp fn s
  | .aqDestroyQp fn => Sys2Proof.Machine.execAqDestroyQp fn s
  | .aqCreateSrq fn db => Sys2Proof.Machine.execAqCreateSrq fn db s
  | .aqDestroySrq fn => Sys2Proof.Machine.execAqDestroySrq fn s
  | .aqCreateCq fn head => Sys2Proof.Machine.execAqCreateCq fn head s
  | .aqDestroyCq fn => Sys2Proof.Machine.execAqDestroyCq fn s
  | .aqCreateEq fn => Sys2Proof.Machine.execAqCreateEq fn s
  | .aqDestroyEq fn => Sys2Proof.Machine.execAqDestroyEq fn s
  | .aqCreatePd fn => Sys2Proof.Machine.execAqCreatePd fn s
  | .aqDestroyPd fn => Sys2Proof.Machine.execAqDestroyPd fn s
  | .aqRegisterWindow fn extents => Sys2Proof.Machine.execAqRegisterWindow fn extents s
  | .aqRevokeWindow fn => Sys2Proof.Machine.execAqRevokeWindow fn s
  | .aqInvalidate fn => Sys2Proof.Machine.execAqInvalidate fn s
  | .aqAbort fn => Sys2Proof.Machine.execAqAbort fn s
  | .aqSetQuota fn => Sys2Proof.Machine.execAqSetQuota fn s
  | .aqQueryQuota fn => Sys2Proof.Machine.execAqQueryQuota fn s
  | .routeBankAdopt => Sys2Proof.Machine.execRouteBankAdopt s
  | .almanacBankAdopt p => Sys2Proof.Machine.execAlmanacBankAdopt p s
  | .snapshotTake => Sys2Proof.Machine.execSnapshotTake s
  | .counterFoldDone => Sys2Proof.Machine.execCounterFoldDone s
  | .eqxExchangeStart p => Sys2Proof.Machine.execEqxExchangeStart p s
  | .timeReqRx p t => Sys2Proof.Machine.execTimeReqRx p t s
  | .timeRespRx p t => Sys2Proof.Machine.execTimeRespRx p t s
  | .timeReportRx p t => Sys2Proof.Machine.execTimeReportRx p t s
  | .timeAnnounceRx p t => Sys2Proof.Machine.execTimeAnnounceRx p t s
  | .timeLockGained => Sys2Proof.Machine.execTimeLockGained s
  | .eqxIntervalEnd p => Sys2Proof.Machine.execEqxIntervalEnd p s
  | .timeMissLimit => Sys2Proof.Machine.execTimeMissLimit s
  | .timeStepApply => Sys2Proof.Machine.execTimeStepApply s
  | .ppsInEdge => Sys2Proof.Machine.execPpsInEdge s
  | .ppsLossTimeout => Sys2Proof.Machine.execPpsLossTimeout s
  | .sourceWaitExpire => Sys2Proof.Machine.execSourceWaitExpire s
  | .octetPllUnlock o => Sys2Proof.Machine.execOctetPllUnlock o s
  | .octetPllRelock o => Sys2Proof.Machine.execOctetPllRelock o s
  | .refclkNetLost q => Sys2Proof.Machine.execRefclkNetLost q s
  | .codewordRx l corrected => Sys2Proof.Machine.execCodewordRx l corrected s
  | .fecLockGained l rxInv => Sys2Proof.Machine.execFecLockGained l rxInv s
  | .fecLockLost l => Sys2Proof.Machine.execFecLockLost l s
  | .lossOfSignal l => Sys2Proof.Machine.execLossOfSignal l s
  | .noLockTimerExpire l => Sys2Proof.Machine.execNoLockTimerExpire l s
  | .retryWaitExpire l => Sys2Proof.Machine.execRetryWaitExpire l s
  | .retrainTmoExpire l => Sys2Proof.Machine.execRetrainTmoExpire l s
  | .idleEnterExpire p => Sys2Proof.Machine.execIdleEnterExpire p s
  | .idleSequenceSent p => Sys2Proof.Machine.execIdleSequenceSent p s
  | .partnerIdleRx l => Sys2Proof.Machine.execPartnerIdleRx l s
  | .eidleRefreshExpire p => Sys2Proof.Machine.execEidleRefreshExpire p s
  | .wakeBatch => Sys2Proof.Machine.execWakeBatch s
  | .exitBurstDone l => Sys2Proof.Machine.execExitBurstDone l s
  | .startOfStreamRx l => Sys2Proof.Machine.execStartOfStreamRx l s
  | .wakeAlignTmoExpire l => Sys2Proof.Machine.execWakeAlignTmoExpire l s
  | .adaptationPass l rxEq snr eye ber => Sys2Proof.Machine.execAdaptationPass l rxEq snr eye ber s
  | .calibCoeffWrite l => Sys2Proof.Machine.execCalibCoeffWrite l s
  | .prbsCheckerLock l => Sys2Proof.Machine.execPrbsCheckerLock l s
  | .prbsCheckerLoss l bits errs => Sys2Proof.Machine.execPrbsCheckerLoss l bits errs s
  | .errInjectFire l => Sys2Proof.Machine.execErrInjectFire l s
  | .laneDropEnd l => Sys2Proof.Machine.execLaneDropEnd l s
  | .ltbLockGained l => Sys2Proof.Machine.execLtbLockGained l s
  | .ltbLockLost l => Sys2Proof.Machine.execLtbLockLost l s
  | .ltbBadRx p badType => Sys2Proof.Machine.execLtbBadRx p badType s
  | .ltbIdleRx p h => Sys2Proof.Machine.execLtbIdleRx p h s
  | .ltbDataRx p h frags since => Sys2Proof.Machine.execLtbDataRx p h frags since s
  | .edgeRunLimit p err => Sys2Proof.Machine.execEdgeRunLimit p err s
  | .ltbCtrlCreditRx p h heldMask => Sys2Proof.Machine.execLtbCtrlCreditRx p h heldMask s
  | .ltbCtrlLinkDownRx p h heldMask => Sys2Proof.Machine.execLtbCtrlLinkDownRx p h heldMask s
  | .ltbCtrlReservedRx p h => Sys2Proof.Machine.execLtbCtrlReservedRx p h s
  | .ltbInitRx p lane h msg => Sys2Proof.Machine.execLtbInitRx p lane h msg s
  | .ltbLaneMapRx p h mapSeq rxMap echo => Sys2Proof.Machine.execLtbLaneMapRx p h mapSeq rxMap echo s
  | .ltbLoadHintRx p h m => Sys2Proof.Machine.execLtbLoadHintRx p h m s
  | .trainWaitExpire p => Sys2Proof.Machine.execTrainWaitExpire p s
  | .initTmoExpire p => Sys2Proof.Machine.execInitTmoExpire p s
  | .initRepeat p => Sys2Proof.Machine.execInitRepeat p s
  | .initPoolRetry p => Sys2Proof.Machine.execInitPoolRetry p s
  | .heldIntervalExpire p vc => Sys2Proof.Machine.execHeldIntervalExpire p vc s
  | .creditTmoExpire p vc => Sys2Proof.Machine.execCreditTmoExpire p vc s
  | .sharedGrantAdjust p => Sys2Proof.Machine.execSharedGrantAdjust p s
  | .replayTmoExpire p => Sys2Proof.Machine.execReplayTmoExpire p s
  | .replayLimit p => Sys2Proof.Machine.execReplayLimit p s
  | .linkGraceExpire p => Sys2Proof.Machine.execLinkGraceExpire p s
  | .drainComplete p => Sys2Proof.Machine.execDrainComplete p s
  | .linkDownWaitEnd p => Sys2Proof.Machine.execLinkDownWaitEnd p s
  | .loadHintSend p => Sys2Proof.Machine.execLoadHintSend p s
  | .packetArrival src => Sys2Proof.Machine.execPacketArrival src s
  | .egressPacketStart p => Sys2Proof.Machine.execEgressPacketStart p s
  | .packetDeparted p => Sys2Proof.Machine.execPacketDeparted p s
  | .almanacEntryChange p => Sys2Proof.Machine.execAlmanacEntryChange p s
  | .gateWakeLead p => Sys2Proof.Machine.execGateWakeLead p s
  | .holdoverMaxExpire p => Sys2Proof.Machine.execHoldoverMaxExpire p s
  | .doorbellPoll q => Sys2Proof.Machine.execDoorbellPoll q s
  | .doorbellReadComplete q db => Sys2Proof.Machine.execDoorbellReadComplete q db s
  | .emptyPollLimit q => Sys2Proof.Machine.execEmptyPollLimit q s
  | .slotReadComplete q slots => Sys2Proof.Machine.execSlotReadComplete q slots s
  | .slotReread q slot => Sys2Proof.Machine.execSlotReread q slot s
  | .slotWaitExpire q => Sys2Proof.Machine.execSlotWaitExpire q s
  | .chainListReadComplete q elems => Sys2Proof.Machine.execChainListReadComplete q elems s
  | .hostReadError q why => Sys2Proof.Machine.execHostReadError q why s
  | .parkIdleExpire q => Sys2Proof.Machine.execParkIdleExpire q s
  | .queueServiceTurn quad => Sys2Proof.Machine.execQueueServiceTurn quad s
  | .headRecordWrite q => Sys2Proof.Machine.execHeadRecordWrite q s
  | .cqHeadReread cq => Sys2Proof.Machine.execCqHeadReread cq s
  | .cqHeadReadComplete cq head => Sys2Proof.Machine.execCqHeadReadComplete cq head s
  | .cqFullTimeout cq => Sys2Proof.Machine.execCqFullTimeout cq s
  | .interruptHoldoffEnd fn vec => Sys2Proof.Machine.execInterruptHoldoffEnd fn vec s
  | .write q => Sys2Proof.Machine.execWrite q s
  | .writeWithCount q => Sys2Proof.Machine.execWriteWithCount q s
  | .read q => Sys2Proof.Machine.execRead q s
  | .send q => Sys2Proof.Machine.execSend q s
  | .fetchAdd q => Sys2Proof.Machine.execFetchAdd q s
  | .cswap64 q => Sys2Proof.Machine.execCswap64 q s
  | .cswap128 q => Sys2Proof.Machine.execCswap128 q s
  | .bindWindow q extents => Sys2Proof.Machine.execBindWindow q extents s
  | .counterFetch q => Sys2Proof.Machine.execCounterFetch q s
  | .recv srq => Sys2Proof.Machine.execRecv srq s
  | .tsend q => Sys2Proof.Machine.execTsend q s
  | .trecv srq => Sys2Proof.Machine.execTrecv srq s
  | .collective q => Sys2Proof.Machine.execCollective q s
  | .writeRx ep => Sys2Proof.Machine.execWriteRx ep s
  | .writeCountRx ep => Sys2Proof.Machine.execWriteCountRx ep s
  | .readReqRx ep => Sys2Proof.Machine.execReadReqRx ep s
  | .readRespRx ep => Sys2Proof.Machine.execReadRespRx ep s
  | .sendRx ep => Sys2Proof.Machine.execSendRx ep s
  | .atomicReqRx ep => Sys2Proof.Machine.execAtomicReqRx ep s
  | .hostAtomicComplete ep orig => Sys2Proof.Machine.execHostAtomicComplete ep orig s
  | .atomicRespRx ep => Sys2Proof.Machine.execAtomicRespRx ep s
  | .ackRx ep => Sys2Proof.Machine.execAckRx ep s
  | .ackDelayExpire q => Sys2Proof.Machine.execAckDelayExpire q s
  | .rtoExpire q psn => Sys2Proof.Machine.execRtoExpire q psn s
  | .rnrRetryAfterExpire q => Sys2Proof.Machine.execRnrRetryAfterExpire q s
  | .atsInvalidateRequest fn start len => Sys2Proof.Machine.execAtsInvalidateRequest fn start len s
  | .numberQuarantineEnd space num => Sys2Proof.Machine.execNumberQuarantineEnd space num s
  | .tagEagerRx ep => Sys2Proof.Machine.execTagEagerRx ep s
  | .tagRtsRx ep => Sys2Proof.Machine.execTagRtsRx ep s
  | .rdvReadComplete q status => Sys2Proof.Machine.execRdvReadComplete q status s
  | .tagFinRx ep => Sys2Proof.Machine.execTagFinRx ep s
  | .upRx quad => Sys2Proof.Machine.execUpRx quad s
  | .opalBlockDone quad tree seq block => Sys2Proof.Machine.execOpalBlockDone quad tree seq block s
  | .downRx quad => Sys2Proof.Machine.execDownRx quad s
  | .treeCreditRx quad => Sys2Proof.Machine.execTreeCreditRx quad s
  | .treeAbortRx quad => Sys2Proof.Machine.execTreeAbortRx quad s
  | .stallTmoExpire quad tree seq => Sys2Proof.Machine.execStallTmoExpire quad tree seq s
  | .evictionComplete q => Sys2Proof.Machine.execEvictionComplete q s
  | .pageInReadComplete q img => Sys2Proof.Machine.execPageInReadComplete q img s
  | .idleWriteback quad line => Sys2Proof.Machine.execIdleWriteback quad line s
  | .getS req line => Sys2Proof.Machine.execGetS req line s
  | .getM req line => Sys2Proof.Machine.execGetM req line s
  | .upgrade req line => Sys2Proof.Machine.execUpgrade req line s
  | .put req line => Sys2Proof.Machine.execPut req line s
  | .putClean req line => Sys2Proof.Machine.execPutClean req line s
  | .fwdS owner req line => Sys2Proof.Machine.execFwdS owner req line s
  | .fwdM owner req line => Sys2Proof.Machine.execFwdM owner req line s
  | .inv sharer req line => Sys2Proof.Machine.execInv sharer req line s
  | .cohAck req line => Sys2Proof.Machine.execCohAck req line s
  | .putAck req line => Sys2Proof.Machine.execPutAck req line s
  | .grant req line acks => Sys2Proof.Machine.execGrant req line acks s
  | .cohData req line acks state ecc => Sys2Proof.Machine.execCohData req line acks state ecc s
  | .hostSnoop quad line invalidate => Sys2Proof.Machine.execHostSnoop quad line invalidate s
  | .patrolScrubRead stack ecc row => Sys2Proof.Machine.execPatrolScrubRead stack ecc row s
  | .patrolPassStart stack => Sys2Proof.Machine.execPatrolPassStart stack s
  | .cacheScrubPass quad line ecc => Sys2Proof.Machine.execCacheScrubPass quad line ecc s
  | .chainPortLock port => Sys2Proof.Machine.execChainPortLock port s
  | .chainPortLockLost port => Sys2Proof.Machine.execChainPortLockLost port s
  | .enum port f => Sys2Proof.Machine.execEnum port f s
  | .enumAck port f => Sys2Proof.Machine.execEnumAck port f s
  | .enumDone port f => Sys2Proof.Machine.execEnumDone port f s
  | .enumTmoExpire => Sys2Proof.Machine.execEnumTmoExpire s
  | .heartbeat port f => Sys2Proof.Machine.execHeartbeat port f s
  | .heartbeatSend => Sys2Proof.Machine.execHeartbeatSend s
  | .joinReq port f => Sys2Proof.Machine.execJoinReq port f s
  | .joinReqSend => Sys2Proof.Machine.execJoinReqSend s
  | .chainBreak port f => Sys2Proof.Machine.execChainBreak port f s
  | .orphanTmoExpire => Sys2Proof.Machine.execOrphanTmoExpire s
  | .statusReq port f => Sys2Proof.Machine.execStatusReq port f s
  | .statusRsp port f => Sys2Proof.Machine.execStatusRsp port f s
  | .reset port f => Sys2Proof.Machine.execReset port f s
  | .chainResetAction => Sys2Proof.Machine.execChainResetAction s
  | .regRead port f => Sys2Proof.Machine.execRegRead port f s
  | .regWrite port f => Sys2Proof.Machine.execRegWrite port f s
  | .regRsp port f => Sys2Proof.Machine.execRegRsp port f s
  | .mbCmd port f => Sys2Proof.Machine.execMbCmd port f s
  | .mbRsp port f => Sys2Proof.Machine.execMbRsp port f s
  | .event port f => Sys2Proof.Machine.execEvent port f s
  | .chainBadFrame port f => Sys2Proof.Machine.execChainBadFrame port f s
  | .chainCrcFail port f => Sys2Proof.Machine.execChainCrcFail port f s
  | .relayTmoExpire mtag => Sys2Proof.Machine.execRelayTmoExpire mtag s
  | .mgmtCmdRx => Sys2Proof.Machine.execMgmtCmdRx s
  | .mgmtRespRx => Sys2Proof.Machine.execMgmtRespRx s
  | .mgmtEventRx => Sys2Proof.Machine.execMgmtEventRx s
  | .mgmtDistRx => Sys2Proof.Machine.execMgmtDistRx s
  | .announceSend => Sys2Proof.Machine.execAnnounceSend s
  | .mgrLossTmoExpire => Sys2Proof.Machine.execMgrLossTmoExpire s
  | .electTmoExpire => Sys2Proof.Machine.execElectTmoExpire s
  | .groupWalk => Sys2Proof.Machine.execGroupWalk s
  | .isolateTmoExpire => Sys2Proof.Machine.execIsolateTmoExpire s
  | .eventForward quad => Sys2Proof.Machine.execEventForward quad s
  | .eventFlush => Sys2Proof.Machine.execEventFlush s
  | .mramRemap part sector => Sys2Proof.Machine.execMramRemap part sector s
  | .pwrfailAssert => Sys2Proof.Machine.execPwrfailAssert s
  | .pwrfailDeassert => Sys2Proof.Machine.execPwrfailDeassert s
  | .lifeSecondCheck meanTemp => Sys2Proof.Machine.execLifeSecondCheck meanTemp s
  | .lifeHourlyWrite => Sys2Proof.Machine.execLifeHourlyWrite s
  | .lifeMonthBoundary => Sys2Proof.Machine.execLifeMonthBoundary s
  | .telemetrySample group readings => Sys2Proof.Machine.execTelemetrySample group readings s
  | .thermalTrip die => Sys2Proof.Machine.execThermalTrip die s
  | .railOutOfRange rail mv => Sys2Proof.Machine.execRailOutOfRange rail mv s
  | .railUndervoltage rail mv => Sys2Proof.Machine.execRailUndervoltage rail mv s
  | .refclkCoreLost => Sys2Proof.Machine.execRefclkCoreLost s
  | .pstepAckRise g => Sys2Proof.Machine.execPstepAckRise g s
  | .noticeLeadExpire g => Sys2Proof.Machine.execNoticeLeadExpire g s
  | .grantHoldExpire g => Sys2Proof.Machine.execGrantHoldExpire g s
  | .pstepStepDone g => Sys2Proof.Machine.execPstepStepDone g s
  | .bmcRegWrite off val pecOk => Sys2Proof.Machine.execBmcRegWrite off val pecOk s
  | .bmcRegRead off => Sys2Proof.Machine.execBmcRegRead off s
  | .i3cAddressAssign addr => Sys2Proof.Machine.execI3cAddressAssign addr s
  | .i3cRstdaa => Sys2Proof.Machine.execI3cRstdaa s
  | .smbusAlertResponse => Sys2Proof.Machine.execSmbusAlertResponse s
  | .trstNAssert => Sys2Proof.Machine.execTrstNAssert s
  | .idcode => Sys2Proof.Machine.execIdcode s
  | .samplePreload => Sys2Proof.Machine.execSamplePreload s
  | .extest => Sys2Proof.Machine.execExtest s
  | .extestPulse => Sys2Proof.Machine.execExtestPulse s
  | .extestTrain => Sys2Proof.Machine.execExtestTrain s
  | .clamp => Sys2Proof.Machine.execClamp s
  | .highz => Sys2Proof.Machine.execHighz s
  | .regAccess dr => Sys2Proof.Machine.execRegAccess dr s
  | .bypass => Sys2Proof.Machine.execBypass s
  | .perstNDeassert h => Sys2Proof.Machine.execPerstNDeassert h s
  | .busMasterEnableSet fn => Sys2Proof.Machine.execBusMasterEnableSet fn s
  | .spdmRequest ep code => Sys2Proof.Machine.execSpdmRequest ep code s
  | .ppsOutEdge => Sys2Proof.Machine.execPpsOutEdge s
  | .signalDetect l => Sys2Proof.Machine.execSignalDetect l s
  | .vaonLoss => Sys2Proof.Machine.execVaonLoss s
  | .hostDataReadComplete ep data => Sys2Proof.Machine.execHostDataReadComplete ep data s
  | .atsTranslationComplete fn addr len bus => Sys2Proof.Machine.execAtsTranslationComplete fn addr len bus s
  | .cxlCacheOwnershipGranted ep orig => Sys2Proof.Machine.execCxlCacheOwnershipGranted ep orig s
  | .pstepAckFall g => Sys2Proof.Machine.execPstepAckFall g s

end Sys2Proof.Machine
end

