-- ==== Sys2Proof/Machine/Tick.lean ====
section
/-! DEFINITION. What a tick of one nanosecond does when no command waits: the clocks advance (log 3). -/

namespace Sys2Proof.Machine

/-- [R140 R142 R504] FT advances: the time unit's clock runs from the root PLL's lock on, and through a warm start. -/
def timeRuns (s : State) : Bool :=
  (s.boot.power == .run || s.boot.power == .safe) && !s.pins.coreLost && (s.boot.steps.pll || s.boot.warm || s.boot.safe)

/-- [R153] what a source applies of a pending change in one nanosecond: at 500 ppm, until the whole change is applied. Units of FT_FRAC, and
the part of a unit left over. -/
def slewPart (s : State) : Int × Int :=
  if s.tu.st = .source ∧ s.tu.slew ≠ 0 then
    if s.tu.slew.natAbs ≤ 33 then (s.tu.slew, 0)
    else
      let x := 65536 * (if 0 < s.tu.slew then 50000000 else -50000000) + s.clk.slewSub
      (x / 100000000000, x % 100000000000)
  else (0, 0)

/-- [R149] the part of the rate that removes a measured offset has run for its interval; a follower's slew goes on. -/
def endProp (u : TimeUnit) (now : Nat) : TimeUnit :=
  if u.propTill ≤ now ∧ (u.slew = 0 ∨ u.st = .source) then { u with rate := u.integ } else u

/-- [R140 R149 R153] FT and FT_FRAC advance by one nanosecond, the rate correction and a source's slew applied. -/
def advanceFt (s : State) : State :=
  let x := 65536 * (100000000000 + s.tu.rate) + s.clk.sub
  let sl := slewPart s
  let v : Int := (s.clk.ft.toNat * 65536 + s.clk.frac.toNat : Nat) + x / 100000000000 + sl.1
  { s with
    clk := { s.clk with ft := BitVec.ofInt 64 (v / 65536), frac := BitVec.ofInt 16 v, sub := x % 100000000000, slewSub := sl.2 }
    tu := endProp { s.tu with slew := if s.tu.st = .source then s.tu.slew - sl.1 else s.tu.slew } s.clk.now }

/-- [R499] Vigil counts seconds, whatever else has power. -/
def advanceVigil (s : State) : State :=
  if s.clk.vigilNs + 1 < oneSec then { s with clk := { s.clk with vigilNs := s.clk.vigilNs + 1 } }
  else { s with clk := { s.clk with vigil := s.clk.vigil + 1, vigilNs := 0 } }

/-- [R153] PPS_OUT falls 1 ms after its second. -/
def endPps (s : State) : State :=
  match s.tu.ppsOut with
  | none => s
  | some f => if s.tu.valid && decide (s.clk.ft.toNat < f.toNat / oneSec * oneSec + 1000000) then s else emit { s with tu := { s.tu with ppsOut := none } } (.pin "PPS_OUT" 0)

/-- [R191] the last packet has left, none followed in that instant, and its last LTB still has room. -/
def ltbOpen (s : State) (p : Nat) : Bool :=
  let x := s.port p
  !x.txq.isEmpty && x.leaving.all (·.departed) && decide (x.txAt < s.clk.now)

/-- [R189 R190 R212] the lanes of a port that send codewords carry LTBs without a gap: a slot that nothing else fills carries an IDLE LTB,
counted when it has passed. -/
def idleLtbs (s : State) (p : Nat) : State :=
  let n := ((portLanes s p).filter (fun l => laneNow s l == 2 || laneNow s l == 7)).length
  let acc := (s.port p).slotAcc + ((n * laneRate (s.octet (octetOfLane p)).rate : Nat) : Int)
  if n = 0 then s
  else if acc < slotBits then updPort s p (fun x => { x with slotAcc := acc })
  else count (updPort s p (fun x => { x with slotAcc := acc - slotBits })) .port p .ltbTx

/-- [R191] an LTB that no packet follows in leaves with its pad. -/
def padLtb (s : State) (p : Nat) : State := if ltbOpen s p then sendCredits (closeLtb s p) p else s

/-- [R209] an open LANE_MAP exchange repeats its map in every round. -/
def repeatMap (s : State) (p : Nat) : State :=
  if (s.port p).mapOpen && decide ((s.port p).mapAt + roundNs s p ≤ s.clk.now) then
    sendLaneMap (updPort s p (fun x => { x with mapAt := s.clk.now })) p (s.port p).mapSeq (s.port p).rxMap false
  else s

/-- [R190 R191 R209] what a port's transmitter does as time passes; IDLE LTBs fill the slots that are left. -/
def portTick (s : State) (p : Nat) : State := repeatMap (idleLtbs (padLtb s p) p) p

/-- [R251 R339 R393 R400] what the engines do as time passes: marked slots are read out of HBM, page-ins take the slots that have come free,
packets go on as the partition shapers' tokens come, and headers that waited for want of store are tried again. -/
def engineTick (s : State) : State :=
  retryWaiting (pumpShapers (foldS (List.range 4) (beginWritebacks s) servePageIn))

/-- One nanosecond of model time (log 3). -/
def tick (s : State) : State :=
  let t := advanceVigil { s with clk := { s.clk with now := s.clk.now + 1 } }
  engineTick (foldS (portsOf t) (if timeRuns t then endPps (advanceFt t) else t) portTick)

end Sys2Proof.Machine
end

