-- ==== Sys2Proof/WellFormed.lean ====
section
/-! DEFINITION. Well-formed commands: every number a command names lies in the range the spec gives it. -/

namespace Sys2Proof

/-- [R18] a port is encoded as its first lane, 0-511. -/
abbrev portNo (p : Nat) : Bool := decide (p < 512)

/-- [R18] a lane is L0 to L511. -/
abbrev laneNo (l : Nat) : Bool := decide (l < 512)

/-- [R18] a quadrant (and its HBM stack, its cache and its engines) is 0-3. -/
abbrev quadNo (q : Nat) : Bool := decide (q < 4)

/-- [R65] a host endpoint is 0-15, endpoint e standing for half e % 2 of host port e / 2. -/
abbrev epNo (e : Nat) : Bool := decide (e < 16)

/-- [R110] a function's master ID is 0x100 to 0x4FF. -/
abbrev fnNo (m : Nat) : Bool := decide (0x100 ≤ m) && decide (m < 0x500)

/-- [R18] a master ID is 12 bits wide. -/
abbrev masterNo (m : Nat) : Bool := decide (m < 4096)

/-- [R480] how many readings a telemetry group has. -/
def groupSize : Nat → Nat
  | 0 => 5
  | 1 => 32
  | 2 => 64
  | 3 => 4
  | 4 => 10
  | _ => 5

/-- Every number the command names is in its range. -/
def Instr.wf : Instr → Bool
  | .porstNAssert => true
  | .coldStart _ => true
  | .rootPllLock => true
  | .bootRomConfigRead _ => true
  | .serviceDieSelfTest => true
  | .quadrantPowerUp q => quadNo q
  | .quadrantArraySelfTest => true
  | .hbmTraining => true
  | .imageSelection _ _ _ => true
  | .molzuStart _ => true
  | .hbmClearing => true
  | .laneCalibration => true
  | .quadrantInitialisation => true
  | .fwReadySet => true
  | .warmRstNAssert => true
  | .warmStart => true
  | .bootTmoExpire => true
  | .watchdogExpire => true
  | .antiRollbackRaise => true
  | .perstNAssert h => decide (h < 8)
  | .hostLinkDown ep => epNo ep
  | .hostLinkUp ep _ _ => epNo ep
  | .configRequest r => fnNo r.fn
  | .busMasterEnableClear fn => fnNo fn
  | .flr fn => fnNo fn
  | .flrComplete fn => fnNo fn
  | .lateCompletion fn => fnNo fn
  | .flashReqAssert => true
  | .flashGntAssert => true
  | .flashReqDeassert => true
  | .registerWrite m _ _ => masterNo m
  | .windowRead m _ _ => masterNo m
  | .statusCauseWrite m _ => masterNo m
  | .statusMaskWrite m _ => masterNo m
  | .msixUnmask fn _ => fnNo fn
  | .mailboxDoorbell m _ => masterNo m
  | .nudgeWrite fn idx => fnNo fn && decide (idx < 2 ^ 23)
  | .aqSqTailWrite fn _ => fnNo fn
  | .aqCqHeadWrite fn _ => fnNo fn
  | .aqEnableSet fn _ => fnNo fn
  | .aqEnableClear fn _ => fnNo fn
  | .aqCommandFetch fn _ => fnNo fn
  | .timeFtLoRead m => masterNo m
  | .snapCtrlArm m => masterNo m
  | .snapCtrlCancel m => masterNo m
  | .eventData7Read m => masterNo m
  | .counterLoRead m k => masterNo m && decide (k < 510)
  | .laneCfgWrite m _ => masterNo m
  | .octetTimersWrite m _ => masterNo m
  | .portSharedLimitsWrite m _ => masterNo m
  | .hostBackingWrite m off _ => masterNo m && (off == 0x034 || off == 0x038 || off == 0x03C)
  | .mbIdentGet => true
  | .mbCapsGet => true
  | .mbOctetSet => true
  | .mbPortSet => true
  | .mbPortGet => true
  | .mbHostModeStore => true
  | .mbPartitionSet => true
  | .mbRouteWrite => true
  | .mbRouteCommit => true
  | .mbRouteStatus => true
  | .mbRouteAbandon => true
  | .mbTimeSet => true
  | .mbTimeStatus => true
  | .mbSnapArm => true
  | .mbSnapCancel => true
  | .mbEqxSet => true
  | .mbAlmanacLoad => true
  | .mbAlmanacGet => true
  | .mbShaperSet => true
  | .mbPolicerSet => true
  | .mbSlWeightsSet => true
  | .mbTreeSetup => true
  | .mbTreeTeardown => true
  | .mbTreeGet => true
  | .mbEventClearNonce => true
  | .mbEventClear _ => true
  | .mbTelemetryGet => true
  | .mbLifeGet => true
  | .mbFwUpdateBegin => true
  | .mbFwUpdateWrite _ => true
  | .mbFwUpdateEnd _ => true
  | .mbFwActivate _ => true
  | .mbMeasureGet => true
  | .mbAccessSet => true
  | .mbAccessGet => true
  | .mbConfigRead => true
  | .mbConfigExport => true
  | .mbConfigExportRead => true
  | .mbConfigImportWrite => true
  | .mbConfigImportCommit => true
  | .mbGroupRoleSet => true
  | .mbFeaSet => true
  | .mbQuadGate => true
  | .mbQuadRetire => true
  | .mbChainStatus => true
  | .mbPrbsSet => true
  | .mbPrbsGet _ _ => true
  | .mbLoopbackSet => true
  | .mbErrInject => true
  | .mbInvalidOpcode => true
  | .cmdDone _ _ => true
  | .stagingIdleTimeout _ => true
  | .nonceExpire => true
  | .fwUpdateIdleTimeout => true
  | .quadPortsDrained q => quadNo q
  | .quadRehomeDone q => quadNo q
  | .quadGateDone q => quadNo q
  | .quadUngateTrained q => quadNo q
  | .aqCreateQp fn _ => fnNo fn
  | .aqModifyQp fn => fnNo fn
  | .aqDestroyQp fn => fnNo fn
  | .aqCreateSrq fn _ => fnNo fn
  | .aqDestroySrq fn => fnNo fn
  | .aqCreateCq fn _ => fnNo fn
  | .aqDestroyCq fn => fnNo fn
  | .aqCreateEq fn => fnNo fn
  | .aqDestroyEq fn => fnNo fn
  | .aqCreatePd fn => fnNo fn
  | .aqDestroyPd fn => fnNo fn
  | .aqRegisterWindow fn _ => fnNo fn
  | .aqRevokeWindow fn => fnNo fn
  | .aqInvalidate fn => fnNo fn
  | .aqAbort fn => fnNo fn
  | .aqSetQuota fn => fnNo fn
  | .aqQueryQuota fn => fnNo fn
  | .routeBankAdopt => true
  | .almanacBankAdopt p => portNo p
  | .snapshotTake => true
  | .counterFoldDone => true
  | .eqxExchangeStart p => portNo p
  | .timeReqRx p _ => portNo p
  | .timeRespRx p _ => portNo p
  | .timeReportRx p _ => portNo p
  | .timeAnnounceRx p _ => portNo p
  | .timeLockGained => true
  | .eqxIntervalEnd p => portNo p
  | .timeMissLimit => true
  | .timeStepApply => true
  | .ppsInEdge => true
  | .ppsLossTimeout => true
  | .sourceWaitExpire => true
  | .octetPllUnlock o => decide (o < 64)
  | .octetPllRelock o => decide (o < 64)
  | .refclkNetLost q => quadNo q
  | .codewordRx l _ => laneNo l
  | .fecLockGained l _ => laneNo l
  | .fecLockLost l => laneNo l
  | .lossOfSignal l => laneNo l
  | .noLockTimerExpire l => laneNo l
  | .retryWaitExpire l => laneNo l
  | .retrainTmoExpire l => laneNo l
  | .idleEnterExpire p => portNo p
  | .idleSequenceSent p => portNo p
  | .partnerIdleRx l => laneNo l
  | .eidleRefreshExpire p => portNo p
  | .wakeBatch => true
  | .exitBurstDone l => laneNo l
  | .startOfStreamRx l => laneNo l
  | .wakeAlignTmoExpire l => laneNo l
  | .adaptationPass l _ _ _ _ => laneNo l
  | .calibCoeffWrite l => laneNo l
  | .prbsCheckerLock l => laneNo l
  | .prbsCheckerLoss l _ _ => laneNo l
  | .errInjectFire l => laneNo l
  | .laneDropEnd l => laneNo l
  | .ltbLockGained l => laneNo l
  | .ltbLockLost l => laneNo l
  | .ltbBadRx p _ => portNo p
  | .ltbIdleRx p _ => portNo p
  | .ltbDataRx p _ _ _ => portNo p
  | .edgeRunLimit p _ => portNo p
  | .ltbCtrlCreditRx p _ _ => portNo p
  | .ltbCtrlLinkDownRx p _ _ => portNo p
  | .ltbCtrlReservedRx p _ => portNo p
  | .ltbInitRx p lane _ _ => portNo p && decide (lane < 8)
  | .ltbLaneMapRx p _ _ _ _ => portNo p
  | .ltbLoadHintRx p _ _ => portNo p
  | .trainWaitExpire p => portNo p
  | .initTmoExpire p => portNo p
  | .initRepeat p => portNo p
  | .initPoolRetry p => portNo p
  | .heldIntervalExpire p vc => portNo p && decide (vc < 16)
  | .creditTmoExpire p vc => portNo p && decide (vc < 16)
  | .sharedGrantAdjust p => portNo p
  | .replayTmoExpire p => portNo p
  | .replayLimit p => portNo p
  | .linkGraceExpire p => portNo p
  | .drainComplete p => portNo p
  | .linkDownWaitEnd p => portNo p
  | .loadHintSend p => portNo p
  | .packetArrival src => match src with | .net p => portNo p | .coll quad => quadNo quad | .host e => decide (e < 16) | .service => true
  | .egressPacketStart p => portNo p
  | .packetDeparted p => portNo p
  | .almanacEntryChange p => portNo p
  | .gateWakeLead p => portNo p
  | .holdoverMaxExpire p => portNo p
  | .doorbellPoll _ => true
  | .doorbellReadComplete _ _ => true
  | .emptyPollLimit _ => true
  | .slotReadComplete _ _ => true
  | .slotReread _ _ => true
  | .slotWaitExpire _ => true
  | .chainListReadComplete _ _ => true
  | .hostReadError _ _ => true
  | .parkIdleExpire _ => true
  | .queueServiceTurn quad => quadNo quad
  | .headRecordWrite _ => true
  | .cqHeadReread _ => true
  | .cqHeadReadComplete _ _ => true
  | .cqFullTimeout _ => true
  | .interruptHoldoffEnd fn _ => fnNo fn
  | .write _ => true
  | .writeWithCount _ => true
  | .read _ => true
  | .send _ => true
  | .fetchAdd _ => true
  | .cswap64 _ => true
  | .cswap128 _ => true
  | .bindWindow _ _ => true
  | .counterFetch _ => true
  | .recv _ => true
  | .tsend _ => true
  | .trecv _ => true
  | .collective _ => true
  | .writeRx ep => epNo ep
  | .writeCountRx ep => epNo ep
  | .readReqRx ep => epNo ep
  | .readRespRx ep => epNo ep
  | .sendRx ep => epNo ep
  | .atomicReqRx ep => epNo ep
  | .hostAtomicComplete ep _ => epNo ep
  | .atomicRespRx ep => epNo ep
  | .ackRx ep => epNo ep
  | .ackDelayExpire _ => true
  | .rtoExpire _ _ => true
  | .rnrRetryAfterExpire _ => true
  | .atsInvalidateRequest fn _ _ => fnNo fn
  | .numberQuarantineEnd space _ => decide (space < 2)
  | .tagEagerRx ep => epNo ep
  | .tagRtsRx ep => epNo ep
  | .rdvReadComplete _ _ => true
  | .tagFinRx ep => epNo ep
  | .upRx quad => quadNo quad
  | .opalBlockDone quad _ _ _ => quadNo quad
  | .downRx quad => quadNo quad
  | .treeCreditRx quad => quadNo quad
  | .treeAbortRx quad => quadNo quad
  | .stallTmoExpire quad _ _ => quadNo quad
  | .evictionComplete _ => true
  | .pageInReadComplete _ _ => true
  | .idleWriteback quad _ => quadNo quad
  | .getS req _ => quadNo req
  | .getM req _ => quadNo req
  | .upgrade req _ => quadNo req
  | .put req _ => quadNo req
  | .putClean req _ => quadNo req
  | .fwdS owner req _ => quadNo owner && quadNo req
  | .fwdM owner req _ => quadNo owner && quadNo req
  | .inv sharer req _ => quadNo sharer && quadNo req
  | .cohAck req _ => quadNo req
  | .putAck req _ => quadNo req
  | .grant req _ _ => quadNo req
  | .cohData req _ _ state _ => quadNo req && decide (state < 5)
  | .hostSnoop quad _ _ => quadNo quad
  | .patrolScrubRead stack _ _ => quadNo stack
  | .patrolPassStart stack => quadNo stack
  | .cacheScrubPass quad _ _ => quadNo quad
  | .chainPortLock _ => true
  | .chainPortLockLost _ => true
  | .enum _ _ => true
  | .enumAck _ _ => true
  | .enumDone _ _ => true
  | .enumTmoExpire => true
  | .heartbeat _ _ => true
  | .heartbeatSend => true
  | .joinReq _ _ => true
  | .joinReqSend => true
  | .chainBreak _ _ => true
  | .orphanTmoExpire => true
  | .statusReq _ _ => true
  | .statusRsp _ _ => true
  | .reset _ _ => true
  | .chainResetAction => true
  | .regRead _ _ => true
  | .regWrite _ _ => true
  | .regRsp _ _ => true
  | .mbCmd _ _ => true
  | .mbRsp _ _ => true
  | .event _ _ => true
  | .chainBadFrame _ _ => true
  | .chainCrcFail _ _ => true
  | .relayTmoExpire _ => true
  | .mgmtCmdRx => true
  | .mgmtRespRx => true
  | .mgmtEventRx => true
  | .mgmtDistRx => true
  | .announceSend => true
  | .mgrLossTmoExpire => true
  | .electTmoExpire => true
  | .groupWalk => true
  | .isolateTmoExpire => true
  | .eventForward quad => quadNo quad
  | .eventFlush => true
  | .mramRemap part sector => decide (part < 6) && decide (sector < 2048)
  | .pwrfailAssert => true
  | .pwrfailDeassert => true
  | .lifeSecondCheck _ => true
  | .lifeHourlyWrite => true
  | .lifeMonthBoundary => true
  | .telemetrySample group readings => decide (group < 6) && readings.length == groupSize group
  | .thermalTrip die => decide (die < 9)
  | .railOutOfRange rail _ => decide (rail < 10)
  | .railUndervoltage rail _ => decide (rail < 10)
  | .refclkCoreLost => true
  | .pstepAckRise g => decide (g < 2)
  | .noticeLeadExpire g => decide (g < 2)
  | .grantHoldExpire g => decide (g < 2)
  | .pstepStepDone g => decide (g < 2)
  | .bmcRegWrite _ _ _ => true
  | .bmcRegRead _ => true
  | .i3cAddressAssign _ => true
  | .i3cRstdaa => true
  | .smbusAlertResponse => true
  | .trstNAssert => true
  | .idcode => true
  | .samplePreload => true
  | .extest => true
  | .extestPulse => true
  | .extestTrain => true
  | .clamp => true
  | .highz => true
  | .regAccess _ => true
  | .bypass => true
  | .perstNDeassert h => decide (h < 8)
  | .busMasterEnableSet fn => fnNo fn
  | .spdmRequest ep _ => epNo ep
  | .ppsOutEdge => true
  | .signalDetect l => laneNo l
  | .vaonLoss => true
  | .hostDataReadComplete ep _ => epNo ep
  | .atsTranslationComplete fn _ _ _ => fnNo fn
  | .cxlCacheOwnershipGranted ep _ => epNo ep
  | .pstepAckFall g => decide (g < 2)

end Sys2Proof
end

