-- ==== Sys2Proof/Safety.lean ====
section
/-! DEFINITION. What a run without a stop is, and the conditions under which a mailbox command is served, in the terms the statements use. -/

namespace Sys2Proof.Machine

/-- The step at `s` answers a next state. -/
def Completes (s : State) : Prop := ∃ t, step s = .next t

/-- The command `c` completes on `s` with next state `t`. -/
def Runs (c : Instr) (s t : State) : Prop := exec c s = .next t

/-- The state while Molzu serves the command at the head of its queue: `rest` still waits. -/
def served (s : State) (rest : List MbCmd) : State := { s with cmds := { s.cmds with queue := rest } }

/-- [R98 R100 R114 R119] the command `c` is at the head of Molzu's queue, of opcode `op`, Molzu runs outside SAFE mode, the command's header is
well formed, and its master holds the rights. -/
def AtHead (s : State) (c : MbCmd) (rest : List MbCmd) (op : Nat) (rights : List (Nat × Bool)) : Prop :=
  s.cmds.queue = c :: rest ∧ c.op = op ∧ s.boot.fwReady = true ∧ s.boot.safe = false ∧ c.payload.length = c.len ∧ c.len ≤ 4088 ∧ c.flags ≤ 1 ∧
    lacking s c.m rights = []

/-- [R195 R209] LTBs of every type are taken on the port. -/
abbrev LinkOpen (s : State) (p : Nat) : Prop :=
  p < 512 ∧ ((s.port p).link = .active ∨ (s.port p).link = .drain) ∧ (s.port p).mapOpen = false

/-- [R187 R203] the state after an arriving LTB is counted and its ACK_SEQ and NAK are taken. -/
def ltbTaken (s : State) (p : Nat) (h : LtbHdr) : State := ackIn (count s .port p .ltbRx) p h

/-- [R168] no codeword the LTB draws from was passed on with an error mark. -/
abbrev Unmarked (s : State) (p : Nat) (h : LtbHdr) : Prop := h.draws.any (fun i => (s.lane (p + h.lane)).marks.getD i false) = false

/-- [R168 R203] the sequenced LTB is unmarked and the next one the port expects. -/
abbrev InOrder (s : State) (p : Nat) (h : LtbHdr) : Prop :=
  LinkOpen s p ∧ Unmarked s p h ∧ h.seq = ((ltbTaken s p h).port p).ackSeq + 1

/-- [R203] the state in which an LTB taken in order has its own effect. -/
def ltbInOrder (s : State) (p : Nat) (h : LtbHdr) : State := seqTaken (ltbTaken s p h) p h

/-- [R34 R118 R324 R394 R300 R309] the first packet waiting at an endpoint, where it is a request of opcode `op` that passes every check, meets a
READY, resident and synchronised queue pair whose context the engine may use, and is neither a duplicate nor beyond the window: the arrival, the state, the number and the queue pair. -/
def admitted (s : State) (ep op : Nat) : Option (Arrival × State × Nat × Qp) :=
  match takeRx s ep op with
  | none => none
  | some (a, u) =>
    match arrivalChecks u ep a with
    | .inl _ => none
    | .inr (q, x) =>
      if x.st != 1 || !x.resident || inWriteback u q then none
      else match useQueue u x.fn q (engineOf op) with
        | .inl _ => none
        | .inr w => match synchronise w q x a with
          | .inl _ => none
          | .inr v => (getQp v q).bind (fun y => if psnClass y a.th.psn = .fresh then some (a, v, q, y) else none)

/-- [R300 R324] the same of a response, which has no PSN check. -/
def answered (s : State) (ep op : Nat) : Option (Arrival × State × Nat × Qp) :=
  match takeRx s ep op with
  | none => none
  | some (a, u) =>
    match arrivalChecks u ep a with
    | .inl _ => none
    | .inr (q, x) =>
      if x.st != 1 || !x.resident || inWriteback u q then none
      else match useQueue u x.fn q (engineOf op) with
        | .inl _ => none
        | .inr w => some (a, w, q, x)

/-- [R220 R360 R364] the first packet at a quadrant's collective port, where it came by an edge of its tree, passes its checks and is of KIND
`kind`, and Opal may use the tree's entry: the state without it, the tree's number, the tree, the edge and the packet. -/
def treeTaken (s : State) (quad kind : Nat) : Option (State × Nat × Tree × Nat × Pkt × CollHdr × List Byte) :=
  match s.ep.collRx.get quad with
  | [] => none
  | q :: rest =>
    let u := freeOrigin (updEp s (fun x => { x with collRx := x.collRx.set quad rest })) q.orig
    let id := q.pkt.hdr.treeId.toNat
    match q.pkt.body, getTree s id, q.orig.src with
    | .coll h payload, some tr, .net port =>
      if !stillArriving s q.orig && q.pkt.icrc == icrcOf q.pkt && h.kind == kind && decide (1 ≤ kind) && decide (kind ≤ 4) then
        match tr.edgeOf (.port port), useTree u id with
        | some e, .inr v => some (v, id, tr, e, q.pkt, h, payload)
        | _, _ => none
      else none
    | _, _, _ => none

/-- [R427] the oldest management packet of a TYPE that waits at the agent, where it has come to the end of its path: the state without it, where
it came from and what it holds. -/
def agentTaken (s : State) (type : Nat) : Option (State × ArrSrc × FabHdr × MgmtHdr × List Byte) :=
  match takeMgmt type s.grp.rx with
  | some (q, rest) =>
    match q.pkt.body with
    | .mgmt mh body =>
      if stillArriving s q.orig || q.pkt.icrc != icrcOf q.pkt || (mh.direct && !mh.ret && decide (mh.pathPtr < mh.pathLen)) || (mh.direct && mh.ret && decide (0 < mh.pathPtr)) then none
      else some (freeOrigin { s with grp := { s.grp with rx := rest } } q.orig, q.orig.src, q.pkt.hdr, mh, body)
    | _ => none
  | none => none

/-- [R415 R417 R418] a frame of one TYPE arrives well formed at a locked port of a chain that runs. -/
abbrev FrameTaken (s : State) (p : ChainPort) (f : ChainFrame) (type : Nat) : Prop :=
  chainServes s type = true ∧ chainLocked s p = true ∧ f.type = type ∧ chainFrameOk p f = true

/-- `k` steps of the machine, as long as none stops. -/
def runSteps : Nat → State → Option State
  | 0, s => some s
  | k + 1, s => match step s with
    | .next t => runSteps k t
    | _ => none

/-- What the flags of the firmware and of the reset lines mean beside each other: FW_READY is set only while Molzu runs in RUN, with no restart and
no WARM_RST_N (R89, R444, R459), SAFE only in SAFE (R455), Molzu runs only from an image (R446), and with PORST_N asserted the device is HELD, or OFF
(R443, R494). -/
abbrev BootInv (b : Boot) : Prop :=
  (b.fwReady = true → b.power = .run ∧ b.warmRst = false ∧ b.fwRestarting = false ∧ b.fwDown = false ∧ b.steps.molzu = true) ∧
    (b.safe = true → b.power = .safe) ∧ (b.steps.molzu = true → b.steps.image = true) ∧
    (b.porst = true → b.power = .held ∨ b.power = .off)

/-- The invariant of the block: `BootInv`, every waiting command is well formed, the serial number has twelve characters (R6), and LIFE holds
RATING_VOID as the running record does (R481). -/
abbrev Inv (s : State) : Prop :=
  BootInv s.boot ∧ s.pending.all Instr.wf = true ∧ s.ident.serial.length = 12 ∧ s.life.void = s.lifePart.void

/-- [R149] the rate correction and its integral part lie within 500 ppm, in 0.01 ppb. -/
abbrev RateOk (s : State) : Prop :=
  -50000000 ≤ s.tu.rate ∧ s.tu.rate ≤ 50000000 ∧ -50000000 ≤ s.tu.integ ∧ s.tu.integ ≤ 50000000

/-- The two states have the same fused identity, waiting commands and elapsed time, and in everything `settingCmd` may change are alike. -/
abbrev SameSettings (s t : State) : Prop :=
  t.ident = s.ident ∧ t.pending = s.pending ∧ t.clk.now = s.clk.now ∧ t.boot = s.boot ∧ t.cfg = s.cfg ∧ t.cfgOld = s.cfgOld ∧
    t.hostMode = s.hostMode ∧ t.profile = s.profile ∧ t.masters = s.masters ∧ t.access = s.access ∧ t.life = s.life ∧
    t.lifePart = s.lifePart ∧ t.mram = s.mram ∧ t.therm = s.therm ∧ t.pins = s.pins ∧ t.tele = s.tele ∧ t.teleFt = s.teleFt

/-- The commands of the endpoint engines: transport, matching, collectives, polling, admin queues, and paging with its coherence. -/
def hostSideCmd : Instr → Bool
  | .nudgeWrite _ _ | .aqSqTailWrite _ _ | .aqCqHeadWrite _ _ | .aqEnableSet _ _ | .aqEnableClear _ _ | .aqCommandFetch _ _ | .aqCreateQp _ _
  | .aqModifyQp _ | .aqDestroyQp _ | .aqCreateSrq _ _ | .aqDestroySrq _ | .aqCreateCq _ _ | .aqDestroyCq _ | .aqCreateEq _ | .aqDestroyEq _
  | .aqCreatePd _ | .aqDestroyPd _ | .aqRegisterWindow _ _ | .aqRevokeWindow _ | .aqInvalidate _ | .aqAbort _ | .aqSetQuota _ | .aqQueryQuota _
  | .doorbellPoll _ | .doorbellReadComplete _ _ | .emptyPollLimit _ | .slotReadComplete _ _ | .slotReread _ _ | .slotWaitExpire _
  | .chainListReadComplete _ _ | .hostReadError _ _ | .parkIdleExpire _ | .queueServiceTurn _ | .headRecordWrite _ | .cqHeadReread _
  | .cqHeadReadComplete _ _ | .cqFullTimeout _ | .interruptHoldoffEnd _ _ | .write _ | .writeWithCount _ | .read _ | .send _ | .fetchAdd _
  | .cswap64 _ | .cswap128 _ | .bindWindow _ _ | .counterFetch _ | .recv _ | .tsend _ | .trecv _ | .collective _ | .writeRx _ | .writeCountRx _
  | .readReqRx _ | .readRespRx _ | .sendRx _ | .atomicReqRx _ | .hostAtomicComplete _ _ | .atomicRespRx _ | .ackRx _ | .ackDelayExpire _
  | .rtoExpire _ _ | .rnrRetryAfterExpire _ | .atsInvalidateRequest _ _ _ | .numberQuarantineEnd _ _ | .tagEagerRx _ | .tagRtsRx _
  | .rdvReadComplete _ _ | .tagFinRx _ | .upRx _ | .opalBlockDone _ _ _ _ | .downRx _ | .treeCreditRx _ | .treeAbortRx _ | .stallTmoExpire _ _ _
  | .evictionComplete _ | .pageInReadComplete _ _ | .idleWriteback _ _ | .getS _ _ | .getM _ _ | .upgrade _ _ | .put _ _ | .putClean _ _
  | .fwdS _ _ _ | .fwdM _ _ _ | .inv _ _ _ | .cohAck _ _ | .putAck _ _ | .grant _ _ _ | .cohData _ _ _ _ _ | .hostSnoop _ _ _
  | .patrolScrubRead _ _ _ | .patrolPassStart _ | .cacheScrubPass _ _ _ | .hostDataReadComplete _ _ | .atsTranslationComplete _ _ _ _
  | .cxlCacheOwnershipGranted _ _ => true
  | _ => false

/-- [R24 R29] The commands of the endpoint engines that take a packet from an internal port, whose buffer space and credits then return to the
port it arrived by. -/
def hostTakeCmd : Instr → Bool
  | .writeRx _ | .writeCountRx _ | .readReqRx _ | .readRespRx _ | .sendRx _ | .atomicReqRx _ | .atomicRespRx _ | .ackRx _ | .tagEagerRx _
  | .tagRtsRx _ | .tagFinRx _ | .upRx _ | .downRx _ | .treeCreditRx _ | .treeAbortRx _ => true
  | _ => false

/-- The commands of the links: lanes, transfer blocks, time messages and egress scheduling, without those by which a stored route or Almanac bank,
or a snapshot, comes due. -/
def linkSideCmd : Instr → Bool
  | .eqxExchangeStart _ | .timeReqRx _ _ | .timeReportRx _ _ | .timeLockGained | .eqxIntervalEnd _ | .timeMissLimit | .ppsLossTimeout
  | .sourceWaitExpire | .octetPllUnlock _ | .octetPllRelock _ | .refclkNetLost _ | .codewordRx _ _ | .fecLockGained _ _ | .fecLockLost _
  | .lossOfSignal _ | .noLockTimerExpire _ | .retryWaitExpire _ | .retrainTmoExpire _ | .idleEnterExpire _ | .idleSequenceSent _ | .partnerIdleRx _
  | .eidleRefreshExpire _ | .exitBurstDone _ | .startOfStreamRx _ | .wakeAlignTmoExpire _ | .adaptationPass _ _ _ _ _ | .calibCoeffWrite _
  | .prbsCheckerLock _ | .prbsCheckerLoss _ _ _ | .errInjectFire _ | .laneDropEnd _ | .ltbLockGained _ | .ltbLockLost _ | .ltbBadRx _ _
  | .ltbIdleRx _ _ | .ltbDataRx _ _ _ _ | .edgeRunLimit _ _ | .ltbCtrlCreditRx _ _ _ | .ltbCtrlLinkDownRx _ _ _ | .ltbCtrlReservedRx _ _
  | .ltbInitRx _ _ _ _ | .ltbLaneMapRx _ _ _ _ _ | .ltbLoadHintRx _ _ _ | .trainWaitExpire _ | .initTmoExpire _ | .initRepeat _ | .initPoolRetry _
  | .heldIntervalExpire _ _ | .creditTmoExpire _ _ | .sharedGrantAdjust _ | .replayTmoExpire _ | .replayLimit _ | .linkGraceExpire _
  | .drainComplete _ | .linkDownWaitEnd _ | .loadHintSend _ | .egressPacketStart _ | .packetDeparted _ | .almanacEntryChange _ | .gateWakeLead _
  | .holdoverMaxExpire _ | .ppsOutEdge | .signalDetect _ => true
  | _ => false

/-- [R193 R205] The commands of the links that may end a packet still being forwarded, whose copy at an internal port is then cut short. -/
def linkCutCmd : Instr → Bool
  | .timeReqRx _ _ | .timeReportRx _ _ | .octetPllUnlock _ | .refclkNetLost _ | .fecLockLost _ | .lossOfSignal _ | .wakeAlignTmoExpire _
  | .ltbLockLost _ | .ltbIdleRx _ _ | .ltbDataRx _ _ _ _ | .ltbCtrlCreditRx _ _ _ | .ltbCtrlLinkDownRx _ _ _ | .ltbCtrlReservedRx _ _
  | .ltbInitRx _ _ _ _ | .ltbLaneMapRx _ _ _ _ _ | .ltbLoadHintRx _ _ _ | .creditTmoExpire _ _ | .replayTmoExpire _ | .replayLimit _
  | .linkDownWaitEnd _ => true
  | _ => false

/-- [R156 R157] The commands of the links by which a stored route or Almanac bank, or a snapshot, comes due. -/
def linkAdoptCmd : Instr → Bool
  | .routeBankAdopt | .almanacBankAdopt _ | .timeRespRx _ _ | .timeAnnounceRx _ _ | .timeStepApply | .ppsInEdge => true
  | _ => false

/-- The commands that start, configure, supervise or select: all that may change the stored or running configuration, the firmware's state, the
select registers, the access tables, the service records or the board's pins. -/
def settingCmd : Instr → Bool
  | .porstNAssert | .coldStart _ | .rootPllLock | .bootRomConfigRead _ | .serviceDieSelfTest | .quadrantPowerUp _ | .quadrantArraySelfTest
  | .hbmTraining | .imageSelection _ _ _ | .molzuStart _ | .hbmClearing | .laneCalibration | .quadrantInitialisation | .fwReadySet | .warmRstNAssert
  | .warmStart | .bootTmoExpire | .watchdogExpire | .antiRollbackRaise | .perstNAssert _ | .hostLinkUp _ _ _ | .flr _ | .flashReqAssert
  | .flashGntAssert | .flashReqDeassert | .registerWrite _ _ _ | .windowRead _ _ _ | .mailboxDoorbell _ _ | .timeFtLoRead _ | .snapCtrlArm _
  | .snapCtrlCancel _ | .eventData7Read _ | .counterLoRead _ _ | .laneCfgWrite _ _ | .octetTimersWrite _ _ | .portSharedLimitsWrite _ _
  | .hostBackingWrite _ _ _ | .mbOctetSet | .mbPortSet | .mbHostModeStore | .mbFwUpdateBegin | .mbFwUpdateWrite _ | .mbFwUpdateEnd _
  | .mbFwActivate _ | .mbAccessSet | .mbConfigImportCommit | .mbFeaSet | .mbQuadRetire | .fwUpdateIdleTimeout | .chainResetAction | .regRead _ _
  | .regWrite _ _ | .mramRemap _ _ | .pwrfailAssert | .pwrfailDeassert | .lifeSecondCheck _ | .lifeHourlyWrite | .lifeMonthBoundary
  | .telemetrySample _ _ | .thermalTrip _ | .railUndervoltage _ _ | .refclkCoreLost | .bmcRegWrite _ _ _ | .bmcRegRead _ | .i3cAddressAssign _
  | .i3cRstdaa | .trstNAssert | .idcode | .samplePreload | .extest | .extestPulse | .extestTrain | .clamp | .highz | .regAccess _ | .bypass
  | .perstNDeassert _ | .vaonLoss => true
  | _ => false

/-- The endpoint, function or master the command names exists: what a command that comes through a host link or from a master rests on (R65 R110), all other commands on nothing. -/
def present (s : State) : Instr → Bool
  | .porstNAssert => true
  | .coldStart _ => true
  | .rootPllLock => true
  | .bootRomConfigRead _ => true
  | .serviceDieSelfTest => true
  | .quadrantPowerUp _ => true
  | .quadrantArraySelfTest => true
  | .hbmTraining => true
  | .imageSelection _ _ _ => true
  | .molzuStart _ => true
  | .hbmClearing => true
  | .laneCalibration => true
  | .quadrantInitialisation => true
  | .fwReadySet => true
  | .warmRstNAssert => true
  | .warmStart => true
  | .bootTmoExpire => true
  | .watchdogExpire => true
  | .antiRollbackRaise => true
  | .perstNAssert _ => true
  | .hostLinkDown ep => epExists s ep
  | .hostLinkUp ep _ _ => epExists s ep
  | .configRequest r => fnExists s r.fn
  | .busMasterEnableClear fn => fnExists s fn
  | .flr fn => fnExists s fn
  | .flrComplete fn => fnExists s fn
  | .lateCompletion fn => fnExists s fn
  | .flashReqAssert => true
  | .flashGntAssert => true
  | .flashReqDeassert => true
  | .registerWrite m _ _ => masterOk s m
  | .windowRead m _ _ => masterOk s m
  | .statusCauseWrite m _ => hasInst s m
  | .statusMaskWrite m _ => hasInst s m
  | .msixUnmask fn _ => fnExists s fn
  | .mailboxDoorbell m _ => hasInst s m
  | .nudgeWrite fn _ => fnExists s fn
  | .aqSqTailWrite fn _ => fnExists s fn
  | .aqCqHeadWrite fn _ => fnExists s fn
  | .aqEnableSet fn _ => fnExists s fn
  | .aqEnableClear fn _ => fnExists s fn
  | .aqCommandFetch fn _ => fnExists s fn
  | .timeFtLoRead m => masterOk s m
  | .snapCtrlArm m => masterOk s m
  | .snapCtrlCancel m => masterOk s m
  | .eventData7Read m => masterOk s m
  | .counterLoRead m _ => masterOk s m
  | .laneCfgWrite m _ => masterOk s m
  | .octetTimersWrite m _ => masterOk s m
  | .portSharedLimitsWrite m _ => masterOk s m
  | .hostBackingWrite m _ _ => masterOk s m
  | .mbIdentGet => true
  | .mbCapsGet => true
  | .mbOctetSet => true
  | .mbPortSet => true
  | .mbPortGet => true
  | .mbHostModeStore => true
  | .mbPartitionSet => true
  | .mbRouteWrite => true
  | .mbRouteCommit => true
  | .mbRouteStatus => true
  | .mbRouteAbandon => true
  | .mbTimeSet => true
  | .mbTimeStatus => true
  | .mbSnapArm => true
  | .mbSnapCancel => true
  | .mbEqxSet => true
  | .mbAlmanacLoad => true
  | .mbAlmanacGet => true
  | .mbShaperSet => true
  | .mbPolicerSet => true
  | .mbSlWeightsSet => true
  | .mbTreeSetup => true
  | .mbTreeTeardown => true
  | .mbTreeGet => true
  | .mbEventClearNonce => true
  | .mbEventClear _ => true
  | .mbTelemetryGet => true
  | .mbLifeGet => true
  | .mbFwUpdateBegin => true
  | .mbFwUpdateWrite _ => true
  | .mbFwUpdateEnd _ => true
  | .mbFwActivate _ => true
  | .mbMeasureGet => true
  | .mbAccessSet => true
  | .mbAccessGet => true
  | .mbConfigRead => true
  | .mbConfigExport => true
  | .mbConfigExportRead => true
  | .mbConfigImportWrite => true
  | .mbConfigImportCommit => true
  | .mbGroupRoleSet => true
  | .mbFeaSet => true
  | .mbQuadGate => true
  | .mbQuadRetire => true
  | .mbChainStatus => true
  | .mbPrbsSet => true
  | .mbPrbsGet _ _ => true
  | .mbLoopbackSet => true
  | .mbErrInject => true
  | .mbInvalidOpcode => true
  | .cmdDone _ _ => true
  | .stagingIdleTimeout _ => true
  | .nonceExpire => true
  | .fwUpdateIdleTimeout => true
  | .quadPortsDrained _ => true
  | .quadRehomeDone _ => true
  | .quadGateDone _ => true
  | .quadUngateTrained _ => true
  | .aqCreateQp fn _ => fnExists s fn
  | .aqModifyQp fn => fnExists s fn
  | .aqDestroyQp fn => fnExists s fn
  | .aqCreateSrq fn _ => fnExists s fn
  | .aqDestroySrq fn => fnExists s fn
  | .aqCreateCq fn _ => fnExists s fn
  | .aqDestroyCq fn => fnExists s fn
  | .aqCreateEq fn => fnExists s fn
  | .aqDestroyEq fn => fnExists s fn
  | .aqCreatePd fn => fnExists s fn
  | .aqDestroyPd fn => fnExists s fn
  | .aqRegisterWindow fn _ => fnExists s fn
  | .aqRevokeWindow fn => fnExists s fn
  | .aqInvalidate fn => fnExists s fn
  | .aqAbort fn => fnExists s fn
  | .aqSetQuota fn => fnExists s fn
  | .aqQueryQuota fn => fnExists s fn
  | .routeBankAdopt => true
  | .almanacBankAdopt _ => true
  | .snapshotTake => true
  | .counterFoldDone => true
  | .eqxExchangeStart _ => true
  | .timeReqRx _ _ => true
  | .timeRespRx _ _ => true
  | .timeReportRx _ _ => true
  | .timeAnnounceRx _ _ => true
  | .timeLockGained => true
  | .eqxIntervalEnd _ => true
  | .timeMissLimit => true
  | .timeStepApply => true
  | .ppsInEdge => true
  | .ppsLossTimeout => true
  | .sourceWaitExpire => true
  | .octetPllUnlock _ => true
  | .octetPllRelock _ => true
  | .refclkNetLost _ => true
  | .codewordRx _ _ => true
  | .fecLockGained _ _ => true
  | .fecLockLost _ => true
  | .lossOfSignal _ => true
  | .noLockTimerExpire _ => true
  | .retryWaitExpire _ => true
  | .retrainTmoExpire _ => true
  | .idleEnterExpire _ => true
  | .idleSequenceSent _ => true
  | .partnerIdleRx _ => true
  | .eidleRefreshExpire _ => true
  | .wakeBatch => true
  | .exitBurstDone _ => true
  | .startOfStreamRx _ => true
  | .wakeAlignTmoExpire _ => true
  | .adaptationPass _ _ _ _ _ => true
  | .calibCoeffWrite _ => true
  | .prbsCheckerLock _ => true
  | .prbsCheckerLoss _ _ _ => true
  | .errInjectFire _ => true
  | .laneDropEnd _ => true
  | .ltbLockGained _ => true
  | .ltbLockLost _ => true
  | .ltbBadRx _ _ => true
  | .ltbIdleRx _ _ => true
  | .ltbDataRx _ _ _ _ => true
  | .edgeRunLimit _ _ => true
  | .ltbCtrlCreditRx _ _ _ => true
  | .ltbCtrlLinkDownRx _ _ _ => true
  | .ltbCtrlReservedRx _ _ => true
  | .ltbInitRx _ _ _ _ => true
  | .ltbLaneMapRx _ _ _ _ _ => true
  | .ltbLoadHintRx _ _ _ => true
  | .trainWaitExpire _ => true
  | .initTmoExpire _ => true
  | .initRepeat _ => true
  | .initPoolRetry _ => true
  | .heldIntervalExpire _ _ => true
  | .creditTmoExpire _ _ => true
  | .sharedGrantAdjust _ => true
  | .replayTmoExpire _ => true
  | .replayLimit _ => true
  | .linkGraceExpire _ => true
  | .drainComplete _ => true
  | .linkDownWaitEnd _ => true
  | .loadHintSend _ => true
  | .packetArrival src => match src with | .host e => epExists s e | _ => true
  | .egressPacketStart _ => true
  | .packetDeparted _ => true
  | .almanacEntryChange _ => true
  | .gateWakeLead _ => true
  | .holdoverMaxExpire _ => true
  | .doorbellPoll _ => true
  | .doorbellReadComplete _ _ => true
  | .emptyPollLimit _ => true
  | .slotReadComplete _ _ => true
  | .slotReread _ _ => true
  | .slotWaitExpire _ => true
  | .chainListReadComplete _ _ => true
  | .hostReadError _ _ => true
  | .parkIdleExpire _ => true
  | .queueServiceTurn _ => true
  | .headRecordWrite _ => true
  | .cqHeadReread _ => true
  | .cqHeadReadComplete _ _ => true
  | .cqFullTimeout _ => true
  | .interruptHoldoffEnd fn _ => fnExists s fn
  | .write _ => true
  | .writeWithCount _ => true
  | .read _ => true
  | .send _ => true
  | .fetchAdd _ => true
  | .cswap64 _ => true
  | .cswap128 _ => true
  | .bindWindow _ _ => true
  | .counterFetch _ => true
  | .recv _ => true
  | .tsend _ => true
  | .trecv _ => true
  | .collective _ => true
  | .writeRx ep => epExists s ep
  | .writeCountRx ep => epExists s ep
  | .readReqRx ep => epExists s ep
  | .readRespRx ep => epExists s ep
  | .sendRx ep => epExists s ep
  | .atomicReqRx ep => epExists s ep
  | .hostAtomicComplete ep _ => epExists s ep
  | .atomicRespRx ep => epExists s ep
  | .ackRx ep => epExists s ep
  | .ackDelayExpire _ => true
  | .rtoExpire _ _ => true
  | .rnrRetryAfterExpire _ => true
  | .atsInvalidateRequest fn _ _ => fnExists s fn
  | .numberQuarantineEnd _ _ => true
  | .tagEagerRx ep => epExists s ep
  | .tagRtsRx ep => epExists s ep
  | .rdvReadComplete _ _ => true
  | .tagFinRx ep => epExists s ep
  | .upRx _ => true
  | .opalBlockDone _ _ _ _ => true
  | .downRx _ => true
  | .treeCreditRx _ => true
  | .treeAbortRx _ => true
  | .stallTmoExpire _ _ _ => true
  | .evictionComplete _ => true
  | .pageInReadComplete _ _ => true
  | .idleWriteback _ _ => true
  | .getS _ _ => true
  | .getM _ _ => true
  | .upgrade _ _ => true
  | .put _ _ => true
  | .putClean _ _ => true
  | .fwdS _ _ _ => true
  | .fwdM _ _ _ => true
  | .inv _ _ _ => true
  | .cohAck _ _ => true
  | .putAck _ _ => true
  | .grant _ _ _ => true
  | .cohData _ _ _ _ _ => true
  | .hostSnoop _ _ _ => true
  | .patrolScrubRead _ _ _ => true
  | .patrolPassStart _ => true
  | .cacheScrubPass _ _ _ => true
  | .chainPortLock _ => true
  | .chainPortLockLost _ => true
  | .enum _ _ => true
  | .enumAck _ _ => true
  | .enumDone _ _ => true
  | .enumTmoExpire => true
  | .heartbeat _ _ => true
  | .heartbeatSend => true
  | .joinReq _ _ => true
  | .joinReqSend => true
  | .chainBreak _ _ => true
  | .orphanTmoExpire => true
  | .statusReq _ _ => true
  | .statusRsp _ _ => true
  | .reset _ _ => true
  | .chainResetAction => true
  | .regRead _ _ => true
  | .regWrite _ _ => true
  | .regRsp _ _ => true
  | .mbCmd _ _ => true
  | .mbRsp _ _ => true
  | .event _ _ => true
  | .chainBadFrame _ _ => true
  | .chainCrcFail _ _ => true
  | .relayTmoExpire _ => true
  | .mgmtCmdRx => true
  | .mgmtRespRx => true
  | .mgmtEventRx => true
  | .mgmtDistRx => true
  | .announceSend => true
  | .mgrLossTmoExpire => true
  | .electTmoExpire => true
  | .groupWalk => true
  | .isolateTmoExpire => true
  | .eventForward _ => true
  | .eventFlush => true
  | .mramRemap _ _ => true
  | .pwrfailAssert => true
  | .pwrfailDeassert => true
  | .lifeSecondCheck _ => true
  | .lifeHourlyWrite => true
  | .lifeMonthBoundary => true
  | .telemetrySample _ _ => true
  | .thermalTrip _ => true
  | .railOutOfRange _ _ => true
  | .railUndervoltage _ _ => true
  | .refclkCoreLost => true
  | .pstepAckRise _ => true
  | .noticeLeadExpire _ => true
  | .grantHoldExpire _ => true
  | .pstepStepDone _ => true
  | .bmcRegWrite _ _ _ => true
  | .bmcRegRead _ => true
  | .i3cAddressAssign _ => true
  | .i3cRstdaa => true
  | .smbusAlertResponse => true
  | .trstNAssert => true
  | .idcode => true
  | .samplePreload => true
  | .extest => true
  | .extestPulse => true
  | .extestTrain => true
  | .clamp => true
  | .highz => true
  | .regAccess _ => true
  | .bypass => true
  | .perstNDeassert _ => true
  | .busMasterEnableSet fn => fnExists s fn
  | .spdmRequest ep _ => epExists s ep
  | .ppsOutEdge => true
  | .signalDetect _ => true
  | .vaonLoss => true
  | .hostDataReadComplete ep _ => epExists s ep
  | .atsTranslationComplete fn _ _ _ => fnExists s fn
  | .cxlCacheOwnershipGranted ep _ => epExists s ep
  | .pstepAckFall _ => true

end Sys2Proof.Machine
end

