-- ==== Sys2Proof/Certificates/Slice0/Obligations.lean ====
section
/-! DEFINITION. What is to be proved of the model: that commands complete with their effects, their frames, the invariant every
step keeps, what each side of the device never changes, and rules of tables, counters, records and matching. A clause that rests on
a choice of the model's own names the entry of the assumption log in the docstring of its statement. -/

open Sys2Proof Sys2Proof.Machine

/-- Resets and the first steps of a cold start run to their effects. PORST_N holds the device and wipes all but the Vigil clock, the
stored configuration and the fuses; its release latches the straps and begins a cold start, which starts every step afresh; each due step
up to the calibration of the lanes marks itself done; the read of CONFIG counts a boot attempt and takes the copy that passes. Where the
manual leaves a condition or value open the model's choice is meant (log 6, 19, 78, 81). Follows 16_startup.md (resets and start-up
steps). -/
def Obligations.ResetsAndFirstStartStepsComplete : Prop :=
  -- PORST_N_ASSERT (R444)
  (∀ (s : State), ∃ t, exec .porstNAssert s = .next t ∧ t.boot.power = .held ∧ t.boot.porst = true ∧ t.boot.flashGnt = true ∧ t.cfg = s.cfg ∧ t.cfgOld = s.cfgOld ∧ t.ident = s.ident ∧ t.clk.vigil = s.clk.vigil ∧ t.ep = {} ∧ t.ports = { dflt := {} } ∧ t.pending = s.pending) ∧
  -- COLD_START (R446)
  (∀ (s : State) (x : Straps), s.boot.power = .held → ∃ t, exec (.coldStart x) s = .next t ∧ t.boot.power = .run ∧ t.boot.porst = false ∧ t.boot.straps = x ∧ t.boot.steps = { started := true } ∧ t.cfg = s.cfg) ∧
  -- ROOT_PLL_LOCK (R446)
  (∀ (s : State), coldRunning s = true → s.boot.steps.pll = false → ∃ t, exec .rootPllLock s = .next t ∧ t.boot = { s.boot with steps := { s.boot.steps with pll := true } }) ∧
  -- BOOT_ROM_CONFIG_READ (R446)
  (∀ (s : State) (b : Bool), s.boot.power = .run → s.boot.warmRst = false → s.pins.coreLost = false → s.boot.steps.config = false → s.boot.steps.pll = true → s.boot.warm = false → ∃ t, exec (.bootRomConfigRead b) s = .next t ∧ t.boot = { s.boot with attempts := s.boot.attempts + 1, steps := { s.boot.steps with config := true }, mgmtPkey := (if b then s.boot.mgmtPkey else s.cfgOld.mgmtPkey), groupBase := (if b then s.boot.groupBase else s.cfgOld.groupBase) } ∧ t.cfg = (if b then s.cfg else s.cfgOld)) ∧
  -- SERVICE_DIE_SELF_TEST (R446)
  (∀ (s : State), coldRunning s = true → s.boot.steps.config = true → exec .serviceDieSelfTest s = .next ({ s with boot := { s.boot with steps := { s.boot.steps with svcTest := true } } })) ∧
  -- QUADRANT_POWER_UP (R446)
  (∀ (s : State) (q : Nat), q < 4 → coldRunning s = true → s.boot.steps.config = true → (s.quad q).st ≠ 2 → ∃ t, exec (.quadrantPowerUp q) s = .next t ∧ (t.quad q).refOk = true ∧ t.boot.steps.powered = s.boot.steps.powered ||| BitVec.ofNat 4 (2 ^ q)) ∧
  -- QUADRANT_ARRAY_SELF_TEST (R446)
  (∀ (s : State), coldRunning s = true → s.boot.steps.phys = true → exec .quadrantArraySelfTest s = .next ({ s with boot := { s.boot with steps := { s.boot.steps with arrays := true } } })) ∧
  -- HBM_TRAINING (R446)
  (∀ (s : State), coldRunning s = true → s.boot.steps.phys = true → s.boot.steps.hbmTrained = false → ∃ t, exec .hbmTraining s = .next t ∧ t.boot.steps = { s.boot.steps with hbmTrained := true }) ∧
  -- HBM_CLEARING (R446)
  (∀ (s : State), coldRunning s = true → s.boot.steps.hbmTrained = true → exec .hbmClearing s = .next ({ s with boot := { s.boot with steps := { s.boot.steps with hbmCleared := true } } })) ∧
  -- LANE_CALIBRATION (R171)
  (∀ (s : State), coldRunning s = true → s.boot.steps.arrays = true → s.boot.steps.calibrated = false → ∃ t, exec .laneCalibration s = .next t ∧ t.boot = { s.boot with steps := { s.boot.steps with calibrated := true } })

/-- Image selection, Molzu, FW_READY and the firmware timers run to their effects. A due image of the restart that passes its checks is
loaded; Molzu starts; quadrant initialisation and FW_READY mark themselves done; the boot, watchdog and anti-rollback timers act on a
device that has reached their condition. Where the manual leaves a condition or value open the model's choice is meant (log 79, 90, 97).
Follows 16_startup.md (images, Molzu, FW_READY, timers). -/
def Obligations.ImagesMolzuAndReadyComplete : Prop :=
  -- IMAGE_SELECTION (R453)
  (∀ (s : State) (a b golden : Image), imageDue s = true → s.boot.fwRestarting = true → imageCheck s s.boot.restartSlot (if s.boot.restartSlot = 0 then a else if s.boot.restartSlot = 1 then b else golden) (sigSkipped s s.boot.restartSlot (if s.boot.restartSlot = 0 then a else if s.boot.restartSlot = 1 then b else golden)) = stSUCCESS → exec (.imageSelection a b golden) s = .next (loadImage s s.boot.restartSlot (if s.boot.restartSlot = 0 then a else if s.boot.restartSlot = 1 then b else golden))) ∧
  -- IMAGE_SELECTION (R453)
  (∀ (s : State) (a b golden : Image), imageDue s = true → s.boot.fwRestarting = false → s.boot.warm = false → s.boot.straps.bootSrc = 0 → s.boot.attempts ≤ 3 → s.boot.preferred = 0 → imageCheck s 0 a false = stSUCCESS → exec (.imageSelection a b golden) s = .next (loadImage s 0 a)) ∧
  -- IMAGE_SELECTION (R453)
  (∀ (s : State) (a b golden : Image), imageDue s = true → s.boot.fwRestarting = false → s.boot.warm = false → s.boot.straps.bootSrc = 1 → imageCheck s 2 golden false = stSUCCESS → exec (.imageSelection a b golden) s = .next (loadImage s 2 golden)) ∧
  -- MOLZU_START (R446)
  (∀ (s : State) (v : Bool), s.boot.power = .run → s.boot.warmRst = false → s.boot.steps.image = true → s.boot.steps.molzu = false → s.boot.fwDown = false → ∃ t, exec (.molzuStart v) s = .next t ∧ t.boot.steps = { s.boot.steps with molzu := true } ∧ (v = true → s.boot.fwRestarting = false → t.clk.vigil = 0)) ∧
  -- QUADRANT_INITIALISATION (R446)
  (∀ (s : State), s.boot.power = .run → s.boot.warmRst = false → s.boot.steps.molzu = true → s.boot.steps.quadInit = false → s.boot.fwRestarting = false → s.boot.steps.hbmCleared = true → s.boot.steps.calibrated = true → ∃ t, exec .quadrantInitialisation s = .next t ∧ t.boot.steps.quadInit = true ∧ t.grp.manager = s.cfg.groupMgr) ∧
  -- FW_READY_SET (R446)
  (∀ (s : State), s.boot.power = .run → s.boot.warmRst = false → s.boot.fwReady = false → s.boot.fwDown = false → s.boot.steps.molzu = true → s.boot.steps.quadInit = true → ∃ t, exec .fwReadySet s = .next t ∧ t.boot.fwReady = true ∧ t.boot.attempts = 0 ∧ t.boot.fwRestarting = false ∧ t.boot.readyAt = s.clk.now) ∧
  -- WARM_RST_N_ASSERT (R444)
  (∀ (s : State), s.boot.porst = false → s.boot.warmRst = false → s.boot.power = .run → ∃ t, exec .warmRstNAssert s = .next t ∧ t.boot.warmRst = true ∧ t.boot.fwReady = false ∧ t.boot.power = .run) ∧
  -- WARM_START (R448)
  (∀ (s : State), s.boot.warmRst = true → s.boot.power = .run → s.pins.coreLost = false → warmAsColdCause { s with boot := { s.boot with warmRst := false } } = none → ∃ t, exec .warmStart s = .next t ∧ t.boot.warm = true ∧ t.boot.warmRst = false ∧ t.boot.fwReady = false ∧ t.boot.steps = { started := true } ∧ t.cfg = s.cfg) ∧
  -- BOOT_TMO_EXPIRE (R453)
  (∀ (s : State), s.boot.power = .run → s.boot.fwReady = false → s.boot.fwDown = false → s.boot.warmRst = false → s.boot.fwRestarting = true → s.boot.steps.image = true → s.boot.goldenRestart = false → exec .bootTmoExpire s = .next ({ s with boot := { s.boot with goldenRestart := true, restartSlot := 2, steps := { s.boot.steps with image := false, molzu := false } } })) ∧
  -- BOOT_TMO_EXPIRE (R453)
  (∀ (s : State), s.boot.power = .run → s.boot.fwReady = false → s.boot.fwDown = false → s.boot.warmRst = false → s.boot.fwRestarting = false → s.boot.steps.molzu = true → s.boot.slot < 2 → exec .bootTmoExpire s = .next (beginCold (flushEvents (recordEv (count s .device 0 .bootFailed) .bootFailed svcDie s.boot.attempts 1)))) ∧
  -- WATCHDOG_EXPIRE (R459)
  (∀ (s : State), molzuRuns s = true → ∃ t, exec .watchdogExpire s = .next t ∧ t.boot.fwReady = false ∧ t.boot.fwRestarting = true ∧ t.boot.steps.molzu = false ∧ t.boot.update = none ∧ t.cmds.exportBuf = {} ∧ t.cmds.importBuf = {}) ∧
  -- ANTI_ROLLBACK_RAISE (R454)
  (∀ (s : State), s.boot.fwReady = true → s.boot.readyAt + 60 * oneSec ≤ s.clk.now → s.boot.slot < 2 → partOk s 3 = true → exec .antiRollbackRaise s = .next ({ s with boot := { s.boot with antiRollback := max s.boot.antiRollback s.boot.svn } }))

/-- Host-port, function, flash and SPDM commands run to their effects. PERST_N, host links, configuration requests, bus-master enable,
FLR, late completions, the flash handover with the BMC and SPDM requests act on an existing port, endpoint or function as the start-up
chapter says. Where the manual leaves a condition or value open the model's choice is meant (log 2, 8, 34, 81, 84, 96). Follows
16_startup.md (host ports, functions, flash, SPDM). -/
def Obligations.HostPortsFunctionsAndFlashComplete : Prop :=
  -- PERST_N_ASSERT (R443)
  (∀ (s : State) (h : Nat), h < 8 → ∃ t, exec (.perstNAssert h) s = .next t ∧ t.pins = { s.pins with perst := s.pins.perst ||| BitVec.ofNat 8 (2 ^ h) }) ∧
  -- PERST_N_DEASSERT (R447)
  (∀ (s : State) (h : Nat), h < 8 → exec (.perstNDeassert h) s = .next ({ s with pins := { s.pins with perst := s.pins.perst &&& ~~~ BitVec.ofNat 8 (2 ^ h) } })) ∧
  -- HOST_LINK_DOWN (R460)
  (∀ (s : State) (e : Nat), epExists s e = true → (s.hostEp e).linkUp = true → ∃ t, exec (.hostLinkDown e) s = .next t ∧ (t.hostEp e).linkUp = false) ∧
  -- HOST_LINK_UP (R447)
  (∀ (s : State) (e sp wd : Nat), epExists s e = true → s.boot.steps.phys = true → quadActive s (quadOfEp e) = true → (s.quad (quadOfEp e)).inReset = false → s.pins.perst.getLsbD (e / 2) = false → (s.hostEp e).linkUp = false → ∃ t, exec (.hostLinkUp e sp wd) s = .next t ∧ (t.hostEp e).linkUp = true ∧ (t.hostEp e).speed = sp ∧ (t.hostEp e).width = wd) ∧
  -- CONFIG_REQUEST (R447)
  (∀ (s : State) (f : Nat), fnExists s f = true → (s.hostEp (epOfFn s f)).linkUp = true → s.boot.safe = false → exec (.configRequest ⟨f, none⟩) s = .next ({ s with out := s.out ++ [.cfgRsp f (!(s.hostEp (epOfFn s f)).cfgReady)] })) ∧
  -- CONFIG_REQUEST (R447)
  (∀ (s : State) (f : Nat) (w : CfgWrite), fnExists s f = true → (s.hostEp (epOfFn s f)).linkUp = true → s.boot.safe = false → (s.hostEp (epOfFn s f)).cfgReady = true → exec (.configRequest ⟨f, some w⟩) s = .next (emit (configWrite s f w) (.cfgRsp f false))) ∧
  -- CONFIG_REQUEST (R447)
  (∀ (s : State) (f : Nat) (w : CfgWrite), fnExists s f = true → (s.hostEp (epOfFn s f)).linkUp = true → s.boot.safe = false → (s.hostEp (epOfFn s f)).cfgReady = false → exec (.configRequest ⟨f, some w⟩) s = .next (emit s (.cfgRsp f true))) ∧
  -- BUS_MASTER_ENABLE_CLEAR (R460)
  (∀ (s : State) (f : Nat), fnExists s f = true → (s.fn f).bme = true → ∃ t, exec (.busMasterEnableClear f) s = .next t ∧ (t.fn f).bme = false ∧ (t.fn f).quiesced = true) ∧
  -- BUS_MASTER_ENABLE_SET (R398)
  (∀ (s : State) (f : Nat), fnExists s f = true → (s.fn f).bme = false → isPf0 s f = false → ∃ t, exec (.busMasterEnableSet f) s = .next t ∧ (t.fn f).bme = true ∧ (t.fn f).quiesced = false) ∧
  -- FLR (R461)
  (∀ (s : State) (f : Nat), fnExists s f = true → ∃ t, exec (.flr f) s = .next t ∧ (t.fn f).flrBusy = true) ∧
  -- FLR_COMPLETE (R461)
  (∀ (s : State) (f : Nat), fnExists s f = true → (s.fn f).flrBusy = true → ∃ t, exec (.flrComplete f) s = .next t ∧ (t.fn f).flrBusy = false) ∧
  -- LATE_COMPLETION (R461)
  (∀ (s : State) (f : Nat), fnExists s f = true → (s.fn f).flrBusy = false → exec (.lateCompletion f) s = .next (count (readBack s f) .host (epOfFn s f) .lateCplDrop)) ∧
  -- FLASH_REQ_ASSERT (R458)
  (∀ (s : State), exec .flashReqAssert s = .next ({ s with boot := { s.boot with flashReq := true } })) ∧
  -- FLASH_GNT_ASSERT (R458)
  (∀ (s : State), s.boot.flashReq = true → s.boot.flashGnt = false → s.boot.porst = false → s.boot.steps.image = true → ∃ t, exec .flashGntAssert s = .next t ∧ t.boot.flashGnt = true ∧ t.boot.flashSuspended = (s.boot.flashOp == some 0) ∧ t.boot.flashOp = none ∧ t.out = s.out ++ [.pin "FLASH_GNT" 1]) ∧
  -- FLASH_REQ_DEASSERT (R458)
  (∀ (s : State), s.boot.porst = false → s.boot.flashWork = [] → ∃ t, exec .flashReqDeassert s = .next t ∧ t.boot.flashReq = false ∧ t.boot.flashGnt = false ∧ t.boot.flashSuspended = false) ∧
  -- SPDM_REQUEST (R457)
  (∀ (s : State) (e code : Nat), epExists s e = true → s.boot.fwReady = false → exec (.spdmRequest e code) s = .next ({ s with out := s.out ++ [.spdm e 0x7F true] })) ∧
  -- SPDM_REQUEST (R457)
  (∀ (s : State) (e code : Nat) (k : Nat × Nat), epExists s e = true → s.boot.fwReady = true → spdmCodes.find? (fun c => c.1 == code) = some k → exec (.spdmRequest e code) s = .next (emit s (.spdm e k.2 false)))

/-- Reads and writes of the register space run to their effects. A granted access of a master that reaches the register space reads or
writes the register it names: shown for the select registers, the interrupt cause and mask, MSI-X unmasking, the mailbox doorbell, the
time, snapshot, event and counter registers, lane configuration, octet timers, shared limits and the backing-store fields. Where the
manual leaves a condition or value open the model's choice is meant (log 22, 25, 66, 98). Follows 03_control_model.md (register blocks).
-/
def Obligations.RegisterCommandsComplete : Prop :=
  -- REGISTER_WRITE (R81)
  (∀ (s : State) (m v : Nat), masterOk s m = true → isVf s m = false → v < 512 → exec (.registerWrite m 0x20000 (leBytes 4 v)) s = .next (updMaster s m (fun x => { x with portSel := v }))) ∧
  -- WINDOW_READ (R95)
  (∀ (s : State) (m : Nat), masterOk s m = true → isVf s m = false → (s.master m).portSel < 512 → exec (.windowRead m 0x20000 4) s = .next ({ s with out := s.out ++ [.readData m (s.master m).portSel] })) ∧
  -- STATUS_CAUSE_WRITE (R90)
  (∀ (s : State) (m : Nat) (v : Word32), hasInst s m = true → fnExists s m = false → exec (.statusCauseWrite m v) s = .next (updInst s m (fun i => { i with cause := i.cause &&& ~~~ (BitVec.ofNat 9 v.toNat) }))) ∧
  -- STATUS_MASK_WRITE (R90)
  (∀ (s : State) (m : Nat) (v : Word32), hasInst s m = true → fnExists s m = false → isVf s m = false → exec (.statusMaskWrite m v) s = .next (updInst s m (fun i => { i with mask := BitVec.ofNat 9 v.toNat }))) ∧
  -- MSIX_UNMASK (R91)
  (∀ (s : State) (f v : Nat), fnExists s f = true → (s.fn f).bme = false → exec (.msixUnmask f (some v)) s = .next (updFn s f (fun x => { x with msixMask := x.msixMask.set v false }))) ∧
  -- MSIX_UNMASK (R91)
  (∀ (s : State) (f v : Nat), fnExists s f = true → (s.fn f).bme = true → (s.fn f).msixPend.cells = [(v, true)] → (s.fn f).msixMask.get v = false → exec (.msixUnmask f none) s = .next (emit (updFn (updFn s f (fun x => { x with msixFnMask := false })) f (fun x => { x with msixPend := x.msixPend.set v false })) (.msix f v))) ∧
  -- MAILBOX_DOORBELL (R99)
  (∀ (s : State) (m : Nat) (v : Word32), hasInst s m = true → isVf s m = false → v.getLsbD 0 = true → (s.inst m).mbState ≠ 1 → ∃ t, exec (.mailboxDoorbell m v) s = .next t ∧ t.cmds.queue = s.cmds.queue ++ [areaCommand s m] ∧ (t.inst m).mbState = 1) ∧
  -- MAILBOX_DOORBELL (R99)
  (∀ (s : State) (m : Nat) (v : Word32), hasInst s m = true → isVf s m = false → v.getLsbD 0 = true → (s.inst m).mbState = 1 → exec (.mailboxDoorbell m v) s = .next (updInst s m (fun i => { i with dbIgnored := true }))) ∧
  -- MAILBOX_DOORBELL (R99)
  (∀ (s : State) (m : Nat) (v : Word32), hasInst s m = true → isVf s m = false → v.getLsbD 0 = false → exec (.mailboxDoorbell m v) s = .next (s)) ∧
  -- TIME_FT_LO_READ (R107)
  (∀ (s : State) (m : Nat), masterOk s m = true → isVf s m = false → allowed s m tgtTIME false = true → ∃ t, exec (.timeFtLoRead m) s = .next t ∧ t.out = s.out ++ [.readData m (s.clk.ft.toNat % 2 ^ 32)] ∧ (t.master m).ftHi = BitVec.ofNat 32 (s.clk.ft.toNat / 2 ^ 32 % 2 ^ 32) ∧ (t.master m).ftFrac = s.clk.frac ∧ t = { s with masters := t.masters, out := t.out }) ∧
  -- SNAP_CTRL_ARM (R108)
  (∀ (s : State) (m : Nat), masterOk s m = true → isVf s m = false → allowed s m tgtTIME true = true → s.snap.st ≠ 1 → s.tu.valid = true → s.clk.ft.toNat < s.snap.ft.toNat → exec (.snapCtrlArm m) s = .next ({ s with snap := { s.snap with st := 1 } })) ∧
  -- SNAP_CTRL_CANCEL (R108)
  (∀ (s : State) (m : Nat), masterOk s m = true → isVf s m = false → allowed s m tgtTIME true = true → s.snap.st = 1 → exec (.snapCtrlCancel m) s = .next ({ s with snap := { s.snap with st := 0 } })) ∧
  -- EVENT_DATA7_READ (R109)
  (∀ (s : State) (m : Nat), masterOk s m = true → isVf s m = false → allowed s m tgtEVENT false = true → (shownRecords s).any (fun r => r.seq == rdPtrOf s m) = true → ∃ t, exec (.eventData7Read m) s = .next t ∧ t.out = s.out ++ [.readData m (eventWord s m 7)] ∧ (t.master m).rdPtr = some (rdPtrOf s m + 1) ∧ t = { s with masters := t.masters, out := t.out }) ∧
  -- COUNTER_LO_READ (R475)
  (∀ (s : State) (m k : Nat), masterOk s m = true → isVf s m = false → k < 510 → allowed s m tgtCOUNTER false = true → (counterReg s m (8 * k)).isSome = true → ∃ t, exec (.counterLoRead m k) s = .next t ∧ ∃ a, counterReg s m (8 * k) = some a ∧ t = { a.2 with out := a.2.out ++ [.readData m a.1] }) ∧
  -- LANE_CFG_WRITE (R184)
  (∀ (s : State) (m : Nat) (v : Word32), masterOk s m = true → isVf s m = false → allowed s m tgtLANE true = true → laneSelOk s (s.master m).laneSel = true → ∃ t, exec (.laneCfgWrite m v) s = .next t ∧ (t.lane (s.master m).laneSel).cfg = BitVec.ofNat 32 (laneCfgOf (s.lane (s.master m).laneSel).cfg.toNat v.toNat (s.octet (octetOfLane (s.master m).laneSel)).reach) ∧ t = { s with cfg := t.cfg, cfgOld := t.cfgOld, lanes := t.lanes }) ∧
  -- OCTET_TIMERS_WRITE (R185)
  (∀ (s : State) (m : Nat) (v : Word32), masterOk s m = true → isVf s m = false → allowed s m tgtOCTET true = true → octSelOk s (s.master m).octSel = true → exec (.octetTimersWrite m v) s = .next (updOctet s (s.master m).octSel (fun x => { x with idleEnter := inRange 5 10000 (v.toNat % 2 ^ 14) x.idleEnter, idleEn := v.toNat / 2 ^ 14 % 2 == 1, refresh := inRange 1 100 (v.toNat / 2 ^ 16 % 2 ^ 7) x.refresh, retrain := inRange 1 100 (v.toNat / 2 ^ 24 % 2 ^ 7) x.retrain }))) ∧
  -- PORT_SHARED_LIMITS_WRITE (R211)
  (∀ (s : State) (m : Nat) (v : Word32), masterOk s m = true → isVf s m = false → allowed s m tgtPORT true = true → portSelOk s (s.master m).portSel = true → v.toNat % 2 ^ 16 ≤ v.toNat / 2 ^ 16 → ∃ t, exec (.portSharedLimitsWrite m v) s = .next t ∧ (t.port (s.master m).portSel).sharedMin = v.toNat % 2 ^ 16 ∧ (t.port (s.master m).portSel).sharedMax = v.toNat / 2 ^ 16 ∧ t = { s with ports := t.ports }) ∧
  -- HOST_BACKING_WRITE (R395)
  (∀ (s : State) (m : Nat) (v : Word32), masterOk s m = true → isVf s m = false → allowed s m tgtHOST true = true → hostSelOk s (s.master m).hostSel = true → (s.hostEp (hostSelEp (s.master m).hostSel)).images.cells = [] → v.toNat ≤ 4194304 → ∃ t, exec (.hostBackingWrite m 0x03C v) s = .next t ∧ (t.hostEp (hostSelEp (s.master m).hostSel)).backSlots = v.toNat ∧ t = { s with eps := t.eps })

/-- Nudges, polls, doorbell reads and slot fetches run to their effects. A nudge of an unused slot is counted; a due poll reads the
doorbell record; an answered doorbell read counts an empty poll or takes the new INDEX and fetches; the 64th empty poll backs off; slots
that arrive join the queue; a reread slot whose GEN still disagrees is read again, and SLOT_WAIT ends the wait; a malformed chain list
fails its entry; a failed read of a QUIESCED queue stops it. Where the manual leaves a condition or value open the model's choice is meant
(log 57, 60, 99). Follows 10_work_queues.md (polling and fetching). -/
def Obligations.PollingAndFetchingCompletes : Prop :=
  -- NUDGE_WRITE (R282)
  (∀ (s : State) (f i : Nat), fnExists s f = true → nudgeSlotOk s f i = true → s.ep.nudges.get (f * 2 ^ 23 + i) = none → exec (.nudgeWrite f i) s = .next (count s .host (epOfFn s f) .nudgeUnused)) ∧
  -- NUDGE_WRITE (R282)
  (∀ (s : State) (f i q : Nat), fnExists s f = true → nudgeSlotOk s f i = true → s.ep.nudges.get (f * 2 ^ 23 + i) = some q → exec (.nudgeWrite f i) s = .next (nudgeQueue (count s .host (epOfFn s f) .nudge) q)) ∧
  -- NUDGE_WRITE (R282)
  (∀ (s : State) (f i q : Nat) (x : Qp) (u : State), fnExists s f = true → nudgeSlotOk s f i = true → s.ep.nudges.get (f * 2 ^ 23 + i) = some q → ringOf (count s .host (epOfFn s f) .nudge) q = some (x.fn, x.ring) → getQp (count s .host (epOfFn s f) .nudge) q = some x → x.st ≠ 3 → x.ring.poll = .backoff → useQueue (count s .host (epOfFn s f) .nudge) x.fn q engHost = .inr u → exec (.nudgeWrite f i) s = .next (pollNow (updRing u q (fun r => if r.poll == .active then r else { r with poll := .active, interval := pollActiveOf (count s .host (epOfFn s f) .nudge) x.fn, empty := 0, maxAt := none, parking := false, parkedBit := false, headDue := r.headDue || r.parkedBit })) q)) ∧
  -- DOORBELL_POLL (R280)
  (∀ (s : State) (q : Nat) (x : Qp) (u : State) (f : Nat) (r : Ring), getQp s q = some x → x.ring.poll = .active → x.ring.reading = false → x.ring.pollAt + x.ring.interval ≤ s.clk.now → useQueue s x.fn q engHost = .inr u → ringOf u q = some (f, r) → r.stopped = false → r.reading = false → queueQuiesced u q = false → exec (.doorbellPoll q) s = .next (count (updRing (readOut u f r.db 8 q) q (fun r => { r with reading := true, pollAt := u.clk.now })) .host (epOfFn u f) .dbPoll)) ∧
  -- DOORBELL_READ_COMPLETE (R280)
  (∀ (s : State) (q : Nat) (bs : List Byte) (x : Qp), getQp s q = some x → x.ring.reading = true → queueQuiesced s q = false → (decDbRec bs).epoch = x.ring.epoch → (decDbRec bs).index = x.ring.index → exec (.doorbellReadComplete q bs) s = .next (finishDestroys (pollAgain (emptyPoll (readBack (updRing s q (fun r => { r with reading := false })) x.fn) x.fn q x.ring) q))) ∧
  -- DOORBELL_READ_COMPLETE (R280)
  (∀ (s : State) (q : Nat) (bs : List Byte) (x : Qp) (u : State), getQp s q = some x → x.ring.reading = true → queueQuiesced s q = false → (decDbRec bs).epoch = x.ring.epoch → (decDbRec bs).index ≠ x.ring.index → ((decDbRec bs).index - x.ring.head).toNat ≤ 2 ^ x.ring.log2 → useQueue (readBack (updRing s q (fun r => { r with reading := false })) x.fn) x.fn q engHost = .inr u → (getQp u q).any (fun y => y.resident) = true → exec (.doorbellReadComplete q bs) s = .next (finishDestroys (pollAgain (issueFetch (updRing u q (fun r => { r with index := (decDbRec bs).index, poll := if r.poll == .none then .none else .active, interval := pollActiveOf s x.fn, empty := 0, maxAt := none, parkedBit := false, headDue := r.headDue || r.parkedBit, parking := false, lastWork := s.clk.now })) q) q))) ∧
  -- EMPTY_POLL_LIMIT (R280)
  (∀ (s : State) (q : Nat) (x : Qp), getQp s q = some x → x.ring.poll = .active → 64 ≤ x.ring.empty → exec (.emptyPollLimit q) s = .next (updRing s q (fun r => { r with poll := .backoff, interval := min (2 * pollActiveOf s x.fn) (pollIdleMaxOf s x.fn), maxAt := if pollIdleMaxOf s x.fn ≤ min (2 * pollActiveOf s x.fn) (pollIdleMaxOf s x.fn) then some s.clk.now else none }))) ∧
  -- SLOT_READ_COMPLETE (R277)
  (∀ (s : State) (q : Nat) (slots : List (List Byte)) (x : Qp), getQp s q = some x → slots ≠ [] → slots.length ≤ x.ring.fetching → queueQuiesced s q = false → exec (.slotReadComplete q slots) s = .next (finishDestroys (assembleQueue (updRing (readBack s x.fn) q (fun r => { r with partial_ := r.partial_ ++ slots, fetching := r.fetching - slots.length })) q))) ∧
  -- SLOT_REREAD (R279)
  (∀ (s : State) (q : Nat) (slot : List Byte) (x : Qp) (k : Nat), getQp s q = some x → x.ring.slotWait = some k → genOk x.ring.log2 (x.ring.base0 + BitVec.ofNat 32 k) slot = true → exec (.slotReread q slot) s = .next (finishDestroys (assembleQueue (updRing (readBack s x.fn) q (fun r => { r with slotWait := none, partial_ := r.partial_.set k slot })) q))) ∧
  -- SLOT_WAIT_EXPIRE (R279)
  (∀ (s : State) (q : Nat) (x : Qp) (k : Nat), getQp s q = some x → isSrq s q = false → x.ring.slotWait = some k → queueErr s q = true → x.ring.waitAt + (s.hostEp (epOfFn s x.fn)).slotWait ≤ s.clk.now → exec (.slotWaitExpire q) s = .next (finishDestroys (updRing s q (fun r => { r with stopped := true, slotWait := none })))) ∧
  -- SLOT_WAIT_EXPIRE (R279)
  (∀ (s : State) (q : Nat) (x : Qp) (k n : Nat) (e : Ent), getQp s q = some x → isSrq s q = false → x.ring.slotWait = some k → queueErr s q = false → x.ring.waitAt + (s.hostEp (epOfFn s x.fn)).slotWait ≤ s.clk.now → n = (if k = 0 then 1 else x.ring.headSlots) → e = x.ring.broken false k stMALFORMED → exec (.slotWaitExpire q) s = .next (finishDestroys (failEnt (updRing (count s .host (epOfFn s x.fn) .slotWaitExpired) q (fun r => { r with slotWait := none, partial_ := r.partial_.drop n, ents := r.ents ++ [e] })) q e.idx stMALFORMED))) ∧
  -- CHAIN_LIST_READ_COMPLETE (R276)
  (∀ (s : State) (q : Nat) (bs : List Byte) (x : Qp) (i : BitVec 32) (rest : List (BitVec 32 × Bool)) (e : Ent), getQp s q = some x → x.ring.chainQ = (i, false) :: rest → x.ring.listEnt i = some e → chainOk ((decSges bs).take ((e.chain.map (·.2)).getD 0)) = false → exec (.chainListReadComplete q bs) s = .next (finishDestroys (failAny (readBack (updRing s q (fun r => { r with chainQ := rest })) x.fn) q e stMALFORMED))) ∧
  -- CHAIN_LIST_READ_COMPLETE (R276)
  (∀ (s : State) (q : Nat) (bs : List Byte) (l : List Sge) (x : Qp) (i : BitVec 32) (rest : List (BitVec 32 × Bool)) (e : Ent) (u : State), getQp s q = some x → x.ring.chainQ = (i, false) :: rest → x.ring.listEnt i = some e → u = readBack (updRing s q (fun r => { r with chainQ := rest })) x.fn → isSrq u q = false → l = (decSges bs).take ((e.chain.map (·.2)).getD 0) → chainOk l = true → l.length = (e.chain.map (·.2)).getD 0 → l.getLast?.any isChain = false → sgeLen (e.sges ++ l) < 2 ^ 32 → exec (.chainListReadComplete q bs) s = .next (finishDestroys (startAndSend (updEnt u q e.idx (fun _ => { e with sges := e.sges ++ l, chainRead := false, chain := none })) q))) ∧
  -- HOST_READ_ERROR (R294)
  (∀ (s : State) (q : Nat) (why : ReadFail) (x : Qp) (t : State), getQp s q = some x → getCq s q = none → isSrq s q = false → t = updRing (readBack s x.fn) q (fun r => r.readFailed false) → queueQuiesced s q = true → exec (.hostReadError q why) s = .next (finishDestroys t)) ∧
  -- HOST_READ_ERROR (R294)
  (∀ (s : State) (q : Nat) (why : ReadFail) (x y : Qp) (t : State) (e : Ent), getQp s q = some x → getCq s q = none → isSrq s q = false → t = updRing (readBack s x.fn) q (fun r => r.readFailed false) → queueQuiesced s q = false → getQp t q = some y → x.ring.current false = some e → exec (.hostReadError q why) s = .next (finishDestroys (failEnt t q e.idx stHOST_TIMEOUT)))

/-- Parking, the service turn, heads, full CQs and the send operations run to their effects. An idle queue parks; a turn with no ready
queue changes nothing but the notes of missing tokens; an owed head record is written; a full CQ is read again, released or put into
ERROR; a holdoff ends; and the next entry of a queue, of each opcode of the send queue, is started and sends its first turn. Where the
manual leaves a condition or value open the model's choice is meant (log 7, 14). Follows 10_work_queues.md (parking, service, heads,
completions); 11_remote_access.md (operations); 12_matching.md (TSEND); 13_collectives.md (COLLECTIVE). -/
def Obligations.QueueServiceCompletes : Prop :=
  -- PARK_IDLE_EXPIRE (R284)
  (∀ (s : State) (q : Nat) (x : Qp), getQp s q = some x → x.ring.poll = .backoff → x.ring.maxAt.any (fun t => decide (t + (s.hostEp (epOfFn s x.fn)).parkIdle * 1000000 ≤ s.clk.now)) = true → x.idle = true → x.st = 1 → x.ring.index = x.ring.fetch → x.ring.fetching = 0 → x.ring.partial_ = [] → x.ring.slotWait = none → x.ring.parking = false → exec (.parkIdleExpire q) s = .next (pollNow (writeHead (updRing s q (fun r => { r with parkedBit := true, parking := true })) q) q)) ∧
  -- QUEUE_SERVICE_TURN (R285)
  (∀ (s : State) (qd q sl pos : Nat) (x : Qp) (t u : State), qd < 4 → t = noteWaits (pumpShapers s) qd → selectTurn t qd = some (q, sl, pos) → getQp t q = some x → x.ring.ents.any (fun e => e.st == 1 && !e.cut && e.op != 0x20) = false → useQueue (updQuad t qd (fun y => { y with turn := pos, lastServed := y.lastServed.set sl q })) x.fn q engHost = .inr u → exec (.queueServiceTurn qd) s = .next (startAndSend u q)) ∧
  -- HEAD_RECORD_WRITE (R286)
  (∀ (s : State) (q : Nat) (x : Qp), getQp s q = some x → x.ring.headDue = true → x.st ≠ 3 → exec (.headRecordWrite q) s = .next (finishDestroys (writeHead s q))) ∧
  -- CQ_HEAD_REREAD (R288)
  (∀ (s : State) (n : Nat) (c : Cq) (u : State), getCq s n = some c → c.full = true → c.err = false → c.quiesced = false → c.mode ≠ 0 → useLine s c.fn engHost false 1 n = .inr u → exec (.cqHeadReread n) s = .next (count (readOut u c.fn c.headAddr 8 n) .host (epOfFn u c.fn) .cqFullStall)) ∧
  -- CQ_HEAD_READ_COMPLETE (R288)
  (∀ (s : State) (n : Nat) (bs : List Byte) (c : Cq) (u : State), getCq s n = some c → c.err = false → c.quiesced = false → c.mode ≠ 0 → (decDbRec bs).epoch = c.epoch → useLine (readBack s c.fn) c.fn engHost true 1 n = .inr u → exec (.cqHeadReadComplete n bs) s = .next (finishDestroys (cqRelease (updCq u n (fun c => let c := { c with head := (decDbRec bs).index }; if c.full then c else { c with fullAt := none })) n (c.waiting.length + 1)))) ∧
  -- CQ_FULL_TIMEOUT (R288)
  (∀ (s : State) (n : Nat) (c : Cq), getCq s n = some c → c.full = true → c.fullAt.any (fun t => decide (t + (s.hostEp (epOfFn s c.fn)).cqFull * 1000 ≤ s.clk.now)) = true → c.quiesced = false → c.mode ≠ 0 → exec (.cqFullTimeout n) s = .next (finishDestroys (errorCq s n))) ∧
  -- INTERRUPT_HOLDOFF_END (R289)
  (∀ (s : State) (f v : Nat), fnExists s f = true → (s.fn f).holdoff.get v = 1 → exec (.interruptHoldoffEnd f v) s = .next (updFn s f (fun x => { x with holdoff := x.holdoff.set v 0 }))) ∧
  -- WRITE (R302)
  (∀ (s : State) (q : Nat) (x : Qp) (u : State), getQp s q = some x → nextIs s q 0x01 = true → useQueue s x.fn q engHost = .inr u → exec (.write q) s = .next (issueFetch (sendTurn (startNext u q) q 300 turnBytes) q)) ∧
  -- WRITE_WITH_COUNT (R302)
  (∀ (s : State) (q : Nat) (x : Qp) (u : State), getQp s q = some x → nextIs s q 0x02 = true → useQueue s x.fn q engHost = .inr u → exec (.writeWithCount q) s = .next (issueFetch (sendTurn (startNext u q) q 300 turnBytes) q)) ∧
  -- READ (R302)
  (∀ (s : State) (q : Nat) (x : Qp) (u : State), getQp s q = some x → nextIs s q 0x03 = true → useQueue s x.fn q engHost = .inr u → exec (.read q) s = .next (issueFetch (sendTurn (startNext u q) q 300 turnBytes) q)) ∧
  -- SEND (R302)
  (∀ (s : State) (q : Nat) (x : Qp) (u : State), getQp s q = some x → nextIs s q 0x04 = true → useQueue s x.fn q engHost = .inr u → exec (.send q) s = .next (issueFetch (sendTurn (startNext u q) q 300 turnBytes) q)) ∧
  -- FETCH_ADD (R304)
  (∀ (s : State) (q : Nat) (x : Qp) (u : State), getQp s q = some x → nextIs s q 0x05 = true → useQueue s x.fn q engHost = .inr u → exec (.fetchAdd q) s = .next (issueFetch (sendTurn (startNext u q) q 300 turnBytes) q)) ∧
  -- CSWAP64 (R304)
  (∀ (s : State) (q : Nat) (x : Qp) (u : State), getQp s q = some x → nextIs s q 0x06 = true → useQueue s x.fn q engHost = .inr u → exec (.cswap64 q) s = .next (issueFetch (sendTurn (startNext u q) q 300 turnBytes) q)) ∧
  -- CSWAP128 (R304)
  (∀ (s : State) (q : Nat) (x : Qp) (u : State), getQp s q = some x → nextIs s q 0x07 = true → useQueue s x.fn q engHost = .inr u → exec (.cswap128 q) s = .next (issueFetch (sendTurn (startNext u q) q 300 turnBytes) q)) ∧
  -- COUNTER_FETCH (R322)
  (∀ (s : State) (q : Nat) (x : Qp) (u : State), getQp s q = some x → nextIs s q 0x09 = true → useQueue s x.fn q engHost = .inr u → exec (.counterFetch q) s = .next (issueFetch (sendTurn (startNext u q) q 300 turnBytes) q)) ∧
  -- TSEND (R341)
  (∀ (s : State) (q : Nat) (x : Qp) (u : State), getQp s q = some x → nextIs s q 0x10 = true → useQueue s x.fn q engHost = .inr u → exec (.tsend q) s = .next (issueFetch (sendTurn (startNext u q) q 300 turnBytes) q)) ∧
  -- COLLECTIVE (R362)
  (∀ (s : State) (q : Nat) (x : Qp) (e : Ent) (v u : State), getQp s q = some x → x.ring.next = some e → nextIs s q 0x20 = true → (getTree s e.treeId).isSome = true → useTree s e.treeId = .inr v → getQp v q = some x → nextIs v q 0x20 = true → useQueue v x.fn q engHost = .inr u → exec (.collective q) s = .next (issueFetch (sendTurn (startNext u q) q 300 turnBytes) q))

/-- The admin-queue registers and the fetch of its commands run to their effects. AQ.SQ_TAIL and AQ.CQ_HEAD take their value modulo twice
the ring; ENABLE set on a DISABLED queue makes it RUNNING; ENABLE cleared on a queue in ERROR makes it DISABLED; a ring that cannot be
read puts a RUNNING queue in ERROR. Where the manual leaves a condition or value open the model's choice is meant (log 65, 98, 109).
Follows 03_control_model.md (admin queue). -/
def Obligations.AdminQueueRegistersComplete : Prop :=
  -- AQ_SQ_TAIL_WRITE (R105)
  (∀ (s : State) (f : Nat) (v : Word32), fnExists s f = true → exec (.aqSqTailWrite f v) s = .next (updAq s f (fun a => { a with sqTail := v.toNat % (2 * 2 ^ a.log2) }))) ∧
  -- AQ_CQ_HEAD_WRITE (R105)
  (∀ (s : State) (f : Nat) (v : Word32), fnExists s f = true → exec (.aqCqHeadWrite f v) s = .next (updAq s f (fun a => { a with cqHead := v.toNat % (2 * 2 ^ a.log2) }))) ∧
  -- AQ_ENABLE_SET (R106)
  (∀ (s : State) (f : Nat) (b : Bool), fnExists s f = true → (s.fn f).aq.enable = false → (s.fn f).aq.state = 0 → ∃ t, exec (.aqEnableSet f b) s = .next t ∧ (t.fn f).aq.state = 1 ∧ (t.fn f).aq.enable = true ∧ (t.fn f).aq.irqEn = b ∧ (t.fn f).aq.errCode = 0) ∧
  -- AQ_ENABLE_CLEAR (R106)
  (∀ (s : State) (f : Nat) (b : Bool), fnExists s f = true → (s.fn f).aq.state = 2 → ∃ t, exec (.aqEnableClear f b) s = .next t ∧ (t.fn f).aq.state = 0 ∧ (t.fn f).aq.enable = false ∧ (t.fn f).aq.irqEn = b) ∧
  -- AQ_COMMAND_FETCH (R105)
  (∀ (s : State) (f : Nat), fnExists s f = true → (s.fn f).aq.state = 1 → (s.fn f).aq.enable = true → (s.fn f).bme = true → (s.fn f).aq.room ≠ 0 → ∃ t, exec (.aqCommandFetch f ⟨none, true⟩) s = .next t ∧ (t.fn f).aq.state = 2 ∧ (t.fn f).aq.errCode = stHOST_TIMEOUT ∧ (t.fn f).aq.fetched = []) ∧
  -- AQ_COMMAND_FETCH (R105)
  (∀ (s : State) (f : Nat) (sl : Option (List (List Byte))), fnExists s f = true → (s.fn f).aq.state = 1 → (s.fn f).aq.enable = true → (s.fn f).bme = true → ∃ t, exec (.aqCommandFetch f ⟨sl, false⟩) s = .next t ∧ (t.fn f).aq.state = 2 ∧ (t.fn f).aq.errCode = stHOST_TIMEOUT ∧ (t.fn f).aq.fetched = []) ∧
  -- AQ_COMMAND_FETCH (R105)
  (∀ (s : State) (f : Nat) (l : List (List Byte)), fnExists s f = true → (s.fn f).aq.state = 1 → (s.fn f).aq.enable = true → (s.fn f).bme = true → (s.fn f).aq.room ≠ 0 → exec (.aqCommandFetch f ⟨some l, true⟩) s = .next (aqSweepAll (updAq (emit s (.dmaRead f ((s.fn f).aq.sqBase.toNat + (s.fn f).aq.sqHead % 2 ^ (s.fn f).aq.log2 * 64) 64 0)) f (fun a => { a with sqHead := (a.sqHead + (l.take (s.fn f).aq.room).length) % (2 * 2 ^ a.log2), fetched := a.fetched ++ l.take (s.fn f).aq.room })) f))

/-- The creating admin commands make their object and complete with SUCCESS. When its turn has come and its slot is well formed, each
creating command that its conditions admit makes its queue, completion queue, event queue or domain under the number it returns, and
completes. Where the manual leaves a condition or value open the model's choice is meant (log 59, 60). Follows 04_command_set.md (admin
commands). -/
def Obligations.AdminCreationCompletes : Prop :=
  -- AQ_CREATE_QP (R135)
  (∀ (s : State) (f : Nat) (bs : List Byte) (e : List Byte) (q i : Nat), fnExists s f = true → aqTurn s f 0x01 = some e → aqClean e = true → (createQp (aqTaken s f e) f e (decDbRec bs)).2 = some (stSUCCESS, q, i) → ∃ t, exec (.aqCreateQp f bs) s = .next t ∧ ∃ x, getQp t q = some x ∧ x.fn = f ∧ x.st = 0 ∧ x.pd = leAt e 8 3 ∧ x.sendCq = leAt e 12 3 ∧ x.recvCq = leAt e 16 3 ∧ x.ring.base = leAt e 32 8 ∧ x.ring.epoch = (decDbRec bs).epoch ∧ x.ring.nudge = i) ∧
  -- AQ_CREATE_SRQ (R135)
  (∀ (s : State) (f : Nat) (bs : List Byte) (e : List Byte) (q i : Nat), fnExists s f = true → aqTurn s f 0x04 = some e → aqClean e = true → (createSrq (aqTaken s f e) f e (decDbRec bs)).2 = some (stSUCCESS, q, i) → ∃ t, exec (.aqCreateSrq f bs) s = .next t ∧ ∃ x, getSrq t q = some x ∧ x.fn = f ∧ x.pd = leAt e 8 3 ∧ x.cq = leAt e 12 3 ∧ x.ring.base = leAt e 24 8 ∧ x.ring.epoch = (decDbRec bs).epoch ∧ x.ring.nudge = i ∧ x.ring.poll = .active) ∧
  -- AQ_CREATE_CQ (R68)
  (∀ (s : State) (f : Nat) (bs : List Byte) (e : List Byte) (q : Nat), fnExists s f = true → aqTurn s f 0x06 = some e → aqClean e = true → (createCq (aqTaken s f e) f e (decDbRec bs)).2 = some (stSUCCESS, q, 0) → ∃ t, exec (.aqCreateCq f bs) s = .next t ∧ ∃ x, getCq t q = some x ∧ x.fn = f ∧ x.mode = byteAt e 8 ∧ x.log2 = byteAt e 9 ∧ x.vector = leAt e 10 2 ∧ x.base = leAt e 16 8 ∧ x.epoch = (decDbRec bs).epoch ∧ x.written = 0) ∧
  -- AQ_CREATE_EQ (R135)
  (∀ (s : State) (f : Nat) (e : List Byte) (q : Nat), fnExists s f = true → aqTurn s f 0x08 = some e → aqClean e = true → (createEq (aqTaken s f e) f e).2 = some (stSUCCESS, q, 0) → ∃ t, exec (.aqCreateEq f) s = .next t ∧ ∃ x, t.ep.eqs.get q = some x ∧ x.fn = f ∧ x.log2 = byteAt e 9 ∧ x.vector = leAt e 10 2 ∧ x.base = leAt e 16 8) ∧
  -- AQ_CREATE_PD (R135)
  (∀ (s : State) (f : Nat) (e : List Byte) (q : Nat), fnExists s f = true → aqTurn s f 0x0A = some e → aqClean e = true → (createPd (aqTaken s f e) f e).2 = some (stSUCCESS, q, 0) → ∃ t, exec (.aqCreatePd f) s = .next t ∧ t.ep.pds.get q = some { fn := f, kernel := byteAt e 8 == 1, home := homeOf f }) ∧
  -- AQ_REGISTER_WINDOW (R136)
  (∀ (s : State) (f : Nat) (bs : List Byte) (e : List Byte) (k : Nat), fnExists s f = true → aqTurn s f 0x0C = some e → aqClean e = true → byteAt e 12 ≤ 15 → 1 ≤ byteAt e 13 → byteAt e 13 ≤ 6 → windowBad (byteAt e 12) (byteAt e 13) (decExtents bs) = false → pf1Denied (emit (aqTaken s f e) (.dmaRead f (leAt e 16 8) (16 * byteAt e 13) 0)) f 0x0C = false → (registerWindow (emit (aqTaken s f e) (.dmaRead f (leAt e 16 8) (16 * byteAt e 13) 0)) f (leAt e 8 3) (byteAt e 12) (byteAt e 13) (decExtents bs)).2 = (stSUCCESS, k) → exec (.aqRegisterWindow f bs) s = .next (aqSweepAll (aqComplete (registerWindow (emit (aqTaken s f e) (.dmaRead f (leAt e 16 8) (16 * byteAt e 13) 0)) f (leAt e 8 3) (byteAt e 12) (byteAt e 13) (decExtents bs)).1 f (aqTag e) stSUCCESS k 0) f))

/-- The other admin commands and BIND_WINDOW make their change and complete with SUCCESS. When its turn has come and its slot is well
formed, each modifying, destroying, revoking, invalidating, aborting and quota command that its conditions admit makes its change and
completes with SUCCESS or, a destruction that has to wait, later; BIND_WINDOW completes its entry with the key. Where the manual leaves a
condition or value open the model's choice is meant (log 39, 61, 62, 64, 99). Follows 04_command_set.md (admin commands);
11_remote_access.md (BIND_WINDOW). -/
def Obligations.AdminChangesComplete : Prop :=
  -- AQ_MODIFY_QP (R299)
  (∀ (s : State) (f : Nat) (e : List Byte), fnExists s f = true → aqTurn s f 0x02 = some e → aqClean e = true → (modifyQp (aqTaken s f e) f e).2 = some (stSUCCESS, 0, 0) → exec (.aqModifyQp f) s = .next (aqSweepAll (aqComplete (modifyQp (aqTaken s f e) f e).1 f (aqTag e) stSUCCESS 0 0) f)) ∧
  -- AQ_DESTROY_QP (R292)
  (∀ (s : State) (f : Nat) (e : List Byte), fnExists s f = true → aqTurn s f 0x03 = some e → aqClean e = true → (destroyQp (aqTaken s f e) f e).2 = none → exec (.aqDestroyQp f) s = .next (finishDestroys (aqSweepAll (destroyQp (aqTaken s f e) f e).1 f))) ∧
  -- AQ_DESTROY_SRQ (R292)
  (∀ (s : State) (f : Nat) (e : List Byte), fnExists s f = true → aqTurn s f 0x05 = some e → aqClean e = true → (destroySrq (aqTaken s f e) f e).2 = none → exec (.aqDestroySrq f) s = .next (finishDestroys (aqSweepAll (destroySrq (aqTaken s f e) f e).1 f))) ∧
  -- AQ_DESTROY_CQ (R138)
  (∀ (s : State) (f : Nat) (e : List Byte), fnExists s f = true → aqTurn s f 0x07 = some e → aqClean e = true → (destroyCq (aqTaken s f e) f e).2 = some (stSUCCESS, 0, 0) → exec (.aqDestroyCq f) s = .next (aqSweepAll (aqComplete (destroyCq (aqTaken s f e) f e).1 f (aqTag e) stSUCCESS 0 0) f)) ∧
  -- AQ_DESTROY_EQ (R138)
  (∀ (s : State) (f : Nat) (e : List Byte), fnExists s f = true → aqTurn s f 0x09 = some e → aqClean e = true → (destroyEq (aqTaken s f e) f e).2 = some (stSUCCESS, 0, 0) → exec (.aqDestroyEq f) s = .next (aqSweepAll (aqComplete (destroyEq (aqTaken s f e) f e).1 f (aqTag e) stSUCCESS 0 0) f)) ∧
  -- AQ_DESTROY_PD (R138)
  (∀ (s : State) (f : Nat) (e : List Byte), fnExists s f = true → aqTurn s f 0x0B = some e → aqClean e = true → (destroyPd (aqTaken s f e) f e).2 = some (stSUCCESS, 0, 0) → exec (.aqDestroyPd f) s = .next (aqSweepAll (aqComplete (destroyPd (aqTaken s f e) f e).1 f (aqTag e) stSUCCESS 0 0) f)) ∧
  -- AQ_REVOKE_WINDOW (R319)
  (∀ (s : State) (f : Nat) (e : List Byte), fnExists s f = true → aqTurn s f 0x0D = some e → aqClean e = true → (winOf (aqTaken s f e) (BitVec.ofNat 32 (leAt e 8 4))).any (fun w => w.fn == f) = true → winBusy (aqTaken s f e) ((BitVec.ofNat 32 (leAt e 8 4)).toNat / 256) = false → exec (.aqRevokeWindow f) s = .next (aqSweepAll (aqComplete (revokeWindow (aqTaken s f e) ((BitVec.ofNat 32 (leAt e 8 4)).toNat / 256)) f (aqTag e) stSUCCESS 0 0) f)) ∧
  -- AQ_INVALIDATE (R320)
  (∀ (s : State) (f : Nat) (e : List Byte), fnExists s f = true → aqTurn s f 0x0E = some e → aqClean e = true → (invalidate (aqTaken s f e) f e).2 = some (stSUCCESS, 0, 0) → exec (.aqInvalidate f) s = .next (aqSweepAll (aqComplete (invalidate (aqTaken s f e) f e).1 f (aqTag e) stSUCCESS 0 0) f)) ∧
  -- AQ_ABORT (R137)
  (∀ (s : State) (f : Nat) (e : List Byte) (x : Qp), fnExists s f = true → aqTurn s f 0x0F = some e → aqClean e = true → byteAt e 8 = 0 → getQp (aqTaken s f e) (leAt e 12 3) = some x → x.fn = f → (abortSend (aqTaken s f e) (leAt e 12 3) x (BitVec.ofNat 16 (leAt e 16 2))).2 = some (stSUCCESS, 0, 0) → exec (.aqAbort f) s = .next (aqSweepAll (aqComplete (abortSend (aqTaken s f e) (leAt e 12 3) x (BitVec.ofNat 16 (leAt e 16 2))).1 f (aqTag e) stSUCCESS 0 0) f)) ∧
  -- AQ_SET_QUOTA (R139)
  (∀ (s : State) (f : Nat) (e : List Byte) (v : Nat), fnExists s f = true → aqTurn s f 0x10 = some e → aqClean e = true → isPf0 (aqTaken s f e) f = true → ownVf (aqTaken s f e) f (leAt e 8 4) = some v → exec (.aqSetQuota f) s = .next (aqSweepAll (aqComplete (updFn (aqTaken s f e) v (fun y => { y with quota := { queues := leAt e 12 4, cqs := leAt e 16 4, windows := leAt e 20 4, unexp := leAt e 24 4 } })) f (aqTag e) stSUCCESS 0 0) f)) ∧
  -- AQ_QUERY_QUOTA (R134)
  (∀ (s : State) (f : Nat) (e : List Byte) (v : Nat), fnExists s f = true → aqTurn s f 0x11 = some e → aqClean e = true → ownVf (aqTaken s f e) f (leAt e 8 4) = some v → exec (.aqQueryQuota f) s = .next (aqSweepAll (aqComplete (aqTaken s f e) f (aqTag e) stSUCCESS ((aqTaken s f e).fn v).qUse ((aqTaken s f e).fn v).winUse) f)) ∧
  -- BIND_WINDOW (R319)
  (∀ (s : State) (q : Nat) (bs : List Byte) (x : Qp) (e : Ent) (k : Nat), getQp s q = some x → x.ring.chainQ = [] → x.ring.next = some e → e.op = 0x08 → e.status = stSUCCESS → x.st = 1 → x.resident = true → fenceOk x.ring e = true → mayWork s q x = true → e.chainRead = false → (registerWindow (emit s (.dmaRead x.fn (leAt e.slot0 16 8) (16 * byteAt e.slot0 9) q)) x.fn x.pd (byteAt e.slot0 8) (byteAt e.slot0 9) (decExtents bs)).2 = (stSUCCESS, k) → exec (.bindWindow q bs) s = .next (finishDestroys (issueFetch (completeEnt (registerWindow (emit s (.dmaRead x.fn (leAt e.slot0 16 8) (16 * byteAt e.slot0 9) q)) x.fn x.pd (byteAt e.slot0 8) (byteAt e.slot0 9) (decExtents bs)).1 q e.idx stSUCCESS 0 (leBytes 4 k)) q))) ∧
  -- BIND_WINDOW (R319)
  (∀ (s : State) (q : Nat) (bs : List Byte) (x : Qp) (e : Ent) (i : BitVec 32) (rest : List (BitVec 32 × Bool)), getQp s q = some x → x.ring.chainQ = (i, true) :: rest → x.ring.ents.find? (fun e => e.idx == i && e.chainRead && e.st == 0) = some e → exec (.bindWindow q bs) s = .next (finishDestroys (bindNow (updEnt (updRing (readBack s x.fn) q (fun r => { r with chainQ := rest })) q i (fun e => { e with chainRead := false })) q x e (decExtents bs))))

/-- The identity, octet, port, host-mode and partition commands complete with SUCCESS and their effect. A served command of opcodes 0x0000
to 0x0104 that its own checks admit changes what it names, and its response carries SUCCESS and the payload its rule gives. Where the
manual leaves a condition or value open the model's choice is meant (log 68, 76, 89). Follows 04_command_set.md (mailbox commands);
02_modes.md (modes). -/
def Obligations.InterfaceMailboxCommandsComplete : Prop :=
  -- MB_IDENT_GET (R122)
  (∀ (s : State) (c : MbCmd) (rest : List MbCmd), AtHead s c rest 0x0000 [] → ((lenIs 0 []) c.payload) = true → exec .mbIdentGet s = .next (respond ((served s rest)) c stSUCCESS (identBytes (served s rest) c.m))) ∧
  -- MB_CAPS_GET (R122)
  (∀ (s : State) (c : MbCmd) (rest : List MbCmd), AtHead s c rest 0x0001 [] → ((lenIs 0 []) c.payload) = true → exec .mbCapsGet s = .next (respond ((served s rest)) c stSUCCESS (leBytes 4 (residentLimit (served s rest)) ++ leBytes 1 (((List.range 4).map (fun q => put (b2n (quadActive (served s rest) q)) q 1)).foldl (· + ·) 0) ++ leBytes 1 (b2n (splitNumbering (served s rest))) ++ List.replicate 10 0))) ∧
  -- MB_OCTET_SET (R49)
  (∀ (s : State) (c : MbCmd) (rest : List MbCmd), AtHead s c rest 0x0100 [(tgtOCTET, true)] → (lenIs 4 [(3, 1)] c.payload && decide (byteAt c.payload 0 < 64) && decide (byteAt c.payload 1 < 4) && decide (byteAt c.payload 2 < 2)) = true → quadOut (served s rest) (byteAt c.payload 0 / 16) = false → quadBusy (served s rest) (byteAt c.payload 0 / 16) = false → (portsOfOctet (served s rest) (byteAt c.payload 0)).any (portBusy (served s rest)) = false → (portsOfOctet (served s rest) (byteAt c.payload 0)).any (portIsUp (served s rest)) = false → 2 ≤ byteAt c.payload 1 → partOk (served s rest) 1 = true → exec .mbOctetSet s = .next (respond (storeCfg (setOctet (served s rest) (byteAt c.payload 0) (byteAt c.payload 1) (byteAt c.payload 2)) (fun g => { g with rate := g.rate.set (byteAt c.payload 0) (byteAt c.payload 1), reach := g.reach.set (byteAt c.payload 0) (byteAt c.payload 2) })) c stSUCCESS ([]))) ∧
  -- MB_PORT_SET (R50)
  (∀ (s : State) (c : MbCmd) (rest : List MbCmd), AtHead s c rest 0x0101 [(tgtPORT, true)] → (lenIs 8 [(5, 3)] c.payload && decide (leAt c.payload 0 2 < 512) && decide (byteAt c.payload 2 < 4) && decide (byteAt c.payload 3 < 4) && decide (byteAt c.payload 4 < 2)) = true → quadOut (served s rest) (quadOfLane (leAt c.payload 0 2)) = false → portBusy (served s rest) (leAt c.payload 0 2) = false → ((served s rest).port (leAt c.payload 0 2)).exists_ = false → leAt c.payload 0 2 % widthLanes (byteAt c.payload 2) = 0 → claimedBy (served s rest) (leAt c.payload 0 2) (widthLanes (byteAt c.payload 2)) = [] → byteAt c.payload 3 = 3 → byteAt c.payload 4 = 0 → ((portDown (updPort (configurePort (served s rest) (leAt c.payload 0 2) (byteAt c.payload 2) 3 false) (leAt c.payload 0 2) (fun x => { x with again := false })) (leAt c.payload 0 2)).port (leAt c.payload 0 2)).link = .down → partOk (served s rest) 1 = true → exec .mbPortSet s = .next (respond (portDown (updPort (configurePort (served s rest) (leAt c.payload 0 2) (byteAt c.payload 2) 3 false) (leAt c.payload 0 2) (fun x => { x with again := false })) (leAt c.payload 0 2)) c stSUCCESS ([]))) ∧
  -- MB_PORT_SET (R50)
  (∀ (s : State) (c : MbCmd) (rest : List MbCmd), AtHead s c rest 0x0101 [(tgtPORT, true)] → (lenIs 8 [(5, 3)] c.payload && decide (leAt c.payload 0 2 < 512) && decide (byteAt c.payload 2 < 4) && decide (byteAt c.payload 3 < 4) && decide (byteAt c.payload 4 < 2)) = true → quadOut (served s rest) (quadOfLane (leAt c.payload 0 2)) = false → portBusy (served s rest) (leAt c.payload 0 2) = false → leAt c.payload 0 2 % widthLanes (byteAt c.payload 2) = 0 → claimedBy (served s rest) (leAt c.payload 0 2) (widthLanes (byteAt c.payload 2)) = [] → ((served s rest).port (leAt c.payload 0 2)).exists_ = true → ((served s rest).port (leAt c.payload 0 2)).width = byteAt c.payload 2 → ((served s rest).port (leAt c.payload 0 2)).role = byteAt c.payload 3 → ((served s rest).port (leAt c.payload 0 2)).up = false → byteAt c.payload 3 ≠ 1 → byteAt c.payload 4 = 1 → partOk (served s rest) 1 = true → exec .mbPortSet s = .next (respond (portUp (storeCfg (updPort (served s rest) (leAt c.payload 0 2) (fun x => { x with up := true })) (fun g => { g with ports := g.ports.set (leAt c.payload 0 2) (some { width := byteAt c.payload 2, role := byteAt c.payload 3, up := true }) })) (leAt c.payload 0 2)) c stSUCCESS ([]))) ∧
  -- MB_PORT_GET (R122)
  (∀ (s : State) (c : MbCmd) (rest : List MbCmd), AtHead s c rest 0x0102 [(tgtPORT, false)] → (lenIs 2 [] c.payload && decide (leAt c.payload 0 2 < 512)) = true → quadOut (served s rest) (quadOfLane (leAt c.payload 0 2)) = false → portBusy (served s rest) (leAt c.payload 0 2) = false → ((served s rest).port (leAt c.payload 0 2)).exists_ = true → exec .mbPortGet s = .next (respond ((served s rest)) c stSUCCESS ((([linkCode ((served s rest).port (leAt c.payload 0 2)).link, ((served s rest).port (leAt c.payload 0 2)).width, ((served s rest).port (leAt c.payload 0 2)).role, portProfile (served s rest) (leAt c.payload 0 2), b2n (degraded (served s rest) (leAt c.payload 0 2)), ((served s rest).port (leAt c.payload 0 2)).rxMap.toNat, ((served s rest).port (leAt c.payload 0 2)).txMap.toNat]).flatMap (leBytes 1)) ++ List.replicate 9 0))) ∧
  -- MB_HOST_MODE_STORE (R60)
  (∀ (s : State) (c : MbCmd) (rest : List MbCmd), AtHead s c rest 0x0103 [(tgtHOST, true), (tgtDEVICE, true)] → (lenIs 4 [(2, 2)] c.payload && decide (byteAt c.payload 0 < 8) && decide (byteAt c.payload 1 < 3)) = true → ¬ (byteAt c.payload 0 = 7 ∧ byteAt c.payload 1 = 1) → partOk (served s rest) 1 = true → exec .mbHostModeStore s = .next (respond (storeCfg (served s rest) (fun g => { g with hostMode := g.hostMode.set (byteAt c.payload 0) (some (byteAt c.payload 1)) })) c stSUCCESS ([]))) ∧
  -- MB_PARTITION_SET (R224)
  (∀ (s : State) (c : MbCmd) (rest : List MbCmd), AtHead s c rest 0x0104 [(tgtSWITCH, true)] → (partitionFields c.payload) = true → byteAt c.payload 0 = 2 → exec .mbPartitionSet s = .next (respond ({ (served s rest) with routes := { (served s rest).routes with slots := putKeys (served s rest).routes.slots (leAt c.payload 4 2) (keysOf c.payload (leAt c.payload 6 2)) } }) c stSUCCESS ([])))

/-- The route, time, snapshot and Equinox commands complete with SUCCESS and their effect. A served command of opcodes 0x0200 to 0x0304
that its own checks admit stages, commits, reports or abandons routes, sets or reports time, arms or cancels a snapshot, or sets the
exchange interval, and completes with SUCCESS. Where the manual leaves a condition or value open the model's choice is meant (log 89, 98,
100). Follows 04_command_set.md (mailbox commands); 05_fabric_time.md (time); 08_routing.md (routes). -/
def Obligations.FabricMailboxCommandsComplete : Prop :=
  -- MB_ROUTE_WRITE (R124)
  (∀ (s : State) (c : MbCmd) (rest : List MbCmd), AtHead s c rest 0x0200 [(tgtSWITCH, true)] → (routeWriteFields c.payload) = true → (served s rest).routes.stage = .none → (served s rest).routes.lostEpoch = none → exec .mbRouteWrite s = .next (respond ({ (served s rest) with routes := { (served s rest).routes with other := (List.range (byteAt c.payload 1)).foldl (fun b i => b.put (byteAt c.payload 0) (leAt c.payload 2 2 + i) (routeEntryAt c.payload i)) (served s rest).routes.active, stage := .staged, stagedEpoch := BitVec.ofNat 16 (leAt c.payload 4 2), lostEpoch := none } }) c stSUCCESS ([]))) ∧
  -- MB_ROUTE_COMMIT (R125)
  (∀ (s : State) (c : MbCmd) (rest : List MbCmd), AtHead s c rest 0x0201 [(tgtSWITCH, true)] → (lenIs 24 [(2, 2), (13, 3)] c.payload && (List.range 4).all (fun i => decide (fld (byteAt c.payload 12) (2 * i) 2 < 3))) = true → (served s rest).routes.stage = .none → BitVec.ofNat 16 (leAt c.payload 0 2) - (served s rest).routes.epoch ≠ 0 → (BitVec.ofNat 16 (leAt c.payload 0 2) - (served s rest).routes.epoch).toNat ≤ 32767 → fld (byteAt c.payload 12) 6 2 ≠ 2 → leAt c.payload 4 8 ≠ 0 → adoptFtFault (served s rest) (leAt c.payload 4 8) = 0 → exec .mbRouteCommit s = .next (respond ({ (served s rest) with routes := { (served s rest).routes with other := { (served s rest).routes.active with mode := bySl (fun i => fld (byteAt c.payload 12) (2 * i) 2), alpha := bySl (fun i => byteAt c.payload (16 + i)), beta := bySl (fun i => byteAt c.payload (20 + i)) }, stage := .pending, stagedEpoch := BitVec.ofNat 16 (leAt c.payload 0 2), adoptFt := BitVec.ofNat 64 (leAt c.payload 4 8), lostEpoch := none } }) c stSUCCESS ([]))) ∧
  -- MB_ROUTE_STATUS (R122)
  (∀ (s : State) (c : MbCmd) (rest : List MbCmd), AtHead s c rest 0x0202 [(tgtSWITCH, false)] → ((lenIs 0 []) c.payload) = true → (served s rest).routes.stage = .none → exec .mbRouteStatus s = .next (respond ((served s rest)) c stSUCCESS (leBytes 2 (served s rest).routes.epoch.toNat ++ leBytes 2 (served s rest).routes.epoch.toNat ++ leBytes 1 0 ++ [0, 0, 0] ++ leBytes 8 0))) ∧
  -- MB_ROUTE_ABANDON (R126)
  (∀ (s : State) (c : MbCmd) (rest : List MbCmd), AtHead s c rest 0x0203 [(tgtSWITCH, true)] → ((lenIs 0 []) c.payload) = true → (served s rest).routes.stage ≠ .none → exec .mbRouteAbandon s = .next (respond ({ (served s rest) with routes := { (served s rest).routes with stage := .none } }) c stSUCCESS ([]))) ∧
  -- MB_TIME_SET (R128)
  (∀ (s : State) (c : MbCmd) (rest : List MbCmd), AtHead s c rest 0x0300 [(tgtTIME, true)] → (lenIs 16 [(9, 7)] c.payload && decide (byteAt c.payload 8 < 2)) = true → (served s rest).grp.manager = true → byteAt c.payload 8 = 1 → exec .mbTimeSet s = .next (respond ({ becomeSource (served s rest) with tu := { (becomeSource (served s rest)).tu with tod := some (BitVec.ofNat 64 (leAt c.payload 0 8)), todAt := (becomeSource (served s rest)).clk.now } }) c stSUCCESS ([]))) ∧
  -- MB_TIME_STATUS (R122)
  (∀ (s : State) (c : MbCmd) (rest : List MbCmd), AtHead s c rest 0x0301 [(tgtTIME, false)] → ((lenIs 0 []) c.payload) = true → exec .mbTimeStatus s = .next (respond ((served s rest)) c stSUCCESS (leBytes 1 (timeStateBits (served s rest)) ++ [0, 0, 0] ++ leBytes 4 (sourceFea (served s rest)).toNat ++ leBytes 8 (BitVec.ofInt 64 ((served s rest).tu.offset / 65536)).toNat))) ∧
  -- MB_SNAP_ARM (R129)
  (∀ (s : State) (c : MbCmd) (rest : List MbCmd), AtHead s c rest 0x0302 [(tgtTIME, true)] → (lenIs 16 [(9, 7)] c.payload && decide (byteAt c.payload 8 < 2)) = true → byteAt c.payload 8 = 0 → (served s rest).snap.st ≠ 1 → (served s rest).tu.valid = true → (served s rest).clk.ft.toNat < leAt c.payload 0 8 → exec .mbSnapArm s = .next (respond ({ (served s rest) with snap := { (served s rest).snap with ft := BitVec.ofNat 64 (leAt c.payload 0 8), st := 1 } }) c stSUCCESS ([]))) ∧
  -- MB_SNAP_CANCEL (R129)
  (∀ (s : State) (c : MbCmd) (rest : List MbCmd), AtHead s c rest 0x0303 [(tgtTIME, true)] → ((lenIs 0 []) c.payload) = true → (served s rest).snap.st = 1 → exec .mbSnapCancel s = .next (respond (cancelSnap (served s rest)) c stSUCCESS ([]))) ∧
  -- MB_EQX_SET (R147)
  (∀ (s : State) (c : MbCmd) (rest : List MbCmd), AtHead s c rest 0x0304 [(tgtTIME, true)] → (lenIs 4 [] c.payload && decide (leAt c.payload 0 2 < 512) && decide (1 ≤ leAt c.payload 2 2) && decide (leAt c.payload 2 2 ≤ 128)) = true → quadOut (served s rest) (quadOfLane (leAt c.payload 0 2)) = false → ((served s rest).port (leAt c.payload 0 2)).exists_ = true → portBusy (served s rest) (leAt c.payload 0 2) = false → exec .mbEqxSet s = .next (respond (updPort (served s rest) (leAt c.payload 0 2) (fun x => { x with eqx := { x.eqx with interval := leAt c.payload 2 2 * 125000 } })) c stSUCCESS ([])))

/-- The Almanac, shaper, policer, weight and tree commands complete with SUCCESS and their effect. A served command of opcodes 0x0400 to
0x0502 that its own checks admit loads or reports an Almanac bank, sets a shaper, policer or the weights of a port, or sets up, tears down
or reports a tree, and completes with SUCCESS. Where the manual leaves a condition or value open the model's choice is meant (log 77, 89).
Follows 04_command_set.md (mailbox commands); 09_scheduling.md (Almanac, shapers, policers); 13_collectives.md (trees). -/
def Obligations.SchedulingMailboxCommandsComplete : Prop :=
  -- MB_ALMANAC_LOAD (R127)
  (∀ (s : State) (c : MbCmd) (rest : List MbCmd), AtHead s c rest 0x0400 [(tgtSWITCH, true)] → (almFields c.payload) = true → quadOut (served s rest) (quadOfLane (leAt c.payload 0 2)) = false → ((served s rest).port (leAt c.payload 0 2)).exists_ = true → portBusy (served s rest) (leAt c.payload 0 2) = false → ((served s rest).port (leAt c.payload 0 2)).gate.pending = false → byteAt c.payload 2 = 0 → leAt c.payload 8 8 ≠ 0 → adoptFtFault (served s rest) (leAt c.payload 8 8) = 0 → exec .mbAlmanacLoad s = .next (respond (updPort (served s rest) (leAt c.payload 0 2) (fun x => { x with gate := { x.gate with pending := true, bank0 := if ((served s rest).port (leAt c.payload 0 2)).gate.active then { gating := false, entries := almEntries c.payload, ft := BitVec.ofNat 64 (leAt c.payload 8 8) } else ((served s rest).port (leAt c.payload 0 2)).gate.bank0, bank1 := if ((served s rest).port (leAt c.payload 0 2)).gate.active then ((served s rest).port (leAt c.payload 0 2)).gate.bank1 else { gating := false, entries := almEntries c.payload, ft := BitVec.ofNat 64 (leAt c.payload 8 8) } } })) c stSUCCESS ([]))) ∧
  -- MB_ALMANAC_GET (R127)
  (∀ (s : State) (c : MbCmd) (rest : List MbCmd), AtHead s c rest 0x0401 [(tgtSWITCH, false)] → (lenIs 4 [(3, 1)] c.payload && decide (leAt c.payload 0 2 < 512) && decide (byteAt c.payload 2 < 2)) = true → quadOut (served s rest) (quadOfLane (leAt c.payload 0 2)) = false → portBusy (served s rest) (leAt c.payload 0 2) = false → ((served s rest).port (leAt c.payload 0 2)).exists_ = true → exec .mbAlmanacGet s = .next (respond ((served s rest)) c stSUCCESS (almBytes (leAt c.payload 0 2) (if byteAt c.payload 2 = 0 then ((served s rest).port (leAt c.payload 0 2)).gate.bank0 else ((served s rest).port (leAt c.payload 0 2)).gate.bank1)))) ∧
  -- MB_SHAPER_SET (R252)
  (∀ (s : State) (c : MbCmd) (rest : List MbCmd), AtHead s c rest 0x0402 [(tgtSHAPER, true)] → (shaperFields c.payload) = true → shpPort (leAt c.payload 0 4) = true → quadOut (served s rest) (quadOfLane (fld (leAt c.payload 0 4) 0 9)) = false → ((served s rest).port (fld (leAt c.payload 0 4) 0 9)).exists_ = true → portBusy (served s rest) (fld (leAt c.payload 0 4) 0 9) = false → exec .mbShaperSet s = .next (respond (updPort (served s rest) (fld (leAt c.payload 0 4) 0 9) (fun x => { x with shaper := { rate := leAt c.payload 4 4, burst := leAt c.payload 8 4, at_ := (served s rest).clk.now } })) c stSUCCESS ([]))) ∧
  -- MB_POLICER_SET (R255)
  (∀ (s : State) (c : MbCmd) (rest : List MbCmd), AtHead s c rest 0x0403 [(tgtSHAPER, true)] → (policerFields c.payload) = true → fld (leAt c.payload 0 4) 31 1 = 0 → quadOut (served s rest) (quadOfLane (fld (leAt c.payload 0 4) 0 9)) = false → ((served s rest).port (fld (leAt c.payload 0 4) 0 9)).exists_ = true → portBusy (served s rest) (fld (leAt c.payload 0 4) 0 9) = false → fld (leAt c.payload 0 4) 9 2 = 0 → exec .mbPolicerSet s = .next (respond (updPort (served s rest) (fld (leAt c.payload 0 4) 0 9) (fun x => { x with pol0 := policerOf (served s rest) c.payload })) c stSUCCESS ([]))) ∧
  -- MB_SL_WEIGHTS_SET (R249)
  (∀ (s : State) (c : MbCmd) (rest : List MbCmd), AtHead s c rest 0x0404 [(tgtPORT, true)] → (lenIs 8 [] c.payload && decide (leAt c.payload 0 2 < 512) && [2, 4, 6].all (fun i => decide (1 ≤ leAt c.payload i 2) && decide (leAt c.payload i 2 ≤ 4095))) = true → quadOut (served s rest) (quadOfLane (leAt c.payload 0 2)) = false → ((served s rest).port (leAt c.payload 0 2)).exists_ = true → portBusy (served s rest) (leAt c.payload 0 2) = false → exec .mbSlWeightsSet s = .next (respond (updPort (served s rest) (leAt c.payload 0 2) (fun x => { x with quanta := (leAt c.payload 2 2, leAt c.payload 4 2, leAt c.payload 6 2) })) c stSUCCESS ([]))) ∧
  -- MB_TREE_SETUP (R357)
  (∀ (s : State) (c : MbCmd) (rest : List MbCmd), AtHead s c rest 0x0500 [(tgtSWITCH, true)] → (treeFields c.payload) = true → (doTreeSetup (served s rest) c).1 = stSUCCESS → exec .mbTreeSetup s = .next (respond (doTreeSetup (served s rest) c).2.2 c stSUCCESS (doTreeSetup (served s rest) c).2.1)) ∧
  -- MB_TREE_TEARDOWN (R360)
  (∀ (s : State) (c : MbCmd) (rest : List MbCmd) (d : Tree), AtHead s c rest 0x0501 [(tgtSWITCH, true)] → (treeIdFields c.payload) = true → getTree (served s rest) (leAt c.payload 0 4) = some d → d.colls = [] → exec .mbTreeTeardown s = .next (respond (removeTree (served s rest) (leAt c.payload 0 4)) c stSUCCESS ([]))) ∧
  -- MB_TREE_GET (R356)
  (∀ (s : State) (c : MbCmd) (rest : List MbCmd) (d : Tree), AtHead s c rest 0x0502 [(tgtSWITCH, false)] → (treeIdFields c.payload) = true → getTree (served s rest) (leAt c.payload 0 4) = some d → exec .mbTreeGet s = .next (respond ((served s rest)) c stSUCCESS (treeBytes (leAt c.payload 0 4) d)))

/-- The event-log, telemetry, life, firmware and measurement commands complete and have their effect. A served command of opcodes 0x0600
to 0x0704 that its own checks admit clears the log with a fresh nonce, reports telemetry, life or measurement, or begins, writes, ends or
activates a firmware update; the end of an update answers ACCEPTED; the timers of the nonce and of the update release them. Where the
manual leaves a condition or value open the model's choice is meant (log 7, 70, 89, 90, 98). Follows 04_command_set.md (mailbox commands);
16_startup.md (firmware update); 17_service_life.md (event log, life record). -/
def Obligations.LogAndFirmwareMailboxCommandsComplete : Prop :=
  -- MB_EVENT_CLEAR_NONCE (R130)
  (∀ (s : State) (c : MbCmd) (rest : List MbCmd), AtHead s c rest 0x0600 [(tgtEVENT, true)] → ((lenIs 0 []) c.payload) = true → exec .mbEventClearNonce s = .next (respond ({ drawn (served s rest) with cmds := { (served s rest).cmds with nonce := some (Config.nonce (served s rest).free) } }) c stSUCCESS (leBytes 16 (Config.nonce (served s rest).free).toNat))) ∧
  -- MB_EVENT_CLEAR (R130)
  (∀ (s : State) (c : MbCmd) (rest : List MbCmd), AtHead s c rest 0x0601 [(tgtEVENT, true)] → ((lenIs 136 []) c.payload) = true → (served s rest).boot.ownerKeys.contains (tokenKey c.payload) = true → (c.payload.drop 8).take 12 = (served s rest).ident.serial → (served s rest).cmds.nonce = some (BitVec.ofNat 128 (leAt c.payload 20 16)) → exec (.mbEventClear true) s = .next (respond ({ (recordEv (served s rest) .logCleared svcDie (leAt c.payload 0 4) (leAt c.payload 4 4) (BitVec.ofNat 32 (leAt c.payload 36 4)).toNat) with cmds := { (recordEv (served s rest) .logCleared svcDie (leAt c.payload 0 4) (leAt c.payload 4 4) (BitVec.ofNat 32 (leAt c.payload 36 4)).toNat).cmds with nonce := none }, recd := { (recordEv (served s rest) .logCleared svcDie (leAt c.payload 0 4) (leAt c.payload 4 4) (BitVec.ofNat 32 (leAt c.payload 36 4)).toNat).recd with buf := (recordEv (served s rest) .logCleared svcDie (leAt c.payload 0 4) (leAt c.payload 4 4) (BitVec.ofNat 32 (leAt c.payload 36 4)).toNat).recd.buf.filter (fun r => !clearedBy (BitVec.ofNat 32 (leAt c.payload 36 4)) r), ring := (recordEv (served s rest) .logCleared svcDie (leAt c.payload 0 4) (leAt c.payload 4 4) (BitVec.ofNat 32 (leAt c.payload 36 4)).toNat).recd.ring.filter (fun r => !clearedBy (BitVec.ofNat 32 (leAt c.payload 36 4)) r) } }) c stSUCCESS ([]))) ∧
  -- MB_TELEMETRY_GET (R480)
  (∀ (s : State) (c : MbCmd) (rest : List MbCmd), AtHead s c rest 0x0602 [(tgtDEVICE, false)] → (lenIs 4 [(1, 3)] c.payload && decide (byteAt c.payload 0 < 6)) = true → exec .mbTelemetryGet s = .next (respond ((served s rest)) c stSUCCESS (leBytes 1 (byteAt c.payload 0) ++ leBytes 1 (groupCount (byteAt c.payload 0)) ++ [0, 0] ++ leBytes 8 ((served s rest).teleFt.get (byteAt c.payload 0)).toNat ++ (List.range (groupCount (byteAt c.payload 0))).flatMap (fun i => s16Bytes (reading (served s rest) (byteAt c.payload 0) i))))) ∧
  -- MB_LIFE_GET (R481)
  (∀ (s : State) (c : MbCmd) (rest : List MbCmd), AtHead s c rest 0x0603 [(tgtDEVICE, false)] → ((lenIs 0 []) c.payload) = true → exec .mbLifeGet s = .next (respond ((served s rest)) c stSUCCESS (leBytes 4 ((served s rest).life.secs / 3600) ++ s16Bytes (monthsAvg ((served s rest).life.months.take 12)) ++ s16Bytes (served s rest).life.maxAvg ++ s16Bytes (served s rest).life.maxMean ++ leBytes 1 (b2n (served s rest).life.void + 2 * b2n (served s rest).life.gap) ++ leBytes 1 (served s rest).life.nMonths ++ (served s rest).life.pred ++ leBytes 4 ((served s rest).life.hotSecs / 3600) ++ leBytes 4 (served s rest).clk.vigil.toNat))) ∧
  -- MB_FW_UPDATE_BEGIN (R456)
  (∀ (s : State) (c : MbCmd) (rest : List MbCmd), AtHead s c rest 0x0700 [(tgtFLASH, true)] → (lenIs 8 [(1, 3)] c.payload && decide (byteAt c.payload 0 < 2) && imageLenOk (leAt c.payload 4 4)) = true → (served s rest).boot.slot ≠ byteAt c.payload 0 → (served s rest).boot.update = none → exec .mbFwUpdateBegin s = .next (respond ({ flashOp (setErased (served s rest) (byteAt c.payload 0) true) 0 (slotBase (byteAt c.payload 0)) 4096 with boot := { (flashOp (setErased (served s rest) (byteAt c.payload 0) true) 0 (slotBase (byteAt c.payload 0)) 4096).boot with update := some { owner := c.m, slot := byteAt c.payload 0, len := leAt c.payload 4 4, next := 0, lastUse := (served s rest).clk.now } } }) c stSUCCESS ([]))) ∧
  -- MB_FW_UPDATE_WRITE (R456)
  (∀ (s : State) (c : MbCmd) (rest : List MbCmd) (d : FwUpdate), AtHead s c rest 0x0701 [(tgtFLASH, true)] → (decide (9 ≤ c.payload.length) && decide (c.payload.length ≤ 4088) && zeroAt c.payload 4 4) = true → (served s rest).boot.update = some d → d.owner = c.m → leAt c.payload 0 4 = d.next → leAt c.payload 0 4 + (c.payload.length - 8) ≤ d.len → exec (.mbFwUpdateWrite false) s = .next (respond ({ flashOp (foldS (sectorsIn (leAt c.payload 0 4) (c.payload.length - 8)) (served s rest) (fun s a => flashOp s 0 (slotBase d.slot + a) 65536)) 1 (slotBase d.slot + leAt c.payload 0 4) (c.payload.length - 8) with boot := { (flashOp (foldS (sectorsIn (leAt c.payload 0 4) (c.payload.length - 8)) (served s rest) (fun s a => flashOp s 0 (slotBase d.slot + a) 65536)) 1 (slotBase d.slot + leAt c.payload 0 4) (c.payload.length - 8)).boot with update := some { d with next := leAt c.payload 0 4 + (c.payload.length - 8), lastUse := (served s rest).clk.now } } }) c stSUCCESS ([]))) ∧
  -- MB_FW_UPDATE_END (R456)
  (∀ (s : State) (c : MbCmd) (rest : List MbCmd) (img : Image) (d : FwUpdate), AtHead s c rest 0x0702 [(tgtFLASH, true)] → ((lenIs 0 []) c.payload) = true → s.boot.flashGnt = false → s.boot.flashReq = false → s.boot.update = some d → d.owner = c.m → exec (.mbFwUpdateEnd img) s = .next (respond (doFwUpdateEnd img (served s rest) c).2.2 c stACCEPTED [])) ∧
  -- MB_FW_ACTIVATE (R456)
  (∀ (s : State) (c : MbCmd) (rest : List MbCmd) (img : Image), AtHead s c rest 0x0703 [(tgtDEVICE, true)] → activateFields c.payload = true → s.boot.flashGnt = false → s.boot.flashReq = false → byteAt c.payload 1 = 0 → imageCheck (served s rest) (byteAt c.payload 0) img false = stSUCCESS → partOk (served s rest) 3 = true → exec (.mbFwActivate img) s = .next (respond { flashOp (served s rest) 2 (slotBase (byteAt c.payload 0)) img.imageLen with boot := { (flashOp (served s rest) 2 (slotBase (byteAt c.payload 0)) img.imageLen).boot with preferred := byteAt c.payload 0, attempts := 0 } } c stSUCCESS [])) ∧
  -- MB_MEASURE_GET (R122)
  (∀ (s : State) (c : MbCmd) (rest : List MbCmd), AtHead s c rest 0x0704 [] → ((lenIs 0 []) c.payload) = true → exec .mbMeasureGet s = .next (respond ((served s rest)) c stSUCCESS (beBytes 48 (served s rest).boot.sha ++ leBytes 1 (served s rest).boot.slot ++ [0, 0, 0]))) ∧
  -- NONCE_EXPIRE (R130)
  (∀ (s : State), exec .nonceExpire s = .next ({ s with cmds := { s.cmds with nonce := none } })) ∧
  -- FW_UPDATE_IDLE_TIMEOUT (R456)
  (∀ (s : State) (u : FwUpdate), s.boot.update = some u → u.lastUse + 60 * oneSec ≤ s.clk.now → exec .fwUpdateIdleTimeout s = .next ({ s with boot := { s.boot with update := none } }))

/-- The access-table, configuration-image, role, FEA and chain-status commands complete and have their effect. A served command of opcodes
0x0705 to 0x0809 that its own checks admit sets or reports an access table, reads, exports or imports the stored configuration, changes
the group role, the FEA, the gating or retirement of a quadrant, or reports the chain; a gate answers ACCEPTED; idle staging buffers are
released. Where the manual leaves a condition or value open the model's choice is meant (log 28, 29, 30, 71, 89, 98, 109). Follows
04_command_set.md (mailbox commands); 15_hierarchy.md (roles, FEA, chain); 02_modes.md (gating, retiring). -/
def Obligations.ConfigurationMailboxCommandsComplete : Prop :=
  -- MB_ACCESS_SET (R116)
  (∀ (s : State) (c : MbCmd) (rest : List MbCmd), AtHead s c rest 0x0705 [(tgtDEVICE, true)] → (lenIs 260 [(1, 3)] c.payload && isTarget (byteAt c.payload 0) && (List.range 64).all (fun i => fld (leAt c.payload (4 + 4 * i) 4) 26 5 == 0)) = true → byteAt c.payload 0 ≠ tgtKEY → byteAt c.payload 0 ≠ tgtSECURE → byteAt c.payload 0 ≠ tgtDEVICE → losesRight ((served s rest).access.get (byteAt c.payload 0)) (tableAt c.payload 4) 0 false = false → losesRight ((served s rest).access.get (byteAt c.payload 0)) (tableAt c.payload 4) 0 true = false → partOk (served s rest) 1 = true → exec .mbAccessSet s = .next (respond (storeCfg { (served s rest) with access := (served s rest).access.set (byteAt c.payload 0) (tableAt c.payload 4) } (fun g => { g with access := g.access.set (byteAt c.payload 0) (some (tableAt c.payload 4)) })) c stSUCCESS ([]))) ∧
  -- MB_ACCESS_GET (R116)
  (∀ (s : State) (c : MbCmd) (rest : List MbCmd), AtHead s c rest 0x0706 [(tgtDEVICE, false)] → (lenIs 4 [(1, 3)] c.payload && isTarget (byteAt c.payload 0)) = true → exec .mbAccessGet s = .next (respond ((served s rest)) c stSUCCESS (tableBytes ((served s rest).access.get (byteAt c.payload 0))))) ∧
  -- MB_CONFIG_READ (R525)
  (∀ (s : State) (c : MbCmd) (rest : List MbCmd) (v : Nat × Nat), AtHead s c rest 0x0800 [(tgtDEVICE, false)] → (lenIs 4 [] c.payload && itemCodes.contains (byteAt c.payload 3)) = true → itemQuadOut (served s rest) (byteAt c.payload 3) (leAt c.payload 0 3) = false → itemBusy (served s rest) (byteAt c.payload 3) (leAt c.payload 0 3) = false → itemValues (served s rest) (byteAt c.payload 3) (leAt c.payload 0 3) = some v → exec .mbConfigRead s = .next (respond ((served s rest)) c stSUCCESS (leBytes 4 v.1 ++ leBytes 4 v.2))) ∧
  -- MB_CONFIG_EXPORT (R132)
  (∀ (s : State) (c : MbCmd) (rest : List MbCmd), AtHead s c rest 0x0801 [(tgtDEVICE, false)] → ((lenIs 0 []) c.payload) = true → stagingBusy (served s rest).cmds.exportBuf c.m = false → exec .mbConfigExport s = .next (respond ({ (served s rest) with cmds := { (served s rest).cmds with exportBuf := { owner := some c.m, bytes := configImage (served s rest), next := 0 } } }) c stSUCCESS (leBytes 4 (configImage (served s rest)).length ++ leBytes 4 (crc32c ((configImage (served s rest)).drop 64)).toNat))) ∧
  -- MB_CONFIG_EXPORT_READ (R132)
  (∀ (s : State) (c : MbCmd) (rest : List MbCmd), AtHead s c rest 0x0802 [(tgtDEVICE, false)] → ((lenIs 4 []) c.payload) = true → (served s rest).cmds.exportBuf.owner = some c.m → leAt c.payload 0 4 = (served s rest).cmds.exportBuf.next → leAt c.payload 0 4 + (((served s rest).cmds.exportBuf.bytes.drop (leAt c.payload 0 4)).take 4080).length < (served s rest).cmds.exportBuf.bytes.length → exec .mbConfigExportRead s = .next (respond ({ (served s rest) with cmds := { (served s rest).cmds with exportBuf := { (served s rest).cmds.exportBuf with next := leAt c.payload 0 4 + (((served s rest).cmds.exportBuf.bytes.drop (leAt c.payload 0 4)).take 4080).length } } }) c stSUCCESS (((served s rest).cmds.exportBuf.bytes.drop (leAt c.payload 0 4)).take 4080))) ∧
  -- MB_CONFIG_IMPORT_WRITE (R132)
  (∀ (s : State) (c : MbCmd) (rest : List MbCmd), AtHead s c rest 0x0803 [(tgtDEVICE, true)] → (decide (9 ≤ c.payload.length) && decide (c.payload.length ≤ 4088) && zeroAt c.payload 4 4) = true → stagingBusy (served s rest).cmds.importBuf c.m = false → leAt c.payload 0 4 = (served s rest).cmds.importBuf.next → (served s rest).cmds.importBuf.next + (c.payload.drop 8).length ≤ 720896 → exec .mbConfigImportWrite s = .next (respond ({ (served s rest) with cmds := { (served s rest).cmds with importBuf := { owner := some c.m, bytes := (served s rest).cmds.importBuf.bytes ++ c.payload.drop 8, next := (served s rest).cmds.importBuf.next + (c.payload.drop 8).length } } }) c stSUCCESS ([]))) ∧
  -- MB_CONFIG_IMPORT_COMMIT (R133)
  (∀ (s : State) (c : MbCmd) (rest : List MbCmd), AtHead s c rest 0x0804 [(tgtDEVICE, true), (tgtCONFIG, true)] → ((lenIs 8 []) c.payload) = true → stagingBusy (served s rest).cmds.importBuf c.m = false → leAt c.payload 0 4 = (served s rest).cmds.importBuf.bytes.length → leAt c.payload 4 4 = (crc32c ((served s rest).cmds.importBuf.bytes.drop 64)).toNat → 23808 ≤ (served s rest).cmds.importBuf.bytes.length → leAt (served s rest).cmds.importBuf.bytes 0 4 = 0x55434647 → leAt (served s rest).cmds.importBuf.bytes 4 2 = 1 → byteAt (served s rest).cmds.importBuf.bytes 6 = b2n (served s rest).ident.h96 → byteAt (served s rest).cmds.importBuf.bytes 7 = b2n (served s rest).ident.gradeL → partOk (served s rest) 1 = true → exec .mbConfigImportCommit s = .next (respond (recordEv { storeCfg (served s rest) (importCfg (served s rest).cmds.importBuf.bytes) with boot := { (served s rest).boot with importFresh := true }, life := { (served s rest).life with pred := ((served s rest).cmds.importBuf.bytes.drop 8).take 12 }, lifePart := { (served s rest).lifePart with pred := ((served s rest).cmds.importBuf.bytes.drop 8).take 12 }, cmds := { (served s rest).cmds with importBuf := {} } } .configImported svcDie (leAt (served s rest).cmds.importBuf.bytes 8 4) (leAt (served s rest).cmds.importBuf.bytes 12 4) (leAt (served s rest).cmds.importBuf.bytes 16 4)) c stSUCCESS [])) ∧
  -- STAGING_IDLE_TIMEOUT (R132)
  (∀ (s : State) (b : Bool), b = true → exec (.stagingIdleTimeout b) s = .next ({ s with cmds := { s.cmds with importBuf := {} } })) ∧
  -- MB_GROUP_ROLE_SET (R77)
  (∀ (s : State) (c : MbCmd) (rest : List MbCmd), AtHead s c rest 0x0805 [(tgtDEVICE, true)] → (lenIs 4 [(1, 3)] c.payload && decide (byteAt c.payload 0 < 2)) = true → byteAt c.payload 0 = 1 → exec .mbGroupRoleSet s = .next (respond (noteWait { (served s rest) with grp := { (served s rest).grp with manager := true, configured := true, candidate := false, lostRec := false } }) c stSUCCESS ([]))) ∧
  -- MB_FEA_SET (R434)
  (∀ (s : State) (c : MbCmd) (rest : List MbCmd), AtHead s c rest 0x0806 [(tgtDEVICE, true)] → (lenIs 4 [] c.payload && decide (leAt c.payload 0 4 < 2 ^ 20)) = true → (served s rest).boot.straps.feaStrapEn = false → partOk (served s rest) 1 = true → (served s rest).routes.fea.isSome = true → exec .mbFeaSet s = .next (respond (storeCfg (served s rest) (fun g => { g with fea := some (BitVec.ofNat 20 (leAt c.payload 0 4)) })) c stSUCCESS ([]))) ∧
  -- MB_FEA_SET (R434)
  (∀ (s : State) (c : MbCmd) (rest : List MbCmd) (t u : State), AtHead s c rest 0x0806 [(tgtDEVICE, true)] → (lenIs 4 [] c.payload && decide (leAt c.payload 0 4 < 2 ^ 20)) = true → (served s rest).boot.straps.feaStrapEn = false → partOk (served s rest) 1 = true → t = storeCfg (served s rest) (fun g => { g with fea := some (BitVec.ofNat 20 (leAt c.payload 0 4)) }) → t.routes.fea = none → u = { t with routes := { t.routes with fea := some (BitVec.ofNat 20 (leAt c.payload 0 4)) } } → (portsOf u).any (fun p => isFabric u p && (u.port p).link == .active) = false → exec .mbFeaSet s = .next (respond (u) c stSUCCESS ([]))) ∧
  -- MB_QUAD_GATE (R73)
  (∀ (s : State) (c : MbCmd) (rest : List MbCmd), AtHead s c rest 0x0807 [(tgtDEVICE, true)] → (lenIs 4 [(2, 2)] c.payload && decide (byteAt c.payload 0 < 4) && decide (byteAt c.payload 1 < 2)) = true → quadBusy (served s rest) (byteAt c.payload 0) = false → byteAt c.payload 1 = 1 → ((served s rest).quad (byteAt c.payload 0)).st = 0 → serviceKept (served s rest) (byteAt c.payload 0) = true → (fnsOfQuad (served s rest) (byteAt c.payload 0)).any (fun f => ((served s rest).fn f).bme) = false → (served s rest).ep.trees.cells.any (fun kv => kv.2.isSome && kv.1 % 4 == byteAt c.payload 0) = false → rehomeRoom (served s rest) (byteAt c.payload 0) = true → exec .mbQuadGate s = .next (respond ((accept (beginGate (served s rest) (byteAt c.payload 0)) c (.quadGate (byteAt c.payload 0)) true stSUCCESS false).2.2) c stACCEPTED ([]))) ∧
  -- MB_QUAD_GATE (R73)
  (∀ (s : State) (c : MbCmd) (rest : List MbCmd), AtHead s c rest 0x0807 [(tgtDEVICE, true)] → (lenIs 4 [(2, 2)] c.payload && decide (byteAt c.payload 0 < 4) && decide (byteAt c.payload 1 < 2)) = true → quadBusy (served s rest) (byteAt c.payload 0) = false → byteAt c.payload 1 = 0 → ((served s rest).quad (byteAt c.payload 0)).st = 1 → exec .mbQuadGate s = .next (respond (accept (forecast (updQuad (served s rest) (byteAt c.payload 0) (fun x => { x with stage := .ungating })) 0 1) c (.quadUngate (byteAt c.payload 0)) true stSUCCESS false).2.2 c stACCEPTED [])) ∧
  -- MB_QUAD_RETIRE (R75)
  (∀ (s : State) (c : MbCmd) (rest : List MbCmd), AtHead s c rest 0x0808 [(tgtDEVICE, true), (tgtCONFIG, true)] → (lenIs 4 [(2, 2)] c.payload && decide (byteAt c.payload 0 < 4) && decide (byteAt c.payload 1 < 2)) = true → quadBusy (served s rest) (byteAt c.payload 0) = false → byteAt c.payload 1 = 0 → partOk (served s rest) 1 = true → exec .mbQuadRetire s = .next (respond (storeCfg (served s rest) (fun g => { g with retire := (served s rest).cfg.retire &&& ~~~ BitVec.ofNat 4 (2 ^ byteAt c.payload 0) })) c stSUCCESS ([]))) ∧
  -- MB_CHAIN_STATUS (R425)
  (∀ (s : State) (c : MbCmd) (rest : List MbCmd), AtHead s c rest 0x0809 [(tgtDEVICE, false)] → ((lenIs 0 []) c.payload) = true → exec .mbChainStatus s = .next (respond ((served s rest)) c stSUCCESS (leBytes 1 (served s rest).chain.addr ++ leBytes 1 (b2n (isChainMgr (served s rest)) + 2 * b2n (served s rest).grp.manager + 4 * b2n (served s rest).chain.orphan + 8 * b2n (served s rest).chain.overflow + 16 * b2n (served s rest).chain.upLock + 32 * b2n (served s rest).chain.downLock) ++ leBytes 1 (if isChainMgr (served s rest) then (served s rest).chain.len else 0) ++ [0] ++ leBytes 4 (served s rest).chain.groupBase.toNat)))

/-- The lane-test commands, unknown opcodes, class L ends and the steps of gating have their effect. A served lane-test command that its
own checks admit sets or reports the lane; an unknown opcode is answered INVALID_OPCODE; a class L command whose work has ended records
EV_CMD_DONE; each due step of gating and ungating moves the quadrant on. Where the manual leaves a condition or value open the model's
choice is meant (log 27, 73, 74, 93, 95, 109). Follows 04_command_set.md (mailbox commands, class L); 06_lanes.md (lane tests);
02_modes.md (gating). -/
def Obligations.LaneTestAndClassLCommandsComplete : Prop :=
  -- MB_PRBS_SET (R178)
  (∀ (s : State) (c : MbCmd) (rest : List MbCmd), AtHead s c rest 0x0900 [(tgtLANE, true)] → (lenIs 8 [(5, 3)] c.payload && decide (leAt c.payload 0 2 < 512) && decide (byteAt c.payload 2 < 8) && decide (byteAt c.payload 3 < 2) && decide (byteAt c.payload 4 < 2) && !(byteAt c.payload 4 == 1 && byteAt c.payload 2 == 7)) = true → quadOut (served s rest) (quadOfLane (leAt c.payload 0 2)) = false → quadBusy (served s rest) (quadOfLane (leAt c.payload 0 2)) = false → ((served s rest).lane (leAt c.payload 0 2)).st = .diag → byteAt c.payload 2 ≠ 3 → byteAt c.payload 3 = 0 → byteAt c.payload 4 = 1 → exec .mbPrbsSet s = .next (respond (laneTx (updLane (stopCheck (served s rest) (leAt c.payload 0 2)) (leAt c.payload 0 2) (fun x => { x with pattern := byteAt c.payload 2, prbsGen := false, prbsChk := true, prbsBits := 0, prbsErrs := 0 })) (leAt c.payload 0 2) (diagTx ((updLane (stopCheck (served s rest) (leAt c.payload 0 2)) (leAt c.payload 0 2) (fun x => { x with pattern := byteAt c.payload 2, prbsGen := false, prbsChk := true, prbsBits := 0, prbsErrs := 0 })).lane (leAt c.payload 0 2)))) c stSUCCESS ([]))) ∧
  -- MB_PRBS_GET (R179)
  (∀ (s : State) (c : MbCmd) (rest : List MbCmd) (bits errs : Nat), AtHead s c rest 0x0901 [(tgtLANE, false)] → (lenIs 2 [] c.payload && decide (leAt c.payload 0 2 < 512)) = true → quadOut (served s rest) (quadOfLane (leAt c.payload 0 2)) = false → quadBusy (served s rest) (quadOfLane (leAt c.payload 0 2)) = false → exec (.mbPrbsGet bits errs) s = .next (respond ((updLane (served s rest) (leAt c.payload 0 2) (fun x => checkedSo x bits errs))) c stSUCCESS (leBytes 8 (sat64 (((updLane (served s rest) (leAt c.payload 0 2) (fun x => checkedSo x bits errs)).lane (leAt c.payload 0 2)).prbsBits + ((updLane (served s rest) (leAt c.payload 0 2) (fun x => checkedSo x bits errs)).lane (leAt c.payload 0 2)).lockBits)) ++ leBytes 8 (sat64 (((updLane (served s rest) (leAt c.payload 0 2) (fun x => checkedSo x bits errs)).lane (leAt c.payload 0 2)).prbsErrs + ((updLane (served s rest) (leAt c.payload 0 2) (fun x => checkedSo x bits errs)).lane (leAt c.payload 0 2)).lockErrs))))) ∧
  -- MB_LOOPBACK_SET (R181)
  (∀ (s : State) (c : MbCmd) (rest : List MbCmd), AtHead s c rest 0x0902 [(tgtLANE, true)] → (lenIs 4 [(3, 1)] c.payload && decide (leAt c.payload 0 2 < 512) && decide (byteAt c.payload 2 < 4)) = true → quadOut (served s rest) (quadOfLane (leAt c.payload 0 2)) = false → quadBusy (served s rest) (quadOfLane (leAt c.payload 0 2)) = false → ((served s rest).lane (leAt c.payload 0 2)).st = .diag → leAt c.payload 0 2 % 4 = 0 → exec .mbLoopbackSet s = .next (respond (laneTx (updLane (stopCheck (served s rest) (leAt c.payload 0 2)) (leAt c.payload 0 2) (fun x => { x with loopback := byteAt c.payload 2 })) (leAt c.payload 0 2) (diagTx ((updLane (stopCheck (served s rest) (leAt c.payload 0 2)) (leAt c.payload 0 2) (fun x => { x with loopback := byteAt c.payload 2 })).lane (leAt c.payload 0 2)))) c stSUCCESS ([]))) ∧
  -- MB_ERR_INJECT (R180)
  (∀ (s : State) (c : MbCmd) (rest : List MbCmd), AtHead s c rest 0x0903 [(tgtLANE, true)] → (lenIs 8 [(3, 1)] c.payload && decide (leAt c.payload 0 2 < 512) && decide (byteAt c.payload 2 < 4) && (byteAt c.payload 2 != 3 || decide (leAt c.payload 4 4 < 2))) = true → quadOut (served s rest) (quadOfLane (leAt c.payload 0 2)) = false → quadBusy (served s rest) (quadOfLane (leAt c.payload 0 2)) = false → injectableAs (served s rest) (leAt c.payload 0 2) (byteAt c.payload 2) = true → exec .mbErrInject s = .next (respond (updLane (served s rest) (leAt c.payload 0 2) (fun x => { x with inj := BitVec.ofNat 32 (leAt c.payload 4 4), injKind := byteAt c.payload 2 })) c stSUCCESS ([]))) ∧
  -- MB_INVALID_OPCODE (R98)
  (∀ (s : State) (c : MbCmd) (rest : List MbCmd), s.cmds.queue = c :: rest → mbOpcodes.contains c.op = false → molzuUp s = true → exec .mbInvalidOpcode s = .next (respond (served s rest) c stINVALID_OPCODE [])) ∧
  -- CMD_DONE (R100)
  (∀ (s : State) (m tag : Nat) (b : BgCmd), molzuUp s = true → s.cmds.running.find? (fun b => b.m == m && b.tag == tag && workEnded s b) = some b → exec (.cmdDone m tag) s = .next (recordEv { s with cmds := { s.cmds with running := s.cmds.running.erase b } } .cmdDone svcDie b.m b.tag b.status)) ∧
  -- QUAD_PORTS_DRAINED (R73)
  (∀ (s : State) (q : Nat), q < 4 → (s.quad q).stage = .draining → (portsOfQuad s q).all (fun p => (s.port p).link == .down) = true → ∃ t, exec (.quadPortsDrained q) s = .next t ∧ (t.quad q).stage = .rehoming) ∧
  -- QUAD_REHOME_DONE (R407)
  (∀ (s : State) (q : Nat), q < 4 → (s.quad q).stage = .rehoming → exec (.quadRehomeDone q) s = .next (forecastFall (updQuad (rehomeAll s q) q (fun x => { x with stage := .gating })) 0 1)) ∧
  -- QUAD_GATE_DONE (R73)
  (∀ (s : State) (q : Nat), q < 4 → (s.quad q).stage = .gating → exec (.quadGateDone q) s = .next (recordEv (gateOff s q) .quadGated svcDie q)) ∧
  -- QUAD_UNGATE_TRAINED (R74)
  (∀ (s : State) (q : Nat), q < 4 → (s.quad q).stage = .ungating → ∃ t, exec (.quadUngateTrained q) s = .next t ∧ (t.quad q).st = 0 ∧ (t.quad q).stage = .idle ∧ (t.quad q).refOk = true)

/-- The egress scheduler, gate and bank commands start, end, drop and adopt as their rules say. A port with an eligible packet starts it;
a packet whose last byte has left frees its buffer space and the credits owed follow; the Almanac entry changes, wake leads, HOLDOVER_MAX
and runs of edge violations have their effect; a bank whose time has come is adopted, unless it turns gating on without lock, and so is a
staged route bank. Where the manual leaves a condition or value open the model's choice is meant (log 49, 56, 100, 109, 110). Follows
09_scheduling.md (gates, shapers, the schedulers); 08_routing.md (route banks); 07_link_layer.md (packet starts). -/
def Obligations.SchedulerCommandsComplete : Prop :=
  -- EGRESS_PACKET_START (R248)
  (∀ (s : State) (p vc : Nat) (y : Port) (q : QPkt) (l : List QPkt), p < 512 → ((s.port p).link = .active ∨ (s.port p).link = .drain) → (s.port p).leaving.all (·.departed) = true → (s.port p).txIdle ≠ 3 → selectVc (foldS (List.range 16) (if (s.port p).txAt = (dropAllNofit s p).clk.now then dropAllNofit s p else closeLtb (dropAllNofit s p) p) (fun s v => noteDeferred s p v)) p = some (vc, y) → ((foldS (List.range 16) (if (s.port p).txAt = (dropAllNofit s p).clk.now then dropAllNofit s p else closeLtb (dropAllNofit s p) p) (fun s v => noteDeferred s p v)).port p).vcq.get vc = q :: l → (s.port p).txIdle ≠ 2 → exec (.egressPacketStart p) s = .next (startPacket (requestWake (foldS (List.range 16) (if (s.port p).txAt = (dropAllNofit s p).clk.now then dropAllNofit s p else closeLtb (dropAllNofit s p) p) (fun s v => noteDeferred s p v)) p 3) p vc { y with txIdle := 0 } q)) ∧
  -- PACKET_DEPARTED (R201)
  (∀ (s : State) (p : Nat) (k : TxPkt), p < 512 → (s.port p).leaving.find? (fun t => !t.departed) = some k → stillArriving s k.q.orig = false → k.aborted = false → k.winEnd = none → exec (.packetDeparted p) s = .next (sendCredits (freeOrigin (updPort (sendRest s p false) p (fun x => { x with txAt := s.clk.now, leaving := stillLeaving x.held (x.leaving.map (fun k => { k with departed := true })) })) k.q.orig) p)) ∧
  -- ALMANAC_ENTRY_CHANGE (R257)
  (∀ (s : State) (p v : Nat), p < 512 → (s.port p).gate.gating = true → (List.range 16).find? (fun v => !(((dropAllNofit s p).port p).vcq.get v).isEmpty && ((dropAllNofit s p).port p).gate.openVc s.clk.ft v) = some v → exec (.almanacEntryChange p) s = .next (requestWake (dropAllNofit s p) p (wakeClass (v / 4)))) ∧
  -- GATE_WAKE_LEAD (R261)
  (∀ (s : State) (p v : Nat) (q : QPkt) (l : List QPkt), p < 512 → (s.port p).txIdle = 2 → (List.range 16).filter (leadDue s p) = [v] → (s.port p).vcq.get v = q :: l → exec (.gateWakeLead p) s = .next (requestWake s p (wakeClass q.pkt.hdr.sl))) ∧
  -- HOLDOVER_MAX_EXPIRE (R264)
  (∀ (s : State) (p : Nat), p < 512 → (s.port p).gate.holdTmr = true → (s.port p).gate.gating = true → ∃ t, exec (.holdoverMaxExpire p) s = .next t ∧ (t.port p).gate = { (s.port p).gate with forced := true, holdTmr := false, forcedAt := s.clk.now }) ∧
  -- EDGE_RUN_LIMIT (R263)
  (∀ (s : State) (p : Nat) (err : Int) (e : Int) (rest : List Int) (u : State), p < 512 → (s.port p).gate.edgeDue = e :: rest → u = (limited (updPort s p (fun x => { x with gate := { x.gate with edgeDue := rest } })) .timeEdge p oneSec (fun t n more => recordEv t .timeEdge (quadOfLane p) p (s32 e) n 0 more)) → exec (.edgeRunLimit p err) s = .next (if isFabric u p && (u.port p).link == .active then startExchange u p true else u)) ∧
  -- ALMANAC_BANK_ADOPT (R257)
  (∀ (s : State) (p : Nat) (y : Gate), p < 512 → y = ((routeDue s).port p).gate → y.pending = true → y.otherBank.ft.toNat ≤ (routeDue s).clk.ft.toNat → (y.otherBank.gating = false ∨ timeLocked (routeDue s) = true) → exec (.almanacBankAdopt p) s = .next (dropAllNofit (updPort (routeDue s) p (fun x => { x with gate := { x.gate with bank0 := if y.active then y.otherBank else y.bank0, bank1 := if y.active then y.bank1 else y.otherBank, active := !y.active, pending := false, gating := y.otherBank.gating, forced := y.otherBank.gating && x.gate.forced, holdTmr := y.otherBank.gating && x.gate.holdTmr } })) p)) ∧
  -- ROUTE_BANK_ADOPT (R125)
  (∀ (s : State), s.routes.stage = .pending → s.routes.adoptFt.toNat ≤ s.clk.ft.toNat → ∃ t, exec .routeBankAdopt s = .next t ∧ t.routes = { s.routes with active := s.routes.other, other := s.routes.active, epoch := s.routes.stagedEpoch, stage := .none, lostEpoch := none })

/-- Snapshots, the recorder, MRAM remaps and power failure have their effect. At SNAP_FT the counter banks change places; folding ends;
records move to the service die and to MRAM; a failed sector takes a spare; an asserted PWRFAIL_N is latched with its time and released,
and a lost VAON leaves the device OFF. Where the manual leaves a condition or value open the model's choice is meant (log 43, 44, 98).
Follows 17_service_life.md (snapshots, the event recorder, MRAM); 18_power_clocks.md (power failure). -/
def Obligations.SnapshotRecorderAndPowerFailComplete : Prop :=
  -- SNAPSHOT_TAKE (R477)
  (∀ (s : State), (banksDue s).snap.st = 1 → (banksDue s).snap.ft.toNat ≤ (banksDue s).clk.ft.toNat → (banksDue s).snap.folded = true → ((banksDue s).boot.warm && !(banksDue s).boot.fwReady) = false → exec .snapshotTake s = .next (raiseAll (count (flipBanks (banksDue s)) .device 0 .snapTaken) causeTime)) ∧
  -- COUNTER_FOLD_DONE (R477)
  (∀ (s : State), s.snap.folded = false → exec .counterFoldDone s = .next ({ s with ctrs := s.ctrs.mapCells (fun k x => if isMaxKey k then x else { x with live := x.live + x.frozen }), snap := { s.snap with folded := true } })) ∧
  -- EVENT_FORWARD (R470)
  (∀ (s : State) (q : Nat) (r : EvRec) (l : List EvRec), q < 4 → recorderRuns s = true → (s.quad q).inReset = false → s.pins.pwrfail = false → (s.quad q).evBuf = r :: l → s.recd.buf.length < 2048 → (s.quad q).evLost = 0 → exec (.eventForward q) s = .next (enterService (toService (updQuad s q (fun x => { x with evBuf := l, evLost := 0 })) q 32) r)) ∧
  -- EVENT_FLUSH (R471)
  (∀ (s : State), recorderRuns s = true → s.pins.pwrfail = false → flushDue s = true → exec .eventFlush s = .next (flushEvents s)) ∧
  -- MRAM_REMAP (R485)
  (∀ (s : State) (part sector : Nat), part < 6 → sector < 2048 → s.boot.power = .run → molzuRuns s = true → s.mram.spares ≠ 0 → s.mram.waiting.contains sector = false → allowed s molzuMaster tgtSPARE true = true → exec (.mramRemap part sector) s = .next (spareLow (recordEv (count { (count s .device 0 .mramVerifyRetry 3) with mram := { s.mram with spares := s.mram.spares - 1, waiting := s.mram.waiting.filter (· != sector) } } .device 0 .mramRemap) .mramRemap svcDie (0x50 + part) sector (s.mram.spares - 1)))) ∧
  -- PWRFAIL_ASSERT (R472)
  (∀ (s : State), s.pins.pwrfail = false → (s.boot.power = .run ∨ s.boot.power = .safe) → exec .pwrfailAssert s = .next (powerFlush { s with pins := { s.pins with pwrfail := true }, recd := { s.recd with pfLatch := some (s.recd.pfLatch.getD s.clk.vigil) } })) ∧
  -- PWRFAIL_DEASSERT (R472)
  (∀ (s : State) (v : BitVec 40), recorderRuns s = true → s.recd.pfLatch = some v → exec .pwrfailDeassert s = .next (recordEv { s with pins := { s.pins with pwrfail := false }, recd := { s.recd with pfLatch := none, pfLeft := 0 } } .powerFail svcDie v.toNat s.recd.pfLeft 1)) ∧
  -- VAON_LOSS (R494)
  (∀ (s : State), ∃ t, exec .vaonLoss s = .next t ∧ t.boot.power = .off ∧ t.boot.flashGnt = true ∧ t.boot.warmRst = false ∧ t.pins.thermtrip = false)

/-- The life record, telemetry, rail and core-clock commands have their effect. Each second mean and month enters the life record; the
accumulators go to LIFE each hour; samples become the group readings; a trip leaves the device TRIPPED with THERMTRIP_N asserted; rails
out of tolerance are recorded, an undervoltage flushes as a power failure, and the loss of REFCLK_CORE holds the quadrants. Where the
manual leaves a condition or value open the model's choice is meant (log 37, 40, 41, 42, 72). Follows 17_service_life.md (the life
record); 17_service_life.md (telemetry); 18_power_clocks.md (temperature, rails, clocks). -/
def Obligations.LifeTelemetryAndTripsComplete : Prop :=
  -- LIFE_SECOND_CHECK (R481)
  (∀ (s : State) (m : Int), recorderRuns s = true → 0 ≤ m → m ≤ rangeTop s → exec (.lifeSecondCheck m) s = .next ({ s with life := { s.life with secs := s.life.secs + 1, cur := ⟨s.life.cur.sum + m, s.life.cur.secs + 1⟩, maxMean := max s.life.maxMean m } })) ∧
  -- LIFE_HOURLY_WRITE (R481)
  (∀ (s : State), recorderRuns s = true → partOk s 4 = true → allowed s recorderMaster tgtLIFE true = true → exec .lifeHourlyWrite s = .next ({ s with lifePart := s.life })) ∧
  -- LIFE_MONTH_BOUNDARY (R481)
  (∀ (s : State), recorderRuns s = true → ((s.life.cur :: s.life.months).take 13).length < 12 → exec .lifeMonthBoundary s = .next ({ s with life := { s.life with months := (s.life.cur :: s.life.months).take 13, cur := ⟨0, 0⟩, nMonths := min 255 (s.life.nMonths + 1) } })) ∧
  -- TELEMETRY_SAMPLE (R480)
  (∀ (s : State) (g : Nat) (rs : List Int), g < 6 → rs.length = groupCount g → g ≠ 0 → g ≠ 2 → s.boot.power ≠ .off → s.boot.power ≠ .held → exec (.telemetrySample g rs) s = .next ({ s with tele := s.tele.set g rs, teleFt := s.teleFt.set g (if s.tu.valid then s.clk.ft else 0) })) ∧
  -- THERMAL_TRIP (R501)
  (∀ (s : State) (die : Nat), die < 9 → (s.boot.power = .run ∨ s.boot.power = .safe) → exec (.thermalTrip die) s = .next (fwStops s (holdQuads (powerFlush (emit { s with boot := { s.boot with power := .tripped }, pins := { s.pins with thermtrip := true }, recd := { s.recd with tripLatch := some (die, s.clk.vigil) } } (.pin "THERMTRIP_N" 0)))))) ∧
  -- RAIL_OUT_OF_RANGE (R492)
  (∀ (s : State) (r mv : Nat), r < 10 → recorderRuns s = true → s.boot.porst = false → exec (.railOutOfRange r mv) s = .next (recordEv s .railOutOfRange svcDie r mv)) ∧
  -- RAIL_UNDERVOLTAGE (R492)
  (∀ (s : State) (r mv : Nat), r < 10 → recorderRuns s = true → s.boot.porst = false → s.pins.pwrfail = false → exec (.railUndervoltage r mv) s = .next (powerFlush { s with pins := { s.pins with pwrfail := true }, recd := { s.recd with pfLatch := some (s.recd.pfLatch.getD s.clk.vigil) } })) ∧
  -- REFCLK_CORE_LOST (R504)
  (∀ (s : State), (s.boot.power = .run ∨ s.boot.power = .safe) → s.pins.coreLost = false → exec .refclkCoreLost s = .next (fwStops s (foldS (List.range 4) (holdQuads (recordEv { s with pins := { s.pins with coreLost := true } } .refclkCoreLost svcDie)) (fun t q => updQuad t q (fun x => { x with rootPll := false })))))

/-- TIME LTBs are counted and answered, and lock, steps and sources follow their rules. On an ACTIVE FABRIC port whose LANE_MAP exchange
is not open, a REQ is answered with a RESP, a RESP is measured, a REPORT and an ANNOUNCE are kept; lock is gained after eight good
measurements; intervals, losses, steps, PPS edges and SOURCE_WAIT have the effect of their rules. Where the manual leaves a condition or
value open the model's choice is meant (log 3, 31, 55, 100, 101, 109). Follows 05_fabric_time.md (exchange, lock, steps, sources, PPS). -/
def Obligations.TimeMessagesAndLockComplete : Prop :=
  -- TIME_REQ_RX (R146)
  (∀ (s : State) (p : Nat) (h : LtbHdr) (m : TimeMsg), LinkOpen s p → Unmarked s p h → isLegacy s p = false → isFabric (ltbTaken s p h) p = true → ((ltbTaken s p h).port p).link = .active → ((noteFlags (ltbTaken s p h) p m).port p).txIdle < 2 → exec (.timeReqRx p ⟨h, m⟩) s = .next (answerReq (requestWake (noteFlags (ltbTaken s p h) p m) p 1) p m.exchSeq (stampAt (noteFlags (ltbTaken s p h) p m) h.phase))) ∧
  -- TIME_RESP_RX (R146)
  (∀ (s : State) (p : Nat) (h : LtbHdr) (m : TimeMsg) (t1 : Nat) (out : Bool), LinkOpen s p → Unmarked s p h → isLegacy s p = false → isFabric (ltbTaken s p h) p = true → ((ltbTaken s p h).port p).link = .active → openExchange ((noteFlags (ltbTaken s p h) p m).port p).eqx m.exchSeq = some (t1, out) → stampAt (noteFlags (ltbTaken s p h) p m) h.phase - t1 ≤ ((noteFlags (ltbTaken s p h) p m).port p).eqx.interval * 65536 → delayOk ((noteFlags (ltbTaken s p h) p m).port p).eqx.delays (respDelay m t1 (stampAt (noteFlags (ltbTaken s p h) p m) h.phase)) = true → exec (.timeRespRx p ⟨h, m⟩) s = .next (if (if (respAccepted (respAnswered (noteFlags (ltbTaken s p h) p m) p m.exchSeq t1 (stampAt (noteFlags (ltbTaken s p h) p m) h.phase) out) p (respOffset m t1 (stampAt (noteFlags (ltbTaken s p h) p m) h.phase)) (respDelay m t1 (stampAt (noteFlags (ltbTaken s p h) p m) h.phase))).tu.upstream = some p then (respAccepted (respAnswered (noteFlags (ltbTaken s p h) p m) p m.exchSeq t1 (stampAt (noteFlags (ltbTaken s p h) p m) h.phase) out) p (respOffset m t1 (stampAt (noteFlags (ltbTaken s p h) p m) h.phase)) (respDelay m t1 (stampAt (noteFlags (ltbTaken s p h) p m) h.phase))) else reselect (respAccepted (respAnswered (noteFlags (ltbTaken s p h) p m) p m.exchSeq t1 (stampAt (noteFlags (ltbTaken s p h) p m) h.phase) out) p (respOffset m t1 (stampAt (noteFlags (ltbTaken s p h) p m) h.phase)) (respDelay m t1 (stampAt (noteFlags (ltbTaken s p h) p m) h.phase)))).tu.upstream = some p then measured (if (respAccepted (respAnswered (noteFlags (ltbTaken s p h) p m) p m.exchSeq t1 (stampAt (noteFlags (ltbTaken s p h) p m) h.phase) out) p (respOffset m t1 (stampAt (noteFlags (ltbTaken s p h) p m) h.phase)) (respDelay m t1 (stampAt (noteFlags (ltbTaken s p h) p m) h.phase))).tu.upstream = some p then (respAccepted (respAnswered (noteFlags (ltbTaken s p h) p m) p m.exchSeq t1 (stampAt (noteFlags (ltbTaken s p h) p m) h.phase) out) p (respOffset m t1 (stampAt (noteFlags (ltbTaken s p h) p m) h.phase)) (respDelay m t1 (stampAt (noteFlags (ltbTaken s p h) p m) h.phase))) else reselect (respAccepted (respAnswered (noteFlags (ltbTaken s p h) p m) p m.exchSeq t1 (stampAt (noteFlags (ltbTaken s p h) p m) h.phase) out) p (respOffset m t1 (stampAt (noteFlags (ltbTaken s p h) p m) h.phase)) (respDelay m t1 (stampAt (noteFlags (ltbTaken s p h) p m) h.phase)))) p (respOffset m t1 (stampAt (noteFlags (ltbTaken s p h) p m) h.phase)) else (if (respAccepted (respAnswered (noteFlags (ltbTaken s p h) p m) p m.exchSeq t1 (stampAt (noteFlags (ltbTaken s p h) p m) h.phase) out) p (respOffset m t1 (stampAt (noteFlags (ltbTaken s p h) p m) h.phase)) (respDelay m t1 (stampAt (noteFlags (ltbTaken s p h) p m) h.phase))).tu.upstream = some p then (respAccepted (respAnswered (noteFlags (ltbTaken s p h) p m) p m.exchSeq t1 (stampAt (noteFlags (ltbTaken s p h) p m) h.phase) out) p (respOffset m t1 (stampAt (noteFlags (ltbTaken s p h) p m) h.phase)) (respDelay m t1 (stampAt (noteFlags (ltbTaken s p h) p m) h.phase))) else reselect (respAccepted (respAnswered (noteFlags (ltbTaken s p h) p m) p m.exchSeq t1 (stampAt (noteFlags (ltbTaken s p h) p m) h.phase) out) p (respOffset m t1 (stampAt (noteFlags (ltbTaken s p h) p m) h.phase)) (respDelay m t1 (stampAt (noteFlags (ltbTaken s p h) p m) h.phase)))))) ∧
  -- TIME_REPORT_RX (R146)
  (∀ (s : State) (p : Nat) (h : LtbHdr) (m : TimeMsg), LinkOpen s p → Unmarked s p h → isLegacy s p = false → isFabric (ltbTaken s p h) p = true → ((ltbTaken s p h).port p).link = .active → exec (.timeReportRx p ⟨h, m⟩) s = .next (updPort (noteFlags (ltbTaken s p h) p m) p (fun x => { x with eqx := { x.eqx with report := some (m.tA.toNat, m.tB.toNat) } }))) ∧
  -- TIME_ANNOUNCE_RX (R151)
  (∀ (s : State) (p : Nat) (h : LtbHdr) (m : TimeMsg), LinkOpen s p → Unmarked s p h → isLegacy s p = false → isFabric (ltbTaken s p h) p = true → ((ltbTaken s p h).port p).link = .active → ¬ ((reselect (updPort (noteFlags (ltbTaken s p h) p m) p (fun x => { x with eqx := { x.eqx with ann := some (announcedBy m) } }))).tu.upstream = some p ∧ (reselect (updPort (noteFlags (ltbTaken s p h) p m) p (fun x => { x with eqx := { x.eqx with ann := some (announcedBy m) } }))).tu.stepSeq ≠ m.stepSeq) → exec (.timeAnnounceRx p ⟨h, m⟩) s = .next ((reselect (updPort (noteFlags (ltbTaken s p h) p m) p (fun x => { x with eqx := { x.eqx with ann := some (announcedBy m) } }))))) ∧
  -- TIME_ANNOUNCE_RX (R151)
  (∀ (s : State) (p : Nat) (h : LtbHdr) (m : TimeMsg), LinkOpen s p → Unmarked s p h → isLegacy s p = false → isFabric (ltbTaken s p h) p = true → ((ltbTaken s p h).port p).link = .active → (reselect (updPort (noteFlags (ltbTaken s p h) p m) p (fun x => { x with eqx := { x.eqx with ann := some (announcedBy m) } }))).tu.upstream = some p → (reselect (updPort (noteFlags (ltbTaken s p h) p m) p (fun x => { x with eqx := { x.eqx with ann := some (announcedBy m) } }))).tu.stepSeq ≠ m.stepSeq → (reselect (updPort (noteFlags (ltbTaken s p h) p m) p (fun x => { x with eqx := { x.eqx with ann := some (announcedBy m) } }))).tu.st ≠ .free → m.stepFt.toNat ≤ (reselect (updPort (noteFlags (ltbTaken s p h) p m) p (fun x => { x with eqx := { x.eqx with ann := some (announcedBy m) } }))).clk.ft.toNat → exec (.timeAnnounceRx p ⟨h, m⟩) s = .next (applyStep { (reselect (updPort (noteFlags (ltbTaken s p h) p m) p (fun x => { x with eqx := { x.eqx with ann := some (announcedBy m) } }))) with tu := { (reselect (updPort (noteFlags (ltbTaken s p h) p m) p (fun x => { x with eqx := { x.eqx with ann := some (announcedBy m) } }))).tu with stepSeq := m.stepSeq, stepFt := m.stepFt, stepNs := m.stepNs.toInt } } m.stepSeq m.stepNs.toInt)) ∧
  -- TIME_ANNOUNCE_RX (R151)
  (∀ (s : State) (p : Nat) (h : LtbHdr) (m : TimeMsg), LinkOpen s p → Unmarked s p h → isLegacy s p = false → isFabric (ltbTaken s p h) p = true → ((ltbTaken s p h).port p).link = .active → (reselect (updPort (noteFlags (ltbTaken s p h) p m) p (fun x => { x with eqx := { x.eqx with ann := some (announcedBy m) } }))).tu.upstream = some p → (reselect (updPort (noteFlags (ltbTaken s p h) p m) p (fun x => { x with eqx := { x.eqx with ann := some (announcedBy m) } }))).tu.stepSeq ≠ m.stepSeq → (reselect (updPort (noteFlags (ltbTaken s p h) p m) p (fun x => { x with eqx := { x.eqx with ann := some (announcedBy m) } }))).tu.st ≠ .free → (reselect (updPort (noteFlags (ltbTaken s p h) p m) p (fun x => { x with eqx := { x.eqx with ann := some (announcedBy m) } }))).clk.ft.toNat < m.stepFt.toNat → exec (.timeAnnounceRx p ⟨h, m⟩) s = .next ({ (reselect (updPort (noteFlags (ltbTaken s p h) p m) p (fun x => { x with eqx := { x.eqx with ann := some (announcedBy m) } }))) with tu := { (reselect (updPort (noteFlags (ltbTaken s p h) p m) p (fun x => { x with eqx := { x.eqx with ann := some (announcedBy m) } }))).tu with stepSeq := m.stepSeq, stepFt := m.stepFt, stepNs := m.stepNs.toInt, stepWait := some (m.stepSeq, m.stepFt, m.stepNs.toInt) } })) ∧
  -- TIME_LOCK_GAINED (R155)
  (∀ (s : State) (p : Nat), s.tu.upstream = some p → s.tu.st = .acquiring → 8 ≤ s.tu.lockCount → (selectable s p).isSome = true → s.tu.hops ≤ 63 → exec .timeLockGained s = .next (recordEv (changeTime s (fun u => { u with st := .locked })) .timeLock (timeDie s) p s.tu.srcFea.toNat)) ∧
  -- EQX_EXCHANGE_START (R147)
  (∀ (s : State) (p : Nat), p < 512 → isFabric s p = true → (s.port p).link = .active → (s.port p).txIdle = 0 → ∃ t, exec (.eqxExchangeStart p) s = .next t ∧ (t.port p).eqx.seq = (s.port p).eqx.seq + 1 ∧ (t.port p).eqx.openSeq = (s.port p).eqx.seq + 1 ∧ (t.port p).eqx.t1 = some (stampAt s 0) ∧ (t.port p).eqx.outOfCycle = false ∧ t.out = s.out ++ [.ltb p (lowLane (s.port p)) (plainHdr (s.port p)) (.time 1 (timeMsg s ((s.port p).eqx.seq + 1) false))]) ∧
  -- EQX_INTERVAL_END (R155)
  (∀ (s : State) (p : Nat), p < 512 → isFabric s p = true → (s.port p).link = .active → ∃ t, exec (.eqxIntervalEnd p) s = .next t ∧ (t.port p).eqx.responded = false ∧ (t.port p).eqx.accepted = false ∧ (t.port p).eqx.missed = if (s.port p).eqx.accepted then 0 else (s.port p).eqx.missed + 1) ∧
  -- TIME_MISS_LIMIT (R155)
  (∀ (s : State) (p : Nat), s.tu.upstream = some p → 4 ≤ (s.port p).eqx.missed → s.tu.st = .locked → exec .timeMissLimit s = .next (leaveUpstream s 1)) ∧
  -- TIME_STEP_APPLY (R150)
  (∀ (s : State) (q : BitVec 8) (f : BitVec 64) (ns : Int), s.tu.stepWait = some (q, f, ns) → f.toNat ≤ s.clk.ft.toNat → 0 ≤ ns → exec .timeStepApply s = .next (stepFtBy { s with tu := { s.tu with stepWait := none } } (ns * 65536) q.toNat)) ∧
  -- PPS_IN_EDGE (R153)
  (∀ (s : State) (v : BitVec 64), s.tu.ppsAt.any (fun t => decide (s.clk.now < t + 500000000)) = false → s.tu.tod = some v → exec .ppsInEdge s = .next ({ (setTime { drawn s with tu := { s.tu with ppsAt := some s.clk.now, tod := none, cls := 0, ppsOn := true } } ((v.toNat * 65536 : Nat) - (Config.ppsPhase s.free).toNat * 16384 : Int)) with tu := { (setTime { drawn s with tu := { s.tu with ppsAt := some s.clk.now, tod := none, cls := 0, ppsOn := true } } ((v.toNat * 65536 : Nat) - (Config.ppsPhase s.free).toNat * 16384 : Int)).tu with lastPps := (setTime { drawn s with tu := { s.tu with ppsAt := some s.clk.now, tod := none, cls := 0, ppsOn := true } } ((v.toNat * 65536 : Nat) - (Config.ppsPhase s.free).toNat * 16384 : Int)).clk.ft } })) ∧
  -- PPS_IN_EDGE (R153)
  (∀ (s : State), s.tu.ppsAt.any (fun t => decide (s.clk.now < t + 500000000)) = false → s.tu.tod = none → s.tu.st = .source → s.tu.cls = 0 → s.tu.ppsOn = true → exec .ppsInEdge s = .next ({ drawn s with tu := { s.tu with ppsAt := some s.clk.now, integ := clampRate (Config.servoIntegral s.tu.integ (toSecond s (Config.ppsPhase s.free))), rate := clampRate (clampRate (Config.servoIntegral s.tu.integ (toSecond s (Config.ppsPhase s.free))) + toSecond s (Config.ppsPhase s.free) * 100 / 65536), propTill := s.clk.now + oneSec, lastPps := s.clk.ft } })) ∧
  -- PPS_LOSS_TIMEOUT (R153)
  (∀ (s : State), s.tu.tod.isSome = true → s.tu.todAt + ppsTimeout ≤ s.clk.now → exec .ppsLossTimeout s = .next (changeTime (recordEv s .ppsLost (timeDie s) s.tu.lastPps.toNat) (fun u => { u with tod := none, valid := true }))) ∧
  -- PPS_LOSS_TIMEOUT (R153)
  (∀ (s : State) (a : Nat), s.tu.tod = none → s.tu.ppsAt = some a → a + ppsTimeout ≤ s.clk.now → s.tu.st = .source → s.tu.cls = 0 → exec .ppsLossTimeout s = .next (changeTime (recordEv s .ppsLost (timeDie s) s.tu.lastPps.toNat) (fun u => { u with st := .holdover }))) ∧
  -- SOURCE_WAIT_EXPIRE (R151)
  (∀ (s : State), s.grp.manager = true → s.tu.waitFrom.any (fun t => decide (t + oneSec ≤ s.clk.now)) = true → (s.tu.st = .free ∨ s.tu.st = .holdover) → (bestSource s (fun _ => true)).isNone = true → exec .sourceWaitExpire s = .next (changeTime s (fun u => { u with st := .source, cls := 2, hops := 0, srcFea := myFea s, valid := true, upstream := none }))) ∧
  -- PPS_OUT_EDGE (R153)
  (∀ (s : State), s.tu.valid = true → s.clk.ft.toNat % oneSec < 2 → s.tu.ppsSec ≠ some (s.clk.ft.toNat / oneSec) → exec .ppsOutEdge s = .next (emit { s with tu := { s.tu with ppsOut := some s.clk.ft, ppsSec := some (s.clk.ft.toNat / oneSec) } } (.pin "PPS_OUT" 1)))

/-- PLL, reference, codeword, FEC-lock and training-timer events have their effect. A PLL that loses lock and the loss of its reference
are recorded and their octets unlock; a relock trains the lanes of ports still UP; codewords are counted and corrected symbols too; FEC
lock brings a training lane UP and its loss retrains; the timers of training move the lane on. Where the manual leaves a condition or
value open the model's choice is meant (log 19, 76, 93, 94, 95). Follows 06_lanes.md (PLLs, codewords, the lane states). -/
def Obligations.PllsCodewordsAndTrainingComplete : Prop :=
  -- OCTET_PLL_UNLOCK (R163)
  (∀ (s : State) (o : Nat), o < 64 → (s.octet o).pll = true → exec (.octetPllUnlock o) s = .next (recordEv (unlockPll s o) .octetPllUnlock (o / 16) o)) ∧
  -- OCTET_PLL_RELOCK (R163)
  (∀ (s : State) (o : Nat), o < 64 → (s.octet o).pll = false → ((s.quad (o / 16)).refOk || (s.quad (o / 16)).refLost) = true → exec (.octetPllRelock o) s = .next ((foldS (lanesOfOctet o) (updQuad (updOctet s o (fun x => { x with pll := true })) (o / 16) (fun x => { x with refOk := true, refLost := false })) (fun s l => match portOfLane s l with | none => s | some p => if (s.port p).up && (s.lane l).st == .parked then if (s.port p).role = 2 then diagLane s l else if runsLink s p then askTraining (trainLane s l) p else s else s)))) ∧
  -- REFCLK_NET_LOST (R163)
  (∀ (s : State) (q : Nat), q < 4 → (s.quad q).refOk = true → exec (.refclkNetLost q) s = .next (recordEv (foldS ((List.range 16).map (q * 16 + ·)) (updQuad s q (fun x => { x with refOk := false, refLost := true })) unlockPll) .refclkNetLost q q)) ∧
  -- CODEWORD_RX (R168)
  (∀ (s : State) (l n : Nat), l < 512 → n ≤ 15 → (s.lane l).st ≠ .off → (s.lane l).st ≠ .parked → exec (.codewordRx l (some n)) s = .next (if n = 0 then count (updLane (count s .lane l .fecCw) l goodCodeword) .lane l (histCounter n) else count (count (count (updLane (count s .lane l .fecCw) l goodCodeword) .lane l (histCounter n)) .lane l .fecCorrCw) .lane l .fecCorrSym n)) ∧
  -- CODEWORD_RX (R168)
  (∀ (s : State) (l : Nat), l < 512 → (s.lane l).st ≠ .off → (s.lane l).st ≠ .parked → exec (.codewordRx l none) s = .next (count (updLane (count s .lane l .fecCw) l badCodeword) .lane l .fecUncorrCw)) ∧
  -- FEC_LOCK_GAINED (R167)
  (∀ (s : State) (l : Nat) (inv : Bool), l < 512 → (s.lane l).good = 8 → (s.lane l).st = .diag → exec (.fecLockGained l inv) s = .next (updLane s l (fun x => { x with fec := true, cdr := true, sig := true, eidleRx := false, uncorr := 0, rxInv := inv, noLock := false, noLockTmr := false, retryWait := false }))) ∧
  -- FEC_LOCK_GAINED (R167)
  (∀ (s : State) (l : Nat) (inv : Bool), l < 512 → (s.lane l).good = 8 → (s.lane l).st = .retrain → exec (.fecLockGained l inv) s = .next (checkLaneOf (showLane (updLane (updLane s l (fun x => { x with fec := true, cdr := true, sig := true, eidleRx := false, uncorr := 0, rxInv := inv, noLock := false, noLockTmr := false, retryWait := false })) l (fun x => { x with st := lockedSt s l, trainReq := false, burst := x.burst || lockedSt s l == .wake })) l) l)) ∧
  -- FEC_LOCK_GAINED (R167)
  (∀ (s : State) (l : Nat) (inv : Bool), l < 512 → (s.lane l).good = 8 → (s.lane l).st = .train → (s.lane l).trainReq = false → exec (.fecLockGained l inv) s = .next (checkLaneOf (showLane (if (s.lane l).lockedSinceCold then updLane (updLane s l (fun x => { x with fec := true, cdr := true, sig := true, eidleRx := false, uncorr := 0, rxInv := inv, noLock := false, noLockTmr := false, retryWait := false })) l (fun x => { x with st := .up }) else storeCoeffs (updLane (updLane s l (fun x => { x with fec := true, cdr := true, sig := true, eidleRx := false, uncorr := 0, rxInv := inv, noLock := false, noLockTmr := false, retryWait := false })) l (fun x => { x with st := .up })) l) l) l)) ∧
  -- FEC_LOCK_LOST (R167)
  (∀ (s : State) (l : Nat), l < 512 → (s.lane l).uncorr = 4 → laneUp s l = true → exec (.fecLockLost l) s = .next (laneLost (retrainLane s l 0) l 0)) ∧
  -- FEC_LOCK_LOST (R167)
  (∀ (s : State) (l : Nat), l < 512 → (s.lane l).uncorr = 4 → laneUp s l = false → exec (.fecLockLost l) s = .next (updLane s l (fun x => { x with fec := false, uncorr := 0, good := 0 }))) ∧
  -- FEC_LOCK_LOST (R167)
  (∀ (s : State) (l : Nat), l < 512 → (s.lane l).uncorr ≠ 4 → exec (.fecLockLost l) s = .next (s)) ∧
  -- LOSS_OF_SIGNAL (R169)
  (∀ (s : State) (l : Nat), l < 512 → (laneUp s l && !(s.lane l).eidleRx) = false → exec (.lossOfSignal l) s = .next (updLane s l (fun x => { x with sig := false, cdr := false }))) ∧
  -- LOSS_OF_SIGNAL (R169)
  (∀ (s : State) (l : Nat), l < 512 → laneUp s l = true → (s.lane l).eidleRx = false → exec (.lossOfSignal l) s = .next (laneLost (retrainLane (updLane s l (fun x => { x with sig := false, cdr := false })) l 1) l 0)) ∧
  -- NO_LOCK_TIMER_EXPIRE (R169)
  (∀ (s : State) (l : Nat), l < 512 → (s.lane l).st = .train → (s.lane l).noLockTmr = true → exec (.noLockTimerExpire l) s = .next (if (s.lane l).noLock then (count (updLane s l (fun x => { x with noLock := true, noLockTmr := false, retryWait := true })) .lane l .noLock) else recordEv (count (updLane s l (fun x => { x with noLock := true, noLockTmr := false, retryWait := true })) .lane l .noLock) .laneNoLock (quadOfLane l) l (s.octet (octetOfLane l)).rate)) ∧
  -- RETRY_WAIT_EXPIRE (R170)
  (∀ (s : State) (l p : Nat), l < 512 → (s.lane l).st = .train → (s.lane l).retryWait = true → portOfLane s l = some p → exec (.retryWaitExpire l) s = .next (askTraining (trainLane s l) p)) ∧
  -- RETRAIN_TMO_EXPIRE (R169)
  (∀ (s : State) (l : Nat), l < 512 → (s.lane l).st = .retrain → portOfLane s l = none → exec (.retrainTmoExpire l) s = .next (trainLane (recordEv (count s .lane l .retrainFail) .laneRetrainFail (quadOfLane l) l ((s.octet (octetOfLane l)).retrain * 1000)) l)) ∧
  -- RETRAIN_TMO_EXPIRE (R169)
  (∀ (s : State) (l p : Nat), l < 512 → (s.lane l).st = .retrain → portOfLane s l = some p → exec (.retrainTmoExpire l) s = .next (if ((askTraining (trainLane (recordEv (count s .lane l .retrainFail) .laneRetrainFail (quadOfLane l) l ((s.octet (octetOfLane l)).retrain * 1000)) l) p).port p).link == .retrain && (portLanes (askTraining (trainLane (recordEv (count s .lane l .retrainFail) .laneRetrainFail (quadOfLane l) l ((s.octet (octetOfLane l)).retrain * 1000)) l) p) p).all (fun i => ((askTraining (trainLane (recordEv (count s .lane l .retrainFail) .laneRetrainFail (quadOfLane l) l ((s.octet (octetOfLane l)).retrain * 1000)) l) p).lane i).st == .train) then setLink (askTraining (trainLane (recordEv (count s .lane l .retrainFail) .laneRetrainFail (quadOfLane l) l ((s.octet (octetOfLane l)).retrain * 1000)) l) p) p .train else (askTraining (trainLane (recordEv (count s .lane l .retrainFail) .laneRetrainFail (quadOfLane l) l ((s.octet (octetOfLane l)).retrain * 1000)) l) p)))

/-- Electrical idle, wakes, signal detection and the wake batch have their effect. A quiet ACTIVE port sends its idle sequence and
squelches; a refresh, an exit burst, a start-of-stream marker and an alignment time-out move the port and its lanes on; the wake batch
starts waiting ports within its lanes, or all of them under a grant. Where the manual leaves a condition or value open the model's choice
is meant (log 54). Follows 06_lanes.md (electrical idle and wake); 18_power_clocks.md (power steps). -/
def Obligations.ElectricalIdleAndWakeComplete : Prop :=
  -- IDLE_ENTER_EXPIRE (R174)
  (∀ (s : State) (p : Nat), p < 512 → (s.port p).link = .active → (s.port p).txIdle = 0 → (s.octet (octetOfLane p)).idleEn = true → portQuiet s p = true → refreshOver s p = true → exec (.idleEnterExpire p) s = .next (foldS (portLanes s p) (updPort s p (fun x => { x with txIdle := 1, refreshWake := false })) showLane)) ∧
  -- IDLE_SEQUENCE_SENT (R174)
  (∀ (s : State) (p : Nat), p < 512 → (s.port p).txIdle = 1 → exec (.idleSequenceSent p) s = .next (foldS (portLanes s p) (foldS ((portLanes s p).filter (fun l => (s.lane l).st == .up)) (updPort s p (fun x => { x with txIdle := 2 })) (fun s l => count (updLane s l (fun x => { x with st := .eidle })) .lane l .eidleEntry)) showLane)) ∧
  -- PARTNER_IDLE_RX (R169)
  (∀ (s : State) (l : Nat), l < 512 → laneUp s l = true → exec (.partnerIdleRx l) s = .next (updLane s l (fun x => { x with eidleRx := true }))) ∧
  -- EIDLE_REFRESH_EXPIRE (R175)
  (∀ (s : State) (p : Nat), p < 512 → (s.port p).txIdle = 2 → (s.port p).lastWake + (s.octet (octetOfLane p)).refresh * 1000000 ≤ s.clk.now → exec (.eidleRefreshExpire p) s = .next (updPort s p (fun x => { x with refreshWake := x.wakeReq.all (fun r => r.1 == 4), wakeReq := betterReq x.wakeReq 4 s.clk.now }))) ∧
  -- EXIT_BURST_DONE (R169)
  (∀ (s : State) (l : Nat), l < 512 → (s.lane l).st = .wake → (s.lane l).burst = true → portOfLane (updLane s l (fun x => { x with st := .up, burst := false })) l = none → exec (.exitBurstDone l) s = .next (showLane (updLane s l (fun x => { x with st := .up, burst := false })) l)) ∧
  -- EXIT_BURST_DONE (R169)
  (∀ (s : State) (l p : Nat) (t : State), l < 512 → (s.lane l).st = .wake → (s.lane l).burst = true → t = (updLane s l (fun x => { x with st := .up, burst := false })) → portOfLane t l = some p → (t.port p).txIdle = 3 → (portLanes t p).any (fun i => (t.lane i).burst) = false → exec (.exitBurstDone l) s = .next (wokenPort (foldS (portLanes (updPort t p (fun x => { x with txIdle := 0, lastWake := s.clk.now })) p) (updPort t p (fun x => { x with txIdle := 0, lastWake := s.clk.now })) showLane) p)) ∧
  -- SIGNAL_DETECT (R175)
  (∀ (s : State) (l : Nat), l < 512 → ∃ t, exec (.signalDetect l) s = .next t ∧ (t.lane l).sig = true ∧ (t.lane l).alignTmr = ((s.lane l).eidleRx && laneUp s l)) ∧
  -- START_OF_STREAM_RX (R175)
  (∀ (s : State) (l : Nat), l < 512 → (s.lane l).eidleRx = true → exec (.startOfStreamRx l) s = .next (updLane s l (fun x => { x with eidleRx := false, sig := true, cdr := true, fec := true, uncorr := 0, good := 0 }))) ∧
  -- WAKE_ALIGN_TMO_EXPIRE (R175)
  (∀ (s : State) (l : Nat), l < 512 → (s.lane l).alignTmr = true → exec (.wakeAlignTmoExpire l) s = .next (laneLost (toRetrain (limited (count (updLane s l (fun x => { x with alignTmr := false, eidleRx := false })) .lane l .wakeFail) .laneWakeFail l oneSec (fun t n more => recordEv t .laneWakeFail (quadOfLane l) l 0 n 0 more)) l) l 0)) ∧
  -- WAKE_BATCH (R177)
  (∀ (s : State), (getStep s 1).rise ≠ 0 → (getStep s 1).grant = none → exec .wakeBatch s = .next (serveBatch s 32 (waitingPorts s))) ∧
  -- WAKE_BATCH (R177)
  (∀ (s : State), (getStep s 1).rise ≠ 0 → (getStep s 1).grant.isSome = true → leadPassed s 1 = true → exec .wakeBatch s = .next (foldS (waitingPorts s) (useGrant s 1) startPort))

/-- Adaptation, stored coefficients, PRBS, injections and LTB lock have their effect. An adaptation pass shows its measurements;
coefficients are stored at most once a day after the first; the PRBS checker locks and counts; an injection fires while the lane is in its
state; LTB lock is gained and lost. Where the manual leaves a condition or value open the model's choice is meant (log 73, 95). Follows
06_lanes.md (adaptation, PRBS, injections); 07_link_layer.md (LTB lock). -/
def Obligations.AdaptationTestAndLtbLockComplete : Prop :=
  -- ADAPTATION_PASS (R173)
  (∀ (s : State) (l : Nat) (q snr eye ber : Word32), l < 512 → (s.lane l).st = .up → exec (.adaptationPass l q snr eye ber) s = .next (updLane s l (fun x => { x with adaptSeq := x.adaptSeq + 1, rxEq := eqFor s l (stepEq x.rxEq q), snr := snr.setWidth 12, eye := eyeFor s l eye, ber := ber &&& 0xFFFF }))) ∧
  -- CALIB_COEFF_WRITE (R172)
  (∀ (s : State) (l : Nat), l < 512 → (s.lane l).lockedSinceCold = true → (s.lane l).calibAt + 86400 * oneSec ≤ s.clk.now → exec (.calibCoeffWrite l) s = .next (storeCoeffs s l)) ∧
  -- PRBS_CHECKER_LOCK (R179)
  (∀ (s : State) (l : Nat), l < 512 → (s.lane l).st = .diag → (s.lane l).prbsChk = true → exec (.prbsCheckerLock l) s = .next (updLane s l (fun x => { x with prbsLock := true }))) ∧
  -- PRBS_CHECKER_LOSS (R179)
  (∀ (s : State) (l b e : Nat), l < 512 → (s.lane l).prbsLock = true → exec (.prbsCheckerLoss l b e) s = .next (updLane s l (fun x => endCheck (checkedSo x b e)))) ∧
  -- ERR_INJECT_FIRE (R180)
  (∀ (s : State) (l : Nat), l < 512 → (s.lane l).inj ≠ 0 → injectable (s.lane l) = true → exec (.errInjectFire l) s = .next (if (s.lane l).injKind = 3 then laneTx (updLane (emit (updLane s l (fun x => { x with inj := if x.inj = 0xFFFFFFFF then x.inj else x.inj - 1 })) (.laneInject l (s.lane l).injKind)) l (fun x => { x with dropping := true })) l 0 else emit (updLane s l (fun x => { x with inj := if x.inj = 0xFFFFFFFF then x.inj else x.inj - 1 })) (.laneInject l (s.lane l).injKind))) ∧
  -- LANE_DROP_END (R180)
  (∀ (s : State) (l : Nat), l < 512 → (s.lane l).dropping = true → exec (.laneDropEnd l) s = .next (showLane (updLane s l (fun x => { x with dropping := false })) l)) ∧
  -- LTB_LOCK_GAINED (R189)
  (∀ (s : State) (l : Nat), l < 512 → laneUp s l = true → (s.lane l).ltbLock = false → exec (.ltbLockGained l) s = .next (laneBack (updLane s l (fun x => { x with ltbLock := true })) l)) ∧
  -- LTB_LOCK_LOST (R189)
  (∀ (s : State) (l : Nat), l < 512 → laneUp s l = true → (s.lane l).ltbLock = true → exec (.ltbLockLost l) s = .next (laneLost (retrainLane s l 2) l 3))

/-- The power-step acknowledgements, leads, holds and ends have their effect. A rise of PSTEP_ACK grants a notified step, a fall arms the
next; the lead and the hold expire; a step that is done ends its notice. Where the manual leaves a condition or value open the model's
choice is meant (log 7, 83). Follows 18_power_clocks.md (power steps). -/
def Obligations.PowerStepSignallingCompletes : Prop :=
  -- PSTEP_ACK_RISE (R497)
  (∀ (s : State) (g : Nat), g < 2 → (getStep s g).ack = false → isRise (getStep s g).code = true → (getStep s g).armLow = false → s.clk.now < (getStep s g).stbAt + 2000 → exec (.pstepAckRise g) s = .next (updStep s g (fun y => { y with ack := true, grant := some s.clk.now }))) ∧
  -- PSTEP_ACK_FALL (R497)
  (∀ (s : State) (g : Nat), g < 2 → ∃ t, exec (.pstepAckFall g) s = .next t ∧ (getStep t g).ack = false ∧ (getStep t g).armLow = false ∧ (getStep t g).grant = (getStep s g).grant) ∧
  -- NOTICE_LEAD_EXPIRE (R497)
  (∀ (s : State) (g : Nat), g < 2 → (getStep s g).stbAt + 2000 ≤ s.clk.now → (getStep s g).grant.isSome = true → isRise (getStep s g).code = true → (getStep s g).used = false → exec (.noticeLeadExpire g) s = .next (count (updStep s g (fun y => { y with used := true })) .device 0 .pstepGrant)) ∧
  -- GRANT_HOLD_EXPIRE (R497)
  (∀ (s : State) (g : Nat), g < 2 → exec (.grantHoldExpire g) s = .next (if (getStep s g).ack then recordEv (updStep s g (fun y => { y with grant := none })) .pstepAckStuck svcDie g else updStep s g (fun y => { y with grant := none }))) ∧
  -- PSTEP_STEP_DONE (R497)
  (∀ (s : State) (g : Nat), g < 2 → (getStep s g).code ≠ 0 ∨ (getStep s g).rise ≠ 0 → (getStep s g).rise ≤ codeAmps (getStep s g).code → ∃ t, exec (.pstepStepDone g) s = .next t ∧ (getStep t g).code = 0 ∧ (getStep t g).rise = 0 ∧ (getStep t g).grant = none ∧ (getStep t g).stbAt = s.clk.now)

/-- A sequenced LTB that arrives in order on an open link has its own effect. On a port that is ACTIVE or in DRAIN with no LANE_MAP
exchange open, a DATA or CTRL LTB whose LTB_SEQ is the next one is taken: its ACK, NAK, credits and content have effect. LTBs that are not
sequenced are counted and have theirs. Where the manual leaves a condition or value open the model's choice is meant (log 53, 102).
Follows 07_link_layer.md (LTBs, sequencing, credits, framing). -/
def Obligations.SequencedLtbsComplete : Prop :=
  -- LTB_DATA_RX (R203)
  (∀ (s : State) (p : Nat) (h : LtbHdr) (fs : List Frag) (since : Nat), InOrder s p h → ((edgeCheck (creditsIn (ltbInOrder s p h) p h) p h since fs).port p).rxLost = false → framingOk (edgeCheck (creditsIn (ltbInOrder s p h) p h) p h since fs) p h.startOff fs = true → exec (.ltbDataRx p h fs since) s = .next (takeFrags (edgeCheck (creditsIn (ltbInOrder s p h) p h) p h since fs) p h.abortEnd fs)) ∧
  -- LTB_BAD_RX (R187)
  (∀ (s : State) (p : Nat), p < 512 → exec (.ltbBadRx p true) s = .next (count (count s .port p .ltbRx) .port p .badType)) ∧
  -- LTB_BAD_RX (R187)
  (∀ (s : State) (p : Nat), LinkOpen s p → exec (.ltbBadRx p false) s = .next (sendNak (count (count (updPort s p (fun x => { x with crcAt := some s.clk.now })) .port p .ltbRx) .port p .ltbCrcErr) p)) ∧
  -- LTB_IDLE_RX (R187)
  (∀ (s : State) (p : Nat) (h : LtbHdr), LinkOpen s p → Unmarked s p h → exec (.ltbIdleRx p h) s = .next (ltbTaken s p h)) ∧
  -- LTB_CTRL_CREDIT_RX (R188)
  (∀ (s : State) (p : Nat) (h : LtbHdr) (m : BitVec 16), InOrder s p h → exec (.ltbCtrlCreditRx p h m) s = .next (heldIn (creditsIn (ltbInOrder s p h) p h) p m)) ∧
  -- LTB_CTRL_LINK_DOWN_RX (R195)
  (∀ (s : State) (p : Nat) (h : LtbHdr) (m : BitVec 16), InOrder s p h → exec (.ltbCtrlLinkDownRx p h m) s = .next (linkFailure (heldIn (creditsIn (ltbInOrder s p h) p h) p m) p 4)) ∧
  -- LTB_CTRL_RESERVED_RX (R188)
  (∀ (s : State) (p : Nat) (h : LtbHdr), InOrder s p h → exec (.ltbCtrlReservedRx p h) s = .next (count (creditsIn (ltbInOrder s p h) p h) .port p .badType)) ∧
  -- LTB_LANE_MAP_RX (R209)
  (∀ (s : State) (p : Nat) (h : LtbHdr) (q m : BitVec 8), p < 512 → Unmarked s p h → ((s.port p).link = .active ∨ (s.port p).link = .drain) → (s.port p).mapOpen = true → q = (s.port p).mapSeq → m = (s.port p).rxMap → exec (.ltbLaneMapRx p h q m true) s = .next (ackIn (echoIn (count s .port p .ltbRx) p h.lane) p h)) ∧
  -- LTB_LANE_MAP_RX (R209)
  (∀ (s : State) (p : Nat) (h : LtbHdr) (q m : BitVec 8), p < 512 → Unmarked s p h → ((s.port p).link = .active ∨ (s.port p).link = .drain) → (s.port p).peerMapSeq = some q → exec (.ltbLaneMapRx p h q m false) s = .next (sendLaneMap (ackIn (count s .port p .ltbRx) p h) p q (s.port p).txMap true)) ∧
  -- LTB_LANE_MAP_RX (R209)
  (∀ (s : State) (p : Nat) (h : LtbHdr) (q m : BitVec 8), p < 512 → Unmarked s p h → ((s.port p).link = .active ∨ (s.port p).link = .drain) → (s.port p).peerMapSeq ≠ some q → (s.port p).peerMapSeq.any (fun r => !mapNewer q r) = false → exec (.ltbLaneMapRx p h q m false) s = .next (replay (ackSeen (sendLaneMap (if h.nak then count (dropExchange (updPort (adoptTxMap (count s .port p .ltbRx) p m) p (fun x => { x with peerMapSeq := some q })) p) .port p .nakRx else (dropExchange (updPort (adoptTxMap (count s .port p .ltbRx) p m) p (fun x => { x with peerMapSeq := some q })) p)) p q m true) p h.ackSeq) p)) ∧
  -- LTB_LANE_MAP_RX (R209)
  (∀ (s : State) (p : Nat) (h : LtbHdr) (q m : BitVec 8) (r : BitVec 8), p < 512 → Unmarked s p h → ((s.port p).link = .active ∨ (s.port p).link = .drain) → (s.port p).peerMapSeq = some r → r ≠ q → mapNewer q r = false → exec (.ltbLaneMapRx p h q m false) s = .next (ackIn (count s .port p .ltbRx) p h)) ∧
  -- LTB_LOAD_HINT_RX (R237)
  (∀ (s : State) (p : Nat) (h : LtbHdr) (m : HintMsg), LinkOpen s p → Unmarked s p h → isLegacy s p = false → m.ver = 1 → ((ltbTaken s p h).port p).link = .active → exec (.ltbLoadHintRx p h m) s = .next (count (updPort (ltbTaken s p h) p (fun x => { x with hints := x.hints.set (m.block % 32) (some { at_ := (ltbTaken s p h).clk.now, load := m.groupLoad }), hintSl := m.slLoad, hintSlAt := some (ltbTaken s p h).clk.now })) .port p .hintRx))

/-- INIT, hints, credit and replay timers, grace, drain and switching have their effect. INIT LTBs are checked and loaded and INIT is
repeated; hints are sent; the HELD interval, CREDIT_TMO, the grant, REPLAY_TMO and the replay limit act; grace and drain end; the first
packet waiting at a source enters the switch core. Where the manual leaves a condition or value open the model's choice is meant (log 9,
53, 54, 100, 102, 106). Follows 07_link_layer.md (link states, INIT, credits, replay); 08_routing.md (load hints, the switching step). -/
def Obligations.LinkInitAndTimersComplete : Prop :=
  -- LTB_INIT_RX (R197)
  (∀ (s : State) (p k : Nat) (h : LtbHdr) (i : InitMsg), p < 512 → k < 8 → Unmarked s p h → (s.port p).link = .init → initCheck s p k i = 0 → exec (.ltbInitRx p k h i) s = .next (tryActive (loadInit (ackIn (count s .port p .ltbRx) p h) p k i) p)) ∧
  -- LTB_INIT_RX (R197)
  (∀ (s : State) (p k : Nat) (h : LtbHdr) (i : InitMsg), p < 512 → k < 8 → Unmarked s p h → (s.port p).link = .active → (s.port p).mapOpen = false → initCheck s p k i = 0 → exec (.ltbInitRx p k h i) s = .next (sendInit (ackIn (count s .port p .ltbRx) p h) p)) ∧
  -- INIT_REPEAT (R197)
  (∀ (s : State) (p : Nat), p < 512 → (s.port p).link = .init → (s.port p).allotted = true → exec (.initRepeat p) s = .next (tryActive (sendInit s p) p)) ∧
  -- INIT_POOL_RETRY (R199)
  (∀ (s : State) (p : Nat), p < 512 → (s.port p).link = .init → (s.port p).poolWait = true → exec (.initPoolRetry p) s = .next (if ((allot s p).port p).allotted then sendInit (allot s p) p else allot s p)) ∧
  -- TRAIN_WAIT_EXPIRE (R195)
  (∀ (s : State) (p : Nat), p < 512 → (s.port p).trainWait = true → (s.port p).link = .train → (portLanes s p).any (laneUp s) = true → exec (.trainWaitExpire p) s = .next (beginInit s p)) ∧
  -- INIT_TMO_EXPIRE (R195)
  (∀ (s : State) (p : Nat), p < 512 → (s.port p).link = .init → (s.port p).gotInit = false → (s.port p).mismatch = 0 → exec (.initTmoExpire p) s = .next (retrainAll (updPort (setLink s p .train) p (fun x => { x with allotted := false, poolWait := false })) p)) ∧
  -- LOAD_HINT_SEND (R236)
  (∀ (s : State) (p : Nat), p < 512 → isFabric s p = true → (s.port p).link = .active → (s.port p).txIdle = 0 → exec (.loadHintSend p) s = .next (putLtb (updPort s p (fun x => { x with hintNext := (x.hintNext + 1) % 32 })) p none (plainHdr (s.port p)) (.hint { block := (s.port p).hintNext, slLoad := (List.range 4).map (slLoad s), groupLoad := (List.range 128).map (fun i => groupLoad s (quadOfLane p) ((s.port p).hintNext * 128 + i)) }))) ∧
  -- HELD_INTERVAL_EXPIRE (R201)
  (∀ (s : State) (p v : Nat), p < 512 → v < 16 → ((s.port p).link = .active ∨ (s.port p).link = .drain) → heldDue (s.port p) s.clk.now v = true → replayRoom s p 1 = true → exec (.heldIntervalExpire p v) s = .next (sendCtrl (updPort s p (fun x => { x with heldAt := x.heldAt.set v s.clk.now })) p 0 (BitVec.ofNat 16 (2 ^ v)))) ∧
  -- CREDIT_TMO_EXPIRE (R202)
  (∀ (s : State) (p v : Nat), p < 512 → v < 16 → ((s.port p).link = .active ∨ (s.port p).link = .drain) → waitsForCredits s p v = true → creditFrom s p v + (s.port p).creditTmoNow * 1000 ≤ s.clk.now → exec (.creditTmoExpire p v) s = .next (linkFailure (recordEv (count s .port p .creditLoss) .creditLoss (quadOfLane p) p v) p 1)) ∧
  -- SHARED_GRANT_ADJUST (R199)
  (∀ (s : State) (p : Nat), p < 512 → isFabric s p = true → (s.port p).link = .active → (s.port p).grant < 2 * sharedUse s p → (s.port p).grant < (s.port p).sharedMaxNow → 256 * ((aheadInPool s p).length + 1) ≤ poolLeft s (quadOfLane p) p - portPool s p → exec (.sharedGrantAdjust p) s = .next (sendCredits (updPort (updQuad s (quadOfLane p) (fun y => { y with arb := p })) p (fun x => { x with grant := x.grant + 256, owedShared := x.owedShared + 256, grantLowAt := s.clk.now })) p)) ∧
  -- REPLAY_TMO_EXPIRE (R204)
  (∀ (s : State) (p : Nat), p < 512 → ((s.port p).link = .active ∨ (s.port p).link = .drain) → exec (.replayTmoExpire p) s = .next (replay s p)) ∧
  -- REPLAY_LIMIT (R204)
  (∀ (s : State) (p : Nat) (h : HeldLtb), p < 512 → ((s.port p).link = .active ∨ (s.port p).link = .drain) → (s.port p).held.find? (fun h => decide (8 ≤ h.replays)) = some h → exec (.replayLimit p) s = .next (linkFailure (recordEv (count s .port p .replayLimit) .replayLimit (quadOfLane p) p h.seq.toNat) p 2)) ∧
  -- LINK_GRACE_EXPIRE (R206)
  (∀ (s : State) (p : Nat), p < 512 → (s.port p).grace = true → (s.port p).link ≠ .drain → exec (.linkGraceExpire p) s = .next (flushPort (updPort s p (fun x => { x with grace := false })) p)) ∧
  -- LINK_GRACE_EXPIRE (R206)
  (∀ (s : State) (p : Nat), p < 512 → (s.port p).grace = true → (s.port p).link = .drain → exec (.linkGraceExpire p) s = .next (sendLinkDown (flushPort (updPort s p (fun x => { x with grace := false })) p) p)) ∧
  -- DRAIN_COMPLETE (R207)
  (∀ (s : State) (p : Nat), p < 512 → (s.port p).link = .drain → (s.port p).vcq.cells.all (·.2.isEmpty) = true → (s.port p).held.isEmpty = true → (s.port p).leaving.isEmpty = true → (s.port p).txq.isEmpty = true → exec (.drainComplete p) s = .next (sendLinkDown s p)) ∧
  -- LINK_DOWN_WAIT_END (R195)
  (∀ (s : State) (p : Nat), p < 512 → (s.port p).link = .drain → (s.port p).downSent = true → exec (.linkDownWaitEnd p) s = .next (endDrain s p)) ∧
  -- PACKET_ARRIVAL (R221)
  (∀ (s : State) (p n : Nat) (k : Pkt) (l : List (Pkt × Nat)), p < 512 → (s.port p).arrived = (k, n) :: l → (s.port p).rxCur = none → exec (.packetArrival (.net p)) s = .next (switchPacket (updPort s p (fun x => { x with arrived := l })) (.net p) k 0 n)) ∧
  -- PACKET_ARRIVAL (R221)
  (∀ (s : State) (p n : Nat) (k : Pkt) (r : RxPkt), p < 512 → (s.port p).arrived = [(k, n)] → (s.port p).rxCur = some r → r.bad = false → r.gone = false → exec (.packetArrival (.net p)) s = .next (switchPacket (updPort s p (fun x => { x with arrived := [], rxCur := x.rxCur.map (fun r => { r with gone := true }) })) (.net p) k (s.port p).rxNo n)) ∧
  -- PACKET_ARRIVAL (R221)
  (∀ (s : State) (e : Nat) (k : Pkt) (l : List Pkt), epExists s e = true → (s.hostEp e).inject = k :: l → poolTakes s (.host e) k = true → exec (.packetArrival (.host e)) s = .next (switchPacket (takePool (updHost s e (fun h => { h with inject := l })) (.host e) k) (.host e) k 0 s.clk.now)) ∧
  -- PACKET_ARRIVAL (R221)
  (∀ (s : State) (q p : Nat) (k : Pkt) (l : List (Nat × Pkt)), q < 4 → s.ep.collTx.get q = (p, k) :: l → poolTakes s (.coll q) k = true → exec (.packetArrival (.coll q)) s = .next (sendStraight (updEp s (fun e => { e with collTx := e.collTx.set q l })) (.coll q) p k)) ∧
  -- PACKET_ARRIVAL (R221)
  (∀ (s : State) (k : Pkt) (l : List (Option Nat × Pkt)), s.grp.tx = (none, k) :: l → poolTakes s .service k = true → exec (.packetArrival .service) s = .next (switchPacket (takePool (fromService { s with grp := { s.grp with tx := l } } (srcQuad s .service) k.hdr.len) .service k) .service k 0 s.clk.now)) ∧
  -- PACKET_ARRIVAL (R221)
  (∀ (s : State) (p : Nat) (k : Pkt) (l : List (Option Nat × Pkt)), s.grp.tx = (some p, k) :: l → (s.port p).link = .active → poolTakes s .service k = true → exec (.packetArrival .service) s = .next (sendStraight (fromService { s with grp := { s.grp with tx := l } } (srcQuad s .service) k.hdr.len) .service p k))

/-- An admitted request is carried out and its PSNs are accepted. The first packet waiting at an endpoint, where it passes every check at
a READY, resident and synchronised queue pair inside the window and is no duplicate, has the effect of its opcode; when that effect is not
refused and waits for no translation, its PSNs are received and acknowledged as the coalescing rule says. Where the manual leaves a
condition or value open the model's choice is meant (log 7, 47, 63, 103, 104, 110). Follows 11_remote_access.md (requests at the target);
11_remote_access.md (reliability); 12_matching.md (tagged requests). -/
def Obligations.RequestsAtTheTargetComplete : Prop :=
  -- WRITE_RX (R308)
  (∀ (s : State) (ep : Nat) (a : Arrival) (v : State) (q : Nat) (y : Qp), epExists s ep = true → admitted s ep 0x01 = some (a, v, q, y) → ((fun s _ x a => placeRequest s x a id) v q y a).2 = 0 → exec (.writeRx ep) s = .next (acceptPsn ((fun s _ x a => placeRequest s x a id) v q y a).1 q a 1)) ∧
  -- WRITE_COUNT_RX (R322)
  (∀ (s : State) (ep : Nat) (a : Arrival) (v : State) (q : Nat) (y : Qp), epExists s ep = true → admitted s ep 0x02 = some (a, v, q, y) → ((fun s q x a => placeRequest s x a (fun t => countBytes t q x a)) v q y a).2 = 0 → exec (.writeCountRx ep) s = .next (acceptPsn ((fun s q x a => placeRequest s x a (fun t => countBytes t q x a)) v q y a).1 q a 1)) ∧
  -- READ_REQ_RX (R312)
  (∀ (s : State) (ep : Nat) (a : Arrival) (v : State) (q : Nat) (y : Qp), epExists s ep = true → admitted s ep 0x03 = some (a, v, q, y) → (doRead v q y a).2 = 0 → exec (.readReqRx ep) s = .next (acceptPsn (doRead v q y a).1 q a (readPsns a))) ∧
  -- SEND_RX (R308)
  (∀ (s : State) (ep : Nat) (a : Arrival) (v : State) (q : Nat) (y : Qp), epExists s ep = true → admitted s ep 0x05 = some (a, v, q, y) → (doSend v q y a).2 = 0 → exec (.sendRx ep) s = .next (acceptPsn (doSend v q y a).1 q a 1)) ∧
  -- ATOMIC_REQ_RX (R321)
  (∀ (s : State) (ep : Nat) (a : Arrival) (v : State) (q : Nat) (y : Qp), epExists s ep = true → admitted s ep 0x06 = some (a, v, q, y) → (doAtomic v q y a).2 = 0 → exec (.atomicReqRx ep) s = .next (acceptPsn (doAtomic v q y a).1 q a 1)) ∧
  -- TAG_EAGER_RX (R338)
  (∀ (s : State) (ep : Nat) (a : Arrival) (v : State) (q : Nat) (y : Qp), epExists s ep = true → admitted s ep 0x10 = some (a, v, q, y) → (doEager v q y a).2 = 0 → exec (.tagEagerRx ep) s = .next (acceptPsn (doEager v q y a).1 q a 1)) ∧
  -- TAG_RTS_RX (R342)
  (∀ (s : State) (ep : Nat) (a : Arrival) (v : State) (q : Nat) (y : Qp), epExists s ep = true → admitted s ep 0x11 = some (a, v, q, y) → (doRts v q y a).2 = 0 → exec (.tagRtsRx ep) s = .next (acceptPsn (doRts v q y a).1 q a 1)) ∧
  -- TAG_FIN_RX (R341)
  (∀ (s : State) (ep : Nat) (a : Arrival) (v : State) (q : Nat) (y : Qp), epExists s ep = true → admitted s ep 0x12 = some (a, v, q, y) → (doFin v q y a).2 = 0 → exec (.tagFinRx ep) s = .next (acceptPsn (doFin v q y a).1 q a 1))

/-- Responses, ACKs, transport timers, host data and translations have their effect. A response or ACK that passes its checks is taken by
the requester; ACK_DELAY, RTO and RETRY_AFTER send, resend or fail; host data, atomics and translations that come back go on; an untagged
receive enters the list and a tagged one is matched or posted. Where the manual leaves a condition or value open the model's choice is
meant (log 7, 18, 46, 105, 107, 110). Follows 11_remote_access.md (ACKs, timers, congestion); 11_remote_access.md (responses, atomics,
translation); 12_matching.md (posting, rendezvous). -/
def Obligations.ResponsesAndTransportTimersComplete : Prop :=
  -- READ_RESP_RX (R312)
  (∀ (s : State) (ep : Nat) (a : Arrival) (v : State) (q : Nat) (y : Qp), epExists s ep = true → answered s ep 0x04 = some (a, v, q, y) → exec (.readRespRx ep) s = .next (pumpRdvs (pumpFins (doReadResp v q y a) q 64) q)) ∧
  -- ATOMIC_RESP_RX (R304)
  (∀ (s : State) (ep : Nat) (a : Arrival) (v : State) (q : Nat) (y : Qp) (p : Pend) (e : Ent) (idx : BitVec 32) (w : State), epExists s ep = true → answered s ep 0x07 = some (a, v, q, y) → y.pend.find? (fun p => p.psn == a.th.psn && p.op == 6) = some p → p.owner = .ent idx → y.ent idx = some e → useWins v y.fn engTransport e.sges = .inr w → localChecks w y 1 e.sges = stSUCCESS → sgesMiss w e.sges = none → exec (.atomicRespRx ep) s = .next (entMaybeDone (dmaScatter (dropPend w q p.psn) (sgeHost w e.sges) (leBytes a.payload.length (beNat a.payload))) q idx)) ∧
  -- ACK_RX (R311)
  (∀ (s : State) (ep : Nat) (a : Arrival) (v : State) (q : Nat) (y : Qp) (sack : BitVec 256) (code ec ra : Nat) (np : BitVec 32), epExists s ep = true → answered s ep 0x08 = some (a, v, q, y) → a.ext = .ack sack code ec ra np → exec (.ackRx ep) s = .next (pumpRdvs (pumpFins (takeNak (takeAck (count v .host ep .ackRx) q y a sack) q code np ra) q 64) q)) ∧
  -- ACK_DELAY_EXPIRE (R310)
  (∀ (s : State) (q : Nat) (x : Qp), getQp s q = some x → x.st = 1 → 0 < x.ackDue → x.ackAt + (s.hostEp (epOfFn s x.fn)).ackDelay ≤ s.clk.now → exec (.ackDelayExpire q) s = .next (sendAck s q 0 0 0)) ∧
  -- RTO_EXPIRE (R311)
  (∀ (s : State) (q : Nat) (x : Qp) (psn : BitVec 32) (p : Pend), getQp s q = some x → x.st = 1 → x.pend.find? (fun p => p.psn == psn && (!p.acked || p.op == 3 || p.op == 6)) = some p → p.lastAt + rtoOf s x ≤ s.clk.now → (s.hostEp (epOfFn s x.fn)).retryLimit < p.timeouts + 1 → exec (.rtoExpire q psn) s = .next (failOwner s q p.owner stRETRY_EXCEEDED)) ∧
  -- RTO_EXPIRE (R311)
  (∀ (s : State) (q : Nat) (x : Qp) (psn : BitVec 32) (p : Pend), getQp s q = some x → x.st = 1 → x.pend.find? (fun p => p.psn == psn && (!p.acked || p.op == 3 || p.op == 6)) = some p → p.lastAt + rtoOf s x ≤ s.clk.now → p.timeouts + 1 ≤ (s.hostEp (epOfFn s x.fn)).retryLimit → exec (.rtoExpire q psn) s = .next (resend (count (count (if x.sl ≠ 3 ∧ 4224 < x.cwnd then count (updQp (drawn s) q (fun x => { x with cwnd := 4224, backoff := x.backoff + 1, paths := x.paths.set p.path ((Config.lfsr s.free).setWidth 16), pend := x.pend.map (fun y => if y.psn = psn then { p with timeouts := p.timeouts + 1 } else y) })) .host (epOfFn s x.fn) .ccDecrease else updQp (drawn s) q (fun x => { x with cwnd := 4224, backoff := x.backoff + 1, paths := x.paths.set p.path ((Config.lfsr s.free).setWidth 16), pend := x.pend.map (fun y => if y.psn = psn then { p with timeouts := p.timeouts + 1 } else y) })) .host (epOfFn s x.fn) .pathReplaced) .host (epOfFn s x.fn) .retxTimeout) q { p with timeouts := p.timeouts + 1 })) ∧
  -- RNR_RETRY_AFTER_EXPIRE (R306)
  (∀ (s : State) (q : Nat) (x : Qp) (n : BitVec 32), getQp s q = some x → x.st = 1 → x.rnrPsn = some n → x.rnrUntil ≤ s.clk.now → exec (.rnrRetryAfterExpire q) s = .next ((x.pend.filter (fun p => !p.acked && decide ((p.psn - n).toNat < 2 ^ 31))).foldl (fun t p => if stale t q p.psn then resend t q p else t) (updQp s q (fun x => { x with rnrPsn := none })))) ∧
  -- HOST_DATA_READ_COMPLETE (R30)
  (∀ (s : State) (ep : Nat) (d : List Byte) (q : Nat) (psn : BitVec 32) (b : Bool) (l : List DataRead) (x : Qp) (p : Pend) (idx : BitVec 32) (e : Ent), epExists s ep = true → s.ep.reads.get ep = .send q psn b :: l → getQp (updHost (updEp s (fun e => { e with reads := e.reads.set ep l })) ep (fun h => { h with outstanding := h.outstanding - 1 })) q = some x → x.pend.find? (fun p => p.psn == psn) = some p → p.owner = .ent idx → x.ent idx = some e → exec (.hostDataReadComplete ep (some d)) s = .next (finishDestroys (sendPend (updHost (updEp s (fun e => { e with reads := e.reads.set ep l })) ep (fun h => { h with outstanding := h.outstanding - 1 })) q e p (exactly p.len d) b))) ∧
  -- HOST_ATOMIC_COMPLETE (R321)
  (∀ (s : State) (ep : Nat) (o : BitVec 128) (h : HostAtomic) (x : Qp), epExists s ep = true → (s.hostEp ep).atomics.find? (fun h => !h.cxl) = some h → getQp (updHost s ep (fun y => { y with atomics := y.atomics.erase h })) h.qp = some x → x.st = 1 → exec (.hostAtomicComplete ep (some o)) s = .next (finishDestroys (atomicResp (count (updHost s ep (fun y => { y with atomics := y.atomics.erase h })) .host ep .atomicExec) h.qp h.psn o (aopWidth h.aop) true))) ∧
  -- HOST_ATOMIC_COMPLETE (R321)
  (∀ (s : State) (ep : Nat) (h : HostAtomic) (x : Qp), epExists s ep = true → (s.hostEp ep).atomics.find? (fun h => !h.cxl) = some h → getQp (updHost s ep (fun y => { y with atomics := y.atomics.erase h })) h.qp = some x → x.st = 1 → exec (.hostAtomicComplete ep none) s = .next (finishDestroys (sendAck (updHost s ep (fun y => { y with atomics := y.atomics.erase h })) h.qp 4 h.psn 0))) ∧
  -- CXL_CACHE_OWNERSHIP_GRANTED (R321)
  (∀ (s : State) (ep : Nat) (o : BitVec 128) (h : HostAtomic) (x : Qp), epExists s ep = true → (s.hostEp ep).atomics.find? (fun h => h.cxl) = some h → getQp (updHost s ep (fun y => { y with atomics := y.atomics.erase h })) h.qp = some x → x.st = 1 → exec (.cxlCacheOwnershipGranted ep o) s = .next (finishDestroys (lineAtomic (updDir (updLine (updHost s ep (fun y => { y with atomics := y.atomics.erase h })) (quadOfEp ep) (hostLine ep h.addr) (fun c => { c with st := .m, phase := 0, data := if c.st == .m then c.data else [] })) (hostLine ep h.addr) (fun d => { d with st := .m, owner := quadOfEp ep, sharers := bit5 (quadOfEp ep) ||| bit5 4 })) ep h o))) ∧
  -- ATS_TRANSLATION_COMPLETE (R320)
  (∀ (s : State) (fn addr len b : Nat) (w : AtsReq), fnExists s fn = true → s.ep.ats.find? (fun w => w.fn == fn && decide (addr ≤ w.addr) && decide (w.addr < addr + max 1 len)) = some w → exec (.atsTranslationComplete fn addr len (some b)) s = .next (atsGoOn (updFn (updEp s (fun e => { e with ats := e.ats.erase w })) fn (fun x => { x with atsCache := x.atsCache ++ [{ pd := w.pd, addr := addr, len := len, bus := b }] })) w.what)) ∧
  -- ATS_TRANSLATION_COMPLETE (R320)
  (∀ (s : State) (fn addr len : Nat) (w : AtsReq), fnExists s fn = true → s.ep.ats.find? (fun w => w.fn == fn && decide (addr ≤ w.addr) && decide (w.addr < addr + max 1 len)) = some w → exec (.atsTranslationComplete fn addr len none) s = .next (atsFails (updEp s (fun e => { e with ats := e.ats.erase w })) w.what)) ∧
  -- ATS_INVALIDATE_REQUEST (R320)
  (∀ (s : State) (fn start len : Nat), fnExists s fn = true → ∃ t, exec (.atsInvalidateRequest fn start len) s = .next t ∧ (t.fn fn).atsCache = (s.fn fn).atsCache.filter (fun c => !(decide (c.addr < start + len) && decide (start < c.addr + c.len)))) ∧
  -- RECV (R301)
  (∀ (s : State) (srq : Nat) (r : Srq) (e : Ent), getSrq s srq = some r → r.ring.next = some e → r.garnet = false → r.err = false → r.quiesced = false → e.chainRead = false → (e.fence && srqOpen s srq r) = false → e.status = stSUCCESS → e.chain = none → sgeLen e.sges < 2 ^ 32 → exec (.recv srq) s = .next (issueFetch (updSrq (updRing s srq (fun r => { r with ents := r.ents.filter (fun y => y.idx != e.idx), head := r.head + BitVec.ofNat 32 e.nslots })) srq (fun r => { r with recvs := r.recvs ++ [{ idx := e.idx, wqe := e.wqe, sges := e.sges }] })) srq)) ∧
  -- TRECV (R337)
  (∀ (s : State) (srq : Nat) (r : Srq) (e : Ent) (u v : State), getSrq s srq = some r → r.ring.next = some e → r.garnet = true → r.err = false → r.quiesced = false → (e.fence && srqOpen s srq r) = false → (s.quad r.home).storeUsed < storeSize → e.status = stSUCCESS → useStores s r.fn srq = .inr u → useWins u r.fn engGarnet e.sges = .inr v → postCheck v r e = stSUCCESS → (postedOf e r.postStamp).wild = false → (unexpList v r srq (postedNext v r e)).find? (fun u : Nat × Unexp => u.1 == srq && matches_ (postedNext v r e) u.2.msg) = none → exec (.trecv srq) s = .next ((retryWaiting (nextOrd (updSrqStore (updSrq (countWalk (popRecv v srq e) (epOfFn v r.fn) (walked (fun u : Nat × Unexp => u.1 == srq && matches_ (postedNext v r e) u.2.msg) (unexpList v r srq (postedNext v r e)))) srq (fun r => { r with postStamp := r.postStamp + 1 })) srq (fun r0 => { r0 with posted := r0.posted ++ [postedNext v r e] })))))) ∧
  -- RDV_READ_COMPLETE (R342)
  (∀ (s : State) (q : Nat) (x : Qp) (m : Matched), getQp s q = some x → x.st = 1 → x.matched.find? (fun m => m.msg.rts.isSome && (decide (min m.msg.len m.cap ≤ m.got) && decide (0 < m.asked) && !x.pend.any (fun p => p.owner == .rdv m.msg.msn m.msg.gen))) = some m → m.failed = false → m.lost = false → m.msg.len ≤ m.cap → exec (.rdvReadComplete q 0) s = .next (sendFin (completeMatched (updQp s q (fun x => { x with matched := x.matched.filter (fun y => !y.isRdv m.msg.msn m.msg.gen) })) q m stSUCCESS m.placed false) q m.msg m.got stSUCCESS))

/-- Tree packets, finished blocks and stalls have their effect. A tree packet that comes by an edge of its tree and passes its checks
joins, completes, credits or ends a collective; a fifth collective is held; Opal's finished block goes on; a collective without progress
ends with COLL_STALLED. Where the manual leaves a condition or value open the model's choice is meant (log 16, 51, 52, 107). Follows
13_collectives.md (tree packets, Opal, failures). -/
def Obligations.CollectiveCommandsComplete : Prop :=
  -- UP_RX (R374)
  (∀ (s : State) (quad : Nat) (u : State) (id : Nat) (tr : Tree) (e : Nat) (p : Pkt) (c : CollHdr) (l : List Byte), quad < 4 → treeTaken s quad 1 = some (u, id, tr, e, p, c, l) → e ≠ 0 → mustHold tr c.seq = false → exec (.upRx quad) s = .next (releaseHold (takeUp u id e c l) id holdFuel)) ∧
  -- UP_RX (R374)
  (∀ (s : State) (quad : Nat) (u : State) (id : Nat) (tr : Tree) (e : Nat) (p : Pkt) (c : CollHdr) (l : List Byte), quad < 4 → treeTaken s quad 1 = some (u, id, tr, e, p, c, l) → e ≠ 0 → mustHold tr c.seq = true → tr.ended.any (fun y => y.1 == c.seq) = false → tr.broken = false → exec (.upRx quad) s = .next (count (updTree u id (fun t => { t with hold := t.hold ++ [(e, p)] })) .quadrant quad .seqHold)) ∧
  -- OPAL_BLOCK_DONE (R374)
  (∀ (s : State) (quad : Nat) (tree : BitVec 24) (seq : BitVec 32) (block : Nat), quad < 4 → treeQuad tree.toNat = quad → exec (.opalBlockDone quad tree seq block) s = .next (releaseHold (finishBlock s tree.toNat seq block) tree.toNat holdFuel)) ∧
  -- DOWN_RX (R374)
  (∀ (s : State) (quad : Nat) (u : State) (id : Nat) (tr : Tree) (e : Nat) (p : Pkt) (c : CollHdr) (l : List Byte), quad < 4 → treeTaken s quad 2 = some (u, id, tr, e, p, c, l) → e = 0 → (getColl u id c.seq).isSome = true → exec (.downRx quad) s = .next (releaseHold (goDown (updColl u id c.seq (fun x => { x with inexact := c.inexact, overflow := c.overflow, invalid := c.invalid, progress := u.clk.now })) id c.seq c.blockFirst c.blockCount l) id holdFuel)) ∧
  -- TREE_CREDIT_RX (R359)
  (∀ (s : State) (quad : Nat) (u : State) (id : Nat) (tr : Tree) (e : Nat) (p : Pkt) (c : CollHdr) (l : List Byte), quad < 4 → treeTaken s quad 3 = some (u, id, tr, e, p, c, l) → exec (.treeCreditRx quad) s = .next (releaseHold (pumpDown (pumpUp (updEdge u id e (fun x => { x with ctr := x.ctr + c.credits })) id pumpFuel) id pumpFuel) id holdFuel)) ∧
  -- TREE_ABORT_RX (R379)
  (∀ (s : State) (quad : Nat) (u : State) (id : Nat) (tr : Tree) (e : Nat) (p : Pkt) (c : CollHdr) (l : List Byte), quad < 4 → treeTaken s quad 4 = some (u, id, tr, e, p, c, l) → exec (.treeAbortRx quad) s = .next (releaseHold (endColl u id c.seq c.status (some e)) id holdFuel)) ∧
  -- STALL_TMO_EXPIRE (R381)
  (∀ (s : State) (quad : Nat) (tree : BitVec 24) (seq : BitVec 32), quad < 4 → treeQuad tree.toNat = quad → stalled s tree.toNat seq = true → exec (.stallTmoExpire quad tree seq) s = .next (releaseHold (endColl s tree.toNat seq stCOLL_STALLED none) tree.toNat holdFuel))

/-- Paging, the scrubs and the end of a quarantine have their effect. A marked victim's image leaves and the slot is given on; an image
that passes its checks makes its queue pair resident; patrol reads move on and count what they find; a pass starts at the first address; a
scrub corrects or loses a line; a freed number is ready after its quarantine. Where the manual leaves a condition or value open the
model's choice is meant (log 7, 17, 58, 104, 110). Follows 14_context_memory.md (Onyx, scrubs). -/
def Obligations.PagingScrubsAndNumbersComplete : Prop :=
  -- EVICTION_COMPLETE (R393)
  (∀ (s : State) (q : Nat) (x : Qp), getQp s q = some x → x.marked = true → x.resident = true → x.stalled = false → exec (.evictionComplete q) s = .next (servePageIn (pageOut s q) x.home)) ∧
  -- EVICTION_COMPLETE (R393)
  (∀ (s : State) (q : Nat) (x : Qp), getQp s q = some x → x.marked = true → x.resident = true → x.stalled = true → exec (.evictionComplete q) s = .next (startPageIn (updQp (servePageIn (pageOut s q) x.home) q (fun x => { x with stalled := false })) q)) ∧
  -- PAGE_IN_READ_COMPLETE (R397)
  (∀ (s : State) (q : Nat) (x : Qp) (i : Bool × Nat × Nat × Bool), getQp s q = some x → x.paging = 2 → slotDenied (count (readBack s (qpPf0 s x)) .quadrant x.home .pageIn) x true = none → x.destroy = none → almanacImageCheck q x.ring.epoch.toNat i = none → x.ring.poll ≠ .none → exec (.pageInReadComplete q (some i)) s = .next (pollNow (nowResident (count (readBack s (qpPf0 s x)) .quadrant x.home .pageIn) q x) q)) ∧
  -- PAGE_IN_READ_COMPLETE (R397)
  (∀ (s : State) (q : Nat) (x : Qp), getQp s q = some x → x.paging = 2 → slotDenied (readBack s (qpPf0 s x)) x true = none → x.destroy = none → exec (.pageInReadComplete q none) s = .next (queueToError (updQp (nowResident (readBack s (qpPf0 s x)) q x) q rebuilt) q stHOST_TIMEOUT)) ∧
  -- PATROL_SCRUB_READ (R41)
  (∀ (s : State) (stack row : Nat), stack < 4 → quadActive s stack = true → (s.quad stack).patrolAddr < stackUnits s → exec (.patrolScrubRead stack .ok row) s = .next (count (updQuad s stack (fun y => { y with patrolAddr := (s.quad stack).patrolAddr + 1 })) .quadrant stack .bgHbmBytes 64)) ∧
  -- PATROL_SCRUB_READ (R41)
  (∀ (s : State) (stack row : Nat), stack < 4 → quadActive s stack = true → (s.quad stack).patrolAddr < stackUnits s → exec (.patrolScrubRead stack .corrected row) s = .next (rowError (count (count (updQuad s stack (fun y => { y with patrolAddr := (s.quad stack).patrolAddr + 1 })) .quadrant stack .hbmCe) .quadrant stack .bgHbmBytes 128) stack row)) ∧
  -- PATROL_PASS_START (R41)
  (∀ (s : State) (stack : Nat), stack < 4 → quadActive s stack = true → (s.quad stack).patrolStart + oneDay ≤ s.clk.now → exec (.patrolPassStart stack) s = .next (updQuad s stack (fun y => { y with patrolAddr := 0, patrolStart := s.clk.now }))) ∧
  -- CACHE_SCRUB_PASS (R411)
  (∀ (s : State) (quad : Nat) (line : LineId), quad < 4 → quadActive s quad = true → exec (.cacheScrubPass quad line .corrected) s = .next (count s .quadrant quad .ccCe)) ∧
  -- CACHE_SCRUB_PASS (R411)
  (∀ (s : State) (quad : Nat) (line : LineId), quad < 4 → quadActive s quad = true → (getLine s quad line).st ≠ .i → (getLine s quad line).dirty = false → exec (.cacheScrubPass quad line .uncorrectable) s = .next (updDir (updLine s quad line (fun _ => {})) line (fun d => d.without quad))) ∧
  -- CACHE_SCRUB_PASS (R411)
  (∀ (s : State) (quad : Nat) (line : LineId) (u : State), quad < 4 → quadActive s quad = true → (getLine s quad line).st ≠ .i → (getLine s quad line).dirty = true → u = updDir (updLine (count s .quadrant quad .ccUe) quad line (fun _ => {})) line (fun d => d.without quad) → exec (.cacheScrubPass quad line .uncorrectable) s = .next (hbmLost u ((lineHome u line).getD quad) line (lineUnit u line))) ∧
  -- NUMBER_QUARANTINE_END (R389)
  (∀ (s : State) (sp num : Nat), sp < 2 → ∃ t, exec (.numberQuarantineEnd sp num) s = .next t ∧ t.ep.qnums = (if sp = 0 then s.ep.qnums.endQuarantine num else s.ep.qnums) ∧ t.ep.wnums = (if sp = 0 then s.ep.wnums else s.ep.wnums.endQuarantine num))

/-- Each coherence message has the effect of its row on the cache, the directory and the messages that follow. A write-back, a request, a
forward, an invalidation, an acknowledgement, a grant, data and a host snoop change the line and the directory as the rules say and send
what follows. Where the manual leaves a condition or value open the model's choice is meant (log 63, 110). Follows 14_context_memory.md
(coherence). -/
def Obligations.CoherenceMessagesComplete : Prop :=
  -- IDLE_WRITEBACK (R399)
  (∀ (s : State) (quad : Nat) (line : LineId), quad < 4 → cacheOk s quad = true → (getLine s quad line).st = .m → (getLine s quad line).dirty = true → (getLine s quad line).phase = 0 → (getLine s quad line).req = none → (getDir s line).busy = false → (getLine s quad line).touched + 100000 ≤ s.clk.now → exec (.idleWriteback quad line) s = .next (count (updDir (updLine s quad line (fun x => { x with dirty := false, st := .e, touched := s.clk.now })) line (fun d => { d with st := .e })) .quadrant ((lineHome s line).getD quad) .bgHbmBytes 128)) ∧
  -- GET_S (R404)
  (∀ (s : State) (req : Nat) (line : LineId), req < 4 → cacheOk s req = true → exec (.getS req line) s = .next (lookup s .getS req line)) ∧
  -- GET_M (R404)
  (∀ (s : State) (req : Nat) (line : LineId), req < 4 → cacheOk s req = true → exec (.getM req line) s = .next (lookup s .getM req line)) ∧
  -- UPGRADE (R404)
  (∀ (s : State) (req : Nat) (line : LineId), req < 4 → cacheOk s req = true → ((getLine s req line).st = .s ∨ (getLine s req line).st = .o) → exec (.upgrade req line) s = .next (lookup s .upgrade req line)) ∧
  -- PUT (R404)
  (∀ (s : State) (req : Nat) (line : LineId) (home : Nat), req < 4 → cacheOk s req = true → lineHome s line = some home → ((getLine s req line).st = .m ∨ (getLine s req line).st = .o) → (getLine s req line).phase ≠ 2 → (getLine s req line).req = none → exec (.put req line) s = .next (sendReq (updLine s req line (fun x => { x with phase := 2 })) home .put req line)) ∧
  -- PUT_CLEAN (R404)
  (∀ (s : State) (req : Nat) (line : LineId) (home : Nat), req < 4 → cacheOk s req = true → lineHome s line = some home → ((getLine s req line).st = .s ∨ (getLine s req line).st = .e) → (getLine s req line).phase ≠ 2 → (getLine s req line).req = none → exec (.putClean req line) s = .next (sendReq (updLine s req line (fun _ => {})) home .putClean req line)) ∧
  -- FWD_S (R404)
  (∀ (s : State) (owner req : Nat) (line : LineId), owner < 4 → req < 4 → fwdToGone s owner line = false → ((getLine s owner line).st == .i || (getLine s owner line).st == .s) = false → exec (.fwdS owner req line) s = .next (cohSend (updDir (updLine s owner line (fun x => { x with st := (getLine s owner line).st.shared })) line (fun d => { d with st := (getLine s owner line).st.shared, owner := if (getLine s owner line).st.shared = .o then owner else 0 })) mDATA owner req line 0)) ∧
  -- FWD_M (R404)
  (∀ (s : State) (owner req : Nat) (line : LineId), owner < 4 → req < 4 → fwdToGone s owner line = false → ((getLine s owner line).st == .i || (getLine s owner line).st == .s) = false → exec (.fwdM owner req line) s = .next (cohSend (updLine s owner line (fun x => { x with st := .i, dirty := false, phase := if x.phase = 2 then 2 else 0 })) mDATA owner req line (getDir (updLine s owner line (fun x => { x with st := .i, dirty := false, phase := if x.phase = 2 then 2 else 0 })) line).acks)) ∧
  -- INV (R404)
  (∀ (s : State) (sharer req : Nat) (line : LineId), sharer < 4 → req < 4 → fwdToGone s sharer line = false → ((getLine s sharer line).st == .i) = false → exec (.inv sharer req line) s = .next (cohSend (updLine s sharer line (fun x => { x with st := .i, dirty := false, phase := if x.phase = 2 then 2 else 0 })) mACK sharer req line 0)) ∧
  -- FWD_S (R404)
  (∀ (s : State) (owner req : Nat) (line : LineId), owner < 4 → req < 4 → fwdToGone s owner line = true → exec (.fwdS owner req line) s = .next (cohSend (updDir s line (fun d => if d.owner = owner then { d with st := .s, owner := 0 } else d)) mDATA owner req line 0)) ∧
  -- FWD_M (R404)
  (∀ (s : State) (owner req : Nat) (line : LineId), owner < 4 → req < 4 → fwdToGone s owner line = true → exec (.fwdM owner req line) s = .next (cohSend s mDATA owner req line (getDir s line).acks)) ∧
  -- INV (R404)
  (∀ (s : State) (sharer req : Nat) (line : LineId), sharer < 4 → req < 4 → fwdToGone s sharer line = true → exec (.inv sharer req line) s = .next (cohSend s mACK sharer req line 0)) ∧
  -- COH_ACK (R404)
  (∀ (s : State) (req : Nat) (line : LineId), req < 4 → (getLine s req line).req.isSome = true → exec (.cohAck req line) s = .next (finishReq (updLine s req line (fun x => { x with acks := x.acks + 1 })) req line)) ∧
  -- PUT_ACK (R400)
  (∀ (s : State) (req : Nat) (line : LineId), req < 4 → (getLine s req line).phase = 2 → (getLine s req line).req = none → exec (.putAck req line) s = .next (updLine s req line (fun _ => {}))) ∧
  -- GRANT (R404)
  (∀ (s : State) (req : Nat) (line : LineId) (n : Nat), req < 4 → (getLine s req line).req.isSome = true → (getLine s req line).answered = false → (getLine s req line).phase ≠ 2 → exec (.grant req line n) s = .next (finishReq (updLine s req line (fun x => { x with acksDue := n, answered := true, target := .m })) req line)) ∧
  -- COH_DATA (R404)
  (∀ (s : State) (req : Nat) (line : LineId) (n st : Nat), req < 4 → st < 5 → (getLine s req line).req.isSome = true → (getLine s req line).answered = false → (getLine s req line).phase ≠ 2 → exec (.cohData req line n st .ok) s = .next (finishReq (updLine s req line (fun x => { x with acksDue := n, answered := true, target := moesiOf st })) req line)) ∧
  -- HOST_SNOOP (R406)
  (∀ (s : State) (quad : Nat) (line : LineId), quad < 4 → line.kind = 6 → (getLine s quad line).st ≠ .i → exec (.hostSnoop quad line true) s = .next (cohSend (updDir (updLine (lineOut s quad line) quad line (fun x => { x with st := .i, dirty := false, data := [], phase := if x.phase = 2 then 2 else 0 })) line (fun d => { d with st := .i, owner := 0, sharers := 0 })) mDATA quad 4 line 0)) ∧
  -- HOST_SNOOP (R406)
  (∀ (s : State) (quad : Nat) (line : LineId), quad < 4 → line.kind = 6 → (getLine s quad line).st ≠ .i → exec (.hostSnoop quad line false) s = .next (fwdShared (lineOut s quad line) quad 4 line))

/-- Chain locks, enumeration, heartbeats, joins and breaks have their effect. A port of the management chain gains and loses lock; ENUM,
its acknowledgement and its end, HEARTBEAT, JOIN_REQ and CHAIN_BREAK act where they may and go on; the timers of the chain act. Where the
manual leaves a condition or value open the model's choice is meant (log 35, 45). Follows 15_hierarchy.md (the management chain). -/
def Obligations.ChainLocksAndEnumerationComplete : Prop :=
  -- CHAIN_PORT_LOCK (R415)
  (∀ (s : State), chainAlive s = true → s.chain.upLock = false → exec (.chainPortLock .upstream) s = .next ({ s with chain := { s.chain with upLock := true } })) ∧
  -- CHAIN_PORT_LOCK (R415)
  (∀ (s : State), chainRuns s = true → s.chain.downLock = false → exec (.chainPortLock .downstream) s = .next (beginEnum { s with chain := { s.chain with downLock := true } })) ∧
  -- CHAIN_PORT_LOCK_LOST (R422)
  (∀ (s : State), chainAlive s = true → s.chain.upLock = true → exec (.chainPortLockLost .upstream) s = .next ({ s with chain := { s.chain with upLock := false } })) ∧
  -- CHAIN_PORT_LOCK_LOST (R422)
  (∀ (s : State), chainRuns s = true → s.chain.downLock = true → isHead s = false → exec (.chainPortLockLost .downstream) s = .next (originate { s with chain := { s.chain with downLock := false } } 0x06 [])) ∧
  -- ENUM (R419)
  (∀ (s : State) (p : ChainPort) (f : ChainFrame), FrameTaken s p f 0x01 → isHead s = false → byteAt f.payload 0 ≠ 255 → s.chain.addr = 0 → exec (.enum p f) s = .next (feaFromChain (sendEnum (chainSend { s with chain := { s.chain with addr := byteAt f.payload 0, orphan := false, overflow := false, groupBase := BitVec.ofNat 20 (leAt f.payload 2 4) } } .upstream { dest := 0, src := byteAt f.payload 0, type := 0x02, ftag := f.ftag, payload := [] }) (byteAt f.payload 0) (byteAt f.payload 0 + 1) (byteAt f.payload 1) (BitVec.ofNat 20 (leAt f.payload 2 4))))) ∧
  -- ENUM_ACK (R419)
  (∀ (s : State) (p : ChainPort) (f : ChainFrame), FrameTaken s p f 0x02 → exec (.enumAck p f) s = .next ({ s with chain := { s.chain with enumTmr := false } })) ∧
  -- ENUM_DONE (R419)
  (∀ (s : State) (p : ChainPort) (f : ChainFrame), FrameTaken s p f 0x03 → exec (.enumDone p f) s = .next (repeatFrame (if isChainMgr s then enumerated s (byteAt f.payload 0) (byteAt f.payload 1 % 2 == 1) else s) p f)) ∧
  -- ENUM_TMO_EXPIRE (R419)
  (∀ (s : State), chainRuns s = true → s.chain.enumTmr = true → isChainMgr s = false → exec .enumTmoExpire s = .next (originate { s with chain := { s.chain with enumTmr := false } } 0x03 (leBytes 1 s.chain.addr ++ [0]))) ∧
  -- HEARTBEAT (R422)
  (∀ (s : State) (p : ChainPort) (f : ChainFrame), FrameTaken s p f 0x04 → isHead s = false → exec (.heartbeat p f) s = .next (repeatFrame { s with chain := { s.chain with orphan := false, overflow := s.chain.overflow || (s.chain.addr == 0 && byteAt f.payload 1 % 2 == 1) } } p f)) ∧
  -- HEARTBEAT_SEND (R419)
  (∀ (s : State), chainRuns s = true → isChainMgr s = true → s.chain.beating = true → s.chain.downLock = true → ∃ t, exec .heartbeatSend s = .next t ∧ t.out = s.out ++ [.chain .downstream { dest := 255, src := s.chain.addr, type := 0x04, ftag := s.chain.ftag, payload := leBytes 1 s.chain.len ++ leBytes 1 (b2n s.chain.overflow) }]) ∧
  -- JOIN_REQ (R420)
  (∀ (s : State) (p : ChainPort) (f : ChainFrame), FrameTaken s p f 0x05 → exec (.joinReq p f) s = .next (if isChainMgr s && !s.chain.ignoreJoin then beginEnum (repeatFrame s p f) else repeatFrame s p f)) ∧
  -- JOIN_REQ_SEND (R420)
  (∀ (s : State), chainRuns s = true → isHead s = false → s.chain.addr = 0 → s.chain.upLock = true → exec .joinReqSend s = .next (originate s 0x05 s.ident.serial)) ∧
  -- CHAIN_BREAK (R422)
  (∀ (s : State) (p : ChainPort) (f : ChainFrame), FrameTaken s p f 0x06 → exec (.chainBreak p f) s = .next (repeatFrame (if isChainMgr s then recordEv s .chainBreak svcDie f.src else s) p f)) ∧
  -- ORPHAN_TMO_EXPIRE (R422)
  (∀ (s : State), chainRuns s = true → isHead s = false → s.chain.orphan = false → exec .orphanTmoExpire s = .next (recordEv { s with chain := { s.chain with orphan := true } } .chainOrphan svcDie s.chain.addr))

/-- The chain controller's requests are answered and frames for others go on. STATUS_REQ, RESET, REG_READ, REG_WRITE and MB_CMD for this
device act with the rights of the chain instance and are answered; answers and events from below go up; bad frames are counted; a RESET
acts 10 us later. Where the manual leaves a condition or value open the model's choice is meant (log 35, 41, 97). Follows 15_hierarchy.md
(the management chain); 04_command_set.md (register access). -/
def Obligations.ChainRequestsAndAnswersComplete : Prop :=
  -- STATUS_REQ (R424)
  (∀ (s : State) (p : ChainPort) (f : ChainFrame), FrameTaken s p f 0x10 → f.dest = s.chain.addr → allowed s 0x021 tgtDEVICE false = true → exec (.statusReq p f) s = .next (chainUp s 0x11 f.ftag (statusPayload s))) ∧
  -- STATUS_RSP (R418)
  (∀ (s : State) (p : ChainPort) (f : ChainFrame), FrameTaken s p f 0x11 → exec (.statusRsp p f) s = .next (repeatFrame s p f)) ∧
  -- REG_RSP (R418)
  (∀ (s : State) (p : ChainPort) (f : ChainFrame), FrameTaken s p f 0x22 → exec (.regRsp p f) s = .next (repeatFrame s p f)) ∧
  -- MB_RSP (R418)
  (∀ (s : State) (p : ChainPort) (f : ChainFrame), FrameTaken s p f 0x31 → exec (.mbRsp p f) s = .next (repeatFrame s p f)) ∧
  -- EVENT (R418)
  (∀ (s : State) (p : ChainPort) (f : ChainFrame), FrameTaken s p f 0x40 → exec (.event p f) s = .next (repeatFrame s p f)) ∧
  -- RESET (R424)
  (∀ (s : State) (p : ChainPort) (f : ChainFrame), FrameTaken s p f 0x12 → f.dest = s.chain.addr → f.dest ≠ 255 → allowed s 0x021 tgtDEVICE true = true → exec (.reset p f) s = .next (chainUp { s with chain := { s.chain with resetKind := some (byteAt f.payload 0) } } 0x11 f.ftag (statusPayload s))) ∧
  -- CHAIN_RESET_ACTION (R424)
  (∀ (s : State), s.chain.resetKind = some 0 → s.boot.power = .run → s.pins.coreLost = false → s.boot.warmRst = false → exec .chainResetAction s = .next (beginWarm (flushAll { s with chain := { s.chain with resetKind := none } }))) ∧
  -- CHAIN_RESET_ACTION (R424)
  (∀ (s : State), s.chain.resetKind = some 1 → chainRuns s = true → exec .chainResetAction s = .next (beginCold { s with chain := { s.chain with resetKind := none } })) ∧
  -- CHAIN_RESET_ACTION (R424)
  (∀ (s : State) (k : Nat), s.chain.resetKind = some (k + 2) → molzuRuns s = true → exec .chainResetAction s = .next (molzuRestart (cutHead { s with chain := { s.chain with resetKind := none } }) 2 s.boot.slot)) ∧
  -- REG_READ (R424)
  (∀ (s : State) (p : ChainPort) (f : ChainFrame), FrameTaken s p f 0x20 → f.dest = s.chain.addr → exec (.regRead p f) s = .next (regRsp (boardRead s 0x021 (leAt f.payload 0 4)).2.2 f.ftag (boardRead s 0x021 (leAt f.payload 0 4)).1 (boardRead s 0x021 (leAt f.payload 0 4)).2.1)) ∧
  -- REG_WRITE (R424)
  (∀ (s : State) (p : ChainPort) (f : ChainFrame), FrameTaken s p f 0x21 → f.dest = s.chain.addr → exec (.regWrite p f) s = .next (regRsp { (boardWrite s 0x021 (leAt f.payload 0 4) (leAt f.payload 4 4)).2 with free := (boardWrite s 0x021 (leAt f.payload 0 4) (leAt f.payload 4 4)).2.free + 1 } f.ftag (Config.regRspValue (boardWrite s 0x021 (leAt f.payload 0 4) (leAt f.payload 4 4)).2.free).toNat (boardWrite s 0x021 (leAt f.payload 0 4) (leAt f.payload 4 4)).1)) ∧
  -- MB_CMD (R428)
  (∀ (s : State) (p : ChainPort) (f : ChainFrame), FrameTaken s p f 0x30 → f.dest = s.chain.addr → exec (.mbCmd p f) s = .next (if fld (leAt f.payload 0 4) 31 1 = 1 then relayCmd s f else chainMailbox s f)) ∧
  -- CHAIN_BAD_FRAME (R417)
  (∀ (s : State) (p : ChainPort) (f : ChainFrame), chainServes s f.type = true → chainLocked s p = true → chainFrameOk p f = false → exec (.chainBadFrame p f) s = .next (count s .device 0 .chainBadFrame)) ∧
  -- CHAIN_CRC_FAIL (R418)
  (∀ (s : State) (p : ChainPort) (f : ChainFrame), chainServes s f.type = true → chainLocked s p = true → f.type = 0x02 → exec (.chainCrcFail p f) s = .next (count s .device 0 .chainCrcErr)) ∧
  -- CHAIN_CRC_FAIL (R418)
  (∀ (s : State) (p : ChainPort) (f : ChainFrame), chainServes s f.type = true → chainLocked s p = true → f.dest = 255 → f.type ≠ 0x01 → f.type ≠ 0x02 → s.chain.addr ≠ 255 → exec (.chainCrcFail p f) s = .next (repeatFrame (count s .device 0 .chainCrcErr) p f)) ∧
  -- CHAIN_CRC_FAIL (R418)
  (∀ (s : State) (p : ChainPort) (f : ChainFrame), chainServes s f.type = true → chainLocked s p = true → chainForMe s f = false → exec (.chainCrcFail p f) s = .next (repeatFrame s p f))

/-- The management agent and the group manager act on packets and timers as their rules say. A packet that has come to its end at the
agent is taken: a command joins Molzu's queue or is answered, an answer ends what waits for it, events are recorded, announcements heard;
the timers of losses, elections, walks, relays and isolation act. Where the manual leaves a condition or value open the model's choice is
meant (log 26, 35, 36, 108). Follows 15_hierarchy.md (groups, elections, in-band commands). -/
def Obligations.GroupManagementCommandsComplete : Prop :=
  -- MGMT_CMD_RX (R427)
  (∀ (s : State) (u : State) (src : ArrSrc) (h : FabHdr) (mh : MgmtHdr) (body : List Byte), agentTaken s 0x10 = some (u, src, h, mh, body) → exec .mgmtCmdRx s = .next (takeCommand u src h mh body)) ∧
  -- MGMT_RESP_RX (R428)
  (∀ (s : State) (u : State) (src : ArrSrc) (h : FabHdr) (mh : MgmtHdr) (body : List Byte) (x : Nat × SentFor), molzuUp s = true → agentTaken s 0x11 = some (u, src, h, mh, body) → u.grp.sent.find? (fun x => x.1 == mh.mtag) = some x → exec .mgmtRespRx s = .next (onAnswer { u with grp := { u.grp with sent := u.grp.sent.filter (fun y => y.1 != mh.mtag) } } x.2 body)) ∧
  -- MGMT_EVENT_RX (R431)
  (∀ (s : State) (u : State) (src : ArrSrc) (h : FabHdr) (mh : MgmtHdr) (body : List Byte), molzuUp s = true → agentTaken s 0x12 = some (u, src, h, mh, body) → exec .mgmtEventRx s = .next (if u.grp.manager then remoteRecords u h.src 32 body else u)) ∧
  -- MGMT_DIST_RX (R429)
  (∀ (s : State) (u : State) (src : ArrSrc) (h : FabHdr) (mh : MgmtHdr) (body : List Byte), agentTaken s 0x13 = some (u, src, h, mh, body) → exec .mgmtDistRx s = .next (onAnnounce u src body)) ∧
  -- ANNOUNCE_SEND (R429)
  (∀ (s : State), molzuUp s = true → (s.grp.manager || s.grp.candidate) = true → s.routes.fea.isSome = true → exec .announceSend s = .next (distOut { s with grp := { s.grp with annSeq := s.grp.annSeq + 1 } } (localPorts { s with grp := { s.grp with annSeq := s.grp.annSeq + 1 } }) (announceBody (routerFea s 15) (s.grp.manager && s.grp.configured) (!s.grp.manager) (s.grp.annSeq + 1) 1))) ∧
  -- MGR_LOSS_TMO_EXPIRE (R430)
  (∀ (s : State) (u : State), s.grp.manager = false → (followed (forget s)).isSome = false → s.grp.lostRec = false → u = recordEv { (forget s) with grp := { (forget s).grp with lostRec := true } } .groupMgrLost svcDie ((followed s).getD 0).toNat → exec .mgrLossTmoExpire s = .next ({ u with grp := { u.grp with candidate := u.grp.candidate || (s.boot.straps.mgrEligible && s.routes.fea.isSome) } })) ∧
  -- ELECT_TMO_EXPIRE (R429)
  (∀ (s : State), s.grp.candidate = true → (forget s).grp.heard.any (fun h => decide (h.fea.toNat < (routerFea s 15).toNat)) = false → exec .electTmoExpire s = .next (recordEv (noteWait { (forget s) with grp := { (forget s).grp with manager := true, configured := false, candidate := false, lostRec := false } }) .groupMgrElected svcDie (routerFea s 15).toNat)) ∧
  -- GROUP_WALK (R434)
  (∀ (s : State), molzuUp s = true → s.grp.manager = true → s.grp.yielded = false → s.routes.fea.isSome = true → walking s = false → exec .groupWalk s = .next (walkNext { s with grp := { s.grp with sent := s.grp.sent.filter (fun x => match x.2 with | .walkIdent _ => false | _ => true), walk := (walkStart s).map (fun p => [p]), blank := [] } })) ∧
  -- RELAY_TMO_EXPIRE (R428)
  (∀ (s : State) (m ftag tag : Nat), s.grp.sent.find? (fun x => x.1 == m) = some (m, .relay ftag tag) → exec (.relayTmoExpire m) s = .next (count (mbRspOut { s with grp := { s.grp with sent := s.grp.sent.filter (fun y => y.1 != m) } } ftag tag 0x0800) .device 0 .relayTimeout)) ∧
  -- ISOLATE_TMO_EXPIRE (R435)
  (∀ (s : State), s.grp.isolated = false → s.boot.power = .run → (portsOf s).any (fun p => runsLink s p && (s.port p).link == .active) = false → exec .isolateTmoExpire s = .next (recordEv { s with grp := { s.grp with isolated := true } } .isolated svcDie))

/-- The BMC interface's transactions and the JTAG instructions complete. A BMC write or read reaches the BMC instance and is answered; I3C
addressing and the alert response act; the TAP takes each instruction, IDCODE reads the identification register, and REG_ACCESS accesses
the JTAG instance. Where the manual leaves a condition or value open the model's choice is meant (log 38, 41, 108). Follows
19_pins_package.md (the BMC interface, JTAG). -/
def Obligations.BoardInterfaceCommandsComplete : Prop :=
  -- BMC_REG_WRITE (R512)
  (∀ (s : State) (off : Nat) (v : Word32) (ok : Bool), recorderRuns s = true → (s.pins.i3c.isNone && !ok) = false → exec (.bmcRegWrite off v ok) s = .next ((boardWrite s 0x022 off v.toNat).2)) ∧
  -- BMC_REG_READ (R512)
  (∀ (s : State) (off : Nat), recorderRuns s = true → exec (.bmcRegRead off) s = .next (emit (emit (boardRead s 0x022 off).2.2 (.readData 0x022 (boardRead s 0x022 off).1)) (.readStatus 0x022 (boardStatus (boardRead s 0x022 off).2.1)))) ∧
  -- I3C_ADDRESS_ASSIGN (R511)
  (∀ (s : State) (a : Nat), recorderRuns s = true → ∃ t, exec (.i3cAddressAssign a) s = .next t ∧ t.pins = { s.pins with i3c := some (a % 128) }) ∧
  -- I3C_RSTDAA (R511)
  (∀ (s : State), ∃ t, exec .i3cRstdaa s = .next t ∧ t.pins = { s.pins with i3c := none }) ∧
  -- SMBUS_ALERT_RESPONSE (R511)
  (∀ (s : State), recorderRuns s = true → s.pins.i3c = none → alertAsserted s = true → exec .smbusAlertResponse s = .next (emit s (.smbusAra (smbAddress s)))) ∧
  -- TRST_N_ASSERT (R507)
  (∀ (s : State), ∃ t, exec .trstNAssert s = .next t ∧ t.pins = { s.pins with trst := true, ir := 0x01 }) ∧
  -- IDCODE (R513)
  (∀ (s : State), s.boot.power ≠ .off → ∃ t, exec .idcode s = .next t ∧ t.pins = { s.pins with trst := false, ir := 0x01 } ∧ t.out = s.out ++ [.jtagDr (BitVec.ofNat 64 (idcodeOf s.ident))]) ∧
  -- SAMPLE_PRELOAD (R513)
  (∀ (s : State), s.boot.power ≠ .off → ∃ t, exec .samplePreload s = .next t ∧ t.pins = { s.pins with trst := false, ir := 0x02 }) ∧
  -- EXTEST (R513)
  (∀ (s : State), s.boot.power ≠ .off → ∃ t, exec .extest s = .next t ∧ t.pins = { s.pins with trst := false, ir := 0x03 }) ∧
  -- EXTEST_PULSE (R513)
  (∀ (s : State), s.boot.power ≠ .off → ∃ t, exec .extestPulse s = .next t ∧ t.pins = { s.pins with trst := false, ir := 0x04 }) ∧
  -- EXTEST_TRAIN (R513)
  (∀ (s : State), s.boot.power ≠ .off → ∃ t, exec .extestTrain s = .next t ∧ t.pins = { s.pins with trst := false, ir := 0x05 }) ∧
  -- CLAMP (R513)
  (∀ (s : State), s.boot.power ≠ .off → ∃ t, exec .clamp s = .next t ∧ t.pins = { s.pins with trst := false, ir := 0x06 }) ∧
  -- HIGHZ (R513)
  (∀ (s : State), s.boot.power ≠ .off → ∃ t, exec .highz s = .next t ∧ t.pins = { s.pins with trst := false, ir := 0x07 }) ∧
  -- BYPASS (R513)
  (∀ (s : State), s.boot.power ≠ .off → ∃ t, exec .bypass s = .next t ∧ t.pins = { s.pins with trst := false, ir := 0xFF }) ∧
  -- REG_ACCESS (R513)
  (∀ (s : State) (dr : BitVec 59), jtagRuns s = true → dr.getLsbD 56 = false → exec (.regAccess dr) s = .next (emit { (boardRead (tapSelect s 0x20) 0x020 (fld dr.toNat 0 24)).2.2 with pins := { (boardRead (tapSelect s 0x20) 0x020 (fld dr.toNat 0 24)).2.2.pins with dr := accessDr (fld dr.toNat 0 24) (boardRead (tapSelect s 0x20) 0x020 (fld dr.toNat 0 24)).1 false (boardRead (tapSelect s 0x20) 0x020 (fld dr.toNat 0 24)).2.1 } } (.jtagDr ((accessDr (fld dr.toNat 0 24) (boardRead (tapSelect s 0x20) 0x020 (fld dr.toNat 0 24)).1 false (boardRead (tapSelect s 0x20) 0x020 (fld dr.toNat 0 24)).2.1).zeroExtend 64)))) ∧
  -- REG_ACCESS (R513)
  (∀ (s : State) (dr : BitVec 59), jtagRuns s = true → dr.getLsbD 56 = true → exec (.regAccess dr) s = .next (emit { (boardWrite (tapSelect s 0x20) 0x020 (fld dr.toNat 0 24) (fld dr.toNat 24 32)).2 with pins := { (boardWrite (tapSelect s 0x20) 0x020 (fld dr.toNat 0 24) (fld dr.toNat 24 32)).2.pins with dr := accessDr (fld dr.toNat 0 24) (fld dr.toNat 24 32) true (boardWrite (tapSelect s 0x20) 0x020 (fld dr.toNat 0 24) (fld dr.toNat 24 32)).1 } } (.jtagDr ((accessDr (fld dr.toNat 0 24) (fld dr.toNat 24 32) true (boardWrite (tapSelect s 0x20) 0x020 (fld dr.toNat 0 24) (fld dr.toNat 24 32)).1).zeroExtend 64))))

/-- A step runs the command at the front of the queue on the state with the rest waiting. For every command c, queue rest and state s, one
step of s with c at the front of its queue is exec of c on s with the rest waiting. The queue is the model's own field (log 1). Follows
04_command_set.md (the commands and their order of execution). -/
def Obligations.StepRunsTheFrontCommand : Prop :=
  (∀ (c : Instr) (rest : List Instr) (s : State), step { s with pending := c :: rest } = exec c { s with pending := rest })

/-- With no command waiting, a step lets one nanosecond pass (the model's choice, log 3). With nothing waiting a step lets a nanosecond of
the model's elapsed time pass (log 3, the model's choice): ports send what they owe and engines go on, but the settings, the routes, the
snapshot unit, the chain, the mailbox queue, lanes and octets stay. Where no port is configured, no page-in waits and no endpoint object
exists, only the clocks, the time unit and the output trace change; and there, while the time unit runs with no rate correction and no
slew, FT goes up by one and its fraction stays. Follows 05_fabric_time.md (the fabric time counter); 07_link_layer.md (the last LTB and
the LANE_MAP exchange); 09_scheduling.md (shapers). -/
def Obligations.IdleStepLetsOneNanosecondPass : Prop :=
  (∀ (s : State), s.pending = [] → ∃ t, step s = .next t ∧ t.pending = [] ∧ SameSettings { s with clk := { s.clk with now := s.clk.now + 1 } } t ∧ t.routes = s.routes ∧ t.snap = s.snap ∧ t.chain = s.chain ∧ t.cmds = s.cmds ∧ t.lanes = s.lanes ∧ t.octets = s.octets) ∧
  (∀ (s : State), s.pending = [] → portsOf s = [] → s.ep = {} → (∀ (q : Nat), (s.quad q).pageInWait = []) → ∃ t, step s = .next t ∧ t = { s with clk := t.clk, tu := t.tu, out := t.out }) ∧
  (∀ (s : State), s.pending = [] → portsOf s = [] → s.ep = {} → (∀ (q : Nat), (s.quad q).pageInWait = []) → timeRuns s = true → s.tu.rate = 0 → s.clk.sub = 0 → s.tu.st ≠ .source → ∃ t, step s = .next t ∧ t.clk.ft = s.clk.ft + 1 ∧ t.clk.frac = s.clk.frac) ∧
  (∀ (s : State) (p : Nat), (s.port p).mapOpen = true → (s.port p).mapAt + roundNs s p ≤ s.clk.now → repeatMap s p = sendLaneMap (updPort s p (fun x => { x with mapAt := s.clk.now })) p (s.port p).mapSeq (s.port p).rxMap false)

/-- After reset the registers hold the values the manual states. In the reset state PORST_N holds the device, the STATUS bits are 0 and
MASK is 0x1FF, mailboxes are IDLE, select registers are 0, FT and every counter are 0, entry 0 of each partition table is 0xFFFF and the
others are empty, 124 MRAM spares are left, the first record takes number 1, the TAP selects IDCODE and nothing waits. Follows
03_control_model.md (STATUS, MAILBOX, CHSEL and TIME blocks); 17_service_life.md (counters, MRAM spares, record numbers); 08_routing.md
(partition tables); 19_pins_package.md (the TAP). -/
def Obligations.ResetLeavesTheStatedValues : Prop :=
  ((State.reset.boot.power = .held ∧ State.reset.boot.fwReady = false ∧ State.reset.boot.fwRestarting = false ∧ State.reset.boot.safe = false)) ∧
  (∀ (m : Nat), (State.reset.inst m).cause = 0 ∧ (State.reset.inst m).mask = 0x1FF ∧ (State.reset.inst m).mbState = 0 ∧ (State.reset.inst m).lastTag = 0) ∧
  (∀ (m : Nat), (State.reset.master m).portSel = 0 ∧ (State.reset.master m).laneSel = 0 ∧ (State.reset.master m).octSel = 0 ∧ (State.reset.master m).hostSel = 0 ∧ (State.reset.master m).shpSel = 0 ∧ (State.reset.master m).cntSel = 0) ∧
  ((State.reset.clk.ft = 0 ∧ State.reset.clk.frac = 0 ∧ State.reset.mram.spares = 124 ∧ State.reset.recd.next = 1 ∧ State.reset.pins.ir = 1 ∧ State.reset.pending = [])) ∧
  (∀ (k : Nat), State.reset.ctrs.get k = { live := 0, frozen := 0 }) ∧
  (∀ (p i : Nat), (State.reset.port p).pkeys.get i = (if i = 0 then 0xFFFF else 0) ∧ (State.reset.fn p).pkeys.get i = (if i = 0 then 0xFFFF else 0))

/-- The reset state meets the invariant. The invariant of the block holds in the reset state: the flags of the firmware and the reset
lines agree, nothing waits, the serial number has twelve characters, and LIFE and the running record agree on RATING_VOID. The serial
number's characters are the model's choice (log 5). Follows 16_startup.md (reset lines and FW_READY). -/
def Obligations.InvariantHoldsAtReset : Prop :=
  (Inv State.reset)

/-- Every step keeps the agreement of reset lines, firmware flags, waiting commands and the life record. For every state that meets the
invariant, a step that answers a next state gives one that meets it: FW_READY is set only in RUN with Molzu up and no restart or
WARM_RST_N, SAFE only in power state SAFE, Molzu runs only from an image, PORST_N asserted means HELD or OFF, every waiting command is
well formed, and RATING_VOID stands in LIFE exactly where it stands in the running record. Follows 16_startup.md (starts, SAFE mode and
the Molzu restart); 18_power_clocks.md (power states); 17_service_life.md (the life record). -/
def Obligations.EveryStepKeepsTheInvariant : Prop :=
  (∀ (s t : State), Inv s → step s = .next t → Inv t)

/-- No step lowers the anti-rollback counter, brings back a spare sector, clears RATING_VOID or changes the fused identity. From every
state that meets the invariant, a step that answers a next state leaves the anti-rollback counter at least as high, the MRAM spares at
most as many, RATING_VOID set where it was set, and the fused identity as it was. Follows 16_startup.md (the anti-rollback counter);
17_service_life.md (MRAM spares, RATING_VOID); 00_scope.md (identity). -/
def Obligations.WornAndVoidedStaysSo : Prop :=
  (∀ (s t : State), Inv s → step s = .next t → s.boot.antiRollback ≤ t.boot.antiRollback ∧ t.mram.spares ≤ s.mram.spares ∧ (s.life.void = true → t.life.void = true) ∧ t.ident = s.ident)

/-- No command changes the fused identity, what waits behind it, or the elapsed time. Where a command answers a next state, the fused
identity, the waiting commands and the model's elapsed time are as before; so a step takes exactly the front command from the queue. The
queue and the elapsed time are the model's own fields (logs 1 and 3). Follows 00_scope.md (identity); 04_command_set.md (commands). -/
def Obligations.CommandsTouchNeitherQueueNorElapsedTime : Prop :=
  (∀ (c : Instr) (s t : State), exec c s = .next t → t.ident = s.ident ∧ t.pending = s.pending ∧ t.clk.now = s.clk.now) ∧
  (∀ (s t : State), step s = .next t → t.pending = s.pending.tail)

/-- Only the listed commands change configuration, firmware state, access tables, service records or pins. Every command outside the
listed ones leaves the firmware's state, the stored and running configuration, the select registers, the access tables, the life and MRAM
records, the thermal levels, the pins and the telemetry as they were. Follows 01_architecture.md (the data path without firmware);
03_control_model.md (access tables); 17_service_life.md (the life record and MRAM). -/
def Obligations.OnlySettingCommandsChangeSettings : Prop :=
  (∀ (c : Instr) (s t : State), settingCmd c = false → exec c s = .next t → SameSettings s t)

/-- No endpoint engine changes a lane, fabric time, the routes, the chain or the mailbox queue; only those that take a packet touch a
port. The commands of transport, matching, collectives, polling, admin queues and paging leave lanes, octets, the time unit, the routes,
the snapshot unit, the chain and the mailbox queue as they were, and all that the setting commands change. They leave the ports as they
were too, but for those that take a packet from an internal port, whose buffer space then returns to the port it arrived by. Follows
01_architecture.md (endpoint engines and switch core); 11_remote_access.md (transport); 14_context_memory.md (paging and coherence). -/
def Obligations.EndpointEnginesLeaveTheFabricSide : Prop :=
  (∀ (c : Instr) (s t : State), hostSideCmd c = true → exec c s = .next t → SameSettings s t ∧ t.lanes = s.lanes ∧ t.octets = s.octets ∧ t.tu = s.tu ∧ t.routes = s.routes ∧ t.snap = s.snap ∧ t.chain = s.chain ∧ t.cmds = s.cmds ∧ (hostTakeCmd c = false → t.ports = s.ports))

/-- Nothing that happens on a link changes the settings or the chain, and only what it lists touches the routes, the mailbox queue or a
host endpoint. The commands of lanes, transfer blocks, time messages and egress scheduling leave the routes, the snapshot unit, the chain
and the mailbox queue as they were, and all that the setting commands change. They leave the host endpoints as they were too, but for
those that may end a packet that is still being forwarded to one. The commands by which an adoption comes due leave the settings, the
octets and the chain as they were. Follows 06_lanes.md (lanes); 07_link_layer.md (link layer); 05_fabric_time.md (time messages);
09_scheduling.md (egress). -/
def Obligations.LinksLeaveHostsAndControl : Prop :=
  (∀ (c : Instr) (s t : State), linkSideCmd c = true → exec c s = .next t → SameSettings s t ∧ t.routes = s.routes ∧ t.snap = s.snap ∧ t.chain = s.chain ∧ t.cmds = s.cmds ∧ (linkCutCmd c = false → t.eps = s.eps)) ∧
  (∀ (c : Instr) (s t : State), linkAdoptCmd c = true → exec c s = .next t → SameSettings s t ∧ t.octets = s.octets ∧ t.chain = s.chain)

/-- A command completes where every number it names is in range and what it names exists; otherwise it faults by name. For every command
and state: where the command is well formed and the endpoint, function or master it names exists, exec answers a next state; where not, it
answers the fault noSuchResource (log 2, the model's choice). No command is ever refused. Follows 00_scope.md (names and encodings of
resources); 02_modes.md (endpoint numbering); 03_control_model.md (master IDs). -/
def Obligations.CommandsCompleteUnlessTheyNameNothing : Prop :=
  (∀ (c : Instr) (s : State), c.wf = true → present s c = true → ∃ t, exec c s = .next t) ∧
  (∀ (c : Instr) (s : State), (c.wf && present s c) = false → exec c s = .fault .noSuchResource) ∧
  (∀ (c : Instr) (s : State) (r : Refusal), exec c s ≠ .refused r)

/-- Waiting commands are taken first in, first out, and none is skipped. After any number of steps that does not exceed the commands
waiting, if none of them stopped, exactly that many are gone from the front and no model time has passed (the queue is the model's own
field, log 1). Follows 04_command_set.md (commands). -/
def Obligations.WaitingCommandsGoInOrder : Prop :=
  (∀ (k : Nat) (s t : State), k ≤ s.pending.length → runSteps k s = some t → t.pending = s.pending.drop k ∧ t.clk.now = s.clk.now)

/-- Steps of a start, board and chain commands change only the parts named. Frames of the steps of a start, a trip, the flash lines, the
TAP and BMC interface, and the chain's frames and locks (47 commands): where the command answers a next state, every field of the state
other than those named in its clause is as before. Counters and the output trace are named where the command counts or sends. Follows
16_startup.md (start-up steps); 19_pins_package.md (board interfaces); 15_hierarchy.md (the chain). -/
def Obligations.FramesOfStartsBoardAndChain : Prop :=
  -- ROOT_PLL_LOCK (R446)
  (∀ (s t : State), exec .rootPllLock s = .next t → t = { s with boot := t.boot, ctrs := t.ctrs, quads := t.quads, chain := t.chain, out := t.out }) ∧
  -- BOOT_ROM_CONFIG_READ (R446)
  (∀ (s t : State) (newerCopyOk : Bool), exec (.bootRomConfigRead newerCopyOk) s = .next t → t = { s with boot := t.boot, cfg := t.cfg, hostMode := t.hostMode, quads := t.quads, access := t.access }) ∧
  -- SERVICE_DIE_SELF_TEST (R446)
  (∀ (s t : State), exec .serviceDieSelfTest s = .next t → t = { s with boot := t.boot }) ∧
  -- QUADRANT_POWER_UP (R446)
  (∀ (s t : State) (q : Nat), exec (.quadrantPowerUp q) s = .next t → t = { s with boot := t.boot, quads := t.quads }) ∧
  -- QUADRANT_ARRAY_SELF_TEST (R446)
  (∀ (s t : State), exec .quadrantArraySelfTest s = .next t → t = { s with boot := t.boot }) ∧
  -- HBM_TRAINING (R446)
  (∀ (s t : State), exec .hbmTraining s = .next t → t = { s with boot := t.boot, ctrs := t.ctrs, quads := t.quads, fns := t.fns, insts := t.insts, grp := t.grp, recd := t.recd, out := t.out }) ∧
  -- MOLZU_START (R446)
  (∀ (s t : State) (vkeepLost : Bool), exec (.molzuStart vkeepLost) s = .next t → t = { s with clk := t.clk, boot := t.boot, ctrs := t.ctrs, quads := t.quads, fns := t.fns, insts := t.insts, grp := t.grp, recd := t.recd, life := t.life, lifePart := t.lifePart, pstepC := t.pstepC, pstepS := t.pstepS, out := t.out, free := t.free }) ∧
  -- HBM_CLEARING (R446)
  (∀ (s t : State), exec .hbmClearing s = .next t → t = { s with boot := t.boot }) ∧
  -- LANE_CALIBRATION (R171)
  (∀ (s t : State), exec .laneCalibration s = .next t → t = { s with boot := t.boot, lanes := t.lanes, octets := t.octets, ctrs := t.ctrs, quads := t.quads, fns := t.fns, insts := t.insts, grp := t.grp, recd := t.recd, out := t.out }) ∧
  -- QUADRANT_INITIALISATION (R446)
  (∀ (s t : State), exec .quadrantInitialisation s = .next t → t = { s with boot := t.boot, cfg := t.cfg, profile := t.profile, lanes := t.lanes, octets := t.octets, ports := t.ports, tu := t.tu, routes := t.routes, ctrs := t.ctrs, quads := t.quads, fns := t.fns, insts := t.insts, access := t.access, grp := t.grp, recd := t.recd, out := t.out }) ∧
  -- FW_READY_SET (R446)
  (∀ (s t : State), exec .fwReadySet s = .next t → t = { s with boot := t.boot, lanes := t.lanes, ports := t.ports, routes := t.routes, ctrs := t.ctrs, quads := t.quads, eps := t.eps, fns := t.fns, insts := t.insts, cmds := t.cmds, chain := t.chain, grp := t.grp, recd := t.recd, out := t.out }) ∧
  -- WARM_RST_N_ASSERT (R444)
  (∀ (s t : State), exec .warmRstNAssert s = .next t → t = { s with boot := t.boot, ctrs := t.ctrs, quads := t.quads, fns := t.fns, insts := t.insts, grp := t.grp, recd := t.recd, out := t.out }) ∧
  -- WATCHDOG_EXPIRE (R459)
  (∀ (s t : State), exec .watchdogExpire s = .next t → t = { s with boot := t.boot, routes := t.routes, ctrs := t.ctrs, quads := t.quads, fns := t.fns, insts := t.insts, cmds := t.cmds, grp := t.grp, recd := t.recd, out := t.out, free := t.free }) ∧
  -- ANTI_ROLLBACK_RAISE (R454)
  (∀ (s t : State), exec .antiRollbackRaise s = .next t → t = { s with boot := t.boot }) ∧
  -- CONFIG_REQUEST (R447)
  (∀ (s t : State) (r : CfgRequest), exec (.configRequest r) s = .next t → t = { s with fns := t.fns, out := t.out }) ∧
  -- FLASH_REQ_ASSERT (R458)
  (∀ (s t : State), exec .flashReqAssert s = .next t → t = { s with boot := t.boot }) ∧
  -- FLASH_GNT_ASSERT (R458)
  (∀ (s t : State), exec .flashGntAssert s = .next t → t = { s with boot := t.boot, out := t.out }) ∧
  -- FLASH_REQ_DEASSERT (R458)
  (∀ (s t : State), exec .flashReqDeassert s = .next t → t = { s with boot := t.boot, out := t.out }) ∧
  -- FW_UPDATE_IDLE_TIMEOUT (R456)
  (∀ (s t : State), exec .fwUpdateIdleTimeout s = .next t → t = { s with boot := t.boot }) ∧
  -- CHAIN_PORT_LOCK (R415)
  (∀ (s t : State) (port : ChainPort), exec (.chainPortLock port) s = .next t → t = { s with ctrs := t.ctrs, chain := t.chain, out := t.out }) ∧
  -- ENUM_ACK (R419)
  (∀ (s t : State) (port : ChainPort) (f : ChainFrame), exec (.enumAck port f) s = .next t → t = { s with ctrs := t.ctrs, chain := t.chain }) ∧
  -- HEARTBEAT (R422)
  (∀ (s t : State) (port : ChainPort) (f : ChainFrame), exec (.heartbeat port f) s = .next t → t = { s with ctrs := t.ctrs, chain := t.chain, out := t.out }) ∧
  -- HEARTBEAT_SEND (R419)
  (∀ (s t : State), exec .heartbeatSend s = .next t → t = { s with chain := t.chain, out := t.out }) ∧
  -- JOIN_REQ (R420)
  (∀ (s t : State) (port : ChainPort) (f : ChainFrame), exec (.joinReq port f) s = .next t → t = { s with ctrs := t.ctrs, chain := t.chain, out := t.out }) ∧
  -- JOIN_REQ_SEND (R420)
  (∀ (s t : State), exec .joinReqSend s = .next t → t = { s with chain := t.chain, out := t.out }) ∧
  -- STATUS_RSP (R418)
  (∀ (s t : State) (port : ChainPort) (f : ChainFrame), exec (.statusRsp port f) s = .next t → t = { s with ctrs := t.ctrs, out := t.out }) ∧
  -- REG_RSP (R418)
  (∀ (s t : State) (port : ChainPort) (f : ChainFrame), exec (.regRsp port f) s = .next t → t = { s with ctrs := t.ctrs, out := t.out }) ∧
  -- MB_RSP (R418)
  (∀ (s t : State) (port : ChainPort) (f : ChainFrame), exec (.mbRsp port f) s = .next t → t = { s with ctrs := t.ctrs, out := t.out }) ∧
  -- EVENT (R418)
  (∀ (s t : State) (port : ChainPort) (f : ChainFrame), exec (.event port f) s = .next t → t = { s with ctrs := t.ctrs, out := t.out }) ∧
  -- CHAIN_BAD_FRAME (R417)
  (∀ (s t : State) (port : ChainPort) (f : ChainFrame), exec (.chainBadFrame port f) s = .next t → t = { s with ctrs := t.ctrs }) ∧
  -- CHAIN_CRC_FAIL (R418)
  (∀ (s t : State) (port : ChainPort) (f : ChainFrame), exec (.chainCrcFail port f) s = .next t → t = { s with ctrs := t.ctrs, out := t.out }) ∧
  -- LIFE_HOURLY_WRITE (R481)
  (∀ (s t : State), exec .lifeHourlyWrite s = .next t → t = { s with ctrs := t.ctrs, quads := t.quads, fns := t.fns, insts := t.insts, grp := t.grp, recd := t.recd, lifePart := t.lifePart, out := t.out }) ∧
  -- THERMAL_TRIP (R501)
  (∀ (s t : State) (die : Nat), exec (.thermalTrip die) s = .next t → t = { s with boot := t.boot, lanes := t.lanes, ports := t.ports, ctrs := t.ctrs, quads := t.quads, eps := t.eps, fns := t.fns, insts := t.insts, ep := t.ep, grp := t.grp, recd := t.recd, lifePart := t.lifePart, pins := t.pins, out := t.out }) ∧
  -- I3C_ADDRESS_ASSIGN (R511)
  (∀ (s t : State) (addr : Nat), exec (.i3cAddressAssign addr) s = .next t → t = { s with pins := t.pins, out := t.out }) ∧
  -- I3C_RSTDAA (R511)
  (∀ (s t : State), exec .i3cRstdaa s = .next t → t = { s with pins := t.pins }) ∧
  -- SMBUS_ALERT_RESPONSE (R511)
  (∀ (s t : State), exec .smbusAlertResponse s = .next t → t = { s with out := t.out }) ∧
  -- TRST_N_ASSERT (R507)
  (∀ (s t : State), exec .trstNAssert s = .next t → t = { s with pins := t.pins }) ∧
  -- IDCODE (R513)
  (∀ (s t : State), exec .idcode s = .next t → t = { s with pins := t.pins, out := t.out }) ∧
  -- SAMPLE_PRELOAD (R513)
  (∀ (s t : State), exec .samplePreload s = .next t → t = { s with pins := t.pins }) ∧
  -- EXTEST (R513)
  (∀ (s t : State), exec .extest s = .next t → t = { s with pins := t.pins }) ∧
  -- EXTEST_PULSE (R513)
  (∀ (s t : State), exec .extestPulse s = .next t → t = { s with pins := t.pins }) ∧
  -- EXTEST_TRAIN (R513)
  (∀ (s t : State), exec .extestTrain s = .next t → t = { s with pins := t.pins }) ∧
  -- CLAMP (R513)
  (∀ (s t : State), exec .clamp s = .next t → t = { s with pins := t.pins }) ∧
  -- HIGHZ (R513)
  (∀ (s t : State), exec .highz s = .next t → t = { s with pins := t.pins }) ∧
  -- BYPASS (R513)
  (∀ (s t : State), exec .bypass s = .next t → t = { s with pins := t.pins }) ∧
  -- PERST_N_DEASSERT (R447)
  (∀ (s t : State) (h : Nat), exec (.perstNDeassert h) s = .next t → t = { s with pins := t.pins }) ∧
  -- SPDM_REQUEST (R457)
  (∀ (s t : State) (ep : Nat) (code : Nat), exec (.spdmRequest ep code) s = .next t → t = { s with out := t.out })

/-- Commands of lanes, ports, time and power steps change only the parts named. Frames of lanes, ports, time messages, PPS and power-step
lines (34 commands): where the command answers a next state, every field of the state other than those named in its clause is as before.
Counters and the output trace are named where the command counts or sends. Follows 06_lanes.md (lanes); 07_link_layer.md (link layer);
18_power_clocks.md (power steps). -/
def Obligations.FramesOfLanesPortsAndPowerSteps : Prop :=
  -- QUAD_UNGATE_TRAINED (R74)
  (∀ (s t : State) (q : Nat), exec (.quadUngateTrained q) s = .next t → t = { s with lanes := t.lanes, octets := t.octets, ctrs := t.ctrs, quads := t.quads, pstepC := t.pstepC, pstepS := t.pstepS, out := t.out }) ∧
  -- EQX_EXCHANGE_START (R147)
  (∀ (s t : State) (p : Nat), exec (.eqxExchangeStart p) s = .next t → t = { s with ports := t.ports, ctrs := t.ctrs, out := t.out, free := t.free }) ∧
  -- TIME_REQ_RX (R146)
  (∀ (s t : State) (p : Nat) (m : TimeLtb), exec (.timeReqRx p m) s = .next t → t = { s with lanes := t.lanes, ports := t.ports, tu := t.tu, ctrs := t.ctrs, quads := t.quads, eps := t.eps, fns := t.fns, insts := t.insts, ep := t.ep, grp := t.grp, recd := t.recd, out := t.out, free := t.free }) ∧
  -- EQX_INTERVAL_END (R155)
  (∀ (s t : State) (p : Nat), exec (.eqxIntervalEnd p) s = .next t → t = { s with ports := t.ports, tu := t.tu, ctrs := t.ctrs }) ∧
  -- PPS_IN_EDGE (R153)
  (∀ (s t : State), exec .ppsInEdge s = .next t → t = { s with clk := t.clk, ports := t.ports, tu := t.tu, routes := t.routes, snap := t.snap, ctrs := t.ctrs, quads := t.quads, fns := t.fns, insts := t.insts, cmds := t.cmds, grp := t.grp, recd := t.recd, out := t.out, free := t.free }) ∧
  -- OCTET_PLL_RELOCK (R163)
  (∀ (s t : State) (o : Nat), exec (.octetPllRelock o) s = .next t → t = { s with lanes := t.lanes, octets := t.octets, ports := t.ports, ctrs := t.ctrs, quads := t.quads, fns := t.fns, insts := t.insts, grp := t.grp, recd := t.recd, out := t.out }) ∧
  -- CODEWORD_RX (R168)
  (∀ (s t : State) (l : Nat) (corrected : Option Nat), exec (.codewordRx l corrected) s = .next t → t = { s with lanes := t.lanes, ctrs := t.ctrs }) ∧
  -- RETRY_WAIT_EXPIRE (R170)
  (∀ (s t : State) (l : Nat), exec (.retryWaitExpire l) s = .next t → t = { s with lanes := t.lanes, ports := t.ports, ctrs := t.ctrs, quads := t.quads, fns := t.fns, insts := t.insts, grp := t.grp, recd := t.recd, out := t.out }) ∧
  -- IDLE_ENTER_EXPIRE (R174)
  (∀ (s t : State) (p : Nat), exec (.idleEnterExpire p) s = .next t → t = { s with ports := t.ports, out := t.out }) ∧
  -- IDLE_SEQUENCE_SENT (R174)
  (∀ (s t : State) (p : Nat), exec (.idleSequenceSent p) s = .next t → t = { s with lanes := t.lanes, ports := t.ports, ctrs := t.ctrs, out := t.out }) ∧
  -- PARTNER_IDLE_RX (R169)
  (∀ (s t : State) (l : Nat), exec (.partnerIdleRx l) s = .next t → t = { s with lanes := t.lanes }) ∧
  -- EIDLE_REFRESH_EXPIRE (R175)
  (∀ (s t : State) (p : Nat), exec (.eidleRefreshExpire p) s = .next t → t = { s with ports := t.ports }) ∧
  -- EXIT_BURST_DONE (R169)
  (∀ (s t : State) (l : Nat), exec (.exitBurstDone l) s = .next t → t = { s with lanes := t.lanes, ports := t.ports, ctrs := t.ctrs, out := t.out, free := t.free }) ∧
  -- START_OF_STREAM_RX (R175)
  (∀ (s t : State) (l : Nat), exec (.startOfStreamRx l) s = .next t → t = { s with lanes := t.lanes }) ∧
  -- ADAPTATION_PASS (R173)
  (∀ (s t : State) (l : Nat) (rxEq snr eye ber : Word32), exec (.adaptationPass l rxEq snr eye ber) s = .next t → t = { s with lanes := t.lanes }) ∧
  -- CALIB_COEFF_WRITE (R172)
  (∀ (s t : State) (l : Nat), exec (.calibCoeffWrite l) s = .next t → t = { s with lanes := t.lanes, ctrs := t.ctrs, quads := t.quads, fns := t.fns, insts := t.insts, grp := t.grp, recd := t.recd, out := t.out }) ∧
  -- PRBS_CHECKER_LOCK (R179)
  (∀ (s t : State) (l : Nat), exec (.prbsCheckerLock l) s = .next t → t = { s with lanes := t.lanes }) ∧
  -- PRBS_CHECKER_LOSS (R179)
  (∀ (s t : State) (l bits errs : Nat), exec (.prbsCheckerLoss l bits errs) s = .next t → t = { s with lanes := t.lanes }) ∧
  -- ERR_INJECT_FIRE (R180)
  (∀ (s t : State) (l : Nat), exec (.errInjectFire l) s = .next t → t = { s with lanes := t.lanes, out := t.out }) ∧
  -- LANE_DROP_END (R180)
  (∀ (s t : State) (l : Nat), exec (.laneDropEnd l) s = .next t → t = { s with lanes := t.lanes, out := t.out }) ∧
  -- LTB_BAD_RX (R187)
  (∀ (s t : State) (p : Nat) (badType : Bool), exec (.ltbBadRx p badType) s = .next t → t = { s with ports := t.ports, ctrs := t.ctrs, out := t.out }) ∧
  -- HELD_INTERVAL_EXPIRE (R201)
  (∀ (s t : State) (p vc : Nat), exec (.heldIntervalExpire p vc) s = .next t → t = { s with ports := t.ports, ctrs := t.ctrs, out := t.out }) ∧
  -- SHARED_GRANT_ADJUST (R199)
  (∀ (s t : State) (p : Nat), exec (.sharedGrantAdjust p) s = .next t → t = { s with ports := t.ports, ctrs := t.ctrs, quads := t.quads, out := t.out }) ∧
  -- DRAIN_COMPLETE (R207)
  (∀ (s t : State) (p : Nat), exec (.drainComplete p) s = .next t → t = { s with ports := t.ports, ctrs := t.ctrs, out := t.out }) ∧
  -- LOAD_HINT_SEND (R236)
  (∀ (s t : State) (p : Nat), exec (.loadHintSend p) s = .next t → t = { s with ports := t.ports, ctrs := t.ctrs, out := t.out }) ∧
  -- PACKET_DEPARTED (R201)
  (∀ (s t : State) (p : Nat), exec (.packetDeparted p) s = .next t → t = { s with ports := t.ports, ctrs := t.ctrs, quads := t.quads, out := t.out }) ∧
  -- GATE_WAKE_LEAD (R261)
  (∀ (s t : State) (p : Nat), exec (.gateWakeLead p) s = .next t → t = { s with ports := t.ports, out := t.out }) ∧
  -- HOLDOVER_MAX_EXPIRE (R264)
  (∀ (s t : State) (p : Nat), exec (.holdoverMaxExpire p) s = .next t → t = { s with ports := t.ports, ctrs := t.ctrs, quads := t.quads, fns := t.fns, insts := t.insts, grp := t.grp, recd := t.recd, out := t.out }) ∧
  -- PSTEP_ACK_RISE (R497)
  (∀ (s t : State) (g : Nat), exec (.pstepAckRise g) s = .next t → t = { s with ctrs := t.ctrs, pstepC := t.pstepC, pstepS := t.pstepS }) ∧
  -- NOTICE_LEAD_EXPIRE (R497)
  (∀ (s t : State) (g : Nat), exec (.noticeLeadExpire g) s = .next t → t = { s with ctrs := t.ctrs, pstepC := t.pstepC, pstepS := t.pstepS }) ∧
  -- PSTEP_STEP_DONE (R497)
  (∀ (s t : State) (g : Nat), exec (.pstepStepDone g) s = .next t → t = { s with ctrs := t.ctrs, pstepC := t.pstepC, pstepS := t.pstepS, out := t.out }) ∧
  -- PPS_OUT_EDGE (R153)
  (∀ (s t : State), exec .ppsOutEdge s = .next t → t = { s with tu := t.tu, out := t.out }) ∧
  -- SIGNAL_DETECT (R175)
  (∀ (s t : State) (l : Nat), exec (.signalDetect l) s = .next t → t = { s with lanes := t.lanes }) ∧
  -- PSTEP_ACK_FALL (R497)
  (∀ (s t : State) (g : Nat), exec (.pstepAckFall g) s = .next t → t = { s with pstepC := t.pstepC, pstepS := t.pstepS })

/-- Host-link, queue, paging and coherence commands change only the parts named. Frames of host-link and function resets, queue polling
and creation, paging, the directory and the scrubs (35 commands): where the command answers a next state, every field of the state other
than those named in its clause is as before. Counters and the output trace are named where the command counts or sends. Follows
10_work_queues.md (queues); 14_context_memory.md (paging, coherence and scrubs). -/
def Obligations.FramesOfHostsQueuesAndCoherence : Prop :=
  -- PERST_N_ASSERT (R443)
  (∀ (s t : State) (h : Nat), exec (.perstNAssert h) s = .next t → t = { s with ports := t.ports, ctrs := t.ctrs, quads := t.quads, eps := t.eps, fns := t.fns, insts := t.insts, masters := t.masters, cmds := t.cmds, ep := t.ep, grp := t.grp, recd := t.recd, pstepC := t.pstepC, pstepS := t.pstepS, pins := t.pins, out := t.out, free := t.free }) ∧
  -- HOST_LINK_DOWN (R460)
  (∀ (s t : State) (ep : Nat), exec (.hostLinkDown ep) s = .next t → t = { s with ports := t.ports, ctrs := t.ctrs, quads := t.quads, eps := t.eps, fns := t.fns, insts := t.insts, cmds := t.cmds, ep := t.ep, grp := t.grp, recd := t.recd, pstepC := t.pstepC, pstepS := t.pstepS, out := t.out, free := t.free }) ∧
  -- HOST_LINK_UP (R447)
  (∀ (s t : State) (ep speed width : Nat), exec (.hostLinkUp ep speed width) s = .next t → t = { s with ctrs := t.ctrs, quads := t.quads, eps := t.eps, fns := t.fns, insts := t.insts, masters := t.masters, cmds := t.cmds, ep := t.ep, grp := t.grp, recd := t.recd, pstepC := t.pstepC, pstepS := t.pstepS, out := t.out, free := t.free }) ∧
  -- BUS_MASTER_ENABLE_CLEAR (R460)
  (∀ (s t : State) (fn : Nat), exec (.busMasterEnableClear fn) s = .next t → t = { s with ctrs := t.ctrs, quads := t.quads, eps := t.eps, fns := t.fns, insts := t.insts, ep := t.ep, grp := t.grp, recd := t.recd, pstepC := t.pstepC, pstepS := t.pstepS, out := t.out, free := t.free }) ∧
  -- FLR (R461)
  (∀ (s t : State) (fn : Nat), exec (.flr fn) s = .next t → t = { s with ctrs := t.ctrs, quads := t.quads, eps := t.eps, fns := t.fns, insts := t.insts, masters := t.masters, cmds := t.cmds, ep := t.ep, grp := t.grp, recd := t.recd, pstepC := t.pstepC, pstepS := t.pstepS, out := t.out, free := t.free }) ∧
  -- LATE_COMPLETION (R461)
  (∀ (s t : State) (fn : Nat), exec (.lateCompletion fn) s = .next t → t = { s with ctrs := t.ctrs, eps := t.eps }) ∧
  -- QUAD_PORTS_DRAINED (R73)
  (∀ (s t : State) (q : Nat), exec (.quadPortsDrained q) s = .next t → t = { s with quads := t.quads }) ∧
  -- AQ_CREATE_QP (R135)
  (∀ (s t : State) (fn : Nat) (db : List Byte), exec (.aqCreateQp fn db) s = .next t → t = { s with ctrs := t.ctrs, quads := t.quads, eps := t.eps, fns := t.fns, insts := t.insts, ep := t.ep, grp := t.grp, recd := t.recd, out := t.out, free := t.free }) ∧
  -- AQ_CREATE_SRQ (R135)
  (∀ (s t : State) (fn : Nat) (db : List Byte), exec (.aqCreateSrq fn db) s = .next t → t = { s with quads := t.quads, fns := t.fns, ep := t.ep, out := t.out }) ∧
  -- AQ_CREATE_CQ (R68)
  (∀ (s t : State) (fn : Nat) (head : List Byte), exec (.aqCreateCq fn head) s = .next t → t = { s with quads := t.quads, fns := t.fns, ep := t.ep, out := t.out }) ∧
  -- AQ_DESTROY_CQ (R138)
  (∀ (s t : State) (fn : Nat), exec (.aqDestroyCq fn) s = .next t → t = { s with quads := t.quads, fns := t.fns, ep := t.ep, out := t.out }) ∧
  -- AQ_CREATE_EQ (R135)
  (∀ (s t : State) (fn : Nat), exec (.aqCreateEq fn) s = .next t → t = { s with quads := t.quads, fns := t.fns, ep := t.ep, out := t.out }) ∧
  -- AQ_DESTROY_EQ (R138)
  (∀ (s t : State) (fn : Nat), exec (.aqDestroyEq fn) s = .next t → t = { s with quads := t.quads, fns := t.fns, ep := t.ep, out := t.out }) ∧
  -- AQ_CREATE_PD (R135)
  (∀ (s t : State) (fn : Nat), exec (.aqCreatePd fn) s = .next t → t = { s with quads := t.quads, fns := t.fns, ep := t.ep, out := t.out }) ∧
  -- AQ_DESTROY_PD (R138)
  (∀ (s t : State) (fn : Nat), exec (.aqDestroyPd fn) s = .next t → t = { s with quads := t.quads, fns := t.fns, ep := t.ep, out := t.out }) ∧
  -- DOORBELL_POLL (R280)
  (∀ (s t : State) (q : Nat), exec (.doorbellPoll q) s = .next t → t = { s with ctrs := t.ctrs, quads := t.quads, eps := t.eps, fns := t.fns, insts := t.insts, ep := t.ep, grp := t.grp, recd := t.recd, out := t.out }) ∧
  -- EMPTY_POLL_LIMIT (R280)
  (∀ (s t : State) (q : Nat), exec (.emptyPollLimit q) s = .next t → t = { s with ep := t.ep }) ∧
  -- HEAD_RECORD_WRITE (R286)
  (∀ (s t : State) (q : Nat), exec (.headRecordWrite q) s = .next t → t = { s with ctrs := t.ctrs, quads := t.quads, eps := t.eps, fns := t.fns, insts := t.insts, ep := t.ep, grp := t.grp, recd := t.recd, out := t.out }) ∧
  -- CQ_HEAD_REREAD (R288)
  (∀ (s t : State) (cq : Nat), exec (.cqHeadReread cq) s = .next t → t = { s with ctrs := t.ctrs, quads := t.quads, eps := t.eps, fns := t.fns, insts := t.insts, ep := t.ep, grp := t.grp, recd := t.recd, out := t.out }) ∧
  -- NUMBER_QUARANTINE_END (R389)
  (∀ (s t : State) (space num : Nat), exec (.numberQuarantineEnd space num) s = .next t → t = { s with ep := t.ep }) ∧
  -- IDLE_WRITEBACK (R399)
  (∀ (s t : State) (quad : Nat) (line : LineId), exec (.idleWriteback quad line) s = .next t → t = { s with ctrs := t.ctrs, ep := t.ep }) ∧
  -- GET_S (R404)
  (∀ (s t : State) (req : CacheId) (line : LineId), exec (.getS req line) s = .next t → t = { s with ctrs := t.ctrs, quads := t.quads, ep := t.ep, out := t.out }) ∧
  -- GET_M (R404)
  (∀ (s t : State) (req : CacheId) (line : LineId), exec (.getM req line) s = .next t → t = { s with ctrs := t.ctrs, quads := t.quads, ep := t.ep, out := t.out }) ∧
  -- UPGRADE (R404)
  (∀ (s t : State) (req : CacheId) (line : LineId), exec (.upgrade req line) s = .next t → t = { s with ctrs := t.ctrs, quads := t.quads, ep := t.ep, out := t.out }) ∧
  -- PUT (R404)
  (∀ (s t : State) (req : CacheId) (line : LineId), exec (.put req line) s = .next t → t = { s with ctrs := t.ctrs, quads := t.quads, ep := t.ep, out := t.out }) ∧
  -- PUT_CLEAN (R404)
  (∀ (s t : State) (req : CacheId) (line : LineId), exec (.putClean req line) s = .next t → t = { s with ctrs := t.ctrs, quads := t.quads, ep := t.ep, out := t.out }) ∧
  -- FWD_S (R404)
  (∀ (s t : State) (owner req : CacheId) (line : LineId), exec (.fwdS owner req line) s = .next t → t = { s with quads := t.quads, ep := t.ep, out := t.out }) ∧
  -- FWD_M (R404)
  (∀ (s t : State) (owner req : CacheId) (line : LineId), exec (.fwdM owner req line) s = .next t → t = { s with quads := t.quads, ep := t.ep, out := t.out }) ∧
  -- INV (R404)
  (∀ (s t : State) (sharer req : CacheId) (line : LineId), exec (.inv sharer req line) s = .next t → t = { s with quads := t.quads, ep := t.ep, out := t.out }) ∧
  -- COH_ACK (R404)
  (∀ (s t : State) (req : CacheId) (line : LineId), exec (.cohAck req line) s = .next t → t = { s with ctrs := t.ctrs, quads := t.quads, ep := t.ep, out := t.out }) ∧
  -- PUT_ACK (R400)
  (∀ (s t : State) (req : CacheId) (line : LineId), exec (.putAck req line) s = .next t → t = { s with ctrs := t.ctrs, quads := t.quads, ep := t.ep, out := t.out }) ∧
  -- GRANT (R404)
  (∀ (s t : State) (req : CacheId) (line : LineId) (acks : Nat), exec (.grant req line acks) s = .next t → t = { s with ctrs := t.ctrs, quads := t.quads, ep := t.ep, out := t.out }) ∧
  -- HOST_SNOOP (R406)
  (∀ (s t : State) (quad : Nat) (line : LineId) (invalidate : Bool), exec (.hostSnoop quad line invalidate) s = .next t → t = { s with ctrs := t.ctrs, quads := t.quads, fns := t.fns, ep := t.ep, out := t.out }) ∧
  -- PATROL_PASS_START (R41)
  (∀ (s t : State) (stack : Nat), exec (.patrolPassStart stack) s = .next t → t = { s with quads := t.quads }) ∧
  -- BUS_MASTER_ENABLE_SET (R398)
  (∀ (s t : State) (fn : Nat), exec (.busMasterEnableSet fn) s = .next t → t = { s with quads := t.quads, eps := t.eps, fns := t.fns, ep := t.ep, out := t.out })

/-- Register, timer and management commands change only the parts named. Frames of function registers, admin queue registers, staging
timers, counters, snapshots and management packets (22 commands): where the command answers a next state, every field of the state other
than those named in its clause is as before. Counters and the output trace are named where the command counts or sends. Follows
03_control_model.md (registers); 04_command_set.md (staging and admin queues); 15_hierarchy.md (management). -/
def Obligations.FramesOfRegistersTimersAndManagement : Prop :=
  -- FLR_COMPLETE (R461)
  (∀ (s t : State) (fn : Nat), exec (.flrComplete fn) s = .next t → t = { s with ctrs := t.ctrs, fns := t.fns }) ∧
  -- STATUS_CAUSE_WRITE (R90)
  (∀ (s t : State) (m : Nat) (val : Word32), exec (.statusCauseWrite m val) s = .next t → t = { s with fns := t.fns, insts := t.insts, out := t.out }) ∧
  -- STATUS_MASK_WRITE (R90)
  (∀ (s t : State) (m : Nat) (val : Word32), exec (.statusMaskWrite m val) s = .next t → t = { s with fns := t.fns, insts := t.insts, out := t.out }) ∧
  -- MSIX_UNMASK (R91)
  (∀ (s t : State) (fn : Nat) (vec : Option Nat), exec (.msixUnmask fn vec) s = .next t → t = { s with fns := t.fns, out := t.out }) ∧
  -- AQ_SQ_TAIL_WRITE (R105)
  (∀ (s t : State) (fn : Nat) (val : Word32), exec (.aqSqTailWrite fn val) s = .next t → t = { s with fns := t.fns }) ∧
  -- AQ_CQ_HEAD_WRITE (R105)
  (∀ (s t : State) (fn : Nat) (val : Word32), exec (.aqCqHeadWrite fn val) s = .next t → t = { s with fns := t.fns }) ∧
  -- AQ_ENABLE_SET (R106)
  (∀ (s t : State) (fn : Nat) (irqEn : Bool), exec (.aqEnableSet fn irqEn) s = .next t → t = { s with fns := t.fns }) ∧
  -- AQ_ENABLE_CLEAR (R106)
  (∀ (s t : State) (fn : Nat) (irqEn : Bool), exec (.aqEnableClear fn irqEn) s = .next t → t = { s with fns := t.fns, out := t.out }) ∧
  -- AQ_COMMAND_FETCH (R105)
  (∀ (s t : State) (fn : Nat) (r : AqFetch), exec (.aqCommandFetch fn r) s = .next t → t = { s with fns := t.fns, insts := t.insts, out := t.out }) ∧
  -- STAGING_IDLE_TIMEOUT (R132)
  (∀ (s t : State) (importBuf : Bool), exec (.stagingIdleTimeout importBuf) s = .next t → t = { s with cmds := t.cmds }) ∧
  -- NONCE_EXPIRE (R130)
  (∀ (s t : State), exec .nonceExpire s = .next t → t = { s with cmds := t.cmds }) ∧
  -- AQ_INVALIDATE (R320)
  (∀ (s t : State) (fn : Nat), exec (.aqInvalidate fn) s = .next t → t = { s with ctrs := t.ctrs, fns := t.fns, out := t.out }) ∧
  -- AQ_SET_QUOTA (R139)
  (∀ (s t : State) (fn : Nat), exec (.aqSetQuota fn) s = .next t → t = { s with fns := t.fns, out := t.out }) ∧
  -- AQ_QUERY_QUOTA (R134)
  (∀ (s t : State) (fn : Nat), exec (.aqQueryQuota fn) s = .next t → t = { s with fns := t.fns, out := t.out }) ∧
  -- ROUTE_BANK_ADOPT (R125)
  (∀ (s t : State), exec .routeBankAdopt s = .next t → t = { s with routes := t.routes, cmds := t.cmds }) ∧
  -- SNAPSHOT_TAKE (R477)
  (∀ (s t : State), exec .snapshotTake s = .next t → t = { s with ports := t.ports, routes := t.routes, snap := t.snap, ctrs := t.ctrs, quads := t.quads, fns := t.fns, insts := t.insts, cmds := t.cmds, grp := t.grp, recd := t.recd, out := t.out }) ∧
  -- COUNTER_FOLD_DONE (R477)
  (∀ (s t : State), exec .counterFoldDone s = .next t → t = { s with snap := t.snap, ctrs := t.ctrs }) ∧
  -- INTERRUPT_HOLDOFF_END (R289)
  (∀ (s t : State) (fn vec : Nat), exec (.interruptHoldoffEnd fn vec) s = .next t → t = { s with fns := t.fns, out := t.out }) ∧
  -- ATS_INVALIDATE_REQUEST (R320)
  (∀ (s t : State) (fn : Nat) (start len : Nat), exec (.atsInvalidateRequest fn start len) s = .next t → t = { s with ctrs := t.ctrs, fns := t.fns }) ∧
  -- MGMT_CMD_RX (R427)
  (∀ (s t : State), exec .mgmtCmdRx s = .next t → t = { s with ports := t.ports, ctrs := t.ctrs, quads := t.quads, cmds := t.cmds, grp := t.grp, out := t.out }) ∧
  -- ANNOUNCE_SEND (R429)
  (∀ (s t : State), exec .announceSend s = .next t → t = { s with ctrs := t.ctrs, grp := t.grp }) ∧
  -- MGR_LOSS_TMO_EXPIRE (R430)
  (∀ (s t : State), exec .mgrLossTmoExpire s = .next t → t = { s with ctrs := t.ctrs, quads := t.quads, fns := t.fns, insts := t.insts, grp := t.grp, recd := t.recd, out := t.out })

/-- The lowest-numbered valid matching entry decides an access; no match denies; a lacking right refuses a command whole. A right is
granted exactly where some entry is valid, matches under its mask, carries the right, and no lower-numbered entry is valid and matches. A
command of several targets needs the right on each, and with one lacking it completes with ACCESS_DENIED whatever it would have done.
Follows R114. -/
def Obligations.AccessTablesDecideByTheLowestMatch : Prop :=
  (∀ (es : List AccEntry) (m : Nat) (w : Bool), granted es m w = true ↔ ∃ (i : Nat) (e : AccEntry), es[i]? = some e ∧ e.valid = true ∧ m &&& e.mask = e.id &&& e.mask ∧ (if w then e.write else e.read) = true ∧ ∀ (j : Nat) (d : AccEntry), j < i → es[j]? = some d → d.valid = true → m &&& d.mask ≠ d.id &&& d.mask) ∧
  (∀ (s : State) (m : Nat) (rights : List (Nat × Bool)), lacking s m rights = [] ↔ ∀ r ∈ rights, granted (s.access.get r.1) m r.2 = true) ∧
  (∀ (s : State) (c : MbCmd) (rights : List (Nat × Bool)) (k : State → MbAns), s.boot.safe = false → c.payload.length = c.len → c.len ≤ 4088 → c.flags ≤ 1 → lacking s c.m rights ≠ [] → (mbChecked s c true rights k).1 = stACCESS_DENIED ∧ ∀ k' : State → MbAns, mbChecked s c true rights k' = mbChecked s c true rights k) ∧
  (∀ (s : State) (c : MbCmd) (rights : List (Nat × Bool)) (k : State → MbAns), s.boot.safe = false → c.payload.length = c.len → c.len ≤ 4088 → c.flags ≤ 1 → lacking s c.m rights = [] → mbChecked s c true rights k = k s)

/-- A packet key is let in exactly where it is valid and some entry of the table matches it. A key matches an entry where their low 15
bits are equal and at least one has its top bit set; a table of n entries lets a key in exactly where its low 15 bits are not all zero and
some non-empty entry among the n matches. Follows 08_routing.md (partition keys and tables). -/
def Obligations.PartitionKeysMatchByMembership : Prop :=
  (∀ (p k : BitVec 16), keyMatch p k = true ↔ p.extractLsb' 0 15 = k.extractLsb' 0 15 ∧ (p.getLsbD 15 = true ∨ k.getLsbD 15 = true)) ∧
  (∀ (t : Tbl (BitVec 16)) (n : Nat) (p : BitVec 16), keyInTable t n p = true ↔ p.extractLsb' 0 15 ≠ 0 ∧ ∃ (i : Nat), i < n ∧ t.get i ≠ 0 ∧ keyMatch p (t.get i) = true)

/-- Counting adds to one counter modulo 2^64 and changes nothing else. Counting n at a counter adds n to its active bank modulo 2^64,
leaves its frozen bank, every other counter and every other part of the state as they were; a maximum-type counter becomes the larger of
its value and n. Follows 17_service_life.md (statistics counters). -/
def Obligations.CountersWrapAndCountAlone : Prop :=
  (∀ (s : State) (sc : Scope) (i n : Nat) (c : Cn), ((count s sc i c n).ctrs.get (ctrKey sc i (placeOf c sc.counters))).live.toNat = ((s.ctrs.get (ctrKey sc i (placeOf c sc.counters))).live.toNat + n) % 2 ^ 64 ∧ ((count s sc i c n).ctrs.get (ctrKey sc i (placeOf c sc.counters))).frozen = (s.ctrs.get (ctrKey sc i (placeOf c sc.counters))).frozen) ∧
  (∀ (s : State) (sc : Scope) (i n k : Nat) (c : Cn), k ≠ ctrKey sc i (placeOf c sc.counters) → (count s sc i c n).ctrs.get k = s.ctrs.get k ∧ (countMax s sc i c n).ctrs.get k = s.ctrs.get k) ∧
  (∀ (s : State) (sc : Scope) (i n : Nat) (c : Cn), count s sc i c n = { s with ctrs := (count s sc i c n).ctrs } ∧ countMax s sc i c n = { s with ctrs := (countMax s sc i c n).ctrs }) ∧
  (∀ (s : State) (sc : Scope) (i n : Nat) (c : Cn), n < 2 ^ 64 → ((countMax s sc i c n).ctrs.get (ctrKey sc i (placeOf c sc.counters))).live.toNat = max (s.ctrs.get (ctrKey sc i (placeOf c sc.counters))).live.toNat n)

/-- A snapshot freezes every counter at its value, and folding adds each frozen value back. Where the counter table is canonical and every
unlisted counter is zero: changing the banks gives every counter a frozen value equal to its live one and a live value of zero; the end of
folding adds each frozen value to its active bank, a maximum-type counter apart, and keeps the frozen values; so the two together restore
every count. Follows 17_service_life.md (counter banks, snapshots and folding). -/
def Obligations.SnapshotsFreezeAndFoldingRestores : Prop :=
  (∀ (s : State) (k : Nat), s.ctrs.wf = true → s.ctrs.dflt = {} → (flipBanks s).ctrs.get k = { live := 0, frozen := (s.ctrs.get k).live }) ∧
  -- COUNTER_FOLD_DONE (R477)
  (∀ (s : State) (k : Nat), s.ctrs.wf = true → s.ctrs.dflt = {} → s.snap.folded = false → ∃ t, exec .counterFoldDone s = .next t ∧ t.snap.folded = true ∧ t.ctrs.get k = (if isMaxKey k then s.ctrs.get k else { live := (s.ctrs.get k).live + (s.ctrs.get k).frozen, frozen := (s.ctrs.get k).frozen })) ∧
  -- COUNTER_FOLD_DONE (R477)
  (∀ (s : State) (k : Nat), s.ctrs.wf = true → s.ctrs.dflt = {} → isMaxKey k = false → ∃ t, exec .counterFoldDone (flipBanks s) = .next t ∧ (t.ctrs.get k).live = (s.ctrs.get k).live) ∧
  (∀ (s : State) (sc : Scope) (i n : Nat) (c : Cn), s.ctrs.wf = true → (count s sc i c n).ctrs.wf = true)

/-- A record entering the service-die buffer takes the next number, and numbers run on without a gap. A record that enters the service-die
buffer takes the next record number, and the number after it is one more, modulo 2^32; the buffer holds at most 2,048 records, the oldest
going first; a record of a quadrant waits in that quadrant's buffer and takes no number yet. Follows 17_service_life.md (record numbers
and buffers). -/
def Obligations.RecordNumbersRunOn : Prop :=
  (∀ (s : State) (r : EvRec), (enterService s r).recd.next = s.recd.next + 1 ∧ (enterService s r).recd.buf.getLast? = some { r with seq := s.recd.next }) ∧
  (∀ (s : State) (r : EvRec), s.recd.buf.length ≤ 2048 → (enterService s r).recd.buf.length ≤ 2048 ∧ (s.recd.buf.length = 2048 → (enterService s r).recd.buf = s.recd.buf.drop 1 ++ [{ r with seq := s.recd.next }])) ∧
  (∀ (s : State) (e : Ev) (p0 p1 p2 p3 : Nat) (b : Bool), (recordEv s e svcDie p0 p1 p2 p3 b).recd.next = s.recd.next + 1) ∧
  (∀ (s : State) (e : Ev) (q p0 p1 p2 p3 : Nat) (b : Bool), q < 4 → (recordEv s e q p0 p1 p2 p3 b).recd.next = s.recd.next)

/-- Shapers gain RATE up to BURST and let a packet go on enough tokens; policers mark by their two buckets. A shaper's tokens never exceed
BURST, grow with time, and a packet may start exactly where RATE is 0 or the tokens cover it; what starts is deducted, saturating at
-16,777,216 B. A policer's new DP and buckets are those of the manual's procedure, with DP 11 taken as red, the colour-blind case and the
disabled one, and its buckets stay within their caps. Follows 09_scheduling.md (port shapers and policers). -/
def Obligations.ShapersAndPolicersFollowTheirRules : Prop :=
  (∀ (h : Shaper) (now : Nat), h.tokensAt now ≤ ((h.burst * 8000 : Nat) : Int) ∧ h.tokensAt now ≤ h.tokensAt (now + 1) ∧ (h.tokensAt (now + 1) ≤ h.tokensAt now + h.rate)) ∧
  (∀ (h : Shaper) (now len : Nat), h.allows now len = true ↔ h.rate = 0 ∨ ((len * 8000 : Nat) : Int) ≤ h.tokensAt now) ∧
  (∀ (h : Shaper) (now len : Nat), h.rate ≠ 0 → (h.take now len).tokensAt now = min ((h.burst * 8000 : Nat) : Int) (max (-134217728000) (h.tokensAt now - ((len * 8000 : Nat) : Int))) ∧ -134217728000 ≤ (h.take now len).tok) ∧
  (∀ (c : Policer) (now b dp : Nat), c.enable = true → dp < 4 → ((c.mark now b dp).1 = (if c.aware = true ∧ 2 ≤ dp then 2 else if c.tpAt now < b * 8000 then 2 else if (c.aware = true ∧ dp = 1) ∨ c.tcAt now < b * 8000 then 1 else 0)) ∧ (c.mark now b dp).2.tpAt now = (if (c.mark now b dp).1 = 2 then c.tpAt now else c.tpAt now - b * 8000) ∧ (c.mark now b dp).2.tcAt now = (if (c.mark now b dp).1 = 0 then c.tcAt now - b * 8000 else c.tcAt now)) ∧
  (∀ (c : Policer) (now b dp : Nat), c.enable = false → c.mark now b dp = (dp, c))

/-- A sequenced LTB that is not the next one is dropped: a NAK goes out where it is ahead, and nothing where it repeats. On an open link,
a DATA or CTRL LTB whose number is not the next expected has no effect of its own, whatever it carries: its acknowledgement is taken, the
highest number seen is noted, and a NAK is sent where it lies ahead of the last one taken in order. An LTB that draws from a codeword
passed on with an error mark has none either, not even its header: it is counted as one whose CRC failed, and a NAK goes out. Follows
07_link_layer.md (sequencing, acknowledgement and NAK). -/
def Obligations.LtbsOutOfOrderHaveNoEffect : Prop :=
  -- LTB_DATA_RX (R203)
  (∀ (s : State) (p : Nat) (h : LtbHdr) (fr : List Frag) (d : Nat), LinkOpen s p → Unmarked s p h → h.seq ≠ ((ltbTaken s p h).port p).ackSeq + 1 → exec (.ltbDataRx p h fr d) s = .next (if seqAhead h.seq ((ltbTaken s p h).port p).ackSeq then sendNak (noteSeq (ltbTaken s p h) p h) p else noteSeq (ltbTaken s p h) p h)) ∧
  -- LTB_CTRL_CREDIT_RX (R188)
  (∀ (s : State) (p : Nat) (h : LtbHdr) (v : BitVec 16), LinkOpen s p → Unmarked s p h → h.seq ≠ ((ltbTaken s p h).port p).ackSeq + 1 → exec (.ltbCtrlCreditRx p h v) s = .next (if seqAhead h.seq ((ltbTaken s p h).port p).ackSeq then sendNak (noteSeq (ltbTaken s p h) p h) p else noteSeq (ltbTaken s p h) p h)) ∧
  -- LTB_CTRL_LINK_DOWN_RX (R195)
  (∀ (s : State) (p : Nat) (h : LtbHdr) (v : BitVec 16), LinkOpen s p → Unmarked s p h → h.seq ≠ ((ltbTaken s p h).port p).ackSeq + 1 → exec (.ltbCtrlLinkDownRx p h v) s = .next (if seqAhead h.seq ((ltbTaken s p h).port p).ackSeq then sendNak (noteSeq (ltbTaken s p h) p h) p else noteSeq (ltbTaken s p h) p h)) ∧
  -- LTB_CTRL_RESERVED_RX (R188)
  (∀ (s : State) (p : Nat) (h : LtbHdr), LinkOpen s p → Unmarked s p h → h.seq ≠ ((ltbTaken s p h).port p).ackSeq + 1 → exec (.ltbCtrlReservedRx p h) s = .next (if seqAhead h.seq ((ltbTaken s p h).port p).ackSeq then sendNak (noteSeq (ltbTaken s p h) p h) p else noteSeq (ltbTaken s p h) p h)) ∧
  -- LTB_DATA_RX (R203)
  (∀ (s : State) (p : Nat) (h : LtbHdr) (fr : List Frag) (d : Nat), LinkOpen s p → ¬ Unmarked s p h → exec (.ltbDataRx p h fr d) s = .next (sendNak (count (count (updPort s p (fun x => { x with crcAt := some s.clk.now })) .port p .ltbRx) .port p .ltbCrcErr) p)) ∧
  -- LTB_CTRL_CREDIT_RX (R188)
  (∀ (s : State) (p : Nat) (h : LtbHdr) (v : BitVec 16), LinkOpen s p → ¬ Unmarked s p h → exec (.ltbCtrlCreditRx p h v) s = .next (sendNak (count (count (updPort s p (fun x => { x with crcAt := some s.clk.now })) .port p .ltbRx) .port p .ltbCrcErr) p)) ∧
  -- LTB_CTRL_LINK_DOWN_RX (R195)
  (∀ (s : State) (p : Nat) (h : LtbHdr) (v : BitVec 16), LinkOpen s p → ¬ Unmarked s p h → exec (.ltbCtrlLinkDownRx p h v) s = .next (sendNak (count (count (updPort s p (fun x => { x with crcAt := some s.clk.now })) .port p .ltbRx) .port p .ltbCrcErr) p)) ∧
  -- LTB_CTRL_RESERVED_RX (R188)
  (∀ (s : State) (p : Nat) (h : LtbHdr), LinkOpen s p → ¬ Unmarked s p h → exec (.ltbCtrlReservedRx p h) s = .next (sendNak (count (count (updPort s p (fun x => { x with crcAt := some s.clk.now })) .port p .ltbRx) .port p .ltbCrcErr) p))

/-- A tagged message matches a posted receive exactly under the three conditions, and only receives of its own SRQ. A message matches a
posted receive exactly where the contexts are equal, the receive names the source rank or ANY, and the tags agree outside the ignored
bits. A receive is exact where it names a rank and ignores nothing, and a wildcard receive otherwise. The receive a message is given is
one of its own SRQ's and matches it, and where one of the SRQ matches, one is given. Follows R332. -/
def Obligations.TaggedKeysMatchByTheThreeConditions : Prop :=
  (∀ (p : Posted) (m : TagMsg), matches_ p m = true ↔ p.ctx = m.ctx ∧ (p.rank = m.rank ∨ p.rank = 0xFFFFFFFF) ∧ (m.tag ^^^ p.tag) &&& ~~~ p.ignore = 0) ∧
  (∀ (p : Posted), p.wild = false ↔ p.rank ≠ 0xFFFFFFFF ∧ p.ignore = 0) ∧
  (∀ (s : State) (r : Srq) (srq : Nat) (m : TagMsg) (p : Posted), s.ep.srqs.wf = true → s.ep.srqs.dflt = none → getSrq s srq = some r → matchPosted s r srq m = some p → p ∈ r.posted ∧ matches_ p m = true) ∧
  (∀ (s : State) (r : Srq) (srq : Nat) (m : TagMsg), s.ep.srqs.wf = true → s.ep.srqs.dflt = none → getSrq s srq = some r → (matchPosted s r srq m = none ↔ ∀ p ∈ r.posted, matches_ p m = false))

/-- The bin and the wildcard list together give the earliest posted receive that matches. Where the receives of an SRQ stand in the order
of their POST_STAMPs, modulo 2^48, and of their places in the quadrant's lists, the walk of the message's hash bin, which other SRQs
share, and of the wildcard list of its context gives exactly the first matching receive of the whole SRQ: neither the hash, nor what other
SRQs have in the bin, nor the split into two lists ever changes the match, and what it gives was posted before every other receive that
matches. Follows 12_matching.md (POST_STAMP order and the order of matching). -/
def Obligations.MatchingTakesTheEarliestPostedReceive : Prop :=
  (∀ (s : State) (r : Srq) (srq : Nat) (m : TagMsg), s.ep.srqs.wf = true → s.ep.srqs.dflt = none → getSrq s srq = some r → r.posted.Pairwise (fun a b => stampBefore a.stamp b.stamp = true ∧ a.ord < b.ord) → matchPosted s r srq m = r.posted.find? (fun p => matches_ p m)) ∧
  (∀ (s : State) (r : Srq) (srq : Nat) (m : TagMsg) (p x : Posted), s.ep.srqs.wf = true → s.ep.srqs.dflt = none → getSrq s srq = some r → r.posted.Pairwise (fun a b => stampBefore a.stamp b.stamp = true ∧ a.ord < b.ord) → matchPosted s r srq m = some p → x ∈ r.posted → matches_ x m = true → x = p ∨ stampBefore p.stamp x.stamp = true) ∧
  (∀ (a b : BitVec 48), stampBefore a b = true → stampBefore b a = false)

/-- The rate correction and its integral stay within 500 ppm whatever the time unit does. For each command of the time unit: where the
rate correction and its integral part lie within 500 ppm, they do in the next state, for every value of the servo's integral term that the
manual leaves open (log 31), and in every state, reached or not. Follows 05_fabric_time.md (the servo, holdover, sources and PPS). -/
def Obligations.RateCorrectionStaysInRange : Prop :=
  -- EQX_EXCHANGE_START (R147)
  (∀ (s t : State) (p : Nat), RateOk s → exec (.eqxExchangeStart p) s = .next t → RateOk t) ∧
  -- TIME_REQ_RX (R146)
  (∀ (s t : State) (p : Nat) (m : TimeLtb), RateOk s → exec (.timeReqRx p m) s = .next t → RateOk t) ∧
  -- TIME_RESP_RX (R146)
  (∀ (s t : State) (p : Nat) (m : TimeLtb), RateOk s → exec (.timeRespRx p m) s = .next t → RateOk t) ∧
  -- TIME_REPORT_RX (R146)
  (∀ (s t : State) (p : Nat) (m : TimeLtb), RateOk s → exec (.timeReportRx p m) s = .next t → RateOk t) ∧
  -- TIME_ANNOUNCE_RX (R151)
  (∀ (s t : State) (p : Nat) (m : TimeLtb), RateOk s → exec (.timeAnnounceRx p m) s = .next t → RateOk t) ∧
  -- TIME_LOCK_GAINED (R155)
  (∀ (s t : State), RateOk s → exec .timeLockGained s = .next t → RateOk t) ∧
  -- EQX_INTERVAL_END (R155)
  (∀ (s t : State) (p : Nat), RateOk s → exec (.eqxIntervalEnd p) s = .next t → RateOk t) ∧
  -- TIME_MISS_LIMIT (R155)
  (∀ (s t : State), RateOk s → exec .timeMissLimit s = .next t → RateOk t) ∧
  -- TIME_STEP_APPLY (R150)
  (∀ (s t : State), RateOk s → exec .timeStepApply s = .next t → RateOk t) ∧
  -- PPS_IN_EDGE (R153)
  (∀ (s t : State), RateOk s → exec .ppsInEdge s = .next t → RateOk t) ∧
  -- PPS_LOSS_TIMEOUT (R153)
  (∀ (s t : State), RateOk s → exec .ppsLossTimeout s = .next t → RateOk t) ∧
  -- SOURCE_WAIT_EXPIRE (R151)
  (∀ (s t : State), RateOk s → exec .sourceWaitExpire s = .next t → RateOk t) ∧
  -- PPS_OUT_EDGE (R153)
  (∀ (s t : State), RateOk s → exec .ppsOutEdge s = .next t → RateOk t)
end

