-- ==== Sys2Proof/Laws/Admit.lean ====
section
/-! SUPPORT. What the shared operations on arriving packets, frames and LTBs do where the arrival is admitted: one lemma per operation. -/

namespace Sys2Proof.Machine

/-- An admitted request has its own effect, and its PSNs are accepted unless it is refused or waits for a translation. -/
theorem onRequest_admitted {s v : State} {ep op q : Nat} {a : Arrival} {y : Qp} (h : admitted s ep op = some (a, v, q, y))
    (n : Arrival → Nat) (f : State → Nat → Qp → Arrival → State × Nat) (g : State → Nat → Qp → Arrival → State) :
    onRequest s ep op n f g =
      if (f v q y a).2 = 0 then acceptPsn (f v q y a).1 q a (n a) else if (f v q y a).2 = 255 then (f v q y a).1 else refuse (f v q y a).1 q a (f v q y a).2 := by
  unfold admitted at h
  unfold onRequest
  cases e1 : takeRx s ep op with
  | none => simp [e1] at h
  | some r =>
    obtain ⟨a', u⟩ := r
    simp only [e1] at h ⊢
    cases e2 : arrivalChecks u ep a' with
    | inl w => simp [e2] at h
    | inr r =>
      obtain ⟨q', x⟩ := r
      simp only [e2] at h ⊢
      split at h
      · cases h
      · rename_i hst
        simp only [Bool.or_eq_true, not_or, Bool.not_eq_true] at hst
        simp only [hst.1.1, hst.1.2, hst.2, Bool.false_eq_true, if_false]
        cases e3 : useQueue u x.fn q' (engineOf op) with
        | inl w => simp [e3] at h
        | inr w =>
          simp only [e3] at h ⊢
          cases e4 : synchronise w q' x a' with
          | inl z => simp [e4] at h
          | inr v' =>
            simp only [e4] at h ⊢
            cases hg : getQp v' q' with
            | none => simp [hg] at h
            | some y' =>
              simp only [hg, Option.bind] at h
              split at h
              · rename_i hp
                cases h
                simp only [hg, hp]
              · cases h

/-- A response that passes its checks is taken. -/
theorem onResponse_answered {s v : State} {ep op q : Nat} {a : Arrival} {y : Qp} (h : answered s ep op = some (a, v, q, y))
    (f : State → Nat → Qp → Arrival → State) : onResponse s ep op f = f v q y a := by
  unfold answered at h
  unfold onResponse
  cases e1 : takeRx s ep op with
  | none => simp [e1] at h
  | some r =>
    obtain ⟨a', u⟩ := r
    simp only [e1] at h ⊢
    cases e2 : arrivalChecks u ep a' with
    | inl w => simp [e2] at h
    | inr r =>
      obtain ⟨q', x⟩ := r
      simp only [e2] at h ⊢
      split at h
      · cases h
      · rename_i hst
        simp only [Bool.or_eq_true, not_or, Bool.not_eq_true] at hst
        simp only [hst.1.1, hst.1.2, hst.2, Bool.false_eq_true, Bool.or_self, if_false]
        cases e3 : useQueue u x.fn q' (engineOf op) with
        | inl w => simp [e3] at h
        | inr w => simp only [e3] at h; cases h; rfl

/-- A tree packet of the right KIND is handed on with its edge. -/
theorem onTree_taken {s t : State} {quad kind id e : Nat} {tr : Tree} {p : Pkt} {c : CollHdr} {l : List Byte}
    (h : treeTaken s quad kind = some (t, id, tr, e, p, c, l)) (f : State → Nat → Tree → Nat → Pkt → CollHdr → List Byte → State) :
    onTree s quad kind f = f t id tr e p c l := by
  unfold treeTaken at h
  unfold onTree
  split at h
  · cases h
  · rename_i q rest e1
    dsimp only at h ⊢
    split at h
    · rename_i c' l' tr' port e2 e3 e4
      split at h
      · rename_i hk
        simp only [Bool.and_eq_true, Bool.not_eq_true', beq_iff_eq, decide_eq_true_eq] at hk
        obtain ⟨⟨⟨⟨k1, k2⟩, k3⟩, k4⟩, k5⟩ := hk
        split at h
        · rename_i e' u h1 h2
          cases h
          have h4 : ¬(kind = 0 ∨ 4 < kind) := by omega
          simp only [e1, k1, k2, e2, e3, e4, h1, h2, k3, if_neg h4, bne_self_eq_false, Bool.false_eq_true, if_false, ne_eq, not_true]
        · cases h
      · cases h
    · cases h

/-- A management packet that has come to its end is handed on. -/
theorem agentTake_taken {s t : State} {type : Nat} {src : ArrSrc} {h : FabHdr} {mh : MgmtHdr} {body : List Byte}
    (e : agentTaken s type = some (t, src, h, mh, body)) (act : State → ArrSrc → FabHdr → MgmtHdr → List Byte → State) :
    agentTake s type act = act t src h mh body := by
  unfold agentTaken at e
  unfold agentTake
  split at e
  · rename_i src' p rest e1
    try rw [e1]
    split at e
    · rename_i mh' body' e2
      split at e
      · cases e
      · rename_i hc
        simp only [Bool.or_eq_true, not_or, Bool.not_eq_true] at hc
        cases e
        simp only [e2, hc.1, hc.2, Bool.false_eq_true, if_false]
    · cases e
  · cases e

/-- A well-formed frame at a locked port has its effect. -/
theorem chainRx_taken {s : State} {p : ChainPort} {f : ChainFrame} {type : Nat} (h : FrameTaken s p f type) (act : State) :
    chainRx s p f type act = act := by
  obtain ⟨h1, h2, h3, h4⟩ := h
  simp [chainRx, h1, h2, h3, h4]

/-- An LTB that draws from no marked codeword is taken as it is. -/
theorem unmarked_clean {s : State} {p : Nat} {h : LtbHdr} (e : Unmarked s p h) (k : State → State) : unmarked s p h k = k s := by
  unfold unmarked; rw [if_neg (by rw [e]; exact Bool.false_ne_true)]

/-- The next sequenced LTB of an open link has its effect. -/
theorem seqIn_inOrder {s : State} {p : Nat} {h : LtbHdr} (e : InOrder s p h) (k : State → State) : seqIn s p h k = k (ltbInOrder s p h) := by
  obtain ⟨⟨_, hl, hm⟩, hu, hq⟩ := e
  unfold seqIn
  rw [unmarked_clean hu]
  unfold ltbIn ltbInOrder
  unfold ltbTaken at *
  rcases hl with hl | hl <;> simp only [hl, hm, Bool.false_eq_true, if_false] <;> rw [if_pos hq]

/-- An LTB on an open link is taken. -/
theorem ltbIn_open {s : State} {p : Nat} (e : LinkOpen s p) (h : LtbHdr) (k : State → State) : ltbIn s p h k = k (ltbTaken s p h) := by
  obtain ⟨_, hl, hm⟩ := e
  unfold ltbIn ltbTaken
  rcases hl with hl | hl <;> simp only [hl, hm, Bool.false_eq_true, if_false]

end Sys2Proof.Machine
end

