-- ==== Sys2Proof/Laws/Keep.lean ====
section
/-! SUPPORT. What the shared operations leave unchanged. Nine parts of the state, each operation with the strongest it keeps:
`corePart`, `hostSidePart`, `portFreePart`, `enginePart`, `linkSidePart`, `controlPart`, `settledPart`, `bootPart`, `fixedPart`; the weaker ones follow by the lemmas named after both. -/

namespace Sys2Proof.Machine

/-- What no command changes: the fused identity, the commands waiting behind it, and the model's elapsed time. -/
def fixedPart (s : State) :
    Ident × List Instr × Nat :=
  (s.ident, s.pending, s.clk.now)

@[simp] theorem fixedPart_mk (a b c d e f g h i j k l m n o p q r t u v w x y z a1 b1 c1 d1 e1 f1 g1 h1 i1 j1 k1 l1) :
    fixedPart (State.mk a b c d e f g h i j k l m n o p q r t u v w x y z a1 b1 c1 d1 e1 f1 g1 h1 i1 j1 k1 l1) = (a, l1, b.now) := rfl
@[simp] theorem fixedPart_eta (s : State) : (s.ident, s.pending, s.clk.now) = fixedPart s := rfl

@[simp] theorem fixedPart_ite (c : Prop) [Decidable c] (a b : State) :
    fixedPart (if c then a else b) = if c then fixedPart a else fixedPart b := by split <;> rfl

@[simp] theorem fixedPart_elim {α : Type} (o : Option α) (s : State) (f : α → State) (h : ∀ y, fixedPart (f y) = fixedPart s) :
    fixedPart (o.elim s f) = fixedPart s := by cases o <;> simp (maxDischargeDepth := 9) [h]
theorem fixedPart_getD (o : Option State) (s : State) (h : ∀ y, o = some y → fixedPart y = fixedPart s) :
    fixedPart (o.getD s) = fixedPart s := by
  cases o with
  | none => rfl
  | some y => exact h y rfl

theorem fixed_if (c : Prop) [Decidable c] (a b s : State) (ha : fixedPart a = fixedPart s) (hb : fixedPart b = fixedPart s) :
    fixedPart (if c then a else b) = fixedPart s := by split <;> assumption
theorem fixed_ifFst {α : Type} (c : Prop) [Decidable c] (a b : State × α) (s : State) (ha : fixedPart a.1 = fixedPart s)
    (hb : fixedPart b.1 = fixedPart s) : fixedPart (if c then a else b).1 = fixedPart s := by split <;> assumption
theorem fixed_ifAns {α β : Type} (c : Prop) [Decidable c] (a b : α × β × State) (s : State) (ha : fixedPart a.2.2 = fixedPart s)
    (hb : fixedPart b.2.2 = fixedPart s) : fixedPart (if c then a else b).2.2 = fixedPart s := by split <;> assumption

/-- A meaning leaves the fixed part as it found it. -/
def resFixed (r : Res) (s : State) : Prop := ∀ t, r = .next t → fixedPart t = fixedPart s
@[simp] theorem resFixed_next (t s : State) : resFixed (.next t) s ↔ fixedPart t = fixedPart s :=
  ⟨fun h => h t rfl, fun h u e => by cases e; exact h⟩
@[simp] theorem resFixed_fault (f : Fault) (s : State) : resFixed (.fault f) s := fun _ e => by cases e
@[simp] theorem resFixed_refused (f : Refusal) (s : State) : resFixed (.refused f) s := fun _ e => by cases e
theorem foldl_fixed {α : Type} (g : State → α → State) (h : ∀ z y, fixedPart (g z y) = fixedPart z) (l : List α) (s : State) :
    fixedPart (l.foldl g s) = fixedPart s := by
  induction l generalizing s with
  | nil => rfl
  | cons a l ih => simp only [List.foldl_cons, ih, h]

/-- `fixedPart`, with what a start, the firmware and the life record hold. -/
def bootPart (s : State) :
    Ident × List Instr × Nat × Boot × Life × Life × Mram :=
  (s.ident, s.pending, s.clk.now, s.boot, s.life, s.lifePart, s.mram)

@[simp] theorem bootPart_mk (a b c d e f g h i j k l m n o p q r t u v w x y z a1 b1 c1 d1 e1 f1 g1 h1 i1 j1 k1 l1) :
    bootPart (State.mk a b c d e f g h i j k l m n o p q r t u v w x y z a1 b1 c1 d1 e1 f1 g1 h1 i1 j1 k1 l1) = (a, l1, b.now, c, c1, d1, e1) := rfl
@[simp] theorem bootPart_eta (s : State) : (s.ident, s.pending, s.clk.now, s.boot, s.life, s.lifePart, s.mram) = bootPart s := rfl

@[simp] theorem bootPart_ite (c : Prop) [Decidable c] (a b : State) :
    bootPart (if c then a else b) = if c then bootPart a else bootPart b := by split <;> rfl

@[simp] theorem bootPart_elim {α : Type} (o : Option α) (s : State) (f : α → State) (h : ∀ y, bootPart (f y) = bootPart s) :
    bootPart (o.elim s f) = bootPart s := by cases o <;> simp (maxDischargeDepth := 9) [h]
theorem bootPart_getD (o : Option State) (s : State) (h : ∀ y, o = some y → bootPart y = bootPart s) :
    bootPart (o.getD s) = bootPart s := by
  cases o with
  | none => rfl
  | some y => exact h y rfl

theorem booted_if (c : Prop) [Decidable c] (a b s : State) (ha : bootPart a = bootPart s) (hb : bootPart b = bootPart s) :
    bootPart (if c then a else b) = bootPart s := by split <;> assumption
theorem booted_ifFst {α : Type} (c : Prop) [Decidable c] (a b : State × α) (s : State) (ha : bootPart a.1 = bootPart s)
    (hb : bootPart b.1 = bootPart s) : bootPart (if c then a else b).1 = bootPart s := by split <;> assumption
theorem booted_ifAns {α β : Type} (c : Prop) [Decidable c] (a b : α × β × State) (s : State) (ha : bootPart a.2.2 = bootPart s)
    (hb : bootPart b.2.2 = bootPart s) : bootPart (if c then a else b).2.2 = bootPart s := by split <;> assumption

/-- A meaning leaves the fixed part as it found it. -/
def resBoot (r : Res) (s : State) : Prop := ∀ t, r = .next t → bootPart t = bootPart s
@[simp] theorem resBoot_next (t s : State) : resBoot (.next t) s ↔ bootPart t = bootPart s :=
  ⟨fun h => h t rfl, fun h u e => by cases e; exact h⟩
@[simp] theorem resBoot_fault (f : Fault) (s : State) : resBoot (.fault f) s := fun _ e => by cases e
@[simp] theorem resBoot_refused (f : Refusal) (s : State) : resBoot (.refused f) s := fun _ e => by cases e
theorem foldl_booted {α : Type} (g : State → α → State) (h : ∀ z y, bootPart (g z y) = bootPart z) (l : List α) (s : State) :
    bootPart (l.foldl g s) = bootPart s := by
  induction l generalizing s with
  | nil => rfl
  | cons a l ih => simp only [List.foldl_cons, ih, h]

/-- `bootPart`, with the configuration, the select registers, the access tables, the thermal levels, the pins and the telemetry. -/
def settledPart (s : State) :
    Ident × List Instr × Nat × Boot × StoredCfg × StoredCfg × Tbl Nat × Nat × Tbl Master × Tbl (List AccEntry) × Tbl (List Int) × Tbl (BitVec 64) × Life × Life × Mram × Tbl Therm × Pins :=
  (s.ident, s.pending, s.clk.now, s.boot, s.cfg, s.cfgOld, s.hostMode, s.profile, s.masters, s.access, s.tele, s.teleFt, s.life, s.lifePart, s.mram, s.therm, s.pins)

@[simp] theorem settledPart_mk (a b c d e f g h i j k l m n o p q r t u v w x y z a1 b1 c1 d1 e1 f1 g1 h1 i1 j1 k1 l1) :
    settledPart (State.mk a b c d e f g h i j k l m n o p q r t u v w x y z a1 b1 c1 d1 e1 f1 g1 h1 i1 j1 k1 l1) = (a, l1, b.now, c, d, e, f, g, t, u, a1, b1, c1, d1, e1, h1, i1) := rfl
@[simp] theorem settledPart_eta (s : State) : (s.ident, s.pending, s.clk.now, s.boot, s.cfg, s.cfgOld, s.hostMode, s.profile, s.masters, s.access, s.tele, s.teleFt, s.life, s.lifePart, s.mram, s.therm, s.pins) = settledPart s := rfl

@[simp] theorem settledPart_ite (c : Prop) [Decidable c] (a b : State) :
    settledPart (if c then a else b) = if c then settledPart a else settledPart b := by split <;> rfl

@[simp] theorem settledPart_elim {α : Type} (o : Option α) (s : State) (f : α → State) (h : ∀ y, settledPart (f y) = settledPart s) :
    settledPart (o.elim s f) = settledPart s := by cases o <;> simp (maxDischargeDepth := 9) [h]
theorem settledPart_getD (o : Option State) (s : State) (h : ∀ y, o = some y → settledPart y = settledPart s) :
    settledPart (o.getD s) = settledPart s := by
  cases o with
  | none => rfl
  | some y => exact h y rfl

theorem settled_if (c : Prop) [Decidable c] (a b s : State) (ha : settledPart a = settledPart s) (hb : settledPart b = settledPart s) :
    settledPart (if c then a else b) = settledPart s := by split <;> assumption
theorem settled_ifFst {α : Type} (c : Prop) [Decidable c] (a b : State × α) (s : State) (ha : settledPart a.1 = settledPart s)
    (hb : settledPart b.1 = settledPart s) : settledPart (if c then a else b).1 = settledPart s := by split <;> assumption
theorem settled_ifAns {α β : Type} (c : Prop) [Decidable c] (a b : α × β × State) (s : State) (ha : settledPart a.2.2 = settledPart s)
    (hb : settledPart b.2.2 = settledPart s) : settledPart (if c then a else b).2.2 = settledPart s := by split <;> assumption

/-- A meaning leaves the fixed part as it found it. -/
def resSettled (r : Res) (s : State) : Prop := ∀ t, r = .next t → settledPart t = settledPart s
@[simp] theorem resSettled_next (t s : State) : resSettled (.next t) s ↔ settledPart t = settledPart s :=
  ⟨fun h => h t rfl, fun h u e => by cases e; exact h⟩
@[simp] theorem resSettled_fault (f : Fault) (s : State) : resSettled (.fault f) s := fun _ e => by cases e
@[simp] theorem resSettled_refused (f : Refusal) (s : State) : resSettled (.refused f) s := fun _ e => by cases e
theorem foldl_settled {α : Type} (g : State → α → State) (h : ∀ z y, settledPart (g z y) = settledPart z) (l : List α) (s : State) :
    settledPart (l.foldl g s) = settledPart s := by
  induction l generalizing s with
  | nil => rfl
  | cons a l ih => simp only [List.foldl_cons, ih, h]

/-- `settledPart`, with the routes, the chain and the mailbox queue: what nothing on a link changes. -/
def controlPart (s : State) :
    Ident × List Instr × Nat × Boot × StoredCfg × StoredCfg × Tbl Nat × Nat × Routes × Snap × Tbl Master × Tbl (List AccEntry) × Cmds × Chain × Tbl (List Int) × Tbl (BitVec 64) × Life × Life × Mram × Tbl Therm × Pins :=
  (s.ident, s.pending, s.clk.now, s.boot, s.cfg, s.cfgOld, s.hostMode, s.profile, s.routes, s.snap, s.masters, s.access, s.cmds, s.chain, s.tele, s.teleFt, s.life, s.lifePart, s.mram, s.therm, s.pins)

@[simp] theorem controlPart_mk (a b c d e f g h i j k l m n o p q r t u v w x y z a1 b1 c1 d1 e1 f1 g1 h1 i1 j1 k1 l1) :
    controlPart (State.mk a b c d e f g h i j k l m n o p q r t u v w x y z a1 b1 c1 d1 e1 f1 g1 h1 i1 j1 k1 l1) = (a, l1, b.now, c, d, e, f, g, l, m, t, u, v, x, a1, b1, c1, d1, e1, h1, i1) := rfl
@[simp] theorem controlPart_eta (s : State) : (s.ident, s.pending, s.clk.now, s.boot, s.cfg, s.cfgOld, s.hostMode, s.profile, s.routes, s.snap, s.masters, s.access, s.cmds, s.chain, s.tele, s.teleFt, s.life, s.lifePart, s.mram, s.therm, s.pins) = controlPart s := rfl

@[simp] theorem controlPart_ite (c : Prop) [Decidable c] (a b : State) :
    controlPart (if c then a else b) = if c then controlPart a else controlPart b := by split <;> rfl

@[simp] theorem controlPart_elim {α : Type} (o : Option α) (s : State) (f : α → State) (h : ∀ y, controlPart (f y) = controlPart s) :
    controlPart (o.elim s f) = controlPart s := by cases o <;> simp (maxDischargeDepth := 9) [h]
theorem controlPart_getD (o : Option State) (s : State) (h : ∀ y, o = some y → controlPart y = controlPart s) :
    controlPart (o.getD s) = controlPart s := by
  cases o with
  | none => rfl
  | some y => exact h y rfl

theorem controlled_if (c : Prop) [Decidable c] (a b s : State) (ha : controlPart a = controlPart s) (hb : controlPart b = controlPart s) :
    controlPart (if c then a else b) = controlPart s := by split <;> assumption
theorem controlled_ifFst {α : Type} (c : Prop) [Decidable c] (a b : State × α) (s : State) (ha : controlPart a.1 = controlPart s)
    (hb : controlPart b.1 = controlPart s) : controlPart (if c then a else b).1 = controlPart s := by split <;> assumption
theorem controlled_ifAns {α β : Type} (c : Prop) [Decidable c] (a b : α × β × State) (s : State) (ha : controlPart a.2.2 = controlPart s)
    (hb : controlPart b.2.2 = controlPart s) : controlPart (if c then a else b).2.2 = controlPart s := by split <;> assumption

/-- A meaning leaves the fixed part as it found it. -/
def resControl (r : Res) (s : State) : Prop := ∀ t, r = .next t → controlPart t = controlPart s
@[simp] theorem resControl_next (t s : State) : resControl (.next t) s ↔ controlPart t = controlPart s :=
  ⟨fun h => h t rfl, fun h u e => by cases e; exact h⟩
@[simp] theorem resControl_fault (f : Fault) (s : State) : resControl (.fault f) s := fun _ e => by cases e
@[simp] theorem resControl_refused (f : Refusal) (s : State) : resControl (.refused f) s := fun _ e => by cases e
theorem foldl_controlled {α : Type} (g : State → α → State) (h : ∀ z y, controlPart (g z y) = controlPart z) (l : List α) (s : State) :
    controlPart (l.foldl g s) = controlPart s := by
  induction l generalizing s with
  | nil => rfl
  | cons a l ih => simp only [List.foldl_cons, ih, h]

/-- `controlPart`, with the host endpoints. -/
def linkSidePart (s : State) :
    Ident × List Instr × Nat × Boot × StoredCfg × StoredCfg × Tbl Nat × Nat × Routes × Snap × Tbl HostEp × Tbl Master × Tbl (List AccEntry) × Cmds × Chain × Tbl (List Int) × Tbl (BitVec 64) × Life × Life × Mram × Tbl Therm × Pins :=
  (s.ident, s.pending, s.clk.now, s.boot, s.cfg, s.cfgOld, s.hostMode, s.profile, s.routes, s.snap, s.eps, s.masters, s.access, s.cmds, s.chain, s.tele, s.teleFt, s.life, s.lifePart, s.mram, s.therm, s.pins)

@[simp] theorem linkSidePart_mk (a b c d e f g h i j k l m n o p q r t u v w x y z a1 b1 c1 d1 e1 f1 g1 h1 i1 j1 k1 l1) :
    linkSidePart (State.mk a b c d e f g h i j k l m n o p q r t u v w x y z a1 b1 c1 d1 e1 f1 g1 h1 i1 j1 k1 l1) = (a, l1, b.now, c, d, e, f, g, l, m, p, t, u, v, x, a1, b1, c1, d1, e1, h1, i1) := rfl
@[simp] theorem linkSidePart_eta (s : State) : (s.ident, s.pending, s.clk.now, s.boot, s.cfg, s.cfgOld, s.hostMode, s.profile, s.routes, s.snap, s.eps, s.masters, s.access, s.cmds, s.chain, s.tele, s.teleFt, s.life, s.lifePart, s.mram, s.therm, s.pins) = linkSidePart s := rfl

@[simp] theorem linkSidePart_ite (c : Prop) [Decidable c] (a b : State) :
    linkSidePart (if c then a else b) = if c then linkSidePart a else linkSidePart b := by split <;> rfl

@[simp] theorem linkSidePart_elim {α : Type} (o : Option α) (s : State) (f : α → State) (h : ∀ y, linkSidePart (f y) = linkSidePart s) :
    linkSidePart (o.elim s f) = linkSidePart s := by cases o <;> simp (maxDischargeDepth := 9) [h]
theorem linkSidePart_getD (o : Option State) (s : State) (h : ∀ y, o = some y → linkSidePart y = linkSidePart s) :
    linkSidePart (o.getD s) = linkSidePart s := by
  cases o with
  | none => rfl
  | some y => exact h y rfl

theorem linkSided_if (c : Prop) [Decidable c] (a b s : State) (ha : linkSidePart a = linkSidePart s) (hb : linkSidePart b = linkSidePart s) :
    linkSidePart (if c then a else b) = linkSidePart s := by split <;> assumption
theorem linkSided_ifFst {α : Type} (c : Prop) [Decidable c] (a b : State × α) (s : State) (ha : linkSidePart a.1 = linkSidePart s)
    (hb : linkSidePart b.1 = linkSidePart s) : linkSidePart (if c then a else b).1 = linkSidePart s := by split <;> assumption
theorem linkSided_ifAns {α β : Type} (c : Prop) [Decidable c] (a b : α × β × State) (s : State) (ha : linkSidePart a.2.2 = linkSidePart s)
    (hb : linkSidePart b.2.2 = linkSidePart s) : linkSidePart (if c then a else b).2.2 = linkSidePart s := by split <;> assumption

/-- A meaning leaves the fixed part as it found it. -/
def resLinkSide (r : Res) (s : State) : Prop := ∀ t, r = .next t → linkSidePart t = linkSidePart s
@[simp] theorem resLinkSide_next (t s : State) : resLinkSide (.next t) s ↔ linkSidePart t = linkSidePart s :=
  ⟨fun h => h t rfl, fun h u e => by cases e; exact h⟩
@[simp] theorem resLinkSide_fault (f : Fault) (s : State) : resLinkSide (.fault f) s := fun _ e => by cases e
@[simp] theorem resLinkSide_refused (f : Refusal) (s : State) : resLinkSide (.refused f) s := fun _ e => by cases e
theorem foldl_linkSided {α : Type} (g : State → α → State) (h : ∀ z y, linkSidePart (g z y) = linkSidePart z) (l : List α) (s : State) :
    linkSidePart (l.foldl g s) = linkSidePart s := by
  induction l generalizing s with
  | nil => rfl
  | cons a l ih => simp only [List.foldl_cons, ih, h]

/-- `controlPart`, with the lanes and the clock: what no endpoint engine changes. -/
def enginePart (s : State) :
    Ident × List Instr × Nat × Boot × StoredCfg × StoredCfg × Tbl Nat × Nat × Tbl Lane × Tbl Octet × TimeUnit × Routes × Snap × Tbl Master × Tbl (List AccEntry) × Cmds × Chain × Tbl (List Int) × Tbl (BitVec 64) × Life × Life × Mram × Tbl Therm × Pins :=
  (s.ident, s.pending, s.clk.now, s.boot, s.cfg, s.cfgOld, s.hostMode, s.profile, s.lanes, s.octets, s.tu, s.routes, s.snap, s.masters, s.access, s.cmds, s.chain, s.tele, s.teleFt, s.life, s.lifePart, s.mram, s.therm, s.pins)

@[simp] theorem enginePart_mk (a b c d e f g h i j k l m n o p q r t u v w x y z a1 b1 c1 d1 e1 f1 g1 h1 i1 j1 k1 l1) :
    enginePart (State.mk a b c d e f g h i j k l m n o p q r t u v w x y z a1 b1 c1 d1 e1 f1 g1 h1 i1 j1 k1 l1) = (a, l1, b.now, c, d, e, f, g, h, i, k, l, m, t, u, v, x, a1, b1, c1, d1, e1, h1, i1) := rfl
@[simp] theorem enginePart_eta (s : State) : (s.ident, s.pending, s.clk.now, s.boot, s.cfg, s.cfgOld, s.hostMode, s.profile, s.lanes, s.octets, s.tu, s.routes, s.snap, s.masters, s.access, s.cmds, s.chain, s.tele, s.teleFt, s.life, s.lifePart, s.mram, s.therm, s.pins) = enginePart s := rfl

@[simp] theorem enginePart_ite (c : Prop) [Decidable c] (a b : State) :
    enginePart (if c then a else b) = if c then enginePart a else enginePart b := by split <;> rfl

@[simp] theorem enginePart_elim {α : Type} (o : Option α) (s : State) (f : α → State) (h : ∀ y, enginePart (f y) = enginePart s) :
    enginePart (o.elim s f) = enginePart s := by cases o <;> simp (maxDischargeDepth := 9) [h]
theorem enginePart_getD (o : Option State) (s : State) (h : ∀ y, o = some y → enginePart y = enginePart s) :
    enginePart (o.getD s) = enginePart s := by
  cases o with
  | none => rfl
  | some y => exact h y rfl

theorem engined_if (c : Prop) [Decidable c] (a b s : State) (ha : enginePart a = enginePart s) (hb : enginePart b = enginePart s) :
    enginePart (if c then a else b) = enginePart s := by split <;> assumption
theorem engined_ifFst {α : Type} (c : Prop) [Decidable c] (a b : State × α) (s : State) (ha : enginePart a.1 = enginePart s)
    (hb : enginePart b.1 = enginePart s) : enginePart (if c then a else b).1 = enginePart s := by split <;> assumption
theorem engined_ifAns {α β : Type} (c : Prop) [Decidable c] (a b : α × β × State) (s : State) (ha : enginePart a.2.2 = enginePart s)
    (hb : enginePart b.2.2 = enginePart s) : enginePart (if c then a else b).2.2 = enginePart s := by split <;> assumption

/-- A meaning leaves the fixed part as it found it. -/
def resEngine (r : Res) (s : State) : Prop := ∀ t, r = .next t → enginePart t = enginePart s
@[simp] theorem resEngine_next (t s : State) : resEngine (.next t) s ↔ enginePart t = enginePart s :=
  ⟨fun h => h t rfl, fun h u e => by cases e; exact h⟩
@[simp] theorem resEngine_fault (f : Fault) (s : State) : resEngine (.fault f) s := fun _ e => by cases e
@[simp] theorem resEngine_refused (f : Refusal) (s : State) : resEngine (.refused f) s := fun _ e => by cases e
theorem foldl_engined {α : Type} (g : State → α → State) (h : ∀ z y, enginePart (g z y) = enginePart z) (l : List α) (s : State) :
    enginePart (l.foldl g s) = enginePart s := by
  induction l generalizing s with
  | nil => rfl
  | cons a l ih => simp only [List.foldl_cons, ih, h]

/-- `enginePart`, with the host endpoints. -/
def portFreePart (s : State) :
    Ident × List Instr × Nat × Boot × StoredCfg × StoredCfg × Tbl Nat × Nat × Tbl Lane × Tbl Octet × TimeUnit × Routes × Snap × Tbl HostEp × Tbl Master × Tbl (List AccEntry) × Cmds × Chain × Tbl (List Int) × Tbl (BitVec 64) × Life × Life × Mram × Tbl Therm × Pins :=
  (s.ident, s.pending, s.clk.now, s.boot, s.cfg, s.cfgOld, s.hostMode, s.profile, s.lanes, s.octets, s.tu, s.routes, s.snap, s.eps, s.masters, s.access, s.cmds, s.chain, s.tele, s.teleFt, s.life, s.lifePart, s.mram, s.therm, s.pins)

@[simp] theorem portFreePart_mk (a b c d e f g h i j k l m n o p q r t u v w x y z a1 b1 c1 d1 e1 f1 g1 h1 i1 j1 k1 l1) :
    portFreePart (State.mk a b c d e f g h i j k l m n o p q r t u v w x y z a1 b1 c1 d1 e1 f1 g1 h1 i1 j1 k1 l1) = (a, l1, b.now, c, d, e, f, g, h, i, k, l, m, p, t, u, v, x, a1, b1, c1, d1, e1, h1, i1) := rfl
@[simp] theorem portFreePart_eta (s : State) : (s.ident, s.pending, s.clk.now, s.boot, s.cfg, s.cfgOld, s.hostMode, s.profile, s.lanes, s.octets, s.tu, s.routes, s.snap, s.eps, s.masters, s.access, s.cmds, s.chain, s.tele, s.teleFt, s.life, s.lifePart, s.mram, s.therm, s.pins) = portFreePart s := rfl

@[simp] theorem portFreePart_ite (c : Prop) [Decidable c] (a b : State) :
    portFreePart (if c then a else b) = if c then portFreePart a else portFreePart b := by split <;> rfl

@[simp] theorem portFreePart_elim {α : Type} (o : Option α) (s : State) (f : α → State) (h : ∀ y, portFreePart (f y) = portFreePart s) :
    portFreePart (o.elim s f) = portFreePart s := by cases o <;> simp (maxDischargeDepth := 9) [h]
theorem portFreePart_getD (o : Option State) (s : State) (h : ∀ y, o = some y → portFreePart y = portFreePart s) :
    portFreePart (o.getD s) = portFreePart s := by
  cases o with
  | none => rfl
  | some y => exact h y rfl

theorem portFreed_if (c : Prop) [Decidable c] (a b s : State) (ha : portFreePart a = portFreePart s) (hb : portFreePart b = portFreePart s) :
    portFreePart (if c then a else b) = portFreePart s := by split <;> assumption
theorem portFreed_ifFst {α : Type} (c : Prop) [Decidable c] (a b : State × α) (s : State) (ha : portFreePart a.1 = portFreePart s)
    (hb : portFreePart b.1 = portFreePart s) : portFreePart (if c then a else b).1 = portFreePart s := by split <;> assumption
theorem portFreed_ifAns {α β : Type} (c : Prop) [Decidable c] (a b : α × β × State) (s : State) (ha : portFreePart a.2.2 = portFreePart s)
    (hb : portFreePart b.2.2 = portFreePart s) : portFreePart (if c then a else b).2.2 = portFreePart s := by split <;> assumption

/-- A meaning leaves the fixed part as it found it. -/
def resPortFree (r : Res) (s : State) : Prop := ∀ t, r = .next t → portFreePart t = portFreePart s
@[simp] theorem resPortFree_next (t s : State) : resPortFree (.next t) s ↔ portFreePart t = portFreePart s :=
  ⟨fun h => h t rfl, fun h u e => by cases e; exact h⟩
@[simp] theorem resPortFree_fault (f : Fault) (s : State) : resPortFree (.fault f) s := fun _ e => by cases e
@[simp] theorem resPortFree_refused (f : Refusal) (s : State) : resPortFree (.refused f) s := fun _ e => by cases e
theorem foldl_portFreed {α : Type} (g : State → α → State) (h : ∀ z y, portFreePart (g z y) = portFreePart z) (l : List α) (s : State) :
    portFreePart (l.foldl g s) = portFreePart s := by
  induction l generalizing s with
  | nil => rfl
  | cons a l ih => simp only [List.foldl_cons, ih, h]

/-- `enginePart`, with the ports. -/
def hostSidePart (s : State) :
    Ident × List Instr × Nat × Boot × StoredCfg × StoredCfg × Tbl Nat × Nat × Tbl Lane × Tbl Octet × Tbl Port × TimeUnit × Routes × Snap × Tbl Master × Tbl (List AccEntry) × Cmds × Chain × Tbl (List Int) × Tbl (BitVec 64) × Life × Life × Mram × Tbl Therm × Pins :=
  (s.ident, s.pending, s.clk.now, s.boot, s.cfg, s.cfgOld, s.hostMode, s.profile, s.lanes, s.octets, s.ports, s.tu, s.routes, s.snap, s.masters, s.access, s.cmds, s.chain, s.tele, s.teleFt, s.life, s.lifePart, s.mram, s.therm, s.pins)

@[simp] theorem hostSidePart_mk (a b c d e f g h i j k l m n o p q r t u v w x y z a1 b1 c1 d1 e1 f1 g1 h1 i1 j1 k1 l1) :
    hostSidePart (State.mk a b c d e f g h i j k l m n o p q r t u v w x y z a1 b1 c1 d1 e1 f1 g1 h1 i1 j1 k1 l1) = (a, l1, b.now, c, d, e, f, g, h, i, j, k, l, m, t, u, v, x, a1, b1, c1, d1, e1, h1, i1) := rfl
@[simp] theorem hostSidePart_eta (s : State) : (s.ident, s.pending, s.clk.now, s.boot, s.cfg, s.cfgOld, s.hostMode, s.profile, s.lanes, s.octets, s.ports, s.tu, s.routes, s.snap, s.masters, s.access, s.cmds, s.chain, s.tele, s.teleFt, s.life, s.lifePart, s.mram, s.therm, s.pins) = hostSidePart s := rfl

@[simp] theorem hostSidePart_ite (c : Prop) [Decidable c] (a b : State) :
    hostSidePart (if c then a else b) = if c then hostSidePart a else hostSidePart b := by split <;> rfl

@[simp] theorem hostSidePart_elim {α : Type} (o : Option α) (s : State) (f : α → State) (h : ∀ y, hostSidePart (f y) = hostSidePart s) :
    hostSidePart (o.elim s f) = hostSidePart s := by cases o <;> simp (maxDischargeDepth := 9) [h]
theorem hostSidePart_getD (o : Option State) (s : State) (h : ∀ y, o = some y → hostSidePart y = hostSidePart s) :
    hostSidePart (o.getD s) = hostSidePart s := by
  cases o with
  | none => rfl
  | some y => exact h y rfl

theorem hostSided_if (c : Prop) [Decidable c] (a b s : State) (ha : hostSidePart a = hostSidePart s) (hb : hostSidePart b = hostSidePart s) :
    hostSidePart (if c then a else b) = hostSidePart s := by split <;> assumption
theorem hostSided_ifFst {α : Type} (c : Prop) [Decidable c] (a b : State × α) (s : State) (ha : hostSidePart a.1 = hostSidePart s)
    (hb : hostSidePart b.1 = hostSidePart s) : hostSidePart (if c then a else b).1 = hostSidePart s := by split <;> assumption
theorem hostSided_ifAns {α β : Type} (c : Prop) [Decidable c] (a b : α × β × State) (s : State) (ha : hostSidePart a.2.2 = hostSidePart s)
    (hb : hostSidePart b.2.2 = hostSidePart s) : hostSidePart (if c then a else b).2.2 = hostSidePart s := by split <;> assumption

/-- A meaning leaves the fixed part as it found it. -/
def resHostSide (r : Res) (s : State) : Prop := ∀ t, r = .next t → hostSidePart t = hostSidePart s
@[simp] theorem resHostSide_next (t s : State) : resHostSide (.next t) s ↔ hostSidePart t = hostSidePart s :=
  ⟨fun h => h t rfl, fun h u e => by cases e; exact h⟩
@[simp] theorem resHostSide_fault (f : Fault) (s : State) : resHostSide (.fault f) s := fun _ e => by cases e
@[simp] theorem resHostSide_refused (f : Refusal) (s : State) : resHostSide (.refused f) s := fun _ e => by cases e
theorem foldl_hostSided {α : Type} (g : State → α → State) (h : ∀ z y, hostSidePart (g z y) = hostSidePart z) (l : List α) (s : State) :
    hostSidePart (l.foldl g s) = hostSidePart s := by
  induction l generalizing s with
  | nil => rfl
  | cons a l ih => simp only [List.foldl_cons, ih, h]

/-- Both `hostSidePart` and `linkSidePart`. -/
def corePart (s : State) :
    Ident × List Instr × Nat × Boot × StoredCfg × StoredCfg × Tbl Nat × Nat × Tbl Lane × Tbl Octet × Tbl Port × TimeUnit × Routes × Snap × Tbl HostEp × Tbl Master × Tbl (List AccEntry) × Cmds × Chain × Tbl (List Int) × Tbl (BitVec 64) × Life × Life × Mram × Tbl Therm × Pins :=
  (s.ident, s.pending, s.clk.now, s.boot, s.cfg, s.cfgOld, s.hostMode, s.profile, s.lanes, s.octets, s.ports, s.tu, s.routes, s.snap, s.eps, s.masters, s.access, s.cmds, s.chain, s.tele, s.teleFt, s.life, s.lifePart, s.mram, s.therm, s.pins)

@[simp] theorem corePart_mk (a b c d e f g h i j k l m n o p q r t u v w x y z a1 b1 c1 d1 e1 f1 g1 h1 i1 j1 k1 l1) :
    corePart (State.mk a b c d e f g h i j k l m n o p q r t u v w x y z a1 b1 c1 d1 e1 f1 g1 h1 i1 j1 k1 l1) = (a, l1, b.now, c, d, e, f, g, h, i, j, k, l, m, p, t, u, v, x, a1, b1, c1, d1, e1, h1, i1) := rfl
@[simp] theorem corePart_eta (s : State) : (s.ident, s.pending, s.clk.now, s.boot, s.cfg, s.cfgOld, s.hostMode, s.profile, s.lanes, s.octets, s.ports, s.tu, s.routes, s.snap, s.eps, s.masters, s.access, s.cmds, s.chain, s.tele, s.teleFt, s.life, s.lifePart, s.mram, s.therm, s.pins) = corePart s := rfl

@[simp] theorem corePart_ite (c : Prop) [Decidable c] (a b : State) :
    corePart (if c then a else b) = if c then corePart a else corePart b := by split <;> rfl

@[simp] theorem corePart_elim {α : Type} (o : Option α) (s : State) (f : α → State) (h : ∀ y, corePart (f y) = corePart s) :
    corePart (o.elim s f) = corePart s := by cases o <;> simp (maxDischargeDepth := 9) [h]
theorem corePart_getD (o : Option State) (s : State) (h : ∀ y, o = some y → corePart y = corePart s) :
    corePart (o.getD s) = corePart s := by
  cases o with
  | none => rfl
  | some y => exact h y rfl

theorem cored_if (c : Prop) [Decidable c] (a b s : State) (ha : corePart a = corePart s) (hb : corePart b = corePart s) :
    corePart (if c then a else b) = corePart s := by split <;> assumption
theorem cored_ifFst {α : Type} (c : Prop) [Decidable c] (a b : State × α) (s : State) (ha : corePart a.1 = corePart s)
    (hb : corePart b.1 = corePart s) : corePart (if c then a else b).1 = corePart s := by split <;> assumption
theorem cored_ifAns {α β : Type} (c : Prop) [Decidable c] (a b : α × β × State) (s : State) (ha : corePart a.2.2 = corePart s)
    (hb : corePart b.2.2 = corePart s) : corePart (if c then a else b).2.2 = corePart s := by split <;> assumption

/-- A meaning leaves the fixed part as it found it. -/
def resCore (r : Res) (s : State) : Prop := ∀ t, r = .next t → corePart t = corePart s
@[simp] theorem resCore_next (t s : State) : resCore (.next t) s ↔ corePart t = corePart s :=
  ⟨fun h => h t rfl, fun h u e => by cases e; exact h⟩
@[simp] theorem resCore_fault (f : Fault) (s : State) : resCore (.fault f) s := fun _ e => by cases e
@[simp] theorem resCore_refused (f : Refusal) (s : State) : resCore (.refused f) s := fun _ e => by cases e
theorem foldl_cored {α : Type} (g : State → α → State) (h : ∀ z y, corePart (g z y) = corePart z) (l : List α) (s : State) :
    corePart (l.foldl g s) = corePart s := by
  induction l generalizing s with
  | nil => rfl
  | cons a l ih => simp only [List.foldl_cons, ih, h]

theorem hostSided_of_cored {s t : State} (h : corePart t = corePart s) : hostSidePart t = hostSidePart s :=
  congrArg (fun x => (x.1, x.2.1, x.2.2.1, x.2.2.2.1, x.2.2.2.2.1, x.2.2.2.2.2.1, x.2.2.2.2.2.2.1, x.2.2.2.2.2.2.2.1, x.2.2.2.2.2.2.2.2.1, x.2.2.2.2.2.2.2.2.2.1, x.2.2.2.2.2.2.2.2.2.2.1, x.2.2.2.2.2.2.2.2.2.2.2.1, x.2.2.2.2.2.2.2.2.2.2.2.2.1, x.2.2.2.2.2.2.2.2.2.2.2.2.2.1, x.2.2.2.2.2.2.2.2.2.2.2.2.2.2.2.1, x.2.2.2.2.2.2.2.2.2.2.2.2.2.2.2.2.1, x.2.2.2.2.2.2.2.2.2.2.2.2.2.2.2.2.2.1, x.2.2.2.2.2.2.2.2.2.2.2.2.2.2.2.2.2.2.1, x.2.2.2.2.2.2.2.2.2.2.2.2.2.2.2.2.2.2.2.1, x.2.2.2.2.2.2.2.2.2.2.2.2.2.2.2.2.2.2.2.2.1, x.2.2.2.2.2.2.2.2.2.2.2.2.2.2.2.2.2.2.2.2.2.1, x.2.2.2.2.2.2.2.2.2.2.2.2.2.2.2.2.2.2.2.2.2.2.1, x.2.2.2.2.2.2.2.2.2.2.2.2.2.2.2.2.2.2.2.2.2.2.2.1, x.2.2.2.2.2.2.2.2.2.2.2.2.2.2.2.2.2.2.2.2.2.2.2.2.1, x.2.2.2.2.2.2.2.2.2.2.2.2.2.2.2.2.2.2.2.2.2.2.2.2.2)) h
theorem portFreed_of_cored {s t : State} (h : corePart t = corePart s) : portFreePart t = portFreePart s :=
  congrArg (fun x => (x.1, x.2.1, x.2.2.1, x.2.2.2.1, x.2.2.2.2.1, x.2.2.2.2.2.1, x.2.2.2.2.2.2.1, x.2.2.2.2.2.2.2.1, x.2.2.2.2.2.2.2.2.1, x.2.2.2.2.2.2.2.2.2.1, x.2.2.2.2.2.2.2.2.2.2.2.1, x.2.2.2.2.2.2.2.2.2.2.2.2.1, x.2.2.2.2.2.2.2.2.2.2.2.2.2.1, x.2.2.2.2.2.2.2.2.2.2.2.2.2.2.1, x.2.2.2.2.2.2.2.2.2.2.2.2.2.2.2.1, x.2.2.2.2.2.2.2.2.2.2.2.2.2.2.2.2.1, x.2.2.2.2.2.2.2.2.2.2.2.2.2.2.2.2.2.1, x.2.2.2.2.2.2.2.2.2.2.2.2.2.2.2.2.2.2.1, x.2.2.2.2.2.2.2.2.2.2.2.2.2.2.2.2.2.2.2.1, x.2.2.2.2.2.2.2.2.2.2.2.2.2.2.2.2.2.2.2.2.1, x.2.2.2.2.2.2.2.2.2.2.2.2.2.2.2.2.2.2.2.2.2.1, x.2.2.2.2.2.2.2.2.2.2.2.2.2.2.2.2.2.2.2.2.2.2.1, x.2.2.2.2.2.2.2.2.2.2.2.2.2.2.2.2.2.2.2.2.2.2.2.1, x.2.2.2.2.2.2.2.2.2.2.2.2.2.2.2.2.2.2.2.2.2.2.2.2.1, x.2.2.2.2.2.2.2.2.2.2.2.2.2.2.2.2.2.2.2.2.2.2.2.2.2)) h
theorem engined_of_hostSided {s t : State} (h : hostSidePart t = hostSidePart s) : enginePart t = enginePart s :=
  congrArg (fun x => (x.1, x.2.1, x.2.2.1, x.2.2.2.1, x.2.2.2.2.1, x.2.2.2.2.2.1, x.2.2.2.2.2.2.1, x.2.2.2.2.2.2.2.1, x.2.2.2.2.2.2.2.2.1, x.2.2.2.2.2.2.2.2.2.1, x.2.2.2.2.2.2.2.2.2.2.2.1, x.2.2.2.2.2.2.2.2.2.2.2.2.1, x.2.2.2.2.2.2.2.2.2.2.2.2.2.1, x.2.2.2.2.2.2.2.2.2.2.2.2.2.2.1, x.2.2.2.2.2.2.2.2.2.2.2.2.2.2.2.1, x.2.2.2.2.2.2.2.2.2.2.2.2.2.2.2.2.1, x.2.2.2.2.2.2.2.2.2.2.2.2.2.2.2.2.2.1, x.2.2.2.2.2.2.2.2.2.2.2.2.2.2.2.2.2.2.1, x.2.2.2.2.2.2.2.2.2.2.2.2.2.2.2.2.2.2.2.1, x.2.2.2.2.2.2.2.2.2.2.2.2.2.2.2.2.2.2.2.2.1, x.2.2.2.2.2.2.2.2.2.2.2.2.2.2.2.2.2.2.2.2.2.1, x.2.2.2.2.2.2.2.2.2.2.2.2.2.2.2.2.2.2.2.2.2.2.1, x.2.2.2.2.2.2.2.2.2.2.2.2.2.2.2.2.2.2.2.2.2.2.2.1, x.2.2.2.2.2.2.2.2.2.2.2.2.2.2.2.2.2.2.2.2.2.2.2.2)) h
theorem engined_of_portFreed {s t : State} (h : portFreePart t = portFreePart s) : enginePart t = enginePart s :=
  congrArg (fun x => (x.1, x.2.1, x.2.2.1, x.2.2.2.1, x.2.2.2.2.1, x.2.2.2.2.2.1, x.2.2.2.2.2.2.1, x.2.2.2.2.2.2.2.1, x.2.2.2.2.2.2.2.2.1, x.2.2.2.2.2.2.2.2.2.1, x.2.2.2.2.2.2.2.2.2.2.1, x.2.2.2.2.2.2.2.2.2.2.2.1, x.2.2.2.2.2.2.2.2.2.2.2.2.1, x.2.2.2.2.2.2.2.2.2.2.2.2.2.2.1, x.2.2.2.2.2.2.2.2.2.2.2.2.2.2.2.1, x.2.2.2.2.2.2.2.2.2.2.2.2.2.2.2.2.1, x.2.2.2.2.2.2.2.2.2.2.2.2.2.2.2.2.2.1, x.2.2.2.2.2.2.2.2.2.2.2.2.2.2.2.2.2.2.1, x.2.2.2.2.2.2.2.2.2.2.2.2.2.2.2.2.2.2.2.1, x.2.2.2.2.2.2.2.2.2.2.2.2.2.2.2.2.2.2.2.2.1, x.2.2.2.2.2.2.2.2.2.2.2.2.2.2.2.2.2.2.2.2.2.1, x.2.2.2.2.2.2.2.2.2.2.2.2.2.2.2.2.2.2.2.2.2.2.1, x.2.2.2.2.2.2.2.2.2.2.2.2.2.2.2.2.2.2.2.2.2.2.2.1, x.2.2.2.2.2.2.2.2.2.2.2.2.2.2.2.2.2.2.2.2.2.2.2.2)) h
theorem engined_of_cored {s t : State} (h : corePart t = corePart s) : enginePart t = enginePart s :=
  congrArg (fun x => (x.1, x.2.1, x.2.2.1, x.2.2.2.1, x.2.2.2.2.1, x.2.2.2.2.2.1, x.2.2.2.2.2.2.1, x.2.2.2.2.2.2.2.1, x.2.2.2.2.2.2.2.2.1, x.2.2.2.2.2.2.2.2.2.1, x.2.2.2.2.2.2.2.2.2.2.2.1, x.2.2.2.2.2.2.2.2.2.2.2.2.1, x.2.2.2.2.2.2.2.2.2.2.2.2.2.1, x.2.2.2.2.2.2.2.2.2.2.2.2.2.2.2.1, x.2.2.2.2.2.2.2.2.2.2.2.2.2.2.2.2.1, x.2.2.2.2.2.2.2.2.2.2.2.2.2.2.2.2.2.1, x.2.2.2.2.2.2.2.2.2.2.2.2.2.2.2.2.2.2.1, x.2.2.2.2.2.2.2.2.2.2.2.2.2.2.2.2.2.2.2.1, x.2.2.2.2.2.2.2.2.2.2.2.2.2.2.2.2.2.2.2.2.1, x.2.2.2.2.2.2.2.2.2.2.2.2.2.2.2.2.2.2.2.2.2.1, x.2.2.2.2.2.2.2.2.2.2.2.2.2.2.2.2.2.2.2.2.2.2.1, x.2.2.2.2.2.2.2.2.2.2.2.2.2.2.2.2.2.2.2.2.2.2.2.1, x.2.2.2.2.2.2.2.2.2.2.2.2.2.2.2.2.2.2.2.2.2.2.2.2.1, x.2.2.2.2.2.2.2.2.2.2.2.2.2.2.2.2.2.2.2.2.2.2.2.2.2)) h
theorem linkSided_of_portFreed {s t : State} (h : portFreePart t = portFreePart s) : linkSidePart t = linkSidePart s :=
  congrArg (fun x => (x.1, x.2.1, x.2.2.1, x.2.2.2.1, x.2.2.2.2.1, x.2.2.2.2.2.1, x.2.2.2.2.2.2.1, x.2.2.2.2.2.2.2.1, x.2.2.2.2.2.2.2.2.2.2.2.1, x.2.2.2.2.2.2.2.2.2.2.2.2.1, x.2.2.2.2.2.2.2.2.2.2.2.2.2.1, x.2.2.2.2.2.2.2.2.2.2.2.2.2.2.1, x.2.2.2.2.2.2.2.2.2.2.2.2.2.2.2.1, x.2.2.2.2.2.2.2.2.2.2.2.2.2.2.2.2.1, x.2.2.2.2.2.2.2.2.2.2.2.2.2.2.2.2.2.1, x.2.2.2.2.2.2.2.2.2.2.2.2.2.2.2.2.2.2.1, x.2.2.2.2.2.2.2.2.2.2.2.2.2.2.2.2.2.2.2.1, x.2.2.2.2.2.2.2.2.2.2.2.2.2.2.2.2.2.2.2.2.1, x.2.2.2.2.2.2.2.2.2.2.2.2.2.2.2.2.2.2.2.2.2.1, x.2.2.2.2.2.2.2.2.2.2.2.2.2.2.2.2.2.2.2.2.2.2.1, x.2.2.2.2.2.2.2.2.2.2.2.2.2.2.2.2.2.2.2.2.2.2.2.1, x.2.2.2.2.2.2.2.2.2.2.2.2.2.2.2.2.2.2.2.2.2.2.2.2)) h
theorem linkSided_of_cored {s t : State} (h : corePart t = corePart s) : linkSidePart t = linkSidePart s :=
  congrArg (fun x => (x.1, x.2.1, x.2.2.1, x.2.2.2.1, x.2.2.2.2.1, x.2.2.2.2.2.1, x.2.2.2.2.2.2.1, x.2.2.2.2.2.2.2.1, x.2.2.2.2.2.2.2.2.2.2.2.2.1, x.2.2.2.2.2.2.2.2.2.2.2.2.2.1, x.2.2.2.2.2.2.2.2.2.2.2.2.2.2.1, x.2.2.2.2.2.2.2.2.2.2.2.2.2.2.2.1, x.2.2.2.2.2.2.2.2.2.2.2.2.2.2.2.2.1, x.2.2.2.2.2.2.2.2.2.2.2.2.2.2.2.2.2.1, x.2.2.2.2.2.2.2.2.2.2.2.2.2.2.2.2.2.2.1, x.2.2.2.2.2.2.2.2.2.2.2.2.2.2.2.2.2.2.2.1, x.2.2.2.2.2.2.2.2.2.2.2.2.2.2.2.2.2.2.2.2.1, x.2.2.2.2.2.2.2.2.2.2.2.2.2.2.2.2.2.2.2.2.2.1, x.2.2.2.2.2.2.2.2.2.2.2.2.2.2.2.2.2.2.2.2.2.2.1, x.2.2.2.2.2.2.2.2.2.2.2.2.2.2.2.2.2.2.2.2.2.2.2.1, x.2.2.2.2.2.2.2.2.2.2.2.2.2.2.2.2.2.2.2.2.2.2.2.2.1, x.2.2.2.2.2.2.2.2.2.2.2.2.2.2.2.2.2.2.2.2.2.2.2.2.2)) h
theorem controlled_of_engined {s t : State} (h : enginePart t = enginePart s) : controlPart t = controlPart s :=
  congrArg (fun x => (x.1, x.2.1, x.2.2.1, x.2.2.2.1, x.2.2.2.2.1, x.2.2.2.2.2.1, x.2.2.2.2.2.2.1, x.2.2.2.2.2.2.2.1, x.2.2.2.2.2.2.2.2.2.2.2.1, x.2.2.2.2.2.2.2.2.2.2.2.2.1, x.2.2.2.2.2.2.2.2.2.2.2.2.2.1, x.2.2.2.2.2.2.2.2.2.2.2.2.2.2.1, x.2.2.2.2.2.2.2.2.2.2.2.2.2.2.2.1, x.2.2.2.2.2.2.2.2.2.2.2.2.2.2.2.2.1, x.2.2.2.2.2.2.2.2.2.2.2.2.2.2.2.2.2.1, x.2.2.2.2.2.2.2.2.2.2.2.2.2.2.2.2.2.2.1, x.2.2.2.2.2.2.2.2.2.2.2.2.2.2.2.2.2.2.2.1, x.2.2.2.2.2.2.2.2.2.2.2.2.2.2.2.2.2.2.2.2.1, x.2.2.2.2.2.2.2.2.2.2.2.2.2.2.2.2.2.2.2.2.2.1, x.2.2.2.2.2.2.2.2.2.2.2.2.2.2.2.2.2.2.2.2.2.2.1, x.2.2.2.2.2.2.2.2.2.2.2.2.2.2.2.2.2.2.2.2.2.2.2)) h
theorem controlled_of_linkSided {s t : State} (h : linkSidePart t = linkSidePart s) : controlPart t = controlPart s :=
  congrArg (fun x => (x.1, x.2.1, x.2.2.1, x.2.2.2.1, x.2.2.2.2.1, x.2.2.2.2.2.1, x.2.2.2.2.2.2.1, x.2.2.2.2.2.2.2.1, x.2.2.2.2.2.2.2.2.1, x.2.2.2.2.2.2.2.2.2.1, x.2.2.2.2.2.2.2.2.2.2.2.1, x.2.2.2.2.2.2.2.2.2.2.2.2.1, x.2.2.2.2.2.2.2.2.2.2.2.2.2.1, x.2.2.2.2.2.2.2.2.2.2.2.2.2.2.1, x.2.2.2.2.2.2.2.2.2.2.2.2.2.2.2.1, x.2.2.2.2.2.2.2.2.2.2.2.2.2.2.2.2.1, x.2.2.2.2.2.2.2.2.2.2.2.2.2.2.2.2.2.1, x.2.2.2.2.2.2.2.2.2.2.2.2.2.2.2.2.2.2.1, x.2.2.2.2.2.2.2.2.2.2.2.2.2.2.2.2.2.2.2.1, x.2.2.2.2.2.2.2.2.2.2.2.2.2.2.2.2.2.2.2.2.1, x.2.2.2.2.2.2.2.2.2.2.2.2.2.2.2.2.2.2.2.2.2)) h
theorem controlled_of_hostSided {s t : State} (h : hostSidePart t = hostSidePart s) : controlPart t = controlPart s :=
  congrArg (fun x => (x.1, x.2.1, x.2.2.1, x.2.2.2.1, x.2.2.2.2.1, x.2.2.2.2.2.1, x.2.2.2.2.2.2.1, x.2.2.2.2.2.2.2.1, x.2.2.2.2.2.2.2.2.2.2.2.2.1, x.2.2.2.2.2.2.2.2.2.2.2.2.2.1, x.2.2.2.2.2.2.2.2.2.2.2.2.2.2.1, x.2.2.2.2.2.2.2.2.2.2.2.2.2.2.2.1, x.2.2.2.2.2.2.2.2.2.2.2.2.2.2.2.2.1, x.2.2.2.2.2.2.2.2.2.2.2.2.2.2.2.2.2.1, x.2.2.2.2.2.2.2.2.2.2.2.2.2.2.2.2.2.2.1, x.2.2.2.2.2.2.2.2.2.2.2.2.2.2.2.2.2.2.2.1, x.2.2.2.2.2.2.2.2.2.2.2.2.2.2.2.2.2.2.2.2.1, x.2.2.2.2.2.2.2.2.2.2.2.2.2.2.2.2.2.2.2.2.2.1, x.2.2.2.2.2.2.2.2.2.2.2.2.2.2.2.2.2.2.2.2.2.2.1, x.2.2.2.2.2.2.2.2.2.2.2.2.2.2.2.2.2.2.2.2.2.2.2.1, x.2.2.2.2.2.2.2.2.2.2.2.2.2.2.2.2.2.2.2.2.2.2.2.2)) h
theorem controlled_of_portFreed {s t : State} (h : portFreePart t = portFreePart s) : controlPart t = controlPart s :=
  congrArg (fun x => (x.1, x.2.1, x.2.2.1, x.2.2.2.1, x.2.2.2.2.1, x.2.2.2.2.2.1, x.2.2.2.2.2.2.1, x.2.2.2.2.2.2.2.1, x.2.2.2.2.2.2.2.2.2.2.2.1, x.2.2.2.2.2.2.2.2.2.2.2.2.1, x.2.2.2.2.2.2.2.2.2.2.2.2.2.2.1, x.2.2.2.2.2.2.2.2.2.2.2.2.2.2.2.1, x.2.2.2.2.2.2.2.2.2.2.2.2.2.2.2.2.1, x.2.2.2.2.2.2.2.2.2.2.2.2.2.2.2.2.2.1, x.2.2.2.2.2.2.2.2.2.2.2.2.2.2.2.2.2.2.1, x.2.2.2.2.2.2.2.2.2.2.2.2.2.2.2.2.2.2.2.1, x.2.2.2.2.2.2.2.2.2.2.2.2.2.2.2.2.2.2.2.2.1, x.2.2.2.2.2.2.2.2.2.2.2.2.2.2.2.2.2.2.2.2.2.1, x.2.2.2.2.2.2.2.2.2.2.2.2.2.2.2.2.2.2.2.2.2.2.1, x.2.2.2.2.2.2.2.2.2.2.2.2.2.2.2.2.2.2.2.2.2.2.2.1, x.2.2.2.2.2.2.2.2.2.2.2.2.2.2.2.2.2.2.2.2.2.2.2.2)) h
theorem controlled_of_cored {s t : State} (h : corePart t = corePart s) : controlPart t = controlPart s :=
  congrArg (fun x => (x.1, x.2.1, x.2.2.1, x.2.2.2.1, x.2.2.2.2.1, x.2.2.2.2.2.1, x.2.2.2.2.2.2.1, x.2.2.2.2.2.2.2.1, x.2.2.2.2.2.2.2.2.2.2.2.2.1, x.2.2.2.2.2.2.2.2.2.2.2.2.2.1, x.2.2.2.2.2.2.2.2.2.2.2.2.2.2.2.1, x.2.2.2.2.2.2.2.2.2.2.2.2.2.2.2.2.1, x.2.2.2.2.2.2.2.2.2.2.2.2.2.2.2.2.2.1, x.2.2.2.2.2.2.2.2.2.2.2.2.2.2.2.2.2.2.1, x.2.2.2.2.2.2.2.2.2.2.2.2.2.2.2.2.2.2.2.1, x.2.2.2.2.2.2.2.2.2.2.2.2.2.2.2.2.2.2.2.2.1, x.2.2.2.2.2.2.2.2.2.2.2.2.2.2.2.2.2.2.2.2.2.1, x.2.2.2.2.2.2.2.2.2.2.2.2.2.2.2.2.2.2.2.2.2.2.1, x.2.2.2.2.2.2.2.2.2.2.2.2.2.2.2.2.2.2.2.2.2.2.2.1, x.2.2.2.2.2.2.2.2.2.2.2.2.2.2.2.2.2.2.2.2.2.2.2.2.1, x.2.2.2.2.2.2.2.2.2.2.2.2.2.2.2.2.2.2.2.2.2.2.2.2.2)) h
theorem settled_of_controlled {s t : State} (h : controlPart t = controlPart s) : settledPart t = settledPart s :=
  congrArg (fun x => (x.1, x.2.1, x.2.2.1, x.2.2.2.1, x.2.2.2.2.1, x.2.2.2.2.2.1, x.2.2.2.2.2.2.1, x.2.2.2.2.2.2.2.1, x.2.2.2.2.2.2.2.2.2.2.1, x.2.2.2.2.2.2.2.2.2.2.2.1, x.2.2.2.2.2.2.2.2.2.2.2.2.2.2.1, x.2.2.2.2.2.2.2.2.2.2.2.2.2.2.2.1, x.2.2.2.2.2.2.2.2.2.2.2.2.2.2.2.2.1, x.2.2.2.2.2.2.2.2.2.2.2.2.2.2.2.2.2.1, x.2.2.2.2.2.2.2.2.2.2.2.2.2.2.2.2.2.2.1, x.2.2.2.2.2.2.2.2.2.2.2.2.2.2.2.2.2.2.2.1, x.2.2.2.2.2.2.2.2.2.2.2.2.2.2.2.2.2.2.2.2)) h
theorem settled_of_engined {s t : State} (h : enginePart t = enginePart s) : settledPart t = settledPart s :=
  congrArg (fun x => (x.1, x.2.1, x.2.2.1, x.2.2.2.1, x.2.2.2.2.1, x.2.2.2.2.2.1, x.2.2.2.2.2.2.1, x.2.2.2.2.2.2.2.1, x.2.2.2.2.2.2.2.2.2.2.2.2.2.1, x.2.2.2.2.2.2.2.2.2.2.2.2.2.2.1, x.2.2.2.2.2.2.2.2.2.2.2.2.2.2.2.2.2.1, x.2.2.2.2.2.2.2.2.2.2.2.2.2.2.2.2.2.2.1, x.2.2.2.2.2.2.2.2.2.2.2.2.2.2.2.2.2.2.2.1, x.2.2.2.2.2.2.2.2.2.2.2.2.2.2.2.2.2.2.2.2.1, x.2.2.2.2.2.2.2.2.2.2.2.2.2.2.2.2.2.2.2.2.2.1, x.2.2.2.2.2.2.2.2.2.2.2.2.2.2.2.2.2.2.2.2.2.2.1, x.2.2.2.2.2.2.2.2.2.2.2.2.2.2.2.2.2.2.2.2.2.2.2)) h
theorem settled_of_linkSided {s t : State} (h : linkSidePart t = linkSidePart s) : settledPart t = settledPart s :=
  congrArg (fun x => (x.1, x.2.1, x.2.2.1, x.2.2.2.1, x.2.2.2.2.1, x.2.2.2.2.2.1, x.2.2.2.2.2.2.1, x.2.2.2.2.2.2.2.1, x.2.2.2.2.2.2.2.2.2.2.2.1, x.2.2.2.2.2.2.2.2.2.2.2.2.1, x.2.2.2.2.2.2.2.2.2.2.2.2.2.2.2.1, x.2.2.2.2.2.2.2.2.2.2.2.2.2.2.2.2.1, x.2.2.2.2.2.2.2.2.2.2.2.2.2.2.2.2.2.1, x.2.2.2.2.2.2.2.2.2.2.2.2.2.2.2.2.2.2.1, x.2.2.2.2.2.2.2.2.2.2.2.2.2.2.2.2.2.2.2.1, x.2.2.2.2.2.2.2.2.2.2.2.2.2.2.2.2.2.2.2.2.1, x.2.2.2.2.2.2.2.2.2.2.2.2.2.2.2.2.2.2.2.2.2)) h
theorem settled_of_hostSided {s t : State} (h : hostSidePart t = hostSidePart s) : settledPart t = settledPart s :=
  congrArg (fun x => (x.1, x.2.1, x.2.2.1, x.2.2.2.1, x.2.2.2.2.1, x.2.2.2.2.2.1, x.2.2.2.2.2.2.1, x.2.2.2.2.2.2.2.1, x.2.2.2.2.2.2.2.2.2.2.2.2.2.2.1, x.2.2.2.2.2.2.2.2.2.2.2.2.2.2.2.1, x.2.2.2.2.2.2.2.2.2.2.2.2.2.2.2.2.2.2.1, x.2.2.2.2.2.2.2.2.2.2.2.2.2.2.2.2.2.2.2.1, x.2.2.2.2.2.2.2.2.2.2.2.2.2.2.2.2.2.2.2.2.1, x.2.2.2.2.2.2.2.2.2.2.2.2.2.2.2.2.2.2.2.2.2.1, x.2.2.2.2.2.2.2.2.2.2.2.2.2.2.2.2.2.2.2.2.2.2.1, x.2.2.2.2.2.2.2.2.2.2.2.2.2.2.2.2.2.2.2.2.2.2.2.1, x.2.2.2.2.2.2.2.2.2.2.2.2.2.2.2.2.2.2.2.2.2.2.2.2)) h
theorem settled_of_portFreed {s t : State} (h : portFreePart t = portFreePart s) : settledPart t = settledPart s :=
  congrArg (fun x => (x.1, x.2.1, x.2.2.1, x.2.2.2.1, x.2.2.2.2.1, x.2.2.2.2.2.1, x.2.2.2.2.2.2.1, x.2.2.2.2.2.2.2.1, x.2.2.2.2.2.2.2.2.2.2.2.2.2.2.1, x.2.2.2.2.2.2.2.2.2.2.2.2.2.2.2.1, x.2.2.2.2.2.2.2.2.2.2.2.2.2.2.2.2.2.2.1, x.2.2.2.2.2.2.2.2.2.2.2.2.2.2.2.2.2.2.2.1, x.2.2.2.2.2.2.2.2.2.2.2.2.2.2.2.2.2.2.2.2.1, x.2.2.2.2.2.2.2.2.2.2.2.2.2.2.2.2.2.2.2.2.2.1, x.2.2.2.2.2.2.2.2.2.2.2.2.2.2.2.2.2.2.2.2.2.2.1, x.2.2.2.2.2.2.2.2.2.2.2.2.2.2.2.2.2.2.2.2.2.2.2.1, x.2.2.2.2.2.2.2.2.2.2.2.2.2.2.2.2.2.2.2.2.2.2.2.2)) h
theorem settled_of_cored {s t : State} (h : corePart t = corePart s) : settledPart t = settledPart s :=
  congrArg (fun x => (x.1, x.2.1, x.2.2.1, x.2.2.2.1, x.2.2.2.2.1, x.2.2.2.2.2.1, x.2.2.2.2.2.2.1, x.2.2.2.2.2.2.2.1, x.2.2.2.2.2.2.2.2.2.2.2.2.2.2.2.1, x.2.2.2.2.2.2.2.2.2.2.2.2.2.2.2.2.1, x.2.2.2.2.2.2.2.2.2.2.2.2.2.2.2.2.2.2.2.1, x.2.2.2.2.2.2.2.2.2.2.2.2.2.2.2.2.2.2.2.2.1, x.2.2.2.2.2.2.2.2.2.2.2.2.2.2.2.2.2.2.2.2.2.1, x.2.2.2.2.2.2.2.2.2.2.2.2.2.2.2.2.2.2.2.2.2.2.1, x.2.2.2.2.2.2.2.2.2.2.2.2.2.2.2.2.2.2.2.2.2.2.2.1, x.2.2.2.2.2.2.2.2.2.2.2.2.2.2.2.2.2.2.2.2.2.2.2.2.1, x.2.2.2.2.2.2.2.2.2.2.2.2.2.2.2.2.2.2.2.2.2.2.2.2.2)) h
theorem booted_of_settled {s t : State} (h : settledPart t = settledPart s) : bootPart t = bootPart s :=
  congrArg (fun x => (x.1, x.2.1, x.2.2.1, x.2.2.2.1, x.2.2.2.2.2.2.2.2.2.2.2.2.1, x.2.2.2.2.2.2.2.2.2.2.2.2.2.1, x.2.2.2.2.2.2.2.2.2.2.2.2.2.2.1)) h
theorem booted_of_controlled {s t : State} (h : controlPart t = controlPart s) : bootPart t = bootPart s :=
  congrArg (fun x => (x.1, x.2.1, x.2.2.1, x.2.2.2.1, x.2.2.2.2.2.2.2.2.2.2.2.2.2.2.2.2.1, x.2.2.2.2.2.2.2.2.2.2.2.2.2.2.2.2.2.1, x.2.2.2.2.2.2.2.2.2.2.2.2.2.2.2.2.2.2.1)) h
theorem booted_of_engined {s t : State} (h : enginePart t = enginePart s) : bootPart t = bootPart s :=
  congrArg (fun x => (x.1, x.2.1, x.2.2.1, x.2.2.2.1, x.2.2.2.2.2.2.2.2.2.2.2.2.2.2.2.2.2.2.2.1, x.2.2.2.2.2.2.2.2.2.2.2.2.2.2.2.2.2.2.2.2.1, x.2.2.2.2.2.2.2.2.2.2.2.2.2.2.2.2.2.2.2.2.2.1)) h
theorem booted_of_linkSided {s t : State} (h : linkSidePart t = linkSidePart s) : bootPart t = bootPart s :=
  congrArg (fun x => (x.1, x.2.1, x.2.2.1, x.2.2.2.1, x.2.2.2.2.2.2.2.2.2.2.2.2.2.2.2.2.2.1, x.2.2.2.2.2.2.2.2.2.2.2.2.2.2.2.2.2.2.1, x.2.2.2.2.2.2.2.2.2.2.2.2.2.2.2.2.2.2.2.1)) h
theorem booted_of_hostSided {s t : State} (h : hostSidePart t = hostSidePart s) : bootPart t = bootPart s :=
  congrArg (fun x => (x.1, x.2.1, x.2.2.1, x.2.2.2.1, x.2.2.2.2.2.2.2.2.2.2.2.2.2.2.2.2.2.2.2.2.1, x.2.2.2.2.2.2.2.2.2.2.2.2.2.2.2.2.2.2.2.2.2.1, x.2.2.2.2.2.2.2.2.2.2.2.2.2.2.2.2.2.2.2.2.2.2.1)) h
theorem booted_of_portFreed {s t : State} (h : portFreePart t = portFreePart s) : bootPart t = bootPart s :=
  congrArg (fun x => (x.1, x.2.1, x.2.2.1, x.2.2.2.1, x.2.2.2.2.2.2.2.2.2.2.2.2.2.2.2.2.2.2.2.2.1, x.2.2.2.2.2.2.2.2.2.2.2.2.2.2.2.2.2.2.2.2.2.1, x.2.2.2.2.2.2.2.2.2.2.2.2.2.2.2.2.2.2.2.2.2.2.1)) h
theorem booted_of_cored {s t : State} (h : corePart t = corePart s) : bootPart t = bootPart s :=
  congrArg (fun x => (x.1, x.2.1, x.2.2.1, x.2.2.2.1, x.2.2.2.2.2.2.2.2.2.2.2.2.2.2.2.2.2.2.2.2.2.1, x.2.2.2.2.2.2.2.2.2.2.2.2.2.2.2.2.2.2.2.2.2.2.1, x.2.2.2.2.2.2.2.2.2.2.2.2.2.2.2.2.2.2.2.2.2.2.2.1)) h
theorem fixed_of_booted {s t : State} (h : bootPart t = bootPart s) : fixedPart t = fixedPart s :=
  congrArg (fun x => (x.1, x.2.1, x.2.2.1)) h
theorem fixed_of_settled {s t : State} (h : settledPart t = settledPart s) : fixedPart t = fixedPart s :=
  congrArg (fun x => (x.1, x.2.1, x.2.2.1)) h
theorem fixed_of_controlled {s t : State} (h : controlPart t = controlPart s) : fixedPart t = fixedPart s :=
  congrArg (fun x => (x.1, x.2.1, x.2.2.1)) h
theorem fixed_of_engined {s t : State} (h : enginePart t = enginePart s) : fixedPart t = fixedPart s :=
  congrArg (fun x => (x.1, x.2.1, x.2.2.1)) h
theorem fixed_of_linkSided {s t : State} (h : linkSidePart t = linkSidePart s) : fixedPart t = fixedPart s :=
  congrArg (fun x => (x.1, x.2.1, x.2.2.1)) h
theorem fixed_of_hostSided {s t : State} (h : hostSidePart t = hostSidePart s) : fixedPart t = fixedPart s :=
  congrArg (fun x => (x.1, x.2.1, x.2.2.1)) h
theorem fixed_of_portFreed {s t : State} (h : portFreePart t = portFreePart s) : fixedPart t = fixedPart s :=
  congrArg (fun x => (x.1, x.2.1, x.2.2.1)) h
theorem fixed_of_cored {s t : State} (h : corePart t = corePart s) : fixedPart t = fixedPart s :=
  congrArg (fun x => (x.1, x.2.1, x.2.2.1)) h

@[simp] theorem cored_count (s : State) (sc : Scope) (index : Nat) (c : Cn) (n : Nat := 1) :
    corePart (count s sc index c n) = corePart s := by
  unfold count; simp (maxDischargeDepth := 9)

@[simp] theorem hostSided_count (s : State) (sc : Scope) (index : Nat) (c : Cn) (n : Nat := 1) :
    hostSidePart (count s sc index c n) = hostSidePart s :=
  hostSided_of_cored (cored_count s sc index c n)

@[simp] theorem portFreed_count (s : State) (sc : Scope) (index : Nat) (c : Cn) (n : Nat := 1) :
    portFreePart (count s sc index c n) = portFreePart s :=
  portFreed_of_cored (cored_count s sc index c n)

@[simp] theorem engined_count (s : State) (sc : Scope) (index : Nat) (c : Cn) (n : Nat := 1) :
    enginePart (count s sc index c n) = enginePart s :=
  engined_of_cored (cored_count s sc index c n)

@[simp] theorem linkSided_count (s : State) (sc : Scope) (index : Nat) (c : Cn) (n : Nat := 1) :
    linkSidePart (count s sc index c n) = linkSidePart s :=
  linkSided_of_cored (cored_count s sc index c n)

@[simp] theorem controlled_count (s : State) (sc : Scope) (index : Nat) (c : Cn) (n : Nat := 1) :
    controlPart (count s sc index c n) = controlPart s :=
  controlled_of_cored (cored_count s sc index c n)

@[simp] theorem settled_count (s : State) (sc : Scope) (index : Nat) (c : Cn) (n : Nat := 1) :
    settledPart (count s sc index c n) = settledPart s :=
  settled_of_cored (cored_count s sc index c n)

@[simp] theorem booted_count (s : State) (sc : Scope) (index : Nat) (c : Cn) (n : Nat := 1) :
    bootPart (count s sc index c n) = bootPart s :=
  booted_of_cored (cored_count s sc index c n)

@[simp] theorem fixed_count (s : State) (sc : Scope) (index : Nat) (c : Cn) (n : Nat := 1) :
    fixedPart (count s sc index c n) = fixedPart s :=
  fixed_of_cored (cored_count s sc index c n)

@[simp] theorem cored_countMax (s : State) (sc : Scope) (index : Nat) (c : Cn) (n : Nat) :
    corePart (countMax s sc index c n) = corePart s := by
  unfold countMax; simp (maxDischargeDepth := 9)

@[simp] theorem portFreed_countMax (s : State) (sc : Scope) (index : Nat) (c : Cn) (n : Nat) :
    portFreePart (countMax s sc index c n) = portFreePart s :=
  portFreed_of_cored (cored_countMax s sc index c n)

@[simp] theorem fixed_guardRes' (b : Bool) (t s : State) (h : fixedPart t = fixedPart s) : resFixed (guardRes b t) s := by
  unfold guardRes; split <;> simp [h]

@[simp] theorem booted_guardRes' (b : Bool) (t s : State) (h : bootPart t = bootPart s) : resBoot (guardRes b t) s := by
  unfold guardRes; split <;> simp [h]

@[simp] theorem settled_guardRes' (b : Bool) (t s : State) (h : settledPart t = settledPart s) : resSettled (guardRes b t) s := by
  unfold guardRes; split <;> simp [h]

@[simp] theorem controlled_guardRes' (b : Bool) (t s : State) (h : controlPart t = controlPart s) : resControl (guardRes b t) s := by
  unfold guardRes; split <;> simp [h]

@[simp] theorem linkSided_guardRes' (b : Bool) (t s : State) (h : linkSidePart t = linkSidePart s) : resLinkSide (guardRes b t) s := by
  unfold guardRes; split <;> simp [h]

@[simp] theorem engined_guardRes' (b : Bool) (t s : State) (h : enginePart t = enginePart s) : resEngine (guardRes b t) s := by
  unfold guardRes; split <;> simp [h]

@[simp] theorem portFreed_guardRes' (b : Bool) (t s : State) (h : portFreePart t = portFreePart s) : resPortFree (guardRes b t) s := by
  unfold guardRes; split <;> simp [h]

@[simp] theorem hostSided_guardRes' (b : Bool) (t s : State) (h : hostSidePart t = hostSidePart s) : resHostSide (guardRes b t) s := by
  unfold guardRes; split <;> simp [h]

@[simp] theorem cored_guardRes' (b : Bool) (t s : State) (h : corePart t = corePart s) : resCore (guardRes b t) s := by
  unfold guardRes; split <;> simp [h]

@[simp] theorem cored_guardRes (ok : Bool) (t : State) :
    resCore (guardRes ok t) t := by
  unfold guardRes; (repeat' split) <;> simp (maxDischargeDepth := 9)

@[simp] theorem hostSided_guardRes (ok : Bool) (t : State) :
    resHostSide (guardRes ok t) t :=
  fun u hu => hostSided_of_cored (cored_guardRes ok t u hu)

@[simp] theorem portFreed_guardRes (ok : Bool) (t : State) :
    resPortFree (guardRes ok t) t :=
  fun u hu => portFreed_of_cored (cored_guardRes ok t u hu)

@[simp] theorem engined_guardRes (ok : Bool) (t : State) :
    resEngine (guardRes ok t) t :=
  fun u hu => engined_of_cored (cored_guardRes ok t u hu)

@[simp] theorem linkSided_guardRes (ok : Bool) (t : State) :
    resLinkSide (guardRes ok t) t :=
  fun u hu => linkSided_of_cored (cored_guardRes ok t u hu)

@[simp] theorem controlled_guardRes (ok : Bool) (t : State) :
    resControl (guardRes ok t) t :=
  fun u hu => controlled_of_cored (cored_guardRes ok t u hu)

@[simp] theorem settled_guardRes (ok : Bool) (t : State) :
    resSettled (guardRes ok t) t :=
  fun u hu => settled_of_cored (cored_guardRes ok t u hu)

@[simp] theorem booted_guardRes (ok : Bool) (t : State) :
    resBoot (guardRes ok t) t :=
  fun u hu => booted_of_cored (cored_guardRes ok t u hu)

@[simp] theorem fixed_guardRes (ok : Bool) (t : State) :
    resFixed (guardRes ok t) t :=
  fun u hu => fixed_of_cored (cored_guardRes ok t u hu)

@[simp] theorem cored_drawn (s : State) :
    corePart (drawn s) = corePart s := by
  unfold drawn; simp (maxDischargeDepth := 9)

@[simp] theorem hostSided_drawn (s : State) :
    hostSidePart (drawn s) = hostSidePart s :=
  hostSided_of_cored (cored_drawn s)

@[simp] theorem portFreed_drawn (s : State) :
    portFreePart (drawn s) = portFreePart s :=
  portFreed_of_cored (cored_drawn s)

@[simp] theorem linkSided_drawn (s : State) :
    linkSidePart (drawn s) = linkSidePart s :=
  linkSided_of_cored (cored_drawn s)

@[simp] theorem settled_drawn (s : State) :
    settledPart (drawn s) = settledPart s :=
  settled_of_cored (cored_drawn s)

@[simp] theorem linkSided_updLane (s : State) (l : Nat) (f : Lane → Lane) :
    linkSidePart (updLane s l f) = linkSidePart s := by
  unfold updLane; simp (maxDischargeDepth := 9)

@[simp] theorem controlled_updLane (s : State) (l : Nat) (f : Lane → Lane) :
    controlPart (updLane s l f) = controlPart s :=
  controlled_of_linkSided (linkSided_updLane s l f)

@[simp] theorem booted_updLane (s : State) (l : Nat) (f : Lane → Lane) :
    bootPart (updLane s l f) = bootPart s :=
  booted_of_linkSided (linkSided_updLane s l f)

@[simp] theorem fixed_updLane (s : State) (l : Nat) (f : Lane → Lane) :
    fixedPart (updLane s l f) = fixedPart s :=
  fixed_of_linkSided (linkSided_updLane s l f)

@[simp] theorem linkSided_updOctet (s : State) (o : Nat) (f : Octet → Octet) :
    linkSidePart (updOctet s o f) = linkSidePart s := by
  unfold updOctet; simp (maxDischargeDepth := 9)

@[simp] theorem controlled_updOctet (s : State) (o : Nat) (f : Octet → Octet) :
    controlPart (updOctet s o f) = controlPart s :=
  controlled_of_linkSided (linkSided_updOctet s o f)

@[simp] theorem booted_updOctet (s : State) (o : Nat) (f : Octet → Octet) :
    bootPart (updOctet s o f) = bootPart s :=
  booted_of_linkSided (linkSided_updOctet s o f)

@[simp] theorem fixed_updOctet (s : State) (o : Nat) (f : Octet → Octet) :
    fixedPart (updOctet s o f) = fixedPart s :=
  fixed_of_linkSided (linkSided_updOctet s o f)

@[simp] theorem portFreed_updPort (s : State) (p : Nat) (f : Port → Port) :
    portFreePart (updPort s p f) = portFreePart s := by
  unfold updPort; simp (maxDischargeDepth := 9)

@[simp] theorem engined_updPort (s : State) (p : Nat) (f : Port → Port) :
    enginePart (updPort s p f) = enginePart s :=
  engined_of_portFreed (portFreed_updPort s p f)

@[simp] theorem linkSided_updPort (s : State) (p : Nat) (f : Port → Port) :
    linkSidePart (updPort s p f) = linkSidePart s :=
  linkSided_of_portFreed (portFreed_updPort s p f)

@[simp] theorem controlled_updPort (s : State) (p : Nat) (f : Port → Port) :
    controlPart (updPort s p f) = controlPart s :=
  controlled_of_portFreed (portFreed_updPort s p f)

@[simp] theorem settled_updPort (s : State) (p : Nat) (f : Port → Port) :
    settledPart (updPort s p f) = settledPart s :=
  settled_of_portFreed (portFreed_updPort s p f)

@[simp] theorem booted_updPort (s : State) (p : Nat) (f : Port → Port) :
    bootPart (updPort s p f) = bootPart s :=
  booted_of_portFreed (portFreed_updPort s p f)

@[simp] theorem cored_updQuad (s : State) (q : Nat) (f : Quad → Quad) :
    corePart (updQuad s q f) = corePart s := by
  unfold updQuad; simp (maxDischargeDepth := 9)

@[simp] theorem hostSided_updQuad (s : State) (q : Nat) (f : Quad → Quad) :
    hostSidePart (updQuad s q f) = hostSidePart s :=
  hostSided_of_cored (cored_updQuad s q f)

@[simp] theorem portFreed_updQuad (s : State) (q : Nat) (f : Quad → Quad) :
    portFreePart (updQuad s q f) = portFreePart s :=
  portFreed_of_cored (cored_updQuad s q f)

@[simp] theorem linkSided_updQuad (s : State) (q : Nat) (f : Quad → Quad) :
    linkSidePart (updQuad s q f) = linkSidePart s :=
  linkSided_of_cored (cored_updQuad s q f)

@[simp] theorem controlled_updQuad (s : State) (q : Nat) (f : Quad → Quad) :
    controlPart (updQuad s q f) = controlPart s :=
  controlled_of_cored (cored_updQuad s q f)

@[simp] theorem settled_updQuad (s : State) (q : Nat) (f : Quad → Quad) :
    settledPart (updQuad s q f) = settledPart s :=
  settled_of_cored (cored_updQuad s q f)

@[simp] theorem booted_updQuad (s : State) (q : Nat) (f : Quad → Quad) :
    bootPart (updQuad s q f) = bootPart s :=
  booted_of_cored (cored_updQuad s q f)

@[simp] theorem fixed_updQuad (s : State) (q : Nat) (f : Quad → Quad) :
    fixedPart (updQuad s q f) = fixedPart s :=
  fixed_of_cored (cored_updQuad s q f)

@[simp] theorem hostSided_updHost (s : State) (e : Nat) (f : HostEp → HostEp) :
    hostSidePart (updHost s e f) = hostSidePart s := by
  unfold updHost; simp (maxDischargeDepth := 9)

@[simp] theorem engined_updHost (s : State) (e : Nat) (f : HostEp → HostEp) :
    enginePart (updHost s e f) = enginePart s :=
  engined_of_hostSided (hostSided_updHost s e f)

@[simp] theorem booted_updHost (s : State) (e : Nat) (f : HostEp → HostEp) :
    bootPart (updHost s e f) = bootPart s :=
  booted_of_hostSided (hostSided_updHost s e f)

@[simp] theorem cored_updFn (s : State) (m : Nat) (f : Fn → Fn) :
    corePart (updFn s m f) = corePart s := by
  unfold updFn; simp (maxDischargeDepth := 9)

@[simp] theorem hostSided_updFn (s : State) (m : Nat) (f : Fn → Fn) :
    hostSidePart (updFn s m f) = hostSidePart s :=
  hostSided_of_cored (cored_updFn s m f)

@[simp] theorem settled_updFn (s : State) (m : Nat) (f : Fn → Fn) :
    settledPart (updFn s m f) = settledPart s :=
  settled_of_cored (cored_updFn s m f)

@[simp] theorem booted_updFn (s : State) (m : Nat) (f : Fn → Fn) :
    bootPart (updFn s m f) = bootPart s :=
  booted_of_cored (cored_updFn s m f)

@[simp] theorem cored_updInst (s : State) (m : Nat) (f : Inst → Inst) :
    corePart (updInst s m f) = corePart s := by
  unfold updInst; simp (maxDischargeDepth := 9)

@[simp] theorem settled_updInst (s : State) (m : Nat) (f : Inst → Inst) :
    settledPart (updInst s m f) = settledPart s :=
  settled_of_cored (cored_updInst s m f)

@[simp] theorem booted_updInst (s : State) (m : Nat) (f : Inst → Inst) :
    bootPart (updInst s m f) = bootPart s :=
  booted_of_cored (cored_updInst s m f)

@[simp] theorem booted_updMaster (s : State) (m : Nat) (f : Master → Master) :
    bootPart (updMaster s m f) = bootPart s := by
  unfold updMaster; simp (maxDischargeDepth := 9)

@[simp] theorem cored_emit (s : State) (o : Out) :
    corePart (emit s o) = corePart s := by
  unfold emit; simp (maxDischargeDepth := 9)

@[simp] theorem hostSided_emit (s : State) (o : Out) :
    hostSidePart (emit s o) = hostSidePart s :=
  hostSided_of_cored (cored_emit s o)

@[simp] theorem portFreed_emit (s : State) (o : Out) :
    portFreePart (emit s o) = portFreePart s :=
  portFreed_of_cored (cored_emit s o)

@[simp] theorem linkSided_emit (s : State) (o : Out) :
    linkSidePart (emit s o) = linkSidePart s :=
  linkSided_of_cored (cored_emit s o)

@[simp] theorem booted_emit (s : State) (o : Out) :
    bootPart (emit s o) = bootPart s :=
  booted_of_cored (cored_emit s o)

@[simp] theorem fixed_emit (s : State) (o : Out) :
    fixedPart (emit s o) = fixedPart s :=
  fixed_of_cored (cored_emit s o)

@[simp] theorem cored_foldS (l : List Nat) (s : State) (f : State → Nat → State) (hf : ∀ z y0, corePart (f z y0) = corePart z) :
    corePart (foldS l s f) = corePart s := by
  unfold foldS; simp (maxDischargeDepth := 9) [foldl_cored, hf]

@[simp] theorem hostSided_foldS (l : List Nat) (s : State) (f : State → Nat → State) (hf : ∀ z y0, hostSidePart (f z y0) = hostSidePart z) :
    hostSidePart (foldS l s f) = hostSidePart s := by
  unfold foldS; simp (maxDischargeDepth := 9) [foldl_hostSided, hf]

@[simp] theorem portFreed_foldS (l : List Nat) (s : State) (f : State → Nat → State) (hf : ∀ z y0, portFreePart (f z y0) = portFreePart z) :
    portFreePart (foldS l s f) = portFreePart s := by
  unfold foldS; simp (maxDischargeDepth := 9) [foldl_portFreed, hf]

@[simp] theorem engined_foldS (l : List Nat) (s : State) (f : State → Nat → State) (hf : ∀ z y0, enginePart (f z y0) = enginePart z) :
    enginePart (foldS l s f) = enginePart s := by
  unfold foldS; simp (maxDischargeDepth := 9) [foldl_engined, hf]

@[simp] theorem linkSided_foldS (l : List Nat) (s : State) (f : State → Nat → State) (hf : ∀ z y0, linkSidePart (f z y0) = linkSidePart z) :
    linkSidePart (foldS l s f) = linkSidePart s := by
  unfold foldS; simp (maxDischargeDepth := 9) [foldl_linkSided, hf]

@[simp] theorem controlled_foldS (l : List Nat) (s : State) (f : State → Nat → State) (hf : ∀ z y0, controlPart (f z y0) = controlPart z) :
    controlPart (foldS l s f) = controlPart s := by
  unfold foldS; simp (maxDischargeDepth := 9) [foldl_controlled, hf]

@[simp] theorem settled_foldS (l : List Nat) (s : State) (f : State → Nat → State) (hf : ∀ z y0, settledPart (f z y0) = settledPart z) :
    settledPart (foldS l s f) = settledPart s := by
  unfold foldS; simp (maxDischargeDepth := 9) [foldl_settled, hf]

@[simp] theorem booted_foldS (l : List Nat) (s : State) (f : State → Nat → State) (hf : ∀ z y0, bootPart (f z y0) = bootPart z) :
    bootPart (foldS l s f) = bootPart s := by
  unfold foldS; simp (maxDischargeDepth := 9) [foldl_booted, hf]

@[simp] theorem fixed_foldS (l : List Nat) (s : State) (f : State → Nat → State) (hf : ∀ z y0, fixedPart (f z y0) = fixedPart z) :
    fixedPart (foldS l s f) = fixedPart s := by
  unfold foldS; simp (maxDischargeDepth := 9) [foldl_fixed, hf]

@[simp] theorem cored_sendMsix (s : State) (f vec : Nat) :
    corePart (sendMsix s f vec) = corePart s := by
  unfold sendMsix; simp (maxDischargeDepth := 9)

@[simp] theorem cored_changeStatus (s : State) (m : Nat) (f : Inst → Inst) :
    corePart (changeStatus s m f) = corePart s := by
  unfold changeStatus; simp (maxDischargeDepth := 9)

@[simp] theorem cored_raiseCause (s : State) (m : Nat) (bits : BitVec 9) :
    corePart (raiseCause s m bits) = corePart s := by
  unfold raiseCause; simp (maxDischargeDepth := 9)

@[simp] theorem settled_raiseCause (s : State) (m : Nat) (bits : BitVec 9) :
    settledPart (raiseCause s m bits) = settledPart s :=
  settled_of_cored (cored_raiseCause s m bits)

@[simp] theorem cored_raiseAll (s : State) (bits : BitVec 9) :
    corePart (raiseAll s bits) = corePart s := by
  unfold raiseAll; simp (maxDischargeDepth := 9) [foldl_cored]

@[simp] theorem portFreed_raiseAll (s : State) (bits : BitVec 9) :
    portFreePart (raiseAll s bits) = portFreePart s :=
  portFreed_of_cored (cored_raiseAll s bits)

@[simp] theorem linkSided_raiseAll (s : State) (bits : BitVec 9) :
    linkSidePart (raiseAll s bits) = linkSidePart s :=
  linkSided_of_cored (cored_raiseAll s bits)

@[simp] theorem settled_raiseAll (s : State) (bits : BitVec 9) :
    settledPart (raiseAll s bits) = settledPart s :=
  settled_of_cored (cored_raiseAll s bits)

@[simp] theorem booted_raiseAll (s : State) (bits : BitVec 9) :
    bootPart (raiseAll s bits) = bootPart s :=
  booted_of_cored (cored_raiseAll s bits)

@[simp] theorem fixed_raiseAll (s : State) (bits : BitVec 9) :
    fixedPart (raiseAll s bits) = fixedPart s :=
  fixed_of_cored (cored_raiseAll s bits)

@[simp] theorem cored_setAccErr (s : State) (m : Nat) :
    corePart (setAccErr s m) = corePart s := by
  unfold setAccErr; simp (maxDischargeDepth := 9)

@[simp] theorem cored_setSelErr (s : State) (m : Nat) :
    corePart (setSelErr s m) = corePart s := by
  unfold setSelErr; simp (maxDischargeDepth := 9)

@[simp] theorem cored_remoteReport (s : State) (r : EvRec) :
    corePart (remoteReport s r) = corePart s := by
  unfold remoteReport
  split
  · rfl
  · dsimp only
    split
    · split <;> simp
    · split <;> simp

@[simp] theorem cored_enterService (s : State) (r : EvRec) :
    corePart (enterService s r) = corePart s := by
  unfold enterService; simp (maxDischargeDepth := 9)

@[simp] theorem cored_place (s : State) (r : EvRec) :
    corePart (place s r) = corePart s := by
  unfold place; simp (maxDischargeDepth := 9)

@[simp] theorem hostSided_place (s : State) (r : EvRec) :
    hostSidePart (place s r) = hostSidePart s :=
  hostSided_of_cored (cored_place s r)

@[simp] theorem engined_place (s : State) (r : EvRec) :
    enginePart (place s r) = enginePart s :=
  engined_of_cored (cored_place s r)

@[simp] theorem cored_recordEv (s : State) (e : Ev) (die : Nat) (p0 : Nat := 0) (p1 : Nat := 0) (p2 : Nat := 0) (p3 : Nat := 0) (summary : Bool := false) :
    corePart (recordEv s e die p0 p1 p2 p3 summary) = corePart s := by
  unfold recordEv; simp (maxDischargeDepth := 9)

@[simp] theorem hostSided_recordEv (s : State) (e : Ev) (die : Nat) (p0 : Nat := 0) (p1 : Nat := 0) (p2 : Nat := 0) (p3 : Nat := 0) (summary : Bool := false) :
    hostSidePart (recordEv s e die p0 p1 p2 p3 summary) = hostSidePart s :=
  hostSided_of_cored (cored_recordEv s e die p0 p1 p2 p3 summary)

@[simp] theorem portFreed_recordEv (s : State) (e : Ev) (die : Nat) (p0 : Nat := 0) (p1 : Nat := 0) (p2 : Nat := 0) (p3 : Nat := 0) (summary : Bool := false) :
    portFreePart (recordEv s e die p0 p1 p2 p3 summary) = portFreePart s :=
  portFreed_of_cored (cored_recordEv s e die p0 p1 p2 p3 summary)

@[simp] theorem engined_recordEv (s : State) (e : Ev) (die : Nat) (p0 : Nat := 0) (p1 : Nat := 0) (p2 : Nat := 0) (p3 : Nat := 0) (summary : Bool := false) :
    enginePart (recordEv s e die p0 p1 p2 p3 summary) = enginePart s :=
  engined_of_cored (cored_recordEv s e die p0 p1 p2 p3 summary)

@[simp] theorem linkSided_recordEv (s : State) (e : Ev) (die : Nat) (p0 : Nat := 0) (p1 : Nat := 0) (p2 : Nat := 0) (p3 : Nat := 0) (summary : Bool := false) :
    linkSidePart (recordEv s e die p0 p1 p2 p3 summary) = linkSidePart s :=
  linkSided_of_cored (cored_recordEv s e die p0 p1 p2 p3 summary)

@[simp] theorem controlled_recordEv (s : State) (e : Ev) (die : Nat) (p0 : Nat := 0) (p1 : Nat := 0) (p2 : Nat := 0) (p3 : Nat := 0) (summary : Bool := false) :
    controlPart (recordEv s e die p0 p1 p2 p3 summary) = controlPart s :=
  controlled_of_cored (cored_recordEv s e die p0 p1 p2 p3 summary)

@[simp] theorem settled_recordEv (s : State) (e : Ev) (die : Nat) (p0 : Nat := 0) (p1 : Nat := 0) (p2 : Nat := 0) (p3 : Nat := 0) (summary : Bool := false) :
    settledPart (recordEv s e die p0 p1 p2 p3 summary) = settledPart s :=
  settled_of_cored (cored_recordEv s e die p0 p1 p2 p3 summary)

@[simp] theorem booted_recordEv (s : State) (e : Ev) (die : Nat) (p0 : Nat := 0) (p1 : Nat := 0) (p2 : Nat := 0) (p3 : Nat := 0) (summary : Bool := false) :
    bootPart (recordEv s e die p0 p1 p2 p3 summary) = bootPart s :=
  booted_of_cored (cored_recordEv s e die p0 p1 p2 p3 summary)

@[simp] theorem fixed_recordEv (s : State) (e : Ev) (die : Nat) (p0 : Nat := 0) (p1 : Nat := 0) (p2 : Nat := 0) (p3 : Nat := 0) (summary : Bool := false) :
    fixedPart (recordEv s e die p0 p1 p2 p3 summary) = fixedPart s :=
  fixed_of_cored (cored_recordEv s e die p0 p1 p2 p3 summary)

@[simp] theorem cored_limited (s : State) (e : Ev) (obj period : Nat) (mk : State → Nat → Bool → State) (hmk : ∀ z y0 y1, corePart (mk z y0 y1) = corePart z) :
    corePart (limited s e obj period mk) = corePart s := by
  unfold limited; simp (maxDischargeDepth := 9) [hmk]

@[simp] theorem hostSided_limited (s : State) (e : Ev) (obj period : Nat) (mk : State → Nat → Bool → State) (hmk : ∀ z y0 y1, hostSidePart (mk z y0 y1) = hostSidePart z) :
    hostSidePart (limited s e obj period mk) = hostSidePart s := by
  unfold limited; simp (maxDischargeDepth := 9) [hmk]

@[simp] theorem portFreed_limited (s : State) (e : Ev) (obj period : Nat) (mk : State → Nat → Bool → State) (hmk : ∀ z y0 y1, portFreePart (mk z y0 y1) = portFreePart z) :
    portFreePart (limited s e obj period mk) = portFreePart s := by
  unfold limited; simp (maxDischargeDepth := 9) [hmk]

@[simp] theorem engined_limited (s : State) (e : Ev) (obj period : Nat) (mk : State → Nat → Bool → State) (hmk : ∀ z y0 y1, enginePart (mk z y0 y1) = enginePart z) :
    enginePart (limited s e obj period mk) = enginePart s := by
  unfold limited; simp (maxDischargeDepth := 9) [hmk]

@[simp] theorem linkSided_limited (s : State) (e : Ev) (obj period : Nat) (mk : State → Nat → Bool → State) (hmk : ∀ z y0 y1, linkSidePart (mk z y0 y1) = linkSidePart z) :
    linkSidePart (limited s e obj period mk) = linkSidePart s := by
  unfold limited; simp (maxDischargeDepth := 9) [hmk]

@[simp] theorem controlled_limited (s : State) (e : Ev) (obj period : Nat) (mk : State → Nat → Bool → State) (hmk : ∀ z y0 y1, controlPart (mk z y0 y1) = controlPart z) :
    controlPart (limited s e obj period mk) = controlPart s := by
  unfold limited; simp (maxDischargeDepth := 9) [hmk]

@[simp] theorem cored_laneTx (s : State) (l what : Nat) :
    corePart (laneTx s l what) = corePart s := by
  unfold laneTx; simp (maxDischargeDepth := 9)

@[simp] theorem linkSided_laneTx (s : State) (l what : Nat) :
    linkSidePart (laneTx s l what) = linkSidePart s :=
  linkSided_of_cored (cored_laneTx s l what)

@[simp] theorem cored_showLane (s : State) (l : Nat) :
    corePart (showLane s l) = corePart s := by
  unfold showLane; simp (maxDischargeDepth := 9)

@[simp] theorem portFreed_showLane (s : State) (l : Nat) :
    portFreePart (showLane s l) = portFreePart s :=
  portFreed_of_cored (cored_showLane s l)

@[simp] theorem linkSided_showLane (s : State) (l : Nat) :
    linkSidePart (showLane s l) = linkSidePart s :=
  linkSided_of_cored (cored_showLane s l)

@[simp] theorem portFreed_requestWake (s : State) (p cls : Nat) :
    portFreePart (requestWake s p cls) = portFreePart s := by
  unfold requestWake; simp (maxDischargeDepth := 9)

@[simp] theorem controlled_requestWake (s : State) (p cls : Nat) :
    controlPart (requestWake s p cls) = controlPart s :=
  controlled_of_portFreed (portFreed_requestWake s p cls)

@[simp] theorem portFreed_putLtb (s : State) (p : Nat) (lane : Option Nat) (h : LtbTx) (b : LtbBody) :
    portFreePart (putLtb s p lane h b) = portFreePart s := by
  rfl

@[simp] theorem portFreed_sendLtb (s : State) (p : Nat) (lane : Option Nat) (cls : Nat) (h : LtbTx) (b : LtbBody) :
    portFreePart (sendLtb s p lane cls h b) = portFreePart s := by
  unfold sendLtb; simp (maxDischargeDepth := 9)

@[simp] theorem controlled_sendLtb (s : State) (p : Nat) (lane : Option Nat) (cls : Nat) (h : LtbTx) (b : LtbBody) :
    controlPart (sendLtb s p lane cls h b) = controlPart s :=
  controlled_of_portFreed (portFreed_sendLtb s p lane cls h b)

@[simp] theorem portFreed_sendSeq (s : State) (p : Nat) (abortEnd : Bool) (startOff : Nat) (b : LtbBody) :
    portFreePart (sendSeq s p abortEnd startOff b) = portFreePart s := by
  unfold sendSeq; simp (maxDischargeDepth := 9)

@[simp] theorem portFreed_sendCtrl (s : State) (p op : Nat) (mask : BitVec 16) :
    portFreePart (sendCtrl s p op mask) = portFreePart s := by
  unfold sendCtrl; simp (maxDischargeDepth := 9)

@[simp] theorem portFreed_sendData (s : State) (p : Nat) (d : DataLtb) :
    portFreePart (sendData s p d) = portFreePart s := by
  unfold sendData; simp (maxDischargeDepth := 9)

@[simp] theorem portFreed_sendQueued (s : State) (p : Nat) (x0 : Nat) :
    portFreePart (sendQueued s p x0) = portFreePart s := by
  induction x0 generalizing s with
  | zero => simp (maxDischargeDepth := 9) [sendQueued]
  | succ k ih => (unfold sendQueued; (repeat' split) <;> first | rfl | (simp (maxDischargeDepth := 9) [ih]; done))

@[simp] theorem portFreed_closeLtb (s : State) (p : Nat) :
    portFreePart (closeLtb s p) = portFreePart s := by
  unfold closeLtb; simp (maxDischargeDepth := 9)

@[simp] theorem portFreed_creditLtbs (s : State) (p : Nat) (x0 : Nat) :
    portFreePart (creditLtbs s p x0) = portFreePart s := by
  induction x0 generalizing s with
  | zero => simp (maxDischargeDepth := 9) [creditLtbs]
  | succ k ih => (unfold creditLtbs; (repeat' split) <;> first | rfl | (simp (maxDischargeDepth := 9) [ih]; done))

@[simp] theorem portFreed_sendCredits (s : State) (p : Nat) :
    portFreePart (sendCredits s p) = portFreePart s := by
  unfold sendCredits; simp (maxDischargeDepth := 9)

@[simp] theorem portFreed_freeOrigin (s : State) (o : Origin) :
    portFreePart (freeOrigin s o) = portFreePart s := by
  unfold freeOrigin; (repeat' split) <;> simp (maxDischargeDepth := 9)

@[simp] theorem engined_freeOrigin (s : State) (o : Origin) :
    enginePart (freeOrigin s o) = enginePart s :=
  engined_of_portFreed (portFreed_freeOrigin s o)

@[simp] theorem linkSided_freeOrigin (s : State) (o : Origin) :
    linkSidePart (freeOrigin s o) = linkSidePart s :=
  linkSided_of_portFreed (portFreed_freeOrigin s o)

@[simp] theorem controlled_freeOrigin (s : State) (o : Origin) :
    controlPart (freeOrigin s o) = controlPart s :=
  controlled_of_portFreed (portFreed_freeOrigin s o)

@[simp] theorem settled_freeOrigin (s : State) (o : Origin) :
    settledPart (freeOrigin s o) = settledPart s :=
  settled_of_portFreed (portFreed_freeOrigin s o)

@[simp] theorem portFreed_enqueue (s : State) (p : Nat) (q : QPkt) :
    portFreePart (enqueue s p q) = portFreePart s := by
  unfold enqueue; simp (maxDischargeDepth := 9)

@[simp] theorem cored_setMesh (s : State) (a b : Nat) (m : MeshDir) :
    corePart (setMesh s a b m) = corePart s := by
  unfold setMesh; simp (maxDischargeDepth := 9)

@[simp] theorem cored_cross (s : State) (a b : Nat) (h : FabHdr) :
    corePart (cross s a b h) = corePart s := by
  unfold cross; simp (maxDischargeDepth := 9)

@[simp] theorem portFreed_cross (s : State) (a b : Nat) (h : FabHdr) :
    portFreePart (cross s a b h) = portFreePart s :=
  portFreed_of_cored (cored_cross s a b h)

@[simp] theorem engined_cross (s : State) (a b : Nat) (h : FabHdr) :
    enginePart (cross s a b h) = enginePart s :=
  engined_of_cored (cored_cross s a b h)

@[simp] theorem cored_crossSvc (s : State) (a b n : Nat) :
    corePart (crossSvc s a b n) = corePart s := by
  unfold crossSvc; simp (maxDischargeDepth := 9)

@[simp] theorem cored_toService (s : State) (q n : Nat) :
    corePart (toService s q n) = corePart s := by
  unfold toService; simp (maxDischargeDepth := 9)

@[simp] theorem cored_fromService (s : State) (q n : Nat) :
    corePart (fromService s q n) = corePart s := by
  unfold fromService; simp (maxDischargeDepth := 9)

@[simp] theorem engined_fromService (s : State) (q n : Nat) :
    enginePart (fromService s q n) = enginePart s :=
  engined_of_cored (cored_fromService s q n)

@[simp] theorem cored_mbToService (s : State) (m n : Nat) :
    corePart (mbToService s m n) = corePart s := by
  unfold mbToService; simp (maxDischargeDepth := 9)

@[simp] theorem settled_mbToService (s : State) (m n : Nat) :
    settledPart (mbToService s m n) = settledPart s :=
  settled_of_cored (cored_mbToService s m n)

@[simp] theorem cored_mbFromService (s : State) (m n : Nat) :
    corePart (mbFromService s m n) = corePart s := by
  unfold mbFromService; simp (maxDischargeDepth := 9)

@[simp] theorem settled_mbFromService (s : State) (m n : Nat) :
    settledPart (mbFromService s m n) = settledPart s :=
  settled_of_cored (cored_mbFromService s m n)

@[simp] theorem portFreed_takeQueued (s : State) (p : Nat) :
    portFreePart (takeQueued s p).2 = portFreePart s := by
  unfold takeQueued; simp (maxDischargeDepth := 9)

@[simp] theorem cored_denied (s : State) (m target : Nat) :
    corePart (denied s m target) = corePart s := by
  unfold denied; simp (maxDischargeDepth := 9)

@[simp] theorem hostSided_denied (s : State) (m target : Nat) :
    hostSidePart (denied s m target) = hostSidePart s :=
  hostSided_of_cored (cored_denied s m target)

@[simp] theorem linkSided_denied (s : State) (m target : Nat) :
    linkSidePart (denied s m target) = linkSidePart s :=
  linkSided_of_cored (cored_denied s m target)

@[simp] theorem settled_denied (s : State) (m target : Nat) :
    settledPart (denied s m target) = settledPart s :=
  settled_of_cored (cored_denied s m target)

@[simp] theorem booted_denied (s : State) (m target : Nat) :
    bootPart (denied s m target) = bootPart s :=
  booted_of_cored (cored_denied s m target)

@[simp] theorem fixed_denied (s : State) (m target : Nat) :
    fixedPart (denied s m target) = fixedPart s :=
  fixed_of_cored (cored_denied s m target)

@[simp] theorem cored_agentRead (s : State) (m part : Nat) :
    corePart (agentRead s m part) = corePart s := by
  unfold agentRead; simp (maxDischargeDepth := 9)

@[simp] theorem linkSided_agentRead (s : State) (m part : Nat) :
    linkSidePart (agentRead s m part) = linkSidePart s :=
  linkSided_of_cored (cored_agentRead s m part)

@[simp] theorem linkSided_agentWrite (s : State) (m part : Nat) (f : State → State) (hf : ∀ z , linkSidePart (f z ) = linkSidePart z) :
    linkSidePart (agentWrite s m part f) = linkSidePart s := by
  unfold agentWrite; simp (maxDischargeDepth := 9) [hf]

@[simp] theorem fixed_agentWrite (s : State) (m part : Nat) (f : State → State) (hf : ∀ z , fixedPart (f z ) = fixedPart z) :
    fixedPart (agentWrite s m part f) = fixedPart s := by
  unfold agentWrite; simp (maxDischargeDepth := 9) [hf]

@[simp] theorem cored_updEp (s : State) (f : Endpoint → Endpoint) :
    corePart (updEp s f) = corePart s := by
  unfold updEp; simp (maxDischargeDepth := 9)

@[simp] theorem hostSided_updEp (s : State) (f : Endpoint → Endpoint) :
    hostSidePart (updEp s f) = hostSidePart s :=
  hostSided_of_cored (cored_updEp s f)

@[simp] theorem portFreed_updEp (s : State) (f : Endpoint → Endpoint) :
    portFreePart (updEp s f) = portFreePart s :=
  portFreed_of_cored (cored_updEp s f)

@[simp] theorem engined_updEp (s : State) (f : Endpoint → Endpoint) :
    enginePart (updEp s f) = enginePart s :=
  engined_of_cored (cored_updEp s f)

@[simp] theorem booted_updEp (s : State) (f : Endpoint → Endpoint) :
    bootPart (updEp s f) = bootPart s :=
  booted_of_cored (cored_updEp s f)

@[simp] theorem cored_updQp (s : State) (q : Nat) (f : Qp → Qp) :
    corePart (updQp s q f) = corePart s := by
  unfold updQp; simp (maxDischargeDepth := 9)

@[simp] theorem hostSided_updQp (s : State) (q : Nat) (f : Qp → Qp) :
    hostSidePart (updQp s q f) = hostSidePart s :=
  hostSided_of_cored (cored_updQp s q f)

@[simp] theorem cored_updSrq (s : State) (q : Nat) (f : Srq → Srq) :
    corePart (updSrq s q f) = corePart s := by
  unfold updSrq; simp (maxDischargeDepth := 9)

@[simp] theorem hostSided_updSrq (s : State) (q : Nat) (f : Srq → Srq) :
    hostSidePart (updSrq s q f) = hostSidePart s :=
  hostSided_of_cored (cored_updSrq s q f)

@[simp] theorem cored_updCq (s : State) (c : Nat) (f : Cq → Cq) :
    corePart (updCq s c f) = corePart s := by
  unfold updCq; simp (maxDischargeDepth := 9)

@[simp] theorem hostSided_updCq (s : State) (c : Nat) (f : Cq → Cq) :
    hostSidePart (updCq s c f) = hostSidePart s :=
  hostSided_of_cored (cored_updCq s c f)

@[simp] theorem cored_updEq (s : State) (c : Nat) (f : Eq → Eq) :
    corePart (updEq s c f) = corePart s := by
  unfold updEq; simp (maxDischargeDepth := 9)

@[simp] theorem hostSided_updEq (s : State) (c : Nat) (f : Eq → Eq) :
    hostSidePart (updEq s c f) = hostSidePart s :=
  hostSided_of_cored (cored_updEq s c f)

@[simp] theorem cored_updLine (s : State) (c : Nat) (l : LineId) (f : CLine → CLine) :
    corePart (updLine s c l f) = corePart s := by
  rfl

@[simp] theorem hostSided_updLine (s : State) (c : Nat) (l : LineId) (f : CLine → CLine) :
    hostSidePart (updLine s c l f) = hostSidePart s :=
  hostSided_of_cored (cored_updLine s c l f)

@[simp] theorem cored_updDir (s : State) (l : LineId) (f : Dir → Dir) :
    corePart (updDir s l f) = corePart s := by
  rfl

@[simp] theorem hostSided_updDir (s : State) (l : LineId) (f : Dir → Dir) :
    hostSidePart (updDir s l f) = hostSidePart s :=
  hostSided_of_cored (cored_updDir s l f)

@[simp] theorem cored_dropLines (s : State) (kind num : Nat) :
    corePart (dropLines s kind num) = corePart s := by
  rfl

@[simp] theorem hostSided_dropLines (s : State) (kind num : Nat) :
    hostSidePart (dropLines s kind num) = hostSidePart s :=
  hostSided_of_cored (cored_dropLines s kind num)

@[simp] theorem cored_cohSend (s : State) (msg src dst : Nat) (l : LineId) (acks : Nat) :
    corePart (cohSend s msg src dst l acks) = corePart s := by
  unfold cohSend; simp (maxDischargeDepth := 9)

@[simp] theorem cored_sendFwd (s : State) (home msg dst : Nat) (l : LineId) (acks : Nat) :
    corePart (sendFwd s home msg dst l acks) = corePart s := by
  unfold sendFwd; simp (maxDischargeDepth := 9)

@[simp] theorem cored_invSharers (s : State) (home : Nat) (l : LineId) (who : List Nat) :
    corePart (invSharers s home l who) = corePart s := by
  unfold invSharers; simp (maxDischargeDepth := 9) [foldl_cored]

@[simp] theorem cored_recallLine (s : State) (home : Nat) (l : LineId) :
    corePart (recallLine s home l) = corePart s := by
  unfold recallLine; simp (maxDischargeDepth := 9) [foldl_cored]

@[simp] theorem cored_recallLines (s : State) (home kind num : Nat) :
    corePart (recallLines s home kind num) = corePart s := by
  unfold recallLines; simp (maxDischargeDepth := 9) [foldl_cored]

@[simp] theorem cored_homeGetS (s : State) (home req : Nat) (l : LineId) :
    corePart (homeGetS s home req l) = corePart s := by
  unfold homeGetS; simp only; (repeat' split) <;> simp_all (maxDischargeDepth := 9)

@[simp] theorem cored_homeGetM (s : State) (home req : Nat) (l : LineId) :
    corePart (homeGetM s home req l) = corePart s := by
  unfold homeGetM; simp (maxDischargeDepth := 9)

@[simp] theorem cored_homeUpgrade (s : State) (home req : Nat) (l : LineId) :
    corePart (homeUpgrade s home req l) = corePart s := by
  unfold homeUpgrade; simp (maxDischargeDepth := 9)

@[simp] theorem cored_lineOut (s : State) (c : Nat) (l : LineId) :
    corePart (lineOut s c l) = corePart s := by
  unfold lineOut; simp (maxDischargeDepth := 9)

@[simp] theorem cored_homePut (s : State) (home req : Nat) (l : LineId) :
    corePart (homePut s home req l) = corePart s := by
  unfold homePut; simp (maxDischargeDepth := 9)

@[simp] theorem cored_homeServe (s : State) (home : Nat) (k : CohReq) (req : Nat) (l : LineId) :
    corePart (homeServe s home k req l) = corePart s := by
  unfold homeServe; (repeat' split) <;> simp (maxDischargeDepth := 9)

@[simp] theorem cored_homeNext (s : State) (home : Nat) (l : LineId) (x0 : Nat) :
    corePart (homeNext s home l x0) = corePart s := by
  induction x0 generalizing s with
  | zero => simp (maxDischargeDepth := 9) [homeNext]
  | succ k ih => (unfold homeNext; simp only; repeat' split) <;> simp_all (maxDischargeDepth := 9)

@[simp] theorem cored_endBusy (s : State) (l : LineId) :
    corePart (endBusy s l) = corePart s := by
  unfold endBusy; (repeat' split) <;> simp (maxDischargeDepth := 9)

@[simp] theorem cored_sendReq (s : State) (home : Nat) (k : CohReq) (c : Nat) (l : LineId) :
    corePart (sendReq s home k c l) = corePart s := by
  unfold sendReq; simp (maxDischargeDepth := 9)

@[simp] theorem cored_markVictim (s : State) (c : Nat) (keep : LineId) :
    corePart (markVictim s c keep) = corePart s := by
  unfold markVictim; simp only; (repeat' split) <;> simp_all (maxDischargeDepth := 9)

@[simp] theorem cored_lookup (s : State) (k : CohReq) (c : Nat) (l : LineId) :
    corePart (lookup s k c l) = corePart s := by
  unfold lookup; (repeat' split) <;> simp (maxDischargeDepth := 9)

theorem cored_engineUse (s : State) (quad eng : Nat) (w : Bool) (l : LineId) :
    ∀ t, engineUse s quad eng w l = .inl t ∨ engineUse s quad eng w l = .inr t → corePart t = corePart s := by
  intro t h
  unfold engineUse at h
  repeat' split at h
  all_goals rcases h with h | h <;> first
  | (cases h; simp; done)
  | (cases h; rfl)
  | cases h

theorem hostSided_engineUse (s : State) (quad eng : Nat) (w : Bool) (l : LineId) :
    ∀ t, engineUse s quad eng w l = .inl t ∨ engineUse s quad eng w l = .inr t → hostSidePart t = hostSidePart s :=
  fun u hu => hostSided_of_cored (cored_engineUse s quad eng w l u hu)

theorem engined_engineUse (s : State) (quad eng : Nat) (w : Bool) (l : LineId) :
    ∀ t, engineUse s quad eng w l = .inl t ∨ engineUse s quad eng w l = .inr t → enginePart t = enginePart s :=
  fun u hu => engined_of_cored (cored_engineUse s quad eng w l u hu)

theorem cored_useLine (s : State) (f eng : Nat) (w : Bool) (kind num : Nat) :
    ∀ t, useLine s f eng w kind num = .inl t ∨ useLine s f eng w kind num = .inr t → corePart t = corePart s := by
  intro t h
  unfold useLine at h
  exact cored_engineUse _ _ _ _ _ _ h

theorem hostSided_useLine (s : State) (f eng : Nat) (w : Bool) (kind num : Nat) :
    ∀ t, useLine s f eng w kind num = .inl t ∨ useLine s f eng w kind num = .inr t → hostSidePart t = hostSidePart s :=
  fun u hu => hostSided_of_cored (cored_useLine s f eng w kind num u hu)

theorem cored_useWins (s : State) (f eng : Nat) (x0 : List Sge) :
    ∀ t, useWins s f eng x0 = .inl t ∨ useWins s f eng x0 = .inr t → corePart t = corePart s := by
  induction x0 generalizing s with
  | nil => intro t h; unfold useWins at h; rcases h with h | h <;> cases h; rfl
  | cons e rest ih =>
    intro t h
    unfold useWins at h
    split at h <;> rename_i u e1
    · rcases h with h | h <;> cases h
      exact cored_useLine _ _ _ _ _ _ _ (.inl e1)
    · rw [ih u t h]; exact cored_useLine _ _ _ _ _ _ _ (.inr e1)

theorem hostSided_useWins (s : State) (f eng : Nat) (x0 : List Sge) :
    ∀ t, useWins s f eng x0 = .inl t ∨ useWins s f eng x0 = .inr t → hostSidePart t = hostSidePart s :=
  fun u hu => hostSided_of_cored (cored_useWins s f eng x0 u hu)

theorem engined_useWins (s : State) (f eng : Nat) (x0 : List Sge) :
    ∀ t, useWins s f eng x0 = .inl t ∨ useWins s f eng x0 = .inr t → enginePart t = enginePart s :=
  fun u hu => engined_of_cored (cored_useWins s f eng x0 u hu)

theorem cored_useStores (s : State) (f srq : Nat) :
    ∀ t, useStores s f srq = .inl t ∨ useStores s f srq = .inr t → corePart t = corePart s := by
  intro t h
  unfold useStores at h
  split at h <;> rename_i u e1
  · rcases h with h | h <;> cases h
    exact cored_useLine _ _ _ _ _ _ _ (.inl e1)
  · rw [cored_useLine _ _ _ _ _ _ _ h]; exact cored_useLine _ _ _ _ _ _ _ (.inr e1)

theorem hostSided_useStores (s : State) (f srq : Nat) :
    ∀ t, useStores s f srq = .inl t ∨ useStores s f srq = .inr t → hostSidePart t = hostSidePart s :=
  fun u hu => hostSided_of_cored (cored_useStores s f srq u hu)

@[simp] theorem cored_dma (s : State) (f addr : Nat) (bytes : List Byte) :
    corePart (dma s f addr bytes) = corePart s := by
  unfold dma; simp (maxDischargeDepth := 9)

@[simp] theorem hostSided_dma (s : State) (f addr : Nat) (bytes : List Byte) :
    hostSidePart (dma s f addr bytes) = hostSidePart s :=
  hostSided_of_cored (cored_dma s f addr bytes)

@[simp] theorem hostSided_readOut (s : State) (f addr len q : Nat) :
    hostSidePart (readOut s f addr len q) = hostSidePart s := by
  unfold readOut; simp (maxDischargeDepth := 9)

@[simp] theorem hostSided_readBack (s : State) (f : Nat) :
    hostSidePart (readBack s f) = hostSidePart s := by
  unfold readBack; simp (maxDischargeDepth := 9)

@[simp] theorem cored_signalVec (s : State) (f vec : Nat) :
    corePart (signalVec s f vec) = corePart s := by
  unfold signalVec; simp (maxDischargeDepth := 9)

@[simp] theorem cored_writeEq (s : State) (f kind status qkind num : Nat) (wqe : BitVec 16) :
    corePart (writeEq s f kind status qkind num wqe) = corePart s := by
  unfold writeEq
  split
  · rfl
  · split
    · rfl
    · split <;> rename_i t e
      · exact cored_useLine _ _ _ _ _ _ _ (.inl e)
      · have k := cored_useLine _ _ _ _ _ _ _ (.inr e)
        simpa using k

@[simp] theorem hostSided_writeEq (s : State) (f kind status qkind num : Nat) (wqe : BitVec 16) :
    hostSidePart (writeEq s f kind status qkind num wqe) = hostSidePart s :=
  hostSided_of_cored (cored_writeEq s f kind status qkind num wqe)

@[simp] theorem cored_putCqe (s : State) (n : Nat) (c : Cq) (e : CqEnt) (solicit : Bool) :
    corePart (putCqe s n c e solicit) = corePart s := by
  unfold putCqe; simp (maxDischargeDepth := 9)

@[simp] theorem cored_cqComplete (s : State) (n : Nat) (e : CqEnt) (solicit : Bool := false) :
    corePart (cqComplete s n e solicit) = corePart s := by
  unfold cqComplete
  split
  · rfl
  · split
    · rfl
    · split
      · simp
      · split <;> rename_i t e
        · exact cored_useLine _ _ _ _ _ _ _ (.inl e)
        · have k := cored_useLine _ _ _ _ _ _ _ (.inr e)
          split <;> simpa using k

@[simp] theorem cored_cqRelease (s : State) (n : Nat) (x0 : Nat) :
    corePart (cqRelease s n x0) = corePart s := by
  induction x0 generalizing s with
  | zero => rfl
  | succ k ih =>
    unfold cqRelease
    split
    · rfl
    · split
      · rfl
      · split
        · rfl
        · simp [ih]

@[simp] theorem hostSided_cqRelease (s : State) (n : Nat) (x0 : Nat) :
    hostSidePart (cqRelease s n x0) = hostSidePart s :=
  hostSided_of_cored (cored_cqRelease s n x0)

@[simp] theorem cored_dmaScatter (s : State) (x0 : List (Nat × Nat × Nat)) (x1 : List Byte) :
    corePart (dmaScatter s x0 x1) = corePart s := by
  induction x0 generalizing s x1 with
  | nil => simp (maxDischargeDepth := 9) [dmaScatter]
  | cons a l ih => (unfold dmaScatter; (repeat' split) <;> first | rfl | (simp (maxDischargeDepth := 9) [ih]; done))

@[simp] theorem hostSided_dmaScatter (s : State) (x0 : List (Nat × Nat × Nat)) (x1 : List Byte) :
    hostSidePart (dmaScatter s x0 x1) = hostSidePart s :=
  hostSided_of_cored (cored_dmaScatter s x0 x1)

@[simp] theorem engined_dmaScatter (s : State) (x0 : List (Nat × Nat × Nat)) (x1 : List Byte) :
    enginePart (dmaScatter s x0 x1) = enginePart s :=
  engined_of_cored (cored_dmaScatter s x0 x1)

@[simp] theorem hostSided_dataRead (s : State) (ep q : Nat) (l : List (Nat × Nat × Nat)) (d : DataRead) :
    hostSidePart (dataRead s ep q l d) = hostSidePart s := by
  unfold dataRead; simp (maxDischargeDepth := 9) [foldl_hostSided]

@[simp] theorem cored_placeWin (s : State) (w : Win) (o : Nat) (bytes : List Byte) :
    corePart (placeWin s w o bytes) = corePart s := by
  unfold placeWin; simp (maxDischargeDepth := 9)

@[simp] theorem engined_placeWin (s : State) (w : Win) (o : Nat) (bytes : List Byte) :
    enginePart (placeWin s w o bytes) = enginePart s :=
  engined_of_cored (cored_placeWin s w o bytes)

@[simp] theorem cored_atsAsk (s : State) (w : Win) (addr : Nat) (what : AtsWait) :
    corePart (atsAsk s w addr what) = corePart s := by
  unfold atsAsk; simp (maxDischargeDepth := 9)

@[simp] theorem hostSided_atsAsk (s : State) (w : Win) (addr : Nat) (what : AtsWait) :
    hostSidePart (atsAsk s w addr what) = hostSidePart s :=
  hostSided_of_cored (cored_atsAsk s w addr what)

@[simp] theorem cored_pkeyFail (s : State) (die obj : Nat) (key : BitVec 16) :
    corePart (pkeyFail s die obj key) = corePart s := by
  unfold pkeyFail; simp (maxDischargeDepth := 9)

@[simp] theorem hostSided_pkeyFail (s : State) (die obj : Nat) (key : BitVec 16) :
    hostSidePart (pkeyFail s die obj key) = hostSidePart s :=
  hostSided_of_cored (cored_pkeyFail s die obj key)

@[simp] theorem hostSided_policed (s : State) (ep k : Nat) (p : Pkt) :
    hostSidePart (policed s ep k p) = hostSidePart s := by
  unfold policed; simp (maxDischargeDepth := 9)

@[simp] theorem hostSided_takeTokens (s : State) (ep k : Nat) (p : Pkt) :
    hostSidePart (takeTokens s ep k p) = hostSidePart s := by
  unfold takeTokens; simp (maxDischargeDepth := 9)

@[simp] theorem hostSided_pumpShaped (s : State) (k : Nat) (x0 : Nat) :
    hostSidePart (pumpShaped s k x0) = hostSidePart s := by
  induction x0 generalizing s with
  | zero => simp (maxDischargeDepth := 9) [pumpShaped]
  | succ k ih => (unfold pumpShaped; (repeat' split) <;> first | rfl | (simp (maxDischargeDepth := 9) [ih]; done))

@[simp] theorem hostSided_pumpShapers (s : State) :
    hostSidePart (pumpShapers s) = hostSidePart s := by
  unfold pumpShapers; simp (maxDischargeDepth := 9)

@[simp] theorem cored_dropShaped (s : State) (q : Nat) (drop : BitVec 32 → Bool) :
    corePart (dropShaped s q drop) = corePart s := by
  unfold dropShaped; simp (maxDischargeDepth := 9)

@[simp] theorem hostSided_dropShaped (s : State) (q : Nat) (drop : BitVec 32 → Bool) :
    hostSidePart (dropShaped s q drop) = hostSidePart s :=
  hostSided_of_cored (cored_dropShaped s q drop)

@[simp] theorem hostSided_inject (s : State) (q : Nat) (x : Qp) (entropy : BitVec 16) (th : TransHdr) (e : Ext) (payload : List Byte) :
    hostSidePart (inject s q x entropy th e payload) = hostSidePart s := by
  unfold inject; simp (maxDischargeDepth := 9)

@[simp] theorem engined_inject (s : State) (q : Nat) (x : Qp) (entropy : BitVec 16) (th : TransHdr) (e : Ext) (payload : List Byte) :
    enginePart (inject s q x entropy th e payload) = enginePart s :=
  engined_of_hostSided (hostSided_inject s q x entropy th e payload)

@[simp] theorem hostSided_sendAck (s : State) (q : Nat) (code : Nat) (nakPsn : BitVec 32) (retry : Nat) :
    hostSidePart (sendAck s q code nakPsn retry) = hostSidePart s := by
  unfold sendAck; (repeat' split) <;> simp (maxDischargeDepth := 9)

@[simp] theorem hostSided_sendRequest (s : State) (q : Nat) (th : TransHdr) (e : Ext) (payload : List Byte) (path : Nat) :
    hostSidePart (sendRequest s q th e payload path) = hostSidePart s := by
  unfold sendRequest; (repeat' split) <;> simp (maxDischargeDepth := 9)

@[simp] theorem cored_updRing (s : State) (q : Nat) (f : Ring → Ring) :
    corePart (updRing s q f) = corePart s := by
  unfold updRing; simp (maxDischargeDepth := 9)

@[simp] theorem hostSided_updRing (s : State) (q : Nat) (f : Ring → Ring) :
    hostSidePart (updRing s q f) = hostSidePart s :=
  hostSided_of_cored (cored_updRing s q f)

@[simp] theorem hostSided_issueFetch (s : State) (q : Nat) :
    hostSidePart (issueFetch s q) = hostSidePart s := by
  unfold issueFetch; (repeat' split) <;> simp (maxDischargeDepth := 9) [foldl_hostSided]

@[simp] theorem hostSided_rereadSlot (s : State) (q : Nat) :
    hostSidePart (rereadSlot s q) = hostSidePart s := by
  unfold rereadSlot; (repeat' split) <;> simp (maxDischargeDepth := 9)

@[simp] theorem cored_writeHead (s : State) (q : Nat) :
    corePart (writeHead s q) = corePart s := by
  unfold writeHead; (repeat' split) <;> simp (maxDischargeDepth := 9)

@[simp] theorem hostSided_writeHead (s : State) (q : Nat) :
    hostSidePart (writeHead s q) = hostSidePart s :=
  hostSided_of_cored (cored_writeHead s q)

@[simp] theorem cored_countStatus (s : State) (ep status : Nat) :
    corePart (countStatus s ep status) = corePart s := by
  unfold countStatus; simp (maxDischargeDepth := 9)

@[simp] theorem cored_reportSend (s : State) (q : Nat) (x : Qp) (wqe : BitVec 16) (signal : Bool) (op status bytes : Nat) (extra : List Byte) :
    corePart (reportSend s q x wqe signal op status bytes extra) = corePart s := by
  unfold reportSend; (repeat' split) <;> simp (maxDischargeDepth := 9)

@[simp] theorem hostSided_reportSend (s : State) (q : Nat) (x : Qp) (wqe : BitVec 16) (signal : Bool) (op status bytes : Nat) (extra : List Byte) :
    hostSidePart (reportSend s q x wqe signal op status bytes extra) = hostSidePart s :=
  hostSided_of_cored (cored_reportSend s q x wqe signal op status bytes extra)

@[simp] theorem cored_completeEnt (s : State) (q : Nat) (idx : BitVec 32) (status bytes : Nat) (extra : List Byte := []) :
    corePart (completeEnt s q idx status bytes extra) = corePart s := by
  unfold completeEnt; (repeat' split) <;> simp (maxDischargeDepth := 9)

@[simp] theorem hostSided_completeEnt (s : State) (q : Nat) (idx : BitVec 32) (status bytes : Nat) (extra : List Byte := []) :
    hostSidePart (completeEnt s q idx status bytes extra) = hostSidePart s :=
  hostSided_of_cored (cored_completeEnt s q idx status bytes extra)

@[simp] theorem cored_completeRecv (s : State) (srq : Nat) (wqe : BitVec 16) (qpn op status bytes : Nat) (extra : List Byte) (solicit : Bool := false) (ctag : BitVec 64 := 0) (matched : Bool := false) :
    corePart (completeRecv s srq wqe qpn op status bytes extra solicit ctag matched) = corePart s := by
  unfold completeRecv; (repeat' split) <;> simp (maxDischargeDepth := 9)

@[simp] theorem hostSided_completeRecv (s : State) (srq : Nat) (wqe : BitVec 16) (qpn op status bytes : Nat) (extra : List Byte) (solicit : Bool := false) (ctag : BitVec 64 := 0) (matched : Bool := false) :
    hostSidePart (completeRecv s srq wqe qpn op status bytes extra solicit ctag matched) = hostSidePart s :=
  hostSided_of_cored (cored_completeRecv s srq wqe qpn op status bytes extra solicit ctag matched)

@[simp] theorem cored_completeQpRecv (s : State) (x : Qp) (wqe : BitVec 16) (qpn op status bytes : Nat) (extra : List Byte) (solicit : Bool) :
    corePart (completeQpRecv s x wqe qpn op status bytes extra solicit) = corePart s := by
  unfold completeQpRecv; (repeat' split) <;> simp (maxDischargeDepth := 9)

@[simp] theorem hostSided_completeQpRecv (s : State) (x : Qp) (wqe : BitVec 16) (qpn op status bytes : Nat) (extra : List Byte) (solicit : Bool) :
    hostSidePart (completeQpRecv s x wqe qpn op status bytes extra solicit) = hostSidePart s :=
  hostSided_of_cored (cored_completeQpRecv s x wqe qpn op status bytes extra solicit)

@[simp] theorem cored_updSrqStore (s : State) (q : Nat) (f : Srq → Srq) :
    corePart (updSrqStore s q f) = corePart s := by
  unfold updSrqStore; (repeat' split) <;> simp (maxDischargeDepth := 9)

@[simp] theorem hostSided_updSrqStore (s : State) (q : Nat) (f : Srq → Srq) :
    hostSidePart (updSrqStore s q f) = hostSidePart s :=
  hostSided_of_cored (cored_updSrqStore s q f)

@[simp] theorem cored_takeChunks (s : State) (home f n : Nat) :
    corePart (takeChunks s home f n) = corePart s := by
  unfold takeChunks; simp (maxDischargeDepth := 9)

@[simp] theorem hostSided_takeChunks (s : State) (home f n : Nat) :
    hostSidePart (takeChunks s home f n) = hostSidePart s :=
  hostSided_of_cored (cored_takeChunks s home f n)

@[simp] theorem cored_freeChunks (s : State) (home f n : Nat) :
    corePart (freeChunks s home f n) = corePart s := by
  unfold freeChunks; simp (maxDischargeDepth := 9)

@[simp] theorem hostSided_freeChunks (s : State) (home f n : Nat) :
    hostSidePart (freeChunks s home f n) = hostSidePart s :=
  hostSided_of_cored (cored_freeChunks s home f n)

@[simp] theorem hostSided_dropWaiting (s : State) (q : Nat) :
    hostSidePart (dropWaiting s q) = hostSidePart s := by
  unfold dropWaiting; simp only; (repeat' split) <;> simp_all (maxDischargeDepth := 9)

@[simp] theorem cored_addPend (s : State) (q : Nat) (p : Pend) :
    corePart (addPend s q p) = corePart s := by
  unfold addPend; simp (maxDischargeDepth := 9)

@[simp] theorem hostSided_addPend (s : State) (q : Nat) (p : Pend) :
    hostSidePart (addPend s q p) = hostSidePart s :=
  hostSided_of_cored (cored_addPend s q p)

@[simp] theorem hostSided_pumpFins (s : State) (q : Nat) (x0 : Nat) :
    hostSidePart (pumpFins s q x0) = hostSidePart s := by
  induction x0 generalizing s with
  | zero => simp (maxDischargeDepth := 9) [pumpFins]
  | succ k ih => (unfold pumpFins; (repeat' split) <;> first | rfl | (simp (maxDischargeDepth := 9) [ih]; done))

@[simp] theorem engined_pumpFins (s : State) (q : Nat) (x0 : Nat) :
    enginePart (pumpFins s q x0) = enginePart s :=
  engined_of_hostSided (hostSided_pumpFins s q x0)

@[simp] theorem hostSided_sendFin (s : State) (q : Nat) (m : TagMsg) (bytes status : Nat) :
    hostSidePart (sendFin s q m bytes status) = hostSidePart s := by
  unfold sendFin; simp (maxDischargeDepth := 9)

@[simp] theorem cored_queueErrorEvent (s : State) (f kind num status : Nat) (wqe : BitVec 16) :
    corePart (queueErrorEvent s f kind num status wqe) = corePart s := by
  unfold queueErrorEvent; simp (maxDischargeDepth := 9)

@[simp] theorem hostSided_queueErrorEvent (s : State) (f kind num status : Nat) (wqe : BitVec 16) :
    hostSidePart (queueErrorEvent s f kind num status wqe) = hostSidePart s :=
  hostSided_of_cored (cored_queueErrorEvent s f kind num status wqe)

@[simp] theorem cored_flushEnts (s : State) (q : Nat) (l : List Ent) :
    corePart (flushEnts s q l) = corePart s := by
  unfold flushEnts; simp (maxDischargeDepth := 9) [foldl_cored]

@[simp] theorem hostSided_flushEnts (s : State) (q : Nat) (l : List Ent) :
    hostSidePart (flushEnts s q l) = hostSidePart s :=
  hostSided_of_cored (cored_flushEnts s q l)

@[simp] theorem cored_completeMatched (s : State) (q : Nat) (m : Matched) (status bytes : Nat) (truncated : Bool) :
    corePart (completeMatched s q m status bytes truncated) = corePart s := by
  unfold completeMatched; (repeat' split) <;> simp (maxDischargeDepth := 9)

@[simp] theorem hostSided_completeMatched (s : State) (q : Nat) (m : Matched) (status bytes : Nat) (truncated : Bool) :
    hostSidePart (completeMatched s q m status bytes truncated) = hostSidePart s :=
  hostSided_of_cored (cored_completeMatched s q m status bytes truncated)

@[simp] theorem cored_endRdvs (s : State) (q status : Nat) :
    corePart (endRdvs s q status) = corePart s := by
  unfold endRdvs; (repeat' split) <;> simp (maxDischargeDepth := 9) [foldl_cored]

@[simp] theorem hostSided_endRdvs (s : State) (q status : Nat) :
    hostSidePart (endRdvs s q status) = hostSidePart s :=
  hostSided_of_cored (cored_endRdvs s q status)

@[simp] theorem hostSided_flushSrq (s : State) (q : Nat) :
    hostSidePart (flushSrq s q) = hostSidePart s := by
  unfold flushSrq; (repeat' split) <;> simp (maxDischargeDepth := 9) [foldl_hostSided]

@[simp] theorem hostSided_waitSlot (s : State) (f q : Nat) :
    hostSidePart (waitSlot s f q) = hostSidePart s := by
  unfold waitSlot; simp (maxDischargeDepth := 9)

@[simp] theorem hostSided_flushPartial (s : State) (q : Nat) :
    hostSidePart (flushPartial s q) = hostSidePart s := by
  unfold flushPartial; (repeat' split) <;> simp (maxDischargeDepth := 9)

@[simp] theorem hostSided_drainQp (s : State) (q : Nat) :
    hostSidePart (drainQp s q) = hostSidePart s := by
  unfold drainQp; (repeat' split) <;> simp (maxDischargeDepth := 9)

@[simp] theorem hostSided_errorQp (s : State) (q status : Nat) (wqe : BitVec 16) :
    hostSidePart (errorQp s q status wqe) = hostSidePart s := by
  unfold errorQp; (repeat' split) <;> simp (maxDischargeDepth := 9)

@[simp] theorem hostSided_errorSrq (s : State) (q status : Nat) (wqe : BitVec 16) :
    hostSidePart (errorSrq s q status wqe) = hostSidePart s := by
  unfold errorSrq; (repeat' split) <;> simp (maxDischargeDepth := 9)

@[simp] theorem cored_updStep (s : State) (g : Nat) (f : PStep → PStep) :
    corePart (updStep s g f) = corePart s := by
  unfold updStep; simp (maxDischargeDepth := 9)

@[simp] theorem cored_driveCode (s : State) (g c : Nat) :
    corePart (driveCode s g c) = corePart s := by
  unfold driveCode; simp (maxDischargeDepth := 9)

@[simp] theorem cored_sendRise (s : State) (g c : Nat) :
    corePart (sendRise s g c) = corePart s := by
  unfold sendRise; simp (maxDischargeDepth := 9)

@[simp] theorem cored_notifyRise (s : State) (g amps : Nat) :
    corePart (notifyRise s g amps) = corePart s := by
  unfold notifyRise; simp (maxDischargeDepth := 9)

@[simp] theorem cored_notifyFall (s : State) (g amps : Nat) :
    corePart (notifyFall s g amps) = corePart s := by
  unfold notifyFall; simp (maxDischargeDepth := 9)

@[simp] theorem cored_forecast (s : State) (g amount : Nat) :
    corePart (forecast s g amount) = corePart s := by
  unfold forecast; simp (maxDischargeDepth := 9)

@[simp] theorem linkSided_forecast (s : State) (g amount : Nat) :
    linkSidePart (forecast s g amount) = linkSidePart s :=
  linkSided_of_cored (cored_forecast s g amount)

@[simp] theorem settled_forecast (s : State) (g amount : Nat) :
    settledPart (forecast s g amount) = settledPart s :=
  settled_of_cored (cored_forecast s g amount)

@[simp] theorem fixed_forecast (s : State) (g amount : Nat) :
    fixedPart (forecast s g amount) = fixedPart s :=
  fixed_of_cored (cored_forecast s g amount)

@[simp] theorem cored_forecastFall (s : State) (g amount : Nat) :
    corePart (forecastFall s g amount) = corePart s := by
  unfold forecastFall; simp (maxDischargeDepth := 9)

@[simp] theorem hostSided_forecastFall (s : State) (g amount : Nat) :
    hostSidePart (forecastFall s g amount) = hostSidePart s :=
  hostSided_of_cored (cored_forecastFall s g amount)

@[simp] theorem cored_endStep (s : State) (g : Nat) :
    corePart (endStep s g) = corePart s := by
  unfold endStep; simp (maxDischargeDepth := 9)

@[simp] theorem linkSided_endStep (s : State) (g : Nat) :
    linkSidePart (endStep s g) = linkSidePart s :=
  linkSided_of_cored (cored_endStep s g)

@[simp] theorem cored_updTree (s : State) (id : Nat) (f : Tree → Tree) :
    corePart (updTree s id f) = corePart s := by
  unfold updTree; simp (maxDischargeDepth := 9)

@[simp] theorem portFreed_updTree (s : State) (id : Nat) (f : Tree → Tree) :
    portFreePart (updTree s id f) = portFreePart s :=
  portFreed_of_cored (cored_updTree s id f)

@[simp] theorem cored_updColl (s : State) (id : Nat) (seq : BitVec 32) (f : Coll → Coll) :
    corePart (updColl s id seq f) = corePart s := by
  unfold updColl; simp (maxDischargeDepth := 9)

@[simp] theorem portFreed_updColl (s : State) (id : Nat) (seq : BitVec 32) (f : Coll → Coll) :
    portFreePart (updColl s id seq f) = portFreePart s :=
  portFreed_of_cored (cored_updColl s id seq f)

@[simp] theorem cored_updEdge (s : State) (id e : Nat) (f : Edge → Edge) :
    corePart (updEdge s id e f) = corePart s := by
  unfold updEdge; simp (maxDischargeDepth := 9)

@[simp] theorem portFreed_updEdge (s : State) (id e : Nat) (f : Edge → Edge) :
    portFreePart (updEdge s id e f) = portFreePart s :=
  portFreed_of_cored (cored_updEdge s id e f)

@[simp] theorem cored_sendTree (s : State) (id : Nat) (t : Tree) (p : Nat) (c : CollHdr) (payload : List Byte) :
    corePart (sendTree s id t p c payload) = corePart s := by
  unfold sendTree; simp (maxDischargeDepth := 9)

@[simp] theorem cored_crossOpal (s : State) (f id n : Nat) (up : Bool) :
    corePart (crossOpal s f id n up) = corePart s := by
  unfold crossOpal; simp (maxDischargeDepth := 9)

@[simp] theorem hostSided_crossOpal (s : State) (f id n : Nat) (up : Bool) :
    hostSidePart (crossOpal s f id n up) = hostSidePart s :=
  hostSided_of_cored (cored_crossOpal s f id n up)

@[simp] theorem cored_sendTreeCredit (s : State) (id e n : Nat) :
    corePart (sendTreeCredit s id e n) = corePart s := by
  unfold sendTreeCredit; (repeat' split) <;> simp (maxDischargeDepth := 9)

@[simp] theorem portFreed_sendTreeCredit (s : State) (id e n : Nat) :
    portFreePart (sendTreeCredit s id e n) = portFreePart s :=
  portFreed_of_cored (cored_sendTreeCredit s id e n)

@[simp] theorem cored_edgeUp (s : State) (id e : Nat) :
    corePart (edgeUp s id e) = corePart s := by
  unfold edgeUp; (repeat' split) <;> simp (maxDischargeDepth := 9)

@[simp] theorem controlled_edgeUp (s : State) (id e : Nat) :
    controlPart (edgeUp s id e) = controlPart s :=
  controlled_of_cored (cored_edgeUp s id e)

@[simp] theorem cored_portEdgesUp (s : State) (p : Nat) :
    corePart (portEdgesUp s p) = corePart s := by
  unfold portEdgesUp; (repeat' (first | split | (refine Eq.trans (cored_foldS _ _ _ ?_) ?_; intro _ _) | (refine Eq.trans (foldl_cored _ ?_ _ _) ?_; intro _ _) | (simp (maxDischargeDepth := 9) [*]; done) | simp (maxDischargeDepth := 9) [foldl_cored]))

@[simp] theorem portFreed_portEdgesUp (s : State) (p : Nat) :
    portFreePart (portEdgesUp s p) = portFreePart s :=
  portFreed_of_cored (cored_portEdgesUp s p)

@[simp] theorem cored_countFlags (s : State) (id : Nat) (t : Tree) (c : Coll) :
    corePart (countFlags s id t c) = corePart s := by
  unfold countFlags; simp (maxDischargeDepth := 9)

@[simp] theorem cored_collAbortEvent (s : State) (id : Nat) (seq : BitVec 32) (st : Nat) :
    corePart (collAbortEvent s id seq st) = corePart s := by
  unfold collAbortEvent; simp (maxDischargeDepth := 9)

@[simp] theorem cored_endColl (s : State) (id : Nat) (seq : BitVec 32) (st : Nat) (from_ : Option Nat) :
    corePart (endColl s id seq st from_) = corePart s := by
  unfold endColl; (repeat' (first | split | (refine Eq.trans (cored_foldS _ _ _ ?_) ?_; intro _ _) | (refine Eq.trans (foldl_cored _ ?_ _ _) ?_; intro _ _) | (simp (maxDischargeDepth := 9) [*]; done) | simp (maxDischargeDepth := 9) [foldl_cored]))

@[simp] theorem portFreed_endColl (s : State) (id : Nat) (seq : BitVec 32) (st : Nat) (from_ : Option Nat) :
    portFreePart (endColl s id seq st from_) = portFreePart s :=
  portFreed_of_cored (cored_endColl s id seq st from_)

@[simp] theorem cored_finishColl (s : State) (id : Nat) (seq : BitVec 32) :
    corePart (finishColl s id seq) = corePart s := by
  unfold finishColl; (repeat' split) <;> simp (maxDischargeDepth := 9)

@[simp] theorem cored_pumpDown (s : State) (id : Nat) (x0 : Nat) :
    corePart (pumpDown s id x0) = corePart s := by
  induction x0 generalizing s with
  | zero => simp (maxDischargeDepth := 9) [pumpDown]
  | succ k ih => (unfold pumpDown; simp only; repeat' split) <;> simp_all (maxDischargeDepth := 9)

@[simp] theorem portFreed_pumpDown (s : State) (id : Nat) (x0 : Nat) :
    portFreePart (pumpDown s id x0) = portFreePart s :=
  portFreed_of_cored (cored_pumpDown s id x0)

@[simp] theorem cored_countEnc (s : State) (id : Nat) (payload : List Byte) :
    corePart (countEnc s id payload) = corePart s := by
  unfold countEnc; (repeat' split) <;> simp (maxDischargeDepth := 9)

@[simp] theorem cored_pumpUp (s : State) (id : Nat) (x0 : Nat) :
    corePart (pumpUp s id x0) = corePart s := by
  induction x0 generalizing s with
  | zero => simp (maxDischargeDepth := 9) [pumpUp]
  | succ k ih => (unfold pumpUp; (repeat' split) <;> first | rfl | (simp (maxDischargeDepth := 9) [ih]; done))

@[simp] theorem portFreed_pumpUp (s : State) (id : Nat) (x0 : Nat) :
    portFreePart (pumpUp s id x0) = portFreePart s :=
  portFreed_of_cored (cored_pumpUp s id x0)

@[simp] theorem cored_placeMember (s : State) (id : Nat) (seq : BitVec 32) (m : Member) (off : Nat) (bytes : List Byte) (blocks : Nat) :
    corePart (placeMember s id seq m off bytes blocks) = corePart s := by
  unfold placeMember; simp only; (repeat' split) <;> simp_all (maxDischargeDepth := 9)

@[simp] theorem cored_goDown (s : State) (id : Nat) (seq : BitVec 32) (first n : Nat) (bytes : List Byte) :
    corePart (goDown s id seq first n bytes) = corePart s := by
  unfold goDown; (repeat' split) <;> simp (maxDischargeDepth := 9) [foldl_cored]

@[simp] theorem portFreed_goDown (s : State) (id : Nat) (seq : BitVec 32) (first n : Nat) (bytes : List Byte) :
    portFreePart (goDown s id seq first n bytes) = portFreePart s :=
  portFreed_of_cored (cored_goDown s id seq first n bytes)

@[simp] theorem cored_finishBlock (s : State) (id : Nat) (seq : BitVec 32) (b : Nat) :
    corePart (finishBlock s id seq b) = corePart s := by
  unfold finishBlock; simp only; (repeat' split) <;> simp_all (maxDischargeDepth := 9)

@[simp] theorem cored_allEmpty (s : State) (id : Nat) (seq : BitVec 32) :
    corePart (allEmpty s id seq) = corePart s := by
  unfold allEmpty; (repeat' split) <;> simp (maxDischargeDepth := 9)

@[simp] theorem cored_activate (s : State) (id : Nat) (h : CollHdr) :
    corePart (activate s id h) = corePart s := by
  unfold activate; simp (maxDischargeDepth := 9)

@[simp] theorem cored_addBlocks (s : State) (id : Nat) (seq : BitVec 32) (edge : Nat) (x0 : List Contrib) (x1 : Nat) :
    corePart (addBlocks s id seq edge x0 x1) = corePart s := by
  induction x0 generalizing s x1 with
  | nil => simp (maxDischargeDepth := 9) [addBlocks]
  | cons a l ih => (unfold addBlocks; (repeat' split) <;> first | rfl | (simp (maxDischargeDepth := 9) [ih]; done))

@[simp] theorem cored_contribute (s : State) (id edge : Nat) (h : CollHdr) (xs : List Contrib) (bytes : Nat) :
    corePart (contribute s id edge h xs bytes) = corePart s := by
  unfold contribute; simp only; (repeat' split) <;> simp_all (maxDischargeDepth := 9)

@[simp] theorem hostSided_contribute (s : State) (id edge : Nat) (h : CollHdr) (xs : List Contrib) (bytes : Nat) :
    hostSidePart (contribute s id edge h xs bytes) = hostSidePart s :=
  hostSided_of_cored (cored_contribute s id edge h xs bytes)

@[simp] theorem cored_takeUp (s : State) (id edge : Nat) (h : CollHdr) (payload : List Byte) :
    corePart (takeUp s id edge h payload) = corePart s := by
  unfold takeUp; (repeat' split) <;> simp (maxDischargeDepth := 9)

@[simp] theorem portFreed_takeUp (s : State) (id edge : Nat) (h : CollHdr) (payload : List Byte) :
    portFreePart (takeUp s id edge h payload) = portFreePart s :=
  portFreed_of_cored (cored_takeUp s id edge h payload)

@[simp] theorem cored_releaseHold (s : State) (id : Nat) (x0 : Nat) :
    corePart (releaseHold s id x0) = corePart s := by
  induction x0 generalizing s with
  | zero => simp (maxDischargeDepth := 9) [releaseHold]
  | succ k ih => (unfold releaseHold; (repeat' split) <;> first | rfl | (simp (maxDischargeDepth := 9) [ih]; done))

@[simp] theorem portFreed_releaseHold (s : State) (id : Nat) (x0 : Nat) :
    portFreePart (releaseHold s id x0) = portFreePart s :=
  portFreed_of_cored (cored_releaseHold s id x0)

@[simp] theorem cored_breakTree (s : State) (id e st : Nat) :
    corePart (breakTree s id e st) = corePart s := by
  unfold breakTree; (repeat' split) <;> simp (maxDischargeDepth := 9) [foldl_cored]

@[simp] theorem hostSided_breakTree (s : State) (id e st : Nat) :
    hostSidePart (breakTree s id e st) = hostSidePart s :=
  hostSided_of_cored (cored_breakTree s id e st)

@[simp] theorem cored_edgeLost (s : State) (dest : EdgeTo) :
    corePart (edgeLost s dest) = corePart s := by
  unfold edgeLost; (repeat' (first | split | (refine Eq.trans (cored_foldS _ _ _ ?_) ?_; intro _ _) | (refine Eq.trans (foldl_cored _ ?_ _ _) ?_; intro _ _) | (simp (maxDischargeDepth := 9) [*]; done) | simp (maxDischargeDepth := 9) [foldl_cored]))

@[simp] theorem engined_edgeLost (s : State) (dest : EdgeTo) :
    enginePart (edgeLost s dest) = enginePart s :=
  engined_of_cored (cored_edgeLost s dest)

@[simp] theorem controlled_edgeLost (s : State) (dest : EdgeTo) :
    controlPart (edgeLost s dest) = controlPart s :=
  controlled_of_cored (cored_edgeLost s dest)

@[simp] theorem cored_abortColls (s : State) (q : Nat) :
    corePart (abortColls s q) = corePart s := by
  unfold abortColls; (repeat' (first | split | (refine Eq.trans (cored_foldS _ _ _ ?_) ?_; intro _ _) | (refine Eq.trans (foldl_cored _ ?_ _ _) ?_; intro _ _) | (simp (maxDischargeDepth := 9) [*]; done) | simp (maxDischargeDepth := 9) [foldl_cored]))

@[simp] theorem hostSided_abortColls (s : State) (q : Nat) :
    hostSidePart (abortColls s q) = hostSidePart s :=
  hostSided_of_cored (cored_abortColls s q)

@[simp] theorem hostSided_enterError (s : State) (q status : Nat) (wqe : BitVec 16 := 0xFFFF) :
    hostSidePart (enterError s q status wqe) = hostSidePart s := by
  unfold enterError; (repeat' split) <;> simp (maxDischargeDepth := 9)

@[simp] theorem hostSided_queueToError (s : State) (q status : Nat) (wqe : BitVec 16 := 0xFFFF) :
    hostSidePart (queueToError s q status wqe) = hostSidePart s := by
  unfold queueToError; simp (maxDischargeDepth := 9)

@[simp] theorem hostSided_failEnt (s : State) (q : Nat) (idx : BitVec 32) (status : Nat) :
    hostSidePart (failEnt s q idx status) = hostSidePart s := by
  unfold failEnt; simp (maxDischargeDepth := 9)

@[simp] theorem engined_failEnt (s : State) (q : Nat) (idx : BitVec 32) (status : Nat) :
    enginePart (failEnt s q idx status) = enginePart s :=
  engined_of_hostSided (hostSided_failEnt s q idx status)

@[simp] theorem hostSided_errorCqWith (s : State) (n st : Nat) :
    hostSidePart (errorCqWith s n st) = hostSidePart s := by
  unfold errorCqWith; (repeat' split) <;> simp (maxDischargeDepth := 9)

@[simp] theorem hostSided_errorCq (s : State) (n : Nat) :
    hostSidePart (errorCq s n) = hostSidePart s := by
  unfold errorCq; simp (maxDischargeDepth := 9)

@[simp] theorem cored_updEnt (s : State) (q : Nat) (idx : BitVec 32) (f : Ent → Ent) :
    corePart (updEnt s q idx f) = corePart s := by
  unfold updEnt; simp (maxDischargeDepth := 9)

@[simp] theorem hostSided_updEnt (s : State) (q : Nat) (idx : BitVec 32) (f : Ent → Ent) :
    hostSidePart (updEnt s q idx f) = hostSidePart s :=
  hostSided_of_cored (cored_updEnt s q idx f)

@[simp] theorem cored_noteShaper (s : State) (q : Nat) (x : Qp) (e : Ent) :
    corePart (noteShaper s q x e) = corePart s := by
  unfold noteShaper; (repeat' split) <;> simp (maxDischargeDepth := 9)

@[simp] theorem hostSided_noteShaper (s : State) (q : Nat) (x : Qp) (e : Ent) :
    hostSidePart (noteShaper s q x e) = hostSidePart s :=
  hostSided_of_cored (cored_noteShaper s q x e)

@[simp] theorem cored_noteWorking (s : State) (q : Nat) (x : Qp) :
    corePart (noteWorking s q x) = corePart s := by
  unfold noteWorking; (repeat' split) <;> simp (maxDischargeDepth := 9)

@[simp] theorem hostSided_noteWorking (s : State) (q : Nat) (x : Qp) :
    hostSidePart (noteWorking s q x) = hostSidePart s :=
  hostSided_of_cored (cored_noteWorking s q x)

@[simp] theorem cored_handOver (s : State) (q : Nat) (idx : BitVec 32) :
    corePart (handOver s q idx) = corePart s := by
  unfold handOver; simp (maxDischargeDepth := 9)

@[simp] theorem hostSided_handOver (s : State) (q : Nat) (idx : BitVec 32) :
    hostSidePart (handOver s q idx) = hostSidePart s :=
  hostSided_of_cored (cored_handOver s q idx)

@[simp] theorem hostSided_sendPend (s : State) (q : Nat) (e : Ent) (p : Pend) (data : List Byte) (retx : Bool) :
    hostSidePart (sendPend s q e p data retx) = hostSidePart s := by
  unfold sendPend; (repeat' split) <;> simp (maxDischargeDepth := 9)

@[simp] theorem cored_rereadElems (s : State) (q : Nat) (x : Qp) (e : Ent) (upTo : Nat) :
    corePart (rereadElems s q x e upTo) = corePart s := by
  unfold rereadElems; simp (maxDischargeDepth := 9) [foldl_cored]

@[simp] theorem hostSided_rereadElems (s : State) (q : Nat) (x : Qp) (e : Ent) (upTo : Nat) :
    hostSidePart (rereadElems s q x e upTo) = hostSidePart s :=
  hostSided_of_cored (cored_rereadElems s q x e upTo)

@[simp] theorem hostSided_fetchSend (s : State) (q : Nat) (x : Qp) (e : Ent) (p : Pend) (retx : Bool) :
    hostSidePart (fetchSend s q x e p retx) = hostSidePart s := by
  unfold fetchSend
  split
  · simp
  · split
    · simp
    · split
      · simp
      · dsimp only
        split <;> rename_i t e
        · exact hostSided_useWins _ _ _ _ _ (.inl e)
        · have k := hostSided_useWins _ _ _ _ _ (.inr e)
          repeat' split
          all_goals simpa using k

@[simp] theorem hostSided_sendReadReq (s : State) (q : Nat) (psn msn : BitVec 32) (key : BitVec 32) (off : BitVec 64) (len : Nat) (last retx solicit : Bool) (path : Nat) :
    hostSidePart (sendReadReq s q psn msn key off len last retx solicit path) = hostSidePart s := by
  unfold sendReadReq; (repeat' split) <;> simp (maxDischargeDepth := 9)

@[simp] theorem hostSided_askRead (s : State) (q : Nat) (owner : Owner) (key : BitVec 32) (base : BitVec 64) (done total : Nat) (solicit : Bool) :
    hostSidePart (askRead s q owner key base done total solicit).1 = hostSidePart s := by
  unfold askRead; (repeat' split) <;> simp (maxDischargeDepth := 9)

theorem hostSided_sendOne (s : State) (q : Nat) (x : Qp) (e : Ent) :
    ∀ t, sendOne s q x e = some t → hostSidePart t.1 = hostSidePart s := by
  unfold sendOne; simp only; (repeat' split) <;> simp_all (maxDischargeDepth := 9)

@[simp] theorem hostSided_sendTurn (s : State) (q : Nat) (x0 : Nat) (x1 : Nat) :
    hostSidePart (sendTurn s q x0 x1) = hostSidePart s := by
  induction x0 generalizing s x1 with
  | zero => simp [sendTurn]
  | succ k ih =>
    unfold sendTurn
    split
    · rfl
    · split
      · rfl
      · split
        · rfl
        · split
          · simp
          · rename_i t n e
            have h := hostSided_sendOne _ _ _ _ _ e
            split
            · exact h
            · rw [ih]; exact h

@[simp] theorem hostSided_followChain (s : State) (q f : Nat) (e : Ent) (addr n : Nat) (fail : State → Nat → State) (hfail : ∀ z y0, hostSidePart (fail z y0) = hostSidePart z) :
    hostSidePart (followChain s q f e addr n fail) = hostSidePart s := by
  unfold followChain; simp (maxDischargeDepth := 9) [hfail]

@[simp] theorem hostSided_askColl (s : State) (q : Nat) (x : Qp) (e : Ent) (first : Nat) :
    hostSidePart (askColl s q x e first) = hostSidePart s := by
  unfold askColl; simp (maxDischargeDepth := 9)

theorem cored_collAdmit (s : State) (q : Nat) (x : Qp) (e : Ent) :
    ∀ t, collAdmit s q x e = .inl t → corePart t = corePart s := by
  unfold collAdmit; simp only; (repeat' split) <;> simp_all (maxDischargeDepth := 9)

theorem hostSided_collAdmit (s : State) (q : Nat) (x : Qp) (e : Ent) :
    ∀ t, collAdmit s q x e = .inl t → hostSidePart t = hostSidePart s :=
  fun u hu => hostSided_of_cored (cored_collAdmit s q x e u hu)

@[simp] theorem cored_collJoin (s : State) (q : Nat) (e : Ent) (c : Nat) :
    corePart (collJoin s q e c) = corePart s := by
  unfold collJoin; simp (maxDischargeDepth := 9)

@[simp] theorem hostSided_collJoin (s : State) (q : Nat) (e : Ent) (c : Nat) :
    hostSidePart (collJoin s q e c) = hostSidePart s :=
  hostSided_of_cored (cored_collJoin s q e c)

@[simp] theorem hostSided_startColl (s : State) (q : Nat) (x : Qp) (e : Ent) :
    hostSidePart (startColl s q x e) = hostSidePart s := by
  unfold startColl
  dsimp only
  split <;> rename_i t e
  · exact hostSided_useWins _ _ _ _ _ (.inl e)
  · have k := hostSided_useWins _ _ _ _ _ (.inr e)
    repeat' split
    all_goals first
    | (simpa using k; done)
    | (rename_i e2; exact (hostSided_collAdmit _ _ _ _ _ e2).trans k)

@[simp] theorem cored_startCounterFetch (s : State) (q : Nat) (x : Qp) (e : Ent) :
    corePart (startCounterFetch s q x e) = corePart s := by
  unfold startCounterFetch; simp (maxDischargeDepth := 9)

@[simp] theorem hostSided_startCounterFetch (s : State) (q : Nat) (x : Qp) (e : Ent) :
    hostSidePart (startCounterFetch s q x e) = hostSidePart s :=
  hostSided_of_cored (cored_startCounterFetch s q x e)

@[simp] theorem hostSided_startNext (s : State) (q : Nat) :
    hostSidePart (startNext s q) = hostSidePart s := by
  unfold startNext
  split
  · rfl
  · split
    · rfl
    · split
      · simp
      · split
        · simp
        · split
          · simp
          · split
            · simp
            · split
              · simp
              · split
                · simp
                · dsimp only
                  split <;> rename_i t e
                  · exact hostSided_useWins _ _ _ _ _ (.inl e)
                  · have k := hostSided_useWins _ _ _ _ _ (.inr e)
                    repeat' split
                    all_goals simpa using k

@[simp] theorem hostSided_startAndSend (s : State) (q : Nat) :
    hostSidePart (startAndSend s q) = hostSidePart s := by
  unfold startAndSend; simp (maxDischargeDepth := 9)

@[simp] theorem cored_entMaybeDone (s : State) (q : Nat) (idx : BitVec 32) :
    corePart (entMaybeDone s q idx) = corePart s := by
  unfold entMaybeDone; (repeat' split) <;> simp (maxDischargeDepth := 9)

@[simp] theorem hostSided_entMaybeDone (s : State) (q : Nat) (idx : BitVec 32) :
    hostSidePart (entMaybeDone s q idx) = hostSidePart s :=
  hostSided_of_cored (cored_entMaybeDone s q idx)

@[simp] theorem engined_entMaybeDone (s : State) (q : Nat) (idx : BitVec 32) :
    enginePart (entMaybeDone s q idx) = enginePart s :=
  engined_of_cored (cored_entMaybeDone s q idx)

@[simp] theorem hostSided_pumpRdvs (s : State) (q : Nat) :
    hostSidePart (pumpRdvs s q) = hostSidePart s := by
  unfold pumpRdvs; (repeat' (first | split | (refine Eq.trans (hostSided_foldS _ _ _ ?_) ?_; intro _ _) | (refine Eq.trans (foldl_hostSided _ ?_ _ _) ?_; intro _ _) | (simp (maxDischargeDepth := 9) [*]; done) | simp (maxDischargeDepth := 9) [foldl_hostSided]))

@[simp] theorem engined_pumpRdvs (s : State) (q : Nat) :
    enginePart (pumpRdvs s q) = enginePart s :=
  engined_of_hostSided (hostSided_pumpRdvs s q)

@[simp] theorem hostSided_resend (s : State) (q : Nat) (p : Pend) :
    hostSidePart (resend s q p) = hostSidePart s := by
  unfold resend; (repeat' split) <;> simp (maxDischargeDepth := 9)

@[simp] theorem hostSided_failOwner (s : State) (q : Nat) (o : Owner) (status : Nat) :
    hostSidePart (failOwner s q o status) = hostSidePart s := by
  unfold failOwner; (repeat' split) <;> simp (maxDischargeDepth := 9)

@[simp] theorem hostSided_readImage (s : State) (q : Nat) :
    hostSidePart (readImage s q) = hostSidePart s := by
  unfold readImage; (repeat' split) <;> simp (maxDischargeDepth := 9)

@[simp] theorem cored_markQps (s : State) (stack : Nat) (x0 : Nat) :
    corePart (markQps s stack x0) = corePart s := by
  induction x0 generalizing s with
  | zero => simp (maxDischargeDepth := 9) [markQps]
  | succ k ih => (unfold markQps; (repeat' split) <;> first | rfl | (simp (maxDischargeDepth := 9) [ih]; done))

@[simp] theorem hostSided_markQps (s : State) (stack : Nat) (x0 : Nat) :
    hostSidePart (markQps s stack x0) = hostSidePart s :=
  hostSided_of_cored (cored_markQps s stack x0)

@[simp] theorem hostSided_servePageIns (s : State) (stack : Nat) (x0 : Nat) :
    hostSidePart (servePageIns s stack x0) = hostSidePart s := by
  induction x0 generalizing s with
  | zero => simp (maxDischargeDepth := 9) [servePageIns]
  | succ k ih => (unfold servePageIns; (repeat' split) <;> first | rfl | (simp (maxDischargeDepth := 9) [ih]; done))

@[simp] theorem hostSided_servePageIn (s : State) (stack : Nat) :
    hostSidePart (servePageIn s stack) = hostSidePart s := by
  unfold servePageIn; (repeat' split) <;> simp (maxDischargeDepth := 9)

@[simp] theorem hostSided_startPageIn (s : State) (q : Nat) :
    hostSidePart (startPageIn s q) = hostSidePart s := by
  unfold startPageIn; (repeat' split) <;> simp (maxDischargeDepth := 9)

@[simp] theorem engined_startPageIn (s : State) (q : Nat) :
    enginePart (startPageIn s q) = enginePart s :=
  engined_of_hostSided (hostSided_startPageIn s q)

@[simp] theorem hostSided_touchQp (s : State) (q : Nat) :
    hostSidePart (touchQp s q) = hostSidePart s := by
  unfold touchQp; (repeat' split) <;> simp (maxDischargeDepth := 9)

@[simp] theorem cored_stallUse (s : State) (q : Nat) :
    corePart (stallUse s q) = corePart s := by
  unfold stallUse; simp (maxDischargeDepth := 9)

@[simp] theorem hostSided_stallUse (s : State) (q : Nat) :
    hostSidePart (stallUse s q) = hostSidePart s :=
  hostSided_of_cored (cored_stallUse s q)

@[simp] theorem engined_stallUse (s : State) (q : Nat) :
    enginePart (stallUse s q) = enginePart s :=
  engined_of_cored (cored_stallUse s q)

@[simp] theorem cored_unmarkFor (s : State) (pf0 : Nat) :
    corePart (unmarkFor s pf0) = corePart s := by
  unfold unmarkFor; simp (maxDischargeDepth := 9)

@[simp] theorem hostSided_unmarkFor (s : State) (pf0 : Nat) :
    hostSidePart (unmarkFor s pf0) = hostSidePart s :=
  hostSided_of_cored (cored_unmarkFor s pf0)

@[simp] theorem hostSided_pageOut (s : State) (q : Nat) :
    hostSidePart (pageOut s q) = hostSidePart s := by
  unfold pageOut; (repeat' split) <;> simp (maxDischargeDepth := 9)

@[simp] theorem hostSided_evictDone (s : State) (q : Nat) :
    hostSidePart (evictDone s q) = hostSidePart s := by
  unfold evictDone; (repeat' split) <;> simp (maxDischargeDepth := 9)

@[simp] theorem hostSided_pollNow (s : State) (q : Nat) :
    hostSidePart (pollNow s q) = hostSidePart s := by
  unfold pollNow; (repeat' split) <;> simp (maxDischargeDepth := 9)

@[simp] theorem hostSided_failRecv (s : State) (srq : Nat) (e : Ent) (status : Nat) :
    hostSidePart (failRecv s srq e status) = hostSidePart s := by
  unfold failRecv; simp (maxDischargeDepth := 9)

theorem hostSided_useQueue (s : State) (f q eng : Nat) :
    ∀ t, useQueue s f q eng = .inl t ∨ useQueue s f q eng = .inr t → hostSidePart t = hostSidePart s := by
  intro t h
  unfold useQueue at h
  split at h
  · rcases h with h | h <;> cases h
    simp
  · split at h <;> rename_i u e <;> rcases h with h | h <;> cases h
    · exact hostSided_engineUse _ _ _ _ _ _ (.inl e)
    · simpa using hostSided_engineUse _ _ _ _ _ _ (.inr e)

theorem engined_useQueue (s : State) (f q eng : Nat) :
    ∀ t, useQueue s f q eng = .inl t ∨ useQueue s f q eng = .inr t → enginePart t = enginePart s :=
  fun u hu => engined_of_hostSided (hostSided_useQueue s f q eng u hu)

theorem cored_useTree (s : State) (id : Nat) :
    ∀ t, useTree s id = .inl t ∨ useTree s id = .inr t → corePart t = corePart s := by
  intro t h
  unfold useTree at h
  split at h <;> rename_i u e <;> rcases h with h | h <;> cases h
  · exact cored_engineUse _ _ _ _ _ _ (.inl e)
  · simpa using cored_engineUse _ _ _ _ _ _ (.inr e)

theorem hostSided_useTree (s : State) (id : Nat) :
    ∀ t, useTree s id = .inl t ∨ useTree s id = .inr t → hostSidePart t = hostSidePart s :=
  fun u hu => hostSided_of_cored (cored_useTree s id u hu)

theorem portFreed_useTree (s : State) (id : Nat) :
    ∀ t, useTree s id = .inl t ∨ useTree s id = .inr t → portFreePart t = portFreePart s :=
  fun u hu => portFreed_of_cored (cored_useTree s id u hu)

@[simp] theorem cored_finishReq (s : State) (c : Nat) (l : LineId) :
    corePart (finishReq s c l) = corePart s := by
  unfold finishReq; simp (maxDischargeDepth := 9)

@[simp] theorem cored_answerReqst (s : State) (c : Nat) (l : LineId) (acks : Nat) (target : Moesi) :
    corePart (answerReqst s c l acks target) = corePart s := by
  unfold answerReqst; simp (maxDischargeDepth := 9)

@[simp] theorem hostSided_answerReqst (s : State) (c : Nat) (l : LineId) (acks : Nat) (target : Moesi) :
    hostSidePart (answerReqst s c l acks target) = hostSidePart s :=
  hostSided_of_cored (cored_answerReqst s c l acks target)

@[simp] theorem cored_revokeWindow (s : State) (i : Nat) :
    corePart (revokeWindow s i) = corePart s := by
  unfold revokeWindow; (repeat' split) <;> simp (maxDischargeDepth := 9)

@[simp] theorem hostSided_revokeWindow (s : State) (i : Nat) :
    hostSidePart (revokeWindow s i) = hostSidePart s :=
  hostSided_of_cored (cored_revokeWindow s i)

@[simp] theorem portFreed_dropNofit (s : State) (p vc : Nat) (x0 : List QPkt) :
    portFreePart (dropNofit s p vc x0) = portFreePart s := by
  induction x0 generalizing s with
  | nil => simp (maxDischargeDepth := 9) [dropNofit]
  | cons a l ih => (unfold dropNofit; (repeat' split) <;> first | rfl | (simp (maxDischargeDepth := 9) [ih]; done))

@[simp] theorem portFreed_dropAllNofit (s : State) (p : Nat) :
    portFreePart (dropAllNofit s p) = portFreePart s := by
  unfold dropAllNofit; simp (maxDischargeDepth := 9)

@[simp] theorem portFreed_adoptAlmanac (s : State) (p : Nat) (base : BitVec 64) :
    portFreePart (adoptAlmanac s p base) = portFreePart s := by
  unfold adoptAlmanac; simp (maxDischargeDepth := 9)

@[simp] theorem controlled_adoptAlmanac (s : State) (p : Nat) (base : BitVec 64) :
    controlPart (adoptAlmanac s p base) = controlPart s :=
  controlled_of_portFreed (portFreed_adoptAlmanac s p base)

@[simp] theorem settled_adoptRoute (s : State) :
    settledPart (adoptRoute s) = settledPart s := by
  unfold adoptRoute; simp (maxDischargeDepth := 9)

@[simp] theorem settled_snapMissed (s : State) :
    settledPart (snapMissed s) = settledPart s := by
  unfold snapMissed; simp (maxDischargeDepth := 9)

@[simp] theorem settled_flipBanks (s : State) :
    settledPart (flipBanks s) = settledPart s := by
  unfold flipBanks; simp (maxDischargeDepth := 9)

@[simp] theorem settled_routeDue (s : State) :
    settledPart (routeDue s) = settledPart s := by
  unfold routeDue; simp (maxDischargeDepth := 9)

@[simp] theorem portFreed_almanacDue (s : State) (p : Nat) :
    portFreePart (almanacDue s p) = portFreePart s := by
  unfold almanacDue; simp (maxDischargeDepth := 9)

@[simp] theorem settled_almanacDue (s : State) (p : Nat) :
    settledPart (almanacDue s p) = settledPart s :=
  settled_of_portFreed (portFreed_almanacDue s p)

@[simp] theorem settled_banksDue (s : State) :
    settledPart (banksDue s) = settledPart s := by
  unfold banksDue; simp (maxDischargeDepth := 9)

@[simp] theorem settled_snapDue (s : State) :
    settledPart (snapDue s) = settledPart s := by
  unfold snapDue; simp (maxDischargeDepth := 9)

@[simp] theorem settled_adoptDue (s : State) :
    settledPart (adoptDue s) = settledPart s := by
  unfold adoptDue; simp (maxDischargeDepth := 9)

@[simp] theorem cored_setFtFix (s : State) (v : Int) :
    corePart (setFtFix s v) = corePart s := by
  unfold setFtFix; simp (maxDischargeDepth := 9)

@[simp] theorem settled_setFtFix (s : State) (v : Int) :
    settledPart (setFtFix s v) = settledPart s :=
  settled_of_cored (cored_setFtFix s v)

@[simp] theorem portFreed_closeGates (s : State) (p : Nat) :
    portFreePart (closeGates s p) = portFreePart s := by
  unfold closeGates; simp (maxDischargeDepth := 9)

@[simp] theorem portFreed_holdGates (s : State) :
    portFreePart (holdGates s) = portFreePart s := by
  unfold holdGates; simp (maxDischargeDepth := 9)

@[simp] theorem linkSided_holdGates (s : State) :
    linkSidePart (holdGates s) = linkSidePart s :=
  linkSided_of_portFreed (portFreed_holdGates s)

@[simp] theorem portFreed_resumeGates (s : State) :
    portFreePart (resumeGates s) = portFreePart s := by
  unfold resumeGates; simp (maxDischargeDepth := 9)

@[simp] theorem linkSided_resumeGates (s : State) :
    linkSidePart (resumeGates s) = linkSidePart s :=
  linkSided_of_portFreed (portFreed_resumeGates s)

@[simp] theorem linkSided_changeTime (s : State) (f : TimeUnit → TimeUnit) :
    linkSidePart (changeTime s f) = linkSidePart s := by
  unfold changeTime; simp (maxDischargeDepth := 9)

@[simp] theorem settled_changeTime (s : State) (f : TimeUnit → TimeUnit) :
    settledPart (changeTime s f) = settledPart s :=
  settled_of_linkSided (linkSided_changeTime s f)

@[simp] theorem linkSided_switchSource (s : State) (p : Nat) (a : Announced) :
    linkSidePart (switchSource s p a) = linkSidePart s := by
  unfold switchSource; simp (maxDischargeDepth := 9)

@[simp] theorem linkSided_timeUnlock (s : State) (cause : Nat) :
    linkSidePart (timeUnlock s cause) = linkSidePart s := by
  unfold timeUnlock; simp (maxDischargeDepth := 9)

@[simp] theorem linkSided_leaveUpstream (s : State) (cause : Nat) :
    linkSidePart (leaveUpstream s cause) = linkSidePart s := by
  unfold leaveUpstream; (repeat' split) <;> simp (maxDischargeDepth := 9)

@[simp] theorem settled_leaveUpstream (s : State) (cause : Nat) :
    settledPart (leaveUpstream s cause) = settledPart s :=
  settled_of_linkSided (linkSided_leaveUpstream s cause)

@[simp] theorem linkSided_noteWait (s : State) :
    linkSidePart (noteWait s) = linkSidePart s := by
  unfold noteWait; simp (maxDischargeDepth := 9)

@[simp] theorem fixed_noteWait (s : State) :
    fixedPart (noteWait s) = fixedPart s :=
  fixed_of_linkSided (linkSided_noteWait s)

@[simp] theorem linkSided_chooseSource (s : State) :
    linkSidePart (chooseSource s) = linkSidePart s := by
  unfold chooseSource; simp only; (repeat' split) <;> simp_all (maxDischargeDepth := 9)

@[simp] theorem linkSided_reselect (s : State) :
    linkSidePart (reselect s) = linkSidePart s := by
  unfold reselect; simp (maxDischargeDepth := 9)

@[simp] theorem settled_reselect (s : State) :
    settledPart (reselect s) = settledPart s :=
  settled_of_linkSided (linkSided_reselect s)

@[simp] theorem linkSided_timePortLost (s : State) (p : Nat) :
    linkSidePart (timePortLost s p) = linkSidePart s := by
  unfold timePortLost; simp (maxDischargeDepth := 9)

@[simp] theorem controlled_timePortLost (s : State) (p : Nat) :
    controlPart (timePortLost s p) = controlPart s :=
  controlled_of_linkSided (linkSided_timePortLost s p)

@[simp] theorem portFreed_dropExchange (s : State) (p : Nat) :
    portFreePart (dropExchange s p) = portFreePart s := by
  rfl

@[simp] theorem controlled_dropExchange (s : State) (p : Nat) :
    controlPart (dropExchange s p) = controlPart s :=
  controlled_of_portFreed (portFreed_dropExchange s p)

@[simp] theorem portFreed_dropExchanges (s : State) :
    portFreePart (dropExchanges s) = portFreePart s := by
  unfold dropExchanges; simp (maxDischargeDepth := 9)

@[simp] theorem settled_dropExchanges (s : State) :
    settledPart (dropExchanges s) = settledPart s :=
  settled_of_portFreed (portFreed_dropExchanges s)

@[simp] theorem settled_stepFtBy (s : State) (d : Int) (seq : Nat) :
    settledPart (stepFtBy s d seq) = settledPart s := by
  unfold stepFtBy; simp (maxDischargeDepth := 9)

@[simp] theorem settled_steer (s : State) (o : Int) (interval : Nat) :
    settledPart (steer s o interval) = settledPart s := by
  unfold steer; simp (maxDischargeDepth := 9)

@[simp] theorem settled_applyStep (s : State) (seq : BitVec 8) (ns : Int) :
    settledPart (applyStep s seq ns) = settledPart s := by
  unfold applyStep; simp (maxDischargeDepth := 9)

@[simp] theorem settled_setTime (s : State) (v : Int) :
    settledPart (setTime s v) = settledPart s := by
  unfold setTime; simp (maxDischargeDepth := 9)

@[simp] theorem portFreed_sendTimeLtb (s : State) (p msg : Nat) (t : TimeMsg) :
    portFreePart (sendTimeLtb s p msg t) = portFreePart s := by
  unfold sendTimeLtb; simp (maxDischargeDepth := 9)

@[simp] theorem portFreed_sendAnnounce (s : State) (p : Nat) :
    portFreePart (sendAnnounce s p) = portFreePart s := by
  unfold sendAnnounce; simp (maxDischargeDepth := 9)

@[simp] theorem portFreed_answerReq (s : State) (p : Nat) (seq : BitVec 16) (t2 : Nat) :
    portFreePart (answerReq s p seq t2) = portFreePart s := by
  unfold answerReq; simp (maxDischargeDepth := 9)

@[simp] theorem controlled_answerReq (s : State) (p : Nat) (seq : BitVec 16) (t2 : Nat) :
    controlPart (answerReq s p seq t2) = controlPart s :=
  controlled_of_portFreed (portFreed_answerReq s p seq t2)

@[simp] theorem portFreed_beginExchange (s : State) (p : Nat) (out : Bool) :
    portFreePart (beginExchange s p out) = portFreePart s := by
  unfold beginExchange; simp (maxDischargeDepth := 9)

@[simp] theorem portFreed_startExchange (s : State) (p : Nat) (out : Bool) :
    portFreePart (startExchange s p out) = portFreePart s := by
  unfold startExchange; simp (maxDischargeDepth := 9)

@[simp] theorem cored_updAq (s : State) (f : Nat) (g : AdminQ → AdminQ) :
    corePart (updAq s f g) = corePart s := by
  rfl

@[simp] theorem cored_aqSettle (s : State) (f : Nat) :
    corePart (aqSettle s f) = corePart s := by
  unfold aqSettle; simp (maxDischargeDepth := 9)

@[simp] theorem cored_aqComplete (s : State) (f tag status r0 r1 : Nat) :
    corePart (aqComplete s f tag status r0 r1) = corePart s := by
  unfold aqComplete; simp (maxDischargeDepth := 9)

@[simp] theorem hostSided_aqComplete (s : State) (f tag status r0 r1 : Nat) :
    hostSidePart (aqComplete s f tag status r0 r1) = hostSidePart s :=
  hostSided_of_cored (cored_aqComplete s f tag status r0 r1)

@[simp] theorem cored_aqSweep (s : State) (f : Nat) (x0 : Nat) :
    corePart (aqSweep s f x0) = corePart s := by
  induction x0 generalizing s with
  | zero => simp (maxDischargeDepth := 9) [aqSweep]
  | succ k ih => (unfold aqSweep; (repeat' split) <;> first | rfl | (simp (maxDischargeDepth := 9) [ih]; done))

@[simp] theorem cored_aqSweepAll (s : State) (f : Nat) :
    corePart (aqSweepAll s f) = corePart s := by
  unfold aqSweepAll; simp (maxDischargeDepth := 9)

@[simp] theorem hostSided_aqSweepAll (s : State) (f : Nat) :
    hostSidePart (aqSweepAll s f) = hostSidePart s :=
  hostSided_of_cored (cored_aqSweepAll s f)

@[simp] theorem cored_aqTaken (s : State) (f : Nat) (e : List Byte) :
    corePart (aqTaken s f e) = corePart s := by
  unfold aqTaken; simp (maxDischargeDepth := 9)

@[simp] theorem hostSided_aqTaken (s : State) (f : Nat) (e : List Byte) :
    hostSidePart (aqTaken s f e) = hostSidePart s :=
  hostSided_of_cored (cored_aqTaken s f e)

@[simp] theorem cored_runAq (s : State) (f op : Nat) (act : State → List Byte → State × AqAnswer) (hact : ∀ z y0, corePart (act z y0).1 = corePart z) :
    corePart (runAq s f op act) = corePart s := by
  unfold runAq; simp only; (repeat' split) <;> simp_all (maxDischargeDepth := 9)

@[simp] theorem hostSided_runAq (s : State) (f op : Nat) (act : State → List Byte → State × AqAnswer) (hact : ∀ z y0, hostSidePart (act z y0).1 = hostSidePart z) :
    hostSidePart (runAq s f op act) = hostSidePart s := by
  unfold runAq; simp only; (repeat' split) <;> simp_all (maxDischargeDepth := 9)

@[simp] theorem cored_aqFlush (s : State) (f : Nat) :
    corePart (aqFlush s f) = corePart s := by
  unfold aqFlush; simp (maxDischargeDepth := 9) [foldl_cored]

@[simp] theorem cored_aqError (s : State) (f status : Nat) :
    corePart (aqError s f status) = corePart s := by
  unfold aqError; simp (maxDischargeDepth := 9)

@[simp] theorem cored_freeNumber (s : State) (q : Nat) :
    corePart (freeNumber s q) = corePart s := by
  rfl

@[simp] theorem hostSided_freeNumber (s : State) (q : Nat) :
    hostSidePart (freeNumber s q) = hostSidePart s :=
  hostSided_of_cored (cored_freeNumber s q)

@[simp] theorem hostSided_freeQp (s : State) (q : Nat) :
    hostSidePart (freeQp s q) = hostSidePart s := by
  unfold freeQp; (repeat' split) <;> simp (maxDischargeDepth := 9)

@[simp] theorem hostSided_freeSrq (s : State) (q : Nat) :
    hostSidePart (freeSrq s q) = hostSidePart s := by
  unfold freeSrq; (repeat' split) <;> simp (maxDischargeDepth := 9)

@[simp] theorem cored_freeCq (s : State) (q : Nat) :
    corePart (freeCq s q) = corePart s := by
  unfold freeCq; (repeat' split) <;> simp (maxDischargeDepth := 9)

@[simp] theorem hostSided_freeCq (s : State) (q : Nat) :
    hostSidePart (freeCq s q) = hostSidePart s :=
  hostSided_of_cored (cored_freeCq s q)

@[simp] theorem cored_freeEq (s : State) (q : Nat) :
    corePart (freeEq s q) = corePart s := by
  unfold freeEq; (repeat' split) <;> simp (maxDischargeDepth := 9)

@[simp] theorem hostSided_freeEq (s : State) (q : Nat) :
    hostSidePart (freeEq s q) = hostSidePart s :=
  hostSided_of_cored (cored_freeEq s q)

@[simp] theorem cored_freePd (s : State) (d : Nat) :
    corePart (freePd s d) = corePart s := by
  unfold freePd; (repeat' split) <;> simp (maxDischargeDepth := 9)

@[simp] theorem hostSided_freePd (s : State) (d : Nat) :
    hostSidePart (freePd s d) = hostSidePart s :=
  hostSided_of_cored (cored_freePd s d)

@[simp] theorem hostSided_destroyFn (s : State) (f : Nat) :
    hostSidePart (destroyFn s f) = hostSidePart s := by
  unfold destroyFn; simp (maxDischargeDepth := 9)

@[simp] theorem booted_destroyFn (s : State) (f : Nat) :
    bootPart (destroyFn s f) = bootPart s :=
  booted_of_hostSided (hostSided_destroyFn s f)

@[simp] theorem hostSided_finishDestroy (s : State) (q : Nat) :
    hostSidePart (finishDestroy s q) = hostSidePart s := by
  unfold finishDestroy; (repeat' split) <;> simp (maxDischargeDepth := 9)

@[simp] theorem hostSided_abortSend (s : State) (q : Nat) (x : Qp) (wqe : BitVec 16) :
    hostSidePart (abortSend s q x wqe).1 = hostSidePart s := by
  unfold abortSend; (repeat' split) <;> simp (maxDischargeDepth := 9)

@[simp] theorem hostSided_abortRecv (s : State) (q : Nat) (r : Srq) (wqe : BitVec 16) (tag : BitVec 64) :
    hostSidePart (abortRecv s q r wqe tag).1 = hostSidePart s := by
  unfold abortRecv; simp only; (repeat' split) <;> simp_all (maxDischargeDepth := 9)

@[simp] theorem hostSided_abortAny (s : State) (f : Nat) (send : Bool) (q : Nat) (wqe : BitVec 16) (tag : BitVec 64) :
    hostSidePart (abortAny s f send q wqe tag).1 = hostSidePart s := by
  unfold abortAny; (repeat' split) <;> simp (maxDischargeDepth := 9)

@[simp] theorem cored_aqWait (s : State) (f : Nat) (e : List Byte) (what : AqPend) :
    corePart (aqWait s f e what) = corePart s := by
  unfold aqWait; simp (maxDischargeDepth := 9)

@[simp] theorem hostSided_aqWait (s : State) (f : Nat) (e : List Byte) (what : AqPend) :
    hostSidePart (aqWait s f e what) = hostSidePart s :=
  hostSided_of_cored (cored_aqWait s f e what)

@[simp] theorem hostSided_finishWait (s : State) (w : AqWait) :
    hostSidePart (finishWait s w) = hostSidePart s := by
  unfold finishWait; simp only; (repeat' split) <;> simp_all (maxDischargeDepth := 9)

@[simp] theorem hostSided_finishDestroys (s : State) :
    hostSidePart (finishDestroys s) = hostSidePart s := by
  unfold finishDestroys; (repeat' (first | split | (refine Eq.trans (hostSided_foldS _ _ _ ?_) ?_; intro _ _) | (refine Eq.trans (foldl_hostSided _ ?_ _ _) ?_; intro _ _) | (simp (maxDischargeDepth := 9) [*]; done) | simp (maxDischargeDepth := 9) [foldl_hostSided]))

@[simp] theorem cored_registerWindow (s : State) (f pd rights count : Nat) (extents : List (Nat × Nat)) :
    corePart (registerWindow s f pd rights count extents).1 = corePart s := by
  unfold registerWindow; simp only; (repeat' split) <;> simp_all (maxDischargeDepth := 9)

@[simp] theorem hostSided_registerWindow (s : State) (f pd rights count : Nat) (extents : List (Nat × Nat)) :
    hostSidePart (registerWindow s f pd rights count extents).1 = hostSidePart s :=
  hostSided_of_cored (cored_registerWindow s f pd rights count extents)

theorem engined_takeHead (s : State) (ep : Nat) :
    ∀ t, takeHead s ep = some t → enginePart t.2 = enginePart s := by
  unfold takeHead; (repeat' split) <;> simp (maxDischargeDepth := 9)

@[simp] theorem engined_consumeReserved (s : State) (ep : Nat) (x0 : Nat) :
    enginePart (consumeReserved s ep x0) = enginePart s := by
  induction x0 generalizing s with
  | zero => rfl
  | succ k ih =>
    unfold consumeReserved
    split
    · rfl
    · rename_i p t e
      have k1 := engined_takeHead _ _ _ e
      dsimp only at k1 ⊢
      repeat' split
      all_goals first
      | rfl
      | simpa [ih] using k1

theorem engined_takeRx (s : State) (ep op : Nat) :
    ∀ t, takeRx s ep op = some t → enginePart t.2 = enginePart s := by
  intro t h
  unfold takeRx at h
  split at h
  · cases h
  · rename_i p u e
    have k := engined_takeHead _ _ _ e
    repeat' split at h
    all_goals first
    | (cases h; simpa using k)
    | cases h

theorem cored_arrivalChecks (s : State) (ep : Nat) (a : Arrival) :
    ∀ t, arrivalChecks s ep a = .inl t → corePart t = corePart s := by
  intro t h
  unfold arrivalChecks at h
  dsimp only at h
  repeat' split at h
  all_goals first
  | (injection h with h; subst h; simp; done)
  | cases h

theorem engined_arrivalChecks (s : State) (ep : Nat) (a : Arrival) :
    ∀ t, arrivalChecks s ep a = .inl t → enginePart t = enginePart s :=
  fun u hu => engined_of_cored (cored_arrivalChecks s ep a u hu)

@[simp] theorem hostSided_acceptPsn (s : State) (q : Nat) (a : Arrival) (n : Nat) :
    hostSidePart (acceptPsn s q a n) = hostSidePart s := by
  unfold acceptPsn; (repeat' split) <;> simp (maxDischargeDepth := 9)

@[simp] theorem engined_acceptPsn (s : State) (q : Nat) (a : Arrival) (n : Nat) :
    enginePart (acceptPsn s q a n) = enginePart s :=
  engined_of_hostSided (hostSided_acceptPsn s q a n)

@[simp] theorem cored_noteEcho (s : State) (q : Nat) (a : Arrival) :
    corePart (noteEcho s q a) = corePart s := by
  rfl

@[simp] theorem hostSided_noteEcho (s : State) (q : Nat) (a : Arrival) :
    hostSidePart (noteEcho s q a) = hostSidePart s :=
  hostSided_of_cored (cored_noteEcho s q a)

@[simp] theorem hostSided_refuse (s : State) (q : Nat) (a : Arrival) (code : Nat) :
    hostSidePart (refuse s q a code) = hostSidePart s := by
  unfold refuse; simp (maxDischargeDepth := 9)

@[simp] theorem engined_refuse (s : State) (q : Nat) (a : Arrival) (code : Nat) :
    enginePart (refuse s q a code) = enginePart s :=
  engined_of_hostSided (hostSided_refuse s q a code)

@[simp] theorem hostSided_duplicate (s : State) (q : Nat) (a : Arrival) :
    hostSidePart (duplicate s q a) = hostSidePart s := by
  unfold duplicate; (repeat' split) <;> simp (maxDischargeDepth := 9)

@[simp] theorem engined_duplicate (s : State) (q : Nat) (a : Arrival) :
    enginePart (duplicate s q a) = enginePart s :=
  engined_of_hostSided (hostSided_duplicate s q a)

@[simp] theorem hostSided_resync (s : State) (q : Nat) (x : Qp) (a : Arrival) :
    hostSidePart (resync s q x a) = hostSidePart s := by
  unfold resync; simp (maxDischargeDepth := 9)

theorem hostSided_synchronise (s : State) (q : Nat) (x : Qp) (a : Arrival) :
    ∀ t, synchronise s q x a = .inl t ∨ synchronise s q x a = .inr t → hostSidePart t = hostSidePart s := by
  intro t h
  unfold synchronise at h
  repeat' split at h
  all_goals rcases h with h | h <;> first
  | (cases h; simp; done)
  | cases h

theorem engined_synchronise (s : State) (q : Nat) (x : Qp) (a : Arrival) :
    ∀ t, synchronise s q x a = .inl t ∨ synchronise s q x a = .inr t → enginePart t = enginePart s :=
  fun u hu => engined_of_hostSided (hostSided_synchronise s q x a u hu)

@[simp] theorem engined_onRequest (s : State) (ep op : Nat) (npsn : Arrival → Nat) (fresh : State → Nat → Qp → Arrival → State × Nat) (again : State → Nat → Qp → Arrival → State) (hfresh : ∀ z y0 y1 y2, enginePart (fresh z y0 y1 y2).1 = enginePart z) (hagain : ∀ z y0 y1 y2, enginePart (again z y0 y1 y2) = enginePart z) :
    enginePart (onRequest s ep op npsn fresh again) = enginePart s := by
  unfold onRequest
  split
  · rfl
  · rename_i a s' e
    have k := engined_takeRx _ _ _ _ e
    split
    · rename_i t e2
      rw [engined_arrivalChecks _ _ _ _ e2]; exact k
    · split
      · simpa using k
      · split
        · simpa using k
        · split
          · simp
          · split
            · rename_i t e3
              rw [engined_useQueue _ _ _ _ _ (.inl e3)]; exact k
            · rename_i u e3
              have k2 : enginePart u = enginePart s := (engined_useQueue _ _ _ _ _ (.inr e3)).trans k
              split
              · rename_i t e4
                rw [engined_synchronise _ _ _ _ _ (.inl e4)]; exact k2
              · rename_i t e4
                have k3 : enginePart t = enginePart s := (engined_synchronise _ _ _ _ _ (.inr e4)).trans k2
                split
                · exact k3
                · split
                  · simpa using k3
                  · simpa [hagain] using k3
                  · repeat' split
                    all_goals simpa [hfresh] using k3

@[simp] theorem engined_onResponse (s : State) (ep op : Nat) (f : State → Nat → Qp → Arrival → State) (hf : ∀ z y0 y1 y2, enginePart (f z y0 y1 y2) = enginePart z) :
    enginePart (onResponse s ep op f) = enginePart s := by
  unfold onResponse
  split
  · rfl
  · rename_i a s' e
    have k := engined_takeRx _ _ _ _ e
    split
    · rename_i t e2
      rw [engined_arrivalChecks _ _ _ _ e2]; exact k
    · split
      · exact k
      · split
        · simp
        · split <;> rename_i t e3
          · exact (engined_useQueue _ _ _ _ _ (.inl e3)).trans k
          · rw [hf]; exact (engined_useQueue _ _ _ _ _ (.inr e3)).trans k

@[simp] theorem hostSided_withWin (s : State) (ep : Nat) (key : BitVec 32) (k : State → State × Nat) (hk : ∀ z , hostSidePart (k z ).1 = hostSidePart z) :
    hostSidePart (withWin s ep key k).1 = hostSidePart s := by
  unfold withWin
  split <;> rename_i t e
  · exact hostSided_engineUse _ _ _ _ _ _ (.inl e)
  · rw [hk]; exact hostSided_engineUse _ _ _ _ _ _ (.inr e)

@[simp] theorem engined_withWin (s : State) (ep : Nat) (key : BitVec 32) (k : State → State × Nat) (hk : ∀ z , enginePart (k z ).1 = enginePart z) :
    enginePart (withWin s ep key k).1 = enginePart s := by
  unfold withWin
  split <;> rename_i t e
  · exact engined_engineUse _ _ _ _ _ _ (.inl e)
  · rw [hk]; exact engined_engineUse _ _ _ _ _ _ (.inr e)

@[simp] theorem cored_accessNak (s : State) (ep : Nat) :
    corePart (accessNak s ep).1 = corePart s := by
  rfl

@[simp] theorem hostSided_accessNak (s : State) (ep : Nat) :
    hostSidePart (accessNak s ep).1 = hostSidePart s :=
  hostSided_of_cored (cored_accessNak s ep)

@[simp] theorem engined_accessNak (s : State) (ep : Nat) :
    enginePart (accessNak s ep).1 = enginePart s :=
  engined_of_cored (cored_accessNak s ep)

@[simp] theorem hostSided_putBack (s : State) (ep : Nat) (p : Pkt) :
    hostSidePart (putBack s ep p) = hostSidePart s := by
  unfold putBack; simp (maxDischargeDepth := 9)

@[simp] theorem cored_waitAts (s : State) (ep : Nat) (w : Win) (addr : Nat) (p : Pkt) :
    corePart (waitAts s ep w addr p) = corePart s := by
  rfl

@[simp] theorem hostSided_waitAts (s : State) (ep : Nat) (w : Win) (addr : Nat) (p : Pkt) :
    hostSidePart (waitAts s ep w addr p) = hostSidePart s :=
  hostSided_of_cored (cored_waitAts s ep w addr p)

@[simp] theorem engined_waitAts (s : State) (ep : Nat) (w : Win) (addr : Nat) (p : Pkt) :
    enginePart (waitAts s ep w addr p) = enginePart s :=
  engined_of_cored (cored_waitAts s ep w addr p)

@[simp] theorem linkSided_parkLane (s : State) (l : Nat) :
    linkSidePart (parkLane s l) = linkSidePart s := by
  unfold parkLane; simp (maxDischargeDepth := 9)

@[simp] theorem controlled_parkLane (s : State) (l : Nat) :
    controlPart (parkLane s l) = controlPart s :=
  controlled_of_linkSided (linkSided_parkLane s l)

@[simp] theorem booted_parkLane (s : State) (l : Nat) :
    bootPart (parkLane s l) = bootPart s :=
  booted_of_linkSided (linkSided_parkLane s l)

@[simp] theorem linkSided_offLane (s : State) (l : Nat) :
    linkSidePart (offLane s l) = linkSidePart s := by
  unfold offLane; simp (maxDischargeDepth := 9)

@[simp] theorem controlled_offLane (s : State) (l : Nat) :
    controlPart (offLane s l) = controlPart s :=
  controlled_of_linkSided (linkSided_offLane s l)

@[simp] theorem fixed_offLane (s : State) (l : Nat) :
    fixedPart (offLane s l) = fixedPart s :=
  fixed_of_linkSided (linkSided_offLane s l)

@[simp] theorem linkSided_trainLane (s : State) (l : Nat) :
    linkSidePart (trainLane s l) = linkSidePart s := by
  unfold trainLane; simp (maxDischargeDepth := 9)

@[simp] theorem linkSided_diagLane (s : State) (l : Nat) :
    linkSidePart (diagLane s l) = linkSidePart s := by
  unfold diagLane; simp (maxDischargeDepth := 9)

@[simp] theorem portFreed_askTraining (s : State) (p : Nat) :
    portFreePart (askTraining s p) = portFreePart s := by
  unfold askTraining; simp (maxDischargeDepth := 9)

@[simp] theorem linkSided_askTraining (s : State) (p : Nat) :
    linkSidePart (askTraining s p) = linkSidePart s :=
  linkSided_of_portFreed (portFreed_askTraining s p)

@[simp] theorem controlled_askTraining (s : State) (p : Nat) :
    controlPart (askTraining s p) = controlPart s :=
  controlled_of_portFreed (portFreed_askTraining s p)

@[simp] theorem linkSided_toRetrain (s : State) (l : Nat) :
    linkSidePart (toRetrain s l) = linkSidePart s := by
  unfold toRetrain; simp (maxDischargeDepth := 9)

@[simp] theorem controlled_toRetrain (s : State) (l : Nat) :
    controlPart (toRetrain s l) = controlPart s :=
  controlled_of_linkSided (linkSided_toRetrain s l)

@[simp] theorem linkSided_retrainLane (s : State) (l cause : Nat) :
    linkSidePart (retrainLane s l cause) = linkSidePart s := by
  unfold retrainLane; simp (maxDischargeDepth := 9)

@[simp] theorem controlled_retrainLane (s : State) (l cause : Nat) :
    controlPart (retrainLane s l cause) = controlPart s :=
  controlled_of_linkSided (linkSided_retrainLane s l cause)

@[simp] theorem portFreed_setLink (s : State) (p : Nat) (st : LinkSt) :
    portFreePart (setLink s p st) = portFreePart s := by
  unfold setLink; simp (maxDischargeDepth := 9)

@[simp] theorem linkSided_setLink (s : State) (p : Nat) (st : LinkSt) :
    linkSidePart (setLink s p st) = linkSidePart s :=
  linkSided_of_portFreed (portFreed_setLink s p st)

@[simp] theorem controlled_setLink (s : State) (p : Nat) (st : LinkSt) :
    controlPart (setLink s p st) = controlPart s :=
  controlled_of_portFreed (portFreed_setLink s p st)

@[simp] theorem portFreed_flushPort (s : State) (p : Nat) :
    portFreePart (flushPort s p) = portFreePart s := by
  unfold flushPort; simp (maxDischargeDepth := 9) [foldl_portFreed]

@[simp] theorem controlled_flushPort (s : State) (p : Nat) :
    controlPart (flushPort s p) = controlPart s :=
  controlled_of_portFreed (portFreed_flushPort s p)

@[simp] theorem engined_dropInternal (s : State) (p no : Nat) (keep : Bool) :
    enginePart (dropInternal s p no keep) = enginePart s := by
  unfold dropInternal; simp (maxDischargeDepth := 9) [foldl_engined]

@[simp] theorem engined_abortForwarded (s : State) (p no got : Nat) (keep : Bool) :
    enginePart (abortForwarded s p no got keep) = enginePart s := by
  unfold abortForwarded; simp (maxDischargeDepth := 9) [foldl_engined]

@[simp] theorem engined_abandonRx (s : State) (p : Nat) :
    enginePart (abandonRx s p) = enginePart s := by
  unfold abandonRx; (repeat' split) <;> simp (maxDischargeDepth := 9)

@[simp] theorem controlled_abandonRx (s : State) (p : Nat) :
    controlPart (abandonRx s p) = controlPart s :=
  controlled_of_engined (engined_abandonRx s p)

@[simp] theorem portFreed_dropHints (s : State) (p : Nat) :
    portFreePart (dropHints s p) = portFreePart s := by
  rfl

@[simp] theorem controlled_dropHints (s : State) (p : Nat) :
    controlPart (dropHints s p) = controlPart s :=
  controlled_of_portFreed (portFreed_dropHints s p)

@[simp] theorem controlled_clearLink (s : State) (p : Nat) :
    controlPart (clearLink s p) = controlPart s := by
  unfold clearLink; simp (maxDischargeDepth := 9) [foldl_controlled]

@[simp] theorem linkSided_retrainAll (s : State) (p : Nat) :
    linkSidePart (retrainAll s p) = linkSidePart s := by
  unfold retrainAll
  dsimp only
  refine (linkSided_askTraining _ _).trans ((linkSided_updPort _ _ _).trans (linkSided_foldS _ _ _ ?_))
  intro z y
  split <;> simp

@[simp] theorem controlled_retrainAll (s : State) (p : Nat) :
    controlPart (retrainAll s p) = controlPart s :=
  controlled_of_linkSided (linkSided_retrainAll s p)

@[simp] theorem portFreed_startGrace (s : State) (p : Nat) :
    portFreePart (startGrace s p) = portFreePart s := by
  unfold startGrace; simp (maxDischargeDepth := 9)

@[simp] theorem controlled_startGrace (s : State) (p : Nat) :
    controlPart (startGrace s p) = controlPart s :=
  controlled_of_portFreed (portFreed_startGrace s p)

@[simp] theorem linkSided_portUp (s : State) (p : Nat) :
    linkSidePart (portUp s p) = linkSidePart s := by
  unfold portUp; simp (maxDischargeDepth := 9)

@[simp] theorem settled_portUp (s : State) (p : Nat) :
    settledPart (portUp s p) = settledPart s :=
  settled_of_linkSided (linkSided_portUp s p)

@[simp] theorem fixed_portUp (s : State) (p : Nat) :
    fixedPart (portUp s p) = fixedPart s :=
  fixed_of_linkSided (linkSided_portUp s p)

@[simp] theorem linkSided_linkToDown (s : State) (p : Nat) :
    linkSidePart (linkToDown s p) = linkSidePart s := by
  unfold linkToDown; simp (maxDischargeDepth := 9)

@[simp] theorem controlled_linkToDown (s : State) (p : Nat) :
    controlPart (linkToDown s p) = controlPart s :=
  controlled_of_linkSided (linkSided_linkToDown s p)

@[simp] theorem controlled_linkFailure (s : State) (p cause : Nat) :
    controlPart (linkFailure s p cause) = controlPart s := by
  unfold linkFailure; (repeat' split) <;> simp (maxDischargeDepth := 9)

@[simp] theorem portFreed_allot (s : State) (p : Nat) :
    portFreePart (allot s p) = portFreePart s := by
  unfold allot; simp (maxDischargeDepth := 9)

@[simp] theorem portFreed_sendInit (s : State) (p : Nat) :
    portFreePart (sendInit s p) = portFreePart s := by
  unfold sendInit; simp (maxDischargeDepth := 9)

@[simp] theorem controlled_sendInit (s : State) (p : Nat) :
    controlPart (sendInit s p) = controlPart s :=
  controlled_of_portFreed (portFreed_sendInit s p)

@[simp] theorem portFreed_beginInit (s : State) (p : Nat) :
    portFreePart (beginInit s p) = portFreePart s := by
  unfold beginInit; simp (maxDischargeDepth := 9)

@[simp] theorem portFreed_checkLanes (s : State) (p : Nat) :
    portFreePart (checkLanes s p) = portFreePart s := by
  unfold checkLanes; (repeat' split) <;> simp (maxDischargeDepth := 9)

@[simp] theorem portFreed_goActive (s : State) (p : Nat) :
    portFreePart (goActive s p) = portFreePart s := by
  unfold goActive; simp (maxDischargeDepth := 9)

@[simp] theorem portFreed_tryActive (s : State) (p : Nat) :
    portFreePart (tryActive s p) = portFreePart s := by
  unfold tryActive; simp (maxDischargeDepth := 9)

@[simp] theorem controlled_tryActive (s : State) (p : Nat) :
    controlPart (tryActive s p) = controlPart s :=
  controlled_of_portFreed (portFreed_tryActive s p)

@[simp] theorem portFreed_sendLaneMap (s : State) (p : Nat) (mapSeq rxMap : BitVec 8) (echo : Bool) :
    portFreePart (sendLaneMap s p mapSeq rxMap echo) = portFreePart s := by
  unfold sendLaneMap; simp (maxDischargeDepth := 9)

@[simp] theorem controlled_sendLaneMap (s : State) (p : Nat) (mapSeq rxMap : BitVec 8) (echo : Bool) :
    controlPart (sendLaneMap s p mapSeq rxMap echo) = controlPart s :=
  controlled_of_portFreed (portFreed_sendLaneMap s p mapSeq rxMap echo)

@[simp] theorem portFreed_newMap (s : State) (p : Nat) (m : BitVec 8) :
    portFreePart (newMap s p m) = portFreePart s := by
  unfold newMap; simp (maxDischargeDepth := 9)

@[simp] theorem controlled_newMap (s : State) (p : Nat) (m : BitVec 8) :
    controlPart (newMap s p m) = controlPart s :=
  controlled_of_portFreed (portFreed_newMap s p m)

@[simp] theorem portFreed_adoptTxMap (s : State) (p : Nat) (m : BitVec 8) :
    portFreePart (adoptTxMap s p m) = portFreePart s := by
  unfold adoptTxMap; simp (maxDischargeDepth := 9)

@[simp] theorem controlled_adoptTxMap (s : State) (p : Nat) (m : BitVec 8) :
    controlPart (adoptTxMap s p m) = controlPart s :=
  controlled_of_portFreed (portFreed_adoptTxMap s p m)

@[simp] theorem controlled_laneLost (s : State) (l cause : Nat) :
    controlPart (laneLost s l cause) = controlPart s := by
  unfold laneLost; (repeat' split) <;> simp (maxDischargeDepth := 9)

@[simp] theorem portFreed_echoIn (s : State) (p lane : Nat) :
    portFreePart (echoIn s p lane) = portFreePart s := by
  unfold echoIn; simp (maxDischargeDepth := 9)

@[simp] theorem controlled_echoIn (s : State) (p lane : Nat) :
    controlPart (echoIn s p lane) = controlPart s :=
  controlled_of_portFreed (portFreed_echoIn s p lane)

@[simp] theorem portFreed_laneBack (s : State) (l : Nat) :
    portFreePart (laneBack s l) = portFreePart s := by
  unfold laneBack; simp only; (repeat' split) <;> simp_all (maxDischargeDepth := 9)

@[simp] theorem linkSided_laneBack (s : State) (l : Nat) :
    linkSidePart (laneBack s l) = linkSidePart s :=
  linkSided_of_portFreed (portFreed_laneBack s l)

@[simp] theorem portFreed_sendLinkDown (s : State) (p : Nat) :
    portFreePart (sendLinkDown s p) = portFreePart s := by
  unfold sendLinkDown; simp (maxDischargeDepth := 9)

@[simp] theorem controlled_sendLinkDown (s : State) (p : Nat) :
    controlPart (sendLinkDown s p) = controlPart s :=
  controlled_of_portFreed (portFreed_sendLinkDown s p)

@[simp] theorem controlled_portDown (s : State) (p : Nat) :
    controlPart (portDown s p) = controlPart s := by
  unfold portDown; (repeat' split) <;> simp (maxDischargeDepth := 9)

@[simp] theorem settled_portDown (s : State) (p : Nat) :
    settledPart (portDown s p) = settledPart s :=
  settled_of_controlled (controlled_portDown s p)

@[simp] theorem booted_portDown (s : State) (p : Nat) :
    bootPart (portDown s p) = bootPart s :=
  booted_of_controlled (controlled_portDown s p)

@[simp] theorem controlled_endDrain (s : State) (p : Nat) :
    controlPart (endDrain s p) = controlPart s := by
  unfold endDrain; simp (maxDischargeDepth := 9)

@[simp] theorem booted_loadAccess (s : State) :
    bootPart (loadAccess s) = bootPart s := by
  unfold loadAccess; simp (maxDischargeDepth := 9)

@[simp] theorem fixed_loadAccess (s : State) :
    fixedPart (loadAccess s) = fixedPart s :=
  fixed_of_booted (booted_loadAccess s)

@[simp] theorem booted_storeCfg (s : State) (f : StoredCfg → StoredCfg) :
    bootPart (storeCfg s f) = bootPart s := by
  unfold storeCfg; simp (maxDischargeDepth := 9)

@[simp] theorem fixed_storeCfg (s : State) (f : StoredCfg → StoredCfg) :
    fixedPart (storeCfg s f) = fixedPart s :=
  fixed_of_booted (booted_storeCfg s f)

@[simp] theorem settled_armSnap (s : State) :
    settledPart (armSnap s) = settledPart s := by
  unfold armSnap; simp (maxDischargeDepth := 9)

@[simp] theorem settled_cancelSnap (s : State) :
    settledPart (cancelSnap s) = settledPart s := by
  unfold cancelSnap; simp (maxDischargeDepth := 9)

@[simp] theorem booted_advanceRdPtr (s : State) (m : Nat) :
    bootPart (advanceRdPtr s m) = bootPart s := by
  unfold advanceRdPtr; simp (maxDischargeDepth := 9)

@[simp] theorem cored_chainSend (s : State) (p : ChainPort) (f : ChainFrame) :
    corePart (chainSend s p f) = corePart s := by
  unfold chainSend; simp (maxDischargeDepth := 9)

@[simp] theorem settled_chainSend (s : State) (p : ChainPort) (f : ChainFrame) :
    settledPart (chainSend s p f) = settledPart s :=
  settled_of_cored (cored_chainSend s p f)

@[simp] theorem cored_chainUp (s : State) (type ftag : Nat) (payload : List Byte) :
    corePart (chainUp s type ftag payload) = corePart s := by
  unfold chainUp; simp (maxDischargeDepth := 9)

@[simp] theorem settled_chainUp (s : State) (type ftag : Nat) (payload : List Byte) :
    settledPart (chainUp s type ftag payload) = settledPart s :=
  settled_of_cored (cored_chainUp s type ftag payload)

@[simp] theorem cored_mgmtQueue (s : State) (port : Option Nat) (p : Pkt) :
    corePart (mgmtQueue s port p) = corePart s := by
  unfold mgmtQueue; simp (maxDischargeDepth := 9)

@[simp] theorem cored_sendOut (s : State) (port type : Nat) (mh : MgmtHdr) (body : List Byte) :
    corePart (sendOut s port type mh body) = corePart s := by
  unfold sendOut; simp (maxDischargeDepth := 9)

@[simp] theorem cored_sendPath (s : State) (type : Nat) (mh : MgmtHdr) (body : List Byte) :
    corePart (sendPath s type mh body) = corePart s := by
  unfold sendPath; simp (maxDischargeDepth := 9)

@[simp] theorem cored_passOn (s : State) (port : Nat) (p : Pkt) (mh : MgmtHdr) (body : List Byte) :
    corePart (passOn s port p mh body) = corePart s := by
  unfold passOn; simp (maxDischargeDepth := 9)

@[simp] theorem portFreed_passOn (s : State) (port : Nat) (p : Pkt) (mh : MgmtHdr) (body : List Byte) :
    portFreePart (passOn s port p mh body) = portFreePart s :=
  portFreed_of_cored (cored_passOn s port p mh body)

@[simp] theorem linkSided_passOn (s : State) (port : Nat) (p : Pkt) (mh : MgmtHdr) (body : List Byte) :
    linkSidePart (passOn s port p mh body) = linkSidePart s :=
  linkSided_of_cored (cored_passOn s port p mh body)

@[simp] theorem settled_passOn (s : State) (port : Nat) (p : Pkt) (mh : MgmtHdr) (body : List Byte) :
    settledPart (passOn s port p mh body) = settledPart s :=
  settled_of_cored (cored_passOn s port p mh body)

@[simp] theorem cored_mgmtAnswer (s : State) (src : ArrSrc) (mh : MgmtHdr) (fea : BitVec 24) (type : Nat) (body : List Byte) :
    corePart (mgmtAnswer s src mh fea type body) = corePart s := by
  unfold mgmtAnswer; (repeat' split) <;> simp (maxDischargeDepth := 9)

@[simp] theorem settled_mgmtAnswer (s : State) (src : ArrSrc) (mh : MgmtHdr) (fea : BitVec 24) (type : Nat) (body : List Byte) :
    settledPart (mgmtAnswer s src mh fea type body) = settledPart s :=
  settled_of_cored (cored_mgmtAnswer s src mh fea type body)

@[simp] theorem cored_sendCmd (s : State) (mh : MgmtHdr) (dest : Option (BitVec 24)) (what : SentFor) (body : List Byte) :
    corePart (sendCmd s mh dest what body) = corePart s := by
  unfold sendCmd; (repeat' split) <;> simp (maxDischargeDepth := 9)

@[simp] theorem cored_ansOk (s : State) :
    corePart (ansOk s).2.2 = corePart s := by
  unfold ansOk; simp (maxDischargeDepth := 9)

@[simp] theorem linkSided_ansOk (s : State) :
    linkSidePart (ansOk s).2.2 = linkSidePart s :=
  linkSided_of_cored (cored_ansOk s)

@[simp] theorem controlled_ansOk (s : State) :
    controlPart (ansOk s).2.2 = controlPart s :=
  controlled_of_cored (cored_ansOk s)

@[simp] theorem settled_ansOk (s : State) :
    settledPart (ansOk s).2.2 = settledPart s :=
  settled_of_cored (cored_ansOk s)

@[simp] theorem booted_ansOk (s : State) :
    bootPart (ansOk s).2.2 = bootPart s :=
  booted_of_cored (cored_ansOk s)

@[simp] theorem fixed_ansOk (s : State) :
    fixedPart (ansOk s).2.2 = fixedPart s :=
  fixed_of_cored (cored_ansOk s)

@[simp] theorem cored_ansData (s : State) (l : List Byte) :
    corePart (ansData s l).2.2 = corePart s := by
  unfold ansData; simp (maxDischargeDepth := 9)

@[simp] theorem linkSided_ansData (s : State) (l : List Byte) :
    linkSidePart (ansData s l).2.2 = linkSidePart s :=
  linkSided_of_cored (cored_ansData s l)

@[simp] theorem controlled_ansData (s : State) (l : List Byte) :
    controlPart (ansData s l).2.2 = controlPart s :=
  controlled_of_cored (cored_ansData s l)

@[simp] theorem settled_ansData (s : State) (l : List Byte) :
    settledPart (ansData s l).2.2 = settledPart s :=
  settled_of_cored (cored_ansData s l)

@[simp] theorem cored_ansFail (s : State) (st : Nat) :
    corePart (ansFail s st).2.2 = corePart s := by
  unfold ansFail; simp (maxDischargeDepth := 9)

@[simp] theorem linkSided_ansFail (s : State) (st : Nat) :
    linkSidePart (ansFail s st).2.2 = linkSidePart s :=
  linkSided_of_cored (cored_ansFail s st)

@[simp] theorem controlled_ansFail (s : State) (st : Nat) :
    controlPart (ansFail s st).2.2 = controlPart s :=
  controlled_of_cored (cored_ansFail s st)

@[simp] theorem settled_ansFail (s : State) (st : Nat) :
    settledPart (ansFail s st).2.2 = settledPart s :=
  settled_of_cored (cored_ansFail s st)

@[simp] theorem booted_ansFail (s : State) (st : Nat) :
    bootPart (ansFail s st).2.2 = bootPart s :=
  booted_of_cored (cored_ansFail s st)

@[simp] theorem fixed_ansFail (s : State) (st : Nat) :
    fixedPart (ansFail s st).2.2 = fixedPart s :=
  fixed_of_cored (cored_ansFail s st)

@[simp] theorem settled_chainRespond (s : State) (bytes : List Byte) :
    settledPart (chainRespond s bytes) = settledPart s := by
  unfold chainRespond; (repeat' split) <;> simp (maxDischargeDepth := 9)

@[simp] theorem settled_respond (s : State) (c : MbCmd) (st : Nat) (payload : List Byte) :
    settledPart (respond s c st payload) = settledPart s := by
  unfold respond; (repeat' split) <;> simp (maxDischargeDepth := 9)

@[simp] theorem booted_respond (s : State) (c : MbCmd) (st : Nat) (payload : List Byte) :
    bootPart (respond s c st payload) = bootPart s :=
  booted_of_settled (settled_respond s c st payload)

@[simp] theorem fixed_respond (s : State) (c : MbCmd) (st : Nat) (payload : List Byte) :
    fixedPart (respond s c st payload) = fixedPart s :=
  fixed_of_settled (settled_respond s c st payload)

@[simp] theorem settled_runMb (s : State) (ok : Nat → Bool) (k : State → MbCmd → MbAns) (hk : ∀ z y0, settledPart (k z y0).2.2 = settledPart z) :
    settledPart (runMb s ok k) = settledPart s := by
  unfold runMb; (repeat' split) <;> simp (maxDischargeDepth := 9) [hk]

@[simp] theorem booted_runMb (s : State) (ok : Nat → Bool) (k : State → MbCmd → MbAns) (hk : ∀ z y0, bootPart (k z y0).2.2 = bootPart z) :
    bootPart (runMb s ok k) = bootPart s := by
  unfold runMb; (repeat' split) <;> simp (maxDischargeDepth := 9) [hk]

@[simp] theorem fixed_runMb (s : State) (ok : Nat → Bool) (k : State → MbCmd → MbAns) (hk : ∀ z y0, fixedPart (k z y0).2.2 = fixedPart z) :
    fixedPart (runMb s ok k) = fixedPart s := by
  unfold runMb; (repeat' split) <;> simp (maxDischargeDepth := 9) [hk]

@[simp] theorem settled_mbChecked (s : State) (c : MbCmd) (fieldsOk : Bool) (rights : List (Nat × Bool)) (k : State → MbAns) (hk : ∀ z , settledPart (k z ).2.2 = settledPart z) :
    settledPart (mbChecked s c fieldsOk rights k).2.2 = settledPart s := by
  unfold mbChecked; (repeat' split) <;> simp (maxDischargeDepth := 9) [foldl_settled, hk]

@[simp] theorem booted_mbChecked (s : State) (c : MbCmd) (fieldsOk : Bool) (rights : List (Nat × Bool)) (k : State → MbAns) (hk : ∀ z , bootPart (k z ).2.2 = bootPart z) :
    bootPart (mbChecked s c fieldsOk rights k).2.2 = bootPart s := by
  unfold mbChecked; (repeat' split) <;> simp (maxDischargeDepth := 9) [foldl_booted, hk]

@[simp] theorem fixed_mbChecked (s : State) (c : MbCmd) (fieldsOk : Bool) (rights : List (Nat × Bool)) (k : State → MbAns) (hk : ∀ z , fixedPart (k z ).2.2 = fixedPart z) :
    fixedPart (mbChecked s c fieldsOk rights k).2.2 = fixedPart s := by
  unfold mbChecked; (repeat' split) <;> simp (maxDischargeDepth := 9) [foldl_fixed, hk]

@[simp] theorem settled_mbRun (s : State) (op : Nat) (fields : List Byte → Bool) (rights : List (Nat × Bool)) (k : State → MbCmd → MbAns) (hk : ∀ z y0, settledPart (k z y0).2.2 = settledPart z) :
    settledPart (mbRun s op fields rights k) = settledPart s := by
  unfold mbRun; simp (maxDischargeDepth := 9) [hk]

@[simp] theorem booted_mbRun (s : State) (op : Nat) (fields : List Byte → Bool) (rights : List (Nat × Bool)) (k : State → MbCmd → MbAns) (hk : ∀ z y0, bootPart (k z y0).2.2 = bootPart z) :
    bootPart (mbRun s op fields rights k) = bootPart s := by
  unfold mbRun; simp (maxDischargeDepth := 9) [hk]

@[simp] theorem fixed_mbRun (s : State) (op : Nat) (fields : List Byte → Bool) (rights : List (Nat × Bool)) (k : State → MbCmd → MbAns) (hk : ∀ z y0, fixedPart (k z y0).2.2 = fixedPart z) :
    fixedPart (mbRun s op fields rights k) = fixedPart s := by
  unfold mbRun; simp (maxDischargeDepth := 9) [hk]

@[simp] theorem controlled_portNamed (s : State) (p : Nat) (k : MbAns) (hk : controlPart k.2.2 = controlPart s) :
    controlPart (portNamed s p k).2.2 = controlPart s := by
  unfold portNamed; (repeat' split) <;> simp (maxDischargeDepth := 9) [hk]

@[simp] theorem settled_portNamed (s : State) (p : Nat) (k : MbAns) (hk : settledPart k.2.2 = settledPart s) :
    settledPart (portNamed s p k).2.2 = settledPart s := by
  unfold portNamed; (repeat' split) <;> simp (maxDischargeDepth := 9) [hk]

@[simp] theorem booted_withConfig (s : State) (k : MbAns) (hk : bootPart k.2.2 = bootPart s) :
    bootPart (withConfig s k).2.2 = bootPart s := by
  unfold withConfig; (repeat' split) <;> simp (maxDischargeDepth := 9) [hk]

@[simp] theorem fixed_withConfig (s : State) (k : MbAns) (hk : fixedPart k.2.2 = fixedPart s) :
    fixedPart (withConfig s k).2.2 = fixedPart s := by
  unfold withConfig; (repeat' split) <;> simp (maxDischargeDepth := 9) [hk]

@[simp] theorem settled_accept (s : State) (c : MbCmd) (what : Background) (committed : Bool) (status : Nat) (done : Bool) :
    settledPart (accept s c what committed status done).2.2 = settledPart s := by
  unfold accept; simp (maxDischargeDepth := 9)

@[simp] theorem fixed_accept (s : State) (c : MbCmd) (what : Background) (committed : Bool) (status : Nat) (done : Bool) :
    fixedPart (accept s c what committed status done).2.2 = fixedPart s :=
  fixed_of_settled (settled_accept s c what committed status done)

theorem settled_execCmdDone (m tag : Nat) (s : State) :
    resSettled (execCmdDone m tag s) s := by
  unfold execCmdDone; (repeat' split) <;> simp (maxDischargeDepth := 9)

theorem settled_execMbInvalidOpcode (s : State) :
    resSettled (execMbInvalidOpcode s) s := by
  unfold execMbInvalidOpcode; simp (maxDischargeDepth := 9)

@[simp] theorem cored_ringPut (s : State) (r : EvRec) :
    corePart (ringPut s r) = corePart s := by
  unfold ringPut; (repeat' split) <;> simp (maxDischargeDepth := 9)

@[simp] theorem cored_flushSome (s : State) (x0 : Nat) :
    corePart (flushSome s x0) = corePart s := by
  induction x0 generalizing s with
  | zero => simp (maxDischargeDepth := 9) [flushSome]
  | succ k ih => (unfold flushSome; (repeat' split) <;> first | rfl | (simp (maxDischargeDepth := 9) [ih]; done))

@[simp] theorem cored_reportLost (s : State) :
    corePart (reportLost s) = corePart s := by
  unfold reportLost; simp (maxDischargeDepth := 9)

@[simp] theorem cored_flushEvents (s : State) :
    corePart (flushEvents s) = corePart s := by
  unfold flushEvents; simp (maxDischargeDepth := 9)

@[simp] theorem fixed_flushEvents (s : State) :
    fixedPart (flushEvents s) = fixedPart s :=
  fixed_of_cored (cored_flushEvents s)

@[simp] theorem cored_forwardOne (s : State) (q : Nat) :
    corePart (forwardOne s q) = corePart s := by
  unfold forwardOne; (repeat' split) <;> simp (maxDischargeDepth := 9)

@[simp] theorem cored_writeFast (s : State) (r : EvRec) :
    corePart (writeFast s r) = corePart s := by
  unfold writeFast; simp (maxDischargeDepth := 9)

@[simp] theorem cored_flushRecords (s : State) :
    corePart (flushRecords s) = corePart s := by
  unfold flushRecords; simp (maxDischargeDepth := 9) [foldl_cored]

@[simp] theorem fixed_flushRecords (s : State) :
    fixedPart (flushRecords s) = fixedPart s :=
  fixed_of_cored (cored_flushRecords s)

@[simp] theorem fixed_powerFlush (s : State) :
    fixedPart (powerFlush s) = fixedPart s := by
  unfold powerFlush
  have k : fixedPart (agentWrite (flushRecords s) recorderMaster 4 (fun t => { t with lifePart := t.life })) = fixedPart s :=
    (fixed_agentWrite _ _ _ (fun t => { t with lifePart := t.life }) (fun _ => rfl)).trans (fixed_flushRecords s)
  dsimp only
  split
  · simp only [fixed_emit, fixed_count]; exact k
  · exact k

@[simp] theorem cored_flushAll (s : State) :
    corePart (flushAll s) = corePart s := by
  unfold flushAll; simp (maxDischargeDepth := 9) [foldl_cored]

@[simp] theorem fixed_flushAll (s : State) :
    fixedPart (flushAll s) = fixedPart s :=
  fixed_of_cored (cored_flushAll s)

end Sys2Proof.Machine
end

