-- ==== Sys2Proof/Laws/KeepData.lean ====
section
/-! SUPPORT. What the data path: transport, matching, collectives, switching, links, lanes, time, paging and polling leave unchanged. Nine parts of the state, each operation with the strongest it keeps:
`corePart`, `hostSidePart`, `portFreePart`, `enginePart`, `linkSidePart`, `controlPart`, `settledPart`, `bootPart`, `fixedPart`; the weaker ones follow by the lemmas named after both. -/

namespace Sys2Proof.Machine

@[simp] theorem engined_placeRequest (s : State) (x : Qp) (a : Arrival) (done : State → State) (hdone : ∀ z , enginePart (done z ) = enginePart z) :
    enginePart (placeRequest s x a done).1 = enginePart s := by
  unfold placeRequest
  refine engined_withWin _ _ _ _ ?_
  intro z
  repeat' split
  all_goals simp [hdone]

theorem engined_execWriteRx (ep : Nat) (s : State) :
    resEngine (execWriteRx ep s) s := by
  unfold execWriteRx; simp (maxDischargeDepth := 9)

@[simp] theorem cored_countBytes (s : State) (q : Nat) (x : Qp) (a : Arrival) :
    corePart (countBytes s q x a) = corePart s := by
  unfold countBytes; simp (maxDischargeDepth := 9)

@[simp] theorem engined_countBytes (s : State) (q : Nat) (x : Qp) (a : Arrival) :
    enginePart (countBytes s q x a) = enginePart s :=
  engined_of_cored (cored_countBytes s q x a)

theorem engined_execWriteCountRx (ep : Nat) (s : State) :
    resEngine (execWriteCountRx ep s) s := by
  unfold execWriteCountRx; simp (maxDischargeDepth := 9)

@[simp] theorem hostSided_sendResp (s : State) (q : Nat) (th : TransHdr) (payload : List Byte) :
    hostSidePart (sendResp s q th payload) = hostSidePart s := by
  unfold sendResp; (repeat' split) <;> simp (maxDischargeDepth := 9)

@[simp] theorem hostSided_readResponses (s : State) (q : Nat) (x : Qp) (w : Win) (a : Arrival) :
    hostSidePart (readResponses s q x w a) = hostSidePart s := by
  unfold readResponses; simp (maxDischargeDepth := 9) [foldl_hostSided]

@[simp] theorem hostSided_doRead (s : State) (q : Nat) (x : Qp) (a : Arrival) :
    hostSidePart (doRead s q x a).1 = hostSidePart s := by
  unfold doRead
  refine hostSided_withWin _ _ _ _ ?_
  intro z
  repeat' split
  all_goals simp

@[simp] theorem engined_doRead (s : State) (q : Nat) (x : Qp) (a : Arrival) :
    enginePart (doRead s q x a).1 = enginePart s :=
  engined_of_hostSided (hostSided_doRead s q x a)

theorem engined_execReadReqRx (ep : Nat) (s : State) :
    resEngine (execReadReqRx ep s) s := by
  unfold execReadReqRx; simp (maxDischargeDepth := 9)

@[simp] theorem cored_assignRecvs (s : State) (q srq : Nat) (m : BitVec 32) (x0 : Nat) :
    corePart (assignRecvs s q srq m x0) = corePart s := by
  induction x0 generalizing s with
  | zero => simp (maxDischargeDepth := 9) [assignRecvs]
  | succ k ih => (unfold assignRecvs; (repeat' split) <;> first | rfl | (simp (maxDischargeDepth := 9) [ih]; done))

@[simp] theorem hostSided_assignRecvs (s : State) (q srq : Nat) (m : BitVec 32) (x0 : Nat) :
    hostSidePart (assignRecvs s q srq m x0) = hostSidePart s :=
  hostSided_of_cored (cored_assignRecvs s q srq m x0)

@[simp] theorem cored_updRxMsg (s : State) (q : Nat) (m : BitVec 32) (f : RxMsg → RxMsg) :
    corePart (updRxMsg s q m f) = corePart s := by
  rfl

@[simp] theorem hostSided_updRxMsg (s : State) (q : Nat) (m : BitVec 32) (f : RxMsg → RxMsg) :
    hostSidePart (updRxMsg s q m f) = hostSidePart s :=
  hostSided_of_cored (cored_updRxMsg s q m f)

@[simp] theorem cored_dropRxMsg (s : State) (q : Nat) (m : BitVec 32) :
    corePart (dropRxMsg s q m) = corePart s := by
  rfl

@[simp] theorem hostSided_dropRxMsg (s : State) (q : Nat) (m : BitVec 32) :
    hostSidePart (dropRxMsg s q m) = hostSidePart s :=
  hostSided_of_cored (cored_dropRxMsg s q m)

@[simp] theorem hostSided_placeSend (s : State) (q : Nat) (x : Qp) (a : Arrival) (m : RxMsg) :
    hostSidePart (placeSend s q x a m).1 = hostSidePart s := by
  unfold placeSend
  dsimp only
  split
  · rfl
  · split
    · simp
    · split <;> rename_i t e1
      · exact hostSided_useWins _ _ _ _ _ (.inl e1)
      · have k := hostSided_useWins _ _ _ _ _ (.inr e1)
        repeat' split
        all_goals simpa using k

@[simp] theorem hostSided_doSend (s : State) (q : Nat) (x : Qp) (a : Arrival) :
    hostSidePart (doSend s q x a).1 = hostSidePart s := by
  unfold doSend; simp only; (repeat' split) <;> simp_all (maxDischargeDepth := 9)

@[simp] theorem engined_doSend (s : State) (q : Nat) (x : Qp) (a : Arrival) :
    enginePart (doSend s q x a).1 = enginePart s :=
  engined_of_hostSided (hostSided_doSend s q x a)

theorem engined_execSendRx (ep : Nat) (s : State) :
    resEngine (execSendRx ep s) s := by
  unfold execSendRx; simp (maxDischargeDepth := 9)

@[simp] theorem hostSided_atomicResp (s : State) (q : Nat) (psn : BitVec 32) (orig : BitVec 128) (width : Nat) (keep : Bool) :
    hostSidePart (atomicResp s q psn orig width keep) = hostSidePart s := by
  unfold atomicResp; (repeat' split) <;> simp (maxDischargeDepth := 9)

@[simp] theorem hostSided_counterAtomic (s : State) (q : Nat) (x : Qp) (a : Arrival) (aop : Nat) (v swap : BitVec 128) :
    hostSidePart (counterAtomic s q x a aop v swap).1 = hostSidePart s := by
  unfold counterAtomic; simp only; (repeat' split) <;> simp_all (maxDischargeDepth := 9)

@[simp] theorem hostSided_lineAtomic (s : State) (ep : Nat) (h : HostAtomic) (orig : BitVec 128) :
    hostSidePart (lineAtomic s ep h orig) = hostSidePart s := by
  unfold lineAtomic; simp (maxDischargeDepth := 9)

@[simp] theorem hostSided_doAtomic (s : State) (q : Nat) (x : Qp) (a : Arrival) :
    hostSidePart (doAtomic s q x a).1 = hostSidePart s := by
  unfold doAtomic
  dsimp only
  split
  · rfl
  · split
    · simp
    · refine hostSided_withWin _ _ _ _ ?_
      intro z
      repeat' split
      all_goals simp

@[simp] theorem engined_doAtomic (s : State) (q : Nat) (x : Qp) (a : Arrival) :
    enginePart (doAtomic s q x a).1 = enginePart s :=
  engined_of_hostSided (hostSided_doAtomic s q x a)

@[simp] theorem hostSided_repeatAtomic (s : State) (q : Nat) (x : Qp) (a : Arrival) :
    hostSidePart (repeatAtomic s q x a) = hostSidePart s := by
  unfold repeatAtomic; (repeat' split) <;> simp (maxDischargeDepth := 9)

@[simp] theorem engined_repeatAtomic (s : State) (q : Nat) (x : Qp) (a : Arrival) :
    enginePart (repeatAtomic s q x a) = enginePart s :=
  engined_of_hostSided (hostSided_repeatAtomic s q x a)

theorem engined_execAtomicReqRx (ep : Nat) (s : State) :
    resEngine (execAtomicReqRx ep s) s := by
  unfold execAtomicReqRx; simp (maxDischargeDepth := 9)

@[simp] theorem hostSided_atomicRefused (s : State) (q : Nat) (psn : BitVec 32) :
    hostSidePart (atomicRefused s q psn) = hostSidePart s := by
  unfold atomicRefused; simp (maxDischargeDepth := 9)

theorem hostSided_execHostAtomicComplete (ep : Nat) (orig : Option (BitVec 128)) (s : State) :
    resHostSide (execHostAtomicComplete ep orig s) s := by
  unfold execHostAtomicComplete; (repeat' split) <;> simp (maxDischargeDepth := 9)

theorem hostSided_execCxlCacheOwnershipGranted (ep : Nat) (orig : BitVec 128) (s : State) :
    resHostSide (execCxlCacheOwnershipGranted ep orig s) s := by
  unfold execCxlCacheOwnershipGranted; (repeat' split) <;> simp (maxDischargeDepth := 9)

@[simp] theorem cored_strayResponse (s : State) (x : Qp) :
    corePart (strayResponse s x) = corePart s := by
  rfl

@[simp] theorem hostSided_strayResponse (s : State) (x : Qp) :
    hostSidePart (strayResponse s x) = hostSidePart s :=
  hostSided_of_cored (cored_strayResponse s x)

@[simp] theorem engined_strayResponse (s : State) (x : Qp) :
    enginePart (strayResponse s x) = enginePart s :=
  engined_of_cored (cored_strayResponse s x)

theorem cored_placeMatched (s : State) (f pd : Nat) (m : Matched) (off : Nat) (bytes : List Byte) :
    ∀ t, placeMatched s f pd m off bytes = some t → corePart t = corePart s := by
  intro t h
  unfold placeMatched at h
  dsimp only at h
  split at h
  · cases h; rfl
  · split at h <;> rename_i u e1
    · cases h; exact cored_useWins _ _ _ _ _ (.inl e1)
    · have k := cored_useWins _ _ _ _ _ (.inr e1)
      split at h <;> cases h
      simpa using k

theorem hostSided_placeMatched (s : State) (f pd : Nat) (m : Matched) (off : Nat) (bytes : List Byte) :
    ∀ t, placeMatched s f pd m off bytes = some t → hostSidePart t = hostSidePart s :=
  fun u hu => hostSided_of_cored (cored_placeMatched s f pd m off bytes u hu)

@[simp] theorem cored_dropPend (s : State) (q : Nat) (psn : BitVec 32) :
    corePart (dropPend s q psn) = corePart s := by
  rfl

@[simp] theorem hostSided_dropPend (s : State) (q : Nat) (psn : BitVec 32) :
    hostSidePart (dropPend s q psn) = hostSidePart s :=
  hostSided_of_cored (cored_dropPend s q psn)

@[simp] theorem engined_dropPend (s : State) (q : Nat) (psn : BitVec 32) :
    enginePart (dropPend s q psn) = enginePart s :=
  engined_of_cored (cored_dropPend s q psn)

@[simp] theorem hostSided_placeLocal (s : State) (q : Nat) (x : Qp) (e : Ent) (a : Arrival) (l : List Sge) (place : State → List Sge → State) (hplace : ∀ z y0, hostSidePart (place z y0) = hostSidePart z) :
    hostSidePart (placeLocal s q x e a l place) = hostSidePart s := by
  unfold placeLocal
  split <;> rename_i t e1
  · exact hostSided_useWins _ _ _ _ _ (.inl e1)
  · have k := hostSided_useWins _ _ _ _ _ (.inr e1)
    repeat' split
    all_goals simpa [hplace] using k

@[simp] theorem engined_placeLocal (s : State) (q : Nat) (x : Qp) (e : Ent) (a : Arrival) (l : List Sge) (place : State → List Sge → State) (hplace : ∀ z y0, enginePart (place z y0) = enginePart z) :
    enginePart (placeLocal s q x e a l place) = enginePart s := by
  unfold placeLocal
  split <;> rename_i t e1
  · exact engined_useWins _ _ _ _ _ (.inl e1)
  · have k := engined_useWins _ _ _ _ _ (.inr e1)
    repeat' split
    all_goals simpa [hplace] using k

@[simp] theorem hostSided_doReadResp (s : State) (q : Nat) (x : Qp) (a : Arrival) :
    hostSidePart (doReadResp s q x a) = hostSidePart s := by
  unfold doReadResp
  split
  · simp
  · dsimp only
    split
    · split
      · simp
      · apply hostSided_placeLocal; intro z y0; simp
    · split
      · simp
      · simp only [hostSided_updQp]
        cases h : placeMatched (dropPend s q _) x.fn (x.recvPd _) _ _ _ with
        | none => simp
        | some u => simpa using hostSided_placeMatched _ _ _ _ _ _ u h
    · simp

@[simp] theorem engined_doReadResp (s : State) (q : Nat) (x : Qp) (a : Arrival) :
    enginePart (doReadResp s q x a) = enginePart s :=
  engined_of_hostSided (hostSided_doReadResp s q x a)

theorem engined_execReadRespRx (ep : Nat) (s : State) :
    resEngine (execReadRespRx ep s) s := by
  unfold execReadRespRx; simp (maxDischargeDepth := 9)

theorem engined_execAtomicRespRx (ep : Nat) (s : State) :
    resEngine (execAtomicRespRx ep s) s := by
  unfold execAtomicRespRx
  refine engined_guardRes' _ _ _ ?_
  apply engined_onResponse
  intro z y0 y1 y2
  split
  · simp
  · split
    · split
      · simp
      · apply engined_placeLocal; intro z y0; simp
    · simp

@[simp] theorem hostSided_takeAck (s : State) (q : Nat) (x : Qp) (a : Arrival) (sack : BitVec 256) :
    hostSidePart (takeAck s q x a sack) = hostSidePart s := by
  unfold takeAck
  dsimp only
  refine (foldl_hostSided _ (fun z y => ?_) _ _).trans ((foldl_hostSided _ (fun z y => ?_) _ _).trans ?_)
  · split <;> simp
  · simp
  · split <;> simp

@[simp] theorem engined_takeAck (s : State) (q : Nat) (x : Qp) (a : Arrival) (sack : BitVec 256) :
    enginePart (takeAck s q x a sack) = enginePart s :=
  engined_of_hostSided (hostSided_takeAck s q x a sack)

@[simp] theorem hostSided_takeNak (s : State) (q : Nat) (code : Nat) (psn : BitVec 32) (retry : Nat) :
    hostSidePart (takeNak s q code psn retry) = hostSidePart s := by
  unfold takeNak
  split
  · rfl
  · dsimp only
    repeat' split
    all_goals simp

@[simp] theorem engined_takeNak (s : State) (q : Nat) (code : Nat) (psn : BitVec 32) (retry : Nat) :
    enginePart (takeNak s q code psn retry) = enginePart s :=
  engined_of_hostSided (hostSided_takeNak s q code psn retry)

theorem engined_execAckRx (ep : Nat) (s : State) :
    resEngine (execAckRx ep s) s := by
  unfold execAckRx
  refine engined_guardRes' _ _ _ ?_
  refine engined_onResponse _ _ _ _ ?_ <;> intro z q x a
  all_goals dsimp only
  all_goals repeat' split
  all_goals simp (maxDischargeDepth := 9)

theorem hostSided_execAckDelayExpire (q : Nat) (s : State) :
    resHostSide (execAckDelayExpire q s) s := by
  unfold execAckDelayExpire; (repeat' split) <;> simp (maxDischargeDepth := 9)

theorem hostSided_execRtoExpire (q : Nat) (psn : BitVec 32) (s : State) :
    resHostSide (execRtoExpire q psn s) s := by
  unfold execRtoExpire; (repeat' split) <;> simp (maxDischargeDepth := 9)

theorem hostSided_execRnrRetryAfterExpire (q : Nat) (s : State) :
    resHostSide (execRnrRetryAfterExpire q s) s := by
  unfold execRnrRetryAfterExpire; (repeat' split) <;> simp (maxDischargeDepth := 9) [foldl_hostSided]

@[simp] theorem hostSided_collBlocks (s : State) (q : Nat) (x : Qp) (e : Ent) (child first n : Nat) (l : List Byte) :
    hostSidePart (collBlocks s q x e child first n l) = hostSidePart s := by
  unfold collBlocks; simp (maxDischargeDepth := 9)

@[simp] theorem hostSided_collData (s : State) (q : Nat) (idx : BitVec 32) (id : Nat) (seq : BitVec 32) (first n : Nat) (l : List Byte) :
    hostSidePart (collData s q idx id seq first n l) = hostSidePart s := by
  unfold collData
  split
  · rfl
  · split
    · split
      · rename_i t e; exact hostSided_collAdmit _ _ _ _ _ e
      · simp
    · split <;> simp

theorem hostSided_execHostDataReadComplete (ep : Nat) (data : Option (List Byte)) (s : State) :
    resHostSide (execHostDataReadComplete ep data s) s := by
  unfold execHostDataReadComplete; simp only; (repeat' split) <;> simp_all (maxDischargeDepth := 9)

@[simp] theorem hostSided_atsGoOn (s : State) (x0 : AtsWait) :
    hostSidePart (atsGoOn s x0) = hostSidePart s := by
  cases x0 with
  | queue q => rfl
  | send q psn retx =>
    unfold atsGoOn
    dsimp only
    split
    · split
      · cases h : Qp.ent _ _ <;> simp
      · rfl
    · rfl
  | pkt ep p => simp [atsGoOn]

@[simp] theorem hostSided_atsFails (s : State) (x0 : AtsWait) :
    hostSidePart (atsFails s x0) = hostSidePart s := by
  cases x0 <;> unfold atsFails <;> dsimp only <;> (repeat' split) <;> simp

theorem hostSided_execAtsTranslationComplete (fn : Nat) (addr : Nat) (len : Nat) (bus : Option Nat) (s : State) :
    resHostSide (execAtsTranslationComplete fn addr len bus s) s := by
  unfold execAtsTranslationComplete; simp only; (repeat' split) <;> simp_all (maxDischargeDepth := 9)

theorem cored_execAtsInvalidateRequest (fn : Nat) (start len : Nat) (s : State) :
    resCore (execAtsInvalidateRequest fn start len s) s := by
  unfold execAtsInvalidateRequest; simp (maxDischargeDepth := 9)

theorem hostSided_execRecv (srq : Nat) (s : State) :
    resHostSide (execRecv srq s) s := by
  unfold execRecv; (repeat' split) <;> simp (maxDischargeDepth := 9)

@[simp] theorem cored_countAtPort (s : State) (src : ArrSrc) (c : Cn) :
    corePart (countAtPort s src c) = corePart s := by
  unfold countAtPort; (repeat' split) <;> simp (maxDischargeDepth := 9)

@[simp] theorem portFreed_countAtPort (s : State) (src : ArrSrc) (c : Cn) :
    portFreePart (countAtPort s src c) = portFreePart s :=
  portFreed_of_cored (cored_countAtPort s src c)

@[simp] theorem engined_countAtPort (s : State) (src : ArrSrc) (c : Cn) :
    enginePart (countAtPort s src c) = enginePart s :=
  engined_of_cored (cored_countAtPort s src c)

@[simp] theorem portFreed_onTree (s : State) (quad kind : Nat) (f : State → Nat → Tree → Nat → Pkt → CollHdr → List Byte → State) (hf : ∀ z y0 y1 y2 y3 y4 y5, portFreePart (f z y0 y1 y2 y3 y4 y5) = portFreePart z) :
    portFreePart (onTree s quad kind f) = portFreePart s := by
  unfold onTree
  split
  · rfl
  · dsimp only
    repeat' split
    all_goals first
    | rfl
    | (simp; done)
    | (rename_i e; exact (portFreed_useTree _ _ _ (.inl e)).trans (by simp))
    | (rename_i e; rw [hf]; exact (portFreed_useTree _ _ _ (.inr e)).trans (by simp))

theorem portFreed_execUpRx (quad : Nat) (s : State) :
    resPortFree (execUpRx quad s) s := by
  unfold execUpRx; simp (maxDischargeDepth := 9)

theorem cored_execOpalBlockDone (quad : Nat) (tree : BitVec 24) (seq : BitVec 32) (block : Nat) (s : State) :
    resCore (execOpalBlockDone quad tree seq block s) s := by
  unfold execOpalBlockDone; simp (maxDischargeDepth := 9)

theorem portFreed_execDownRx (quad : Nat) (s : State) :
    resPortFree (execDownRx quad s) s := by
  unfold execDownRx
  refine portFreed_guardRes' _ _ _ ?_
  refine portFreed_onTree _ _ _ _ ?_
  intros
  dsimp only
  repeat' split
  all_goals simp

theorem portFreed_execTreeCreditRx (quad : Nat) (s : State) :
    resPortFree (execTreeCreditRx quad s) s := by
  unfold execTreeCreditRx; simp (maxDischargeDepth := 9)

theorem portFreed_execTreeAbortRx (quad : Nat) (s : State) :
    resPortFree (execTreeAbortRx quad s) s := by
  unfold execTreeAbortRx; simp (maxDischargeDepth := 9)

theorem cored_execStallTmoExpire (quad : Nat) (tree : BitVec 24) (seq : BitVec 32) (s : State) :
    resCore (execStallTmoExpire quad tree seq s) s := by
  unfold execStallTmoExpire; simp (maxDischargeDepth := 9)

@[simp] theorem portFreed_noRoute (s : State) (l : Lookup) (o : Origin) :
    portFreePart (noRoute s l o) = portFreePart s := by
  unfold noRoute; simp (maxDischargeDepth := 9)

@[simp] theorem engined_noRoute (s : State) (l : Lookup) (o : Origin) :
    enginePart (noRoute s l o) = enginePart s :=
  engined_of_portFreed (portFreed_noRoute s l o)

@[simp] theorem portFreed_legacyOversize (s : State) (p : Nat) (o : Origin) :
    portFreePart (legacyOversize s p o) = portFreePart s := by
  unfold legacyOversize; simp (maxDischargeDepth := 9)

@[simp] theorem cored_trace (s : State) (die : Nat) (h : FabHdr) (arr egr wait : Nat) :
    corePart (trace s die h arr egr wait) = corePart s := by
  unfold trace
  split
  · rfl
  · dsimp only
    split <;> split <;> simp only [cored_recordEv, cored_count, corePart_mk, corePart_eta]

@[simp] theorem portFreed_trace (s : State) (die : Nat) (h : FabHdr) (arr egr wait : Nat) :
    portFreePart (trace s die h arr egr wait) = portFreePart s :=
  portFreed_of_cored (cored_trace s die h arr egr wait)

@[simp] theorem engined_trace (s : State) (die : Nat) (h : FabHdr) (arr egr wait : Nat) :
    enginePart (trace s die h arr egr wait) = enginePart s :=
  engined_of_cored (cored_trace s die h arr egr wait)

@[simp] theorem engined_deliverHost (s : State) (src : ArrSrc) (p : Pkt) (o : Origin) :
    enginePart (deliverHost s src p o) = enginePart s := by
  unfold deliverHost; simp only; (repeat' split) <;> simp_all (maxDischargeDepth := 9)

@[simp] theorem cored_deliverColl (s : State) (src : ArrSrc) (p : Pkt) (o : Origin) :
    corePart (deliverColl s src p o) = corePart s := by
  unfold deliverColl; simp (maxDischargeDepth := 9)

@[simp] theorem engined_deliverColl (s : State) (src : ArrSrc) (p : Pkt) (o : Origin) :
    enginePart (deliverColl s src p o) = enginePart s :=
  engined_of_cored (cored_deliverColl s src p o)

@[simp] theorem cored_deliverMgmt (s : State) (src : ArrSrc) (p : Pkt) (o : Origin) :
    corePart (deliverMgmt s src p o) = corePart s := by
  unfold deliverMgmt; simp (maxDischargeDepth := 9)

@[simp] theorem engined_deliverMgmt (s : State) (src : ArrSrc) (p : Pkt) (o : Origin) :
    enginePart (deliverMgmt s src p o) = enginePart s :=
  engined_of_cored (cored_deliverMgmt s src p o)

@[simp] theorem portFreed_unroutable (s : State) (l : Lookup) (p : Pkt) (o : Origin) (cs : List Cand) :
    portFreePart (unroutable s l p o cs) = portFreePart s := by
  unfold unroutable; simp only; (repeat' split) <;> simp_all (maxDischargeDepth := 9)

@[simp] theorem portFreed_route (s : State) (src : ArrSrc) (p : Pkt) (turned : Bool) (o : Origin) :
    portFreePart (route s src p turned o) = portFreePart s := by
  unfold route; simp only; (repeat' split) <;> simp_all (maxDischargeDepth := 9) [foldl_portFreed]

@[simp] theorem engined_route (s : State) (src : ArrSrc) (p : Pkt) (turned : Bool) (o : Origin) :
    enginePart (route s src p turned o) = enginePart s :=
  engined_of_portFreed (portFreed_route s src p turned o)

@[simp] theorem portFreed_police (s : State) (p : Nat) (h : FabHdr) :
    portFreePart (police s p h).2.2 = portFreePart s := by
  unfold police; simp only; (repeat' split) <;> simp_all (maxDischargeDepth := 9)

@[simp] theorem engined_police (s : State) (p : Nat) (h : FabHdr) :
    enginePart (police s p h).2.2 = enginePart s :=
  engined_of_portFreed (portFreed_police s p h)

@[simp] theorem engined_deliverOrRoute (s : State) (src : ArrSrc) (p : Pkt) (o : Origin) :
    enginePart (deliverOrRoute s src p o) = enginePart s := by
  unfold deliverOrRoute; simp (maxDischargeDepth := 9)

@[simp] theorem cored_takePool (s : State) (src : ArrSrc) (p : Pkt) :
    corePart (takePool s src p) = corePart s := by
  rfl

@[simp] theorem portFreed_takePool (s : State) (src : ArrSrc) (p : Pkt) :
    portFreePart (takePool s src p) = portFreePart s :=
  portFreed_of_cored (cored_takePool s src p)

@[simp] theorem engined_takePool (s : State) (src : ArrSrc) (p : Pkt) :
    enginePart (takePool s src p) = enginePart s :=
  engined_of_cored (cored_takePool s src p)

@[simp] theorem engined_switchPacket (s : State) (src : ArrSrc) (p : Pkt) (no arr : Nat) :
    enginePart (switchPacket s src p no arr) = enginePart s := by
  unfold switchPacket; (repeat' split) <;> simp (maxDischargeDepth := 9)

@[simp] theorem portFreed_sendStraight (s : State) (src : ArrSrc) (p : Nat) (k : Pkt) :
    portFreePart (sendStraight s src p k) = portFreePart s := by
  unfold sendStraight; simp (maxDischargeDepth := 9)

@[simp] theorem engined_sendStraight (s : State) (src : ArrSrc) (p : Nat) (k : Pkt) :
    enginePart (sendStraight s src p k) = enginePart s :=
  engined_of_portFreed (portFreed_sendStraight s src p k)

theorem engined_execPacketArrival (src : ArrSrc) (s : State) :
    resEngine (execPacketArrival src s) s := by
  unfold execPacketArrival; (repeat' split) <;> simp (maxDischargeDepth := 9)

@[simp] theorem controlled_replayOver (s : State) (p : Nat) :
    controlPart (replayOver s p) = controlPart s := by
  unfold replayOver; (repeat' split) <;> simp (maxDischargeDepth := 9)

@[simp] theorem controlled_replay (s : State) (p : Nat) :
    controlPart (replay s p) = controlPart s := by
  unfold replay; simp only; (repeat' split) <;> simp_all (maxDischargeDepth := 9) [foldl_controlled]

@[simp] theorem portFreed_ackSeen (s : State) (p : Nat) (ack : BitVec 16) :
    portFreePart (ackSeen s p ack) = portFreePart s := by
  unfold ackSeen; simp (maxDischargeDepth := 9)

@[simp] theorem controlled_ackSeen (s : State) (p : Nat) (ack : BitVec 16) :
    controlPart (ackSeen s p ack) = controlPart s :=
  controlled_of_portFreed (portFreed_ackSeen s p ack)

@[simp] theorem controlled_ackIn (s : State) (p : Nat) (h : LtbHdr) :
    controlPart (ackIn s p h) = controlPart s := by
  unfold ackIn; simp (maxDischargeDepth := 9)

@[simp] theorem settled_ackIn (s : State) (p : Nat) (h : LtbHdr) :
    settledPart (ackIn s p h) = settledPart s :=
  settled_of_controlled (controlled_ackIn s p h)

@[simp] theorem portFreed_sendNak (s : State) (p : Nat) :
    portFreePart (sendNak s p) = portFreePart s := by
  unfold sendNak; simp (maxDischargeDepth := 9)

@[simp] theorem controlled_sendNak (s : State) (p : Nat) :
    controlPart (sendNak s p) = controlPart s :=
  controlled_of_portFreed (portFreed_sendNak s p)

@[simp] theorem portFreed_badCrc (s : State) (p : Nat) :
    portFreePart (badCrc s p) = portFreePart s := by
  unfold badCrc; (repeat' split) <;> simp (maxDischargeDepth := 9)

@[simp] theorem controlled_badCrc (s : State) (p : Nat) :
    controlPart (badCrc s p) = controlPart s :=
  controlled_of_portFreed (portFreed_badCrc s p)

@[simp] theorem settled_badCrc (s : State) (p : Nat) :
    settledPart (badCrc s p) = settledPart s :=
  settled_of_portFreed (portFreed_badCrc s p)

@[simp] theorem controlled_unmarked (s : State) (p : Nat) (h : LtbHdr) (k : State → State) (hk : ∀ z , controlPart (k z ) = controlPart z) :
    controlPart (unmarked s p h k) = controlPart s := by
  unfold unmarked; simp (maxDischargeDepth := 9) [hk]

@[simp] theorem settled_unmarked (s : State) (p : Nat) (h : LtbHdr) (k : State → State) (hk : ∀ z , settledPart (k z ) = settledPart z) :
    settledPart (unmarked s p h k) = settledPart s := by
  unfold unmarked; simp (maxDischargeDepth := 9) [hk]

@[simp] theorem controlled_ltbIn (s : State) (p : Nat) (h : LtbHdr) (k : State → State) (hk : ∀ z , controlPart (k z ) = controlPart z) :
    controlPart (ltbIn s p h k) = controlPart s := by
  unfold ltbIn; (repeat' split) <;> simp (maxDischargeDepth := 9) [hk]

@[simp] theorem settled_ltbIn (s : State) (p : Nat) (h : LtbHdr) (k : State → State) (hk : ∀ z , settledPart (k z ) = settledPart z) :
    settledPart (ltbIn s p h k) = settledPart s := by
  unfold ltbIn; (repeat' split) <;> simp (maxDischargeDepth := 9) [hk]

@[simp] theorem portFreed_noteSeq (s : State) (p : Nat) (h : LtbHdr) :
    portFreePart (noteSeq s p h) = portFreePart s := by
  unfold noteSeq; simp (maxDischargeDepth := 9)

@[simp] theorem controlled_noteSeq (s : State) (p : Nat) (h : LtbHdr) :
    controlPart (noteSeq s p h) = controlPart s :=
  controlled_of_portFreed (portFreed_noteSeq s p h)

@[simp] theorem portFreed_seqTaken (s : State) (p : Nat) (h : LtbHdr) :
    portFreePart (seqTaken s p h) = portFreePart s := by
  unfold seqTaken; simp (maxDischargeDepth := 9)

@[simp] theorem controlled_seqTaken (s : State) (p : Nat) (h : LtbHdr) :
    controlPart (seqTaken s p h) = controlPart s :=
  controlled_of_portFreed (portFreed_seqTaken s p h)

@[simp] theorem controlled_seqIn (s : State) (p : Nat) (h : LtbHdr) (k : State → State) (hk : ∀ z , controlPart (k z ) = controlPart z) :
    controlPart (seqIn s p h k) = controlPart s := by
  unfold seqIn; simp (maxDischargeDepth := 9) [hk]

@[simp] theorem portFreed_giveCredit (s : State) (p vc k : Nat) :
    portFreePart (giveCredit s p vc k) = portFreePart s := by
  unfold giveCredit; simp (maxDischargeDepth := 9)

@[simp] theorem portFreed_creditsIn (s : State) (p : Nat) (h : LtbHdr) :
    portFreePart (creditsIn s p h) = portFreePart s := by
  unfold creditsIn; simp (maxDischargeDepth := 9)

@[simp] theorem controlled_creditsIn (s : State) (p : Nat) (h : LtbHdr) :
    controlPart (creditsIn s p h) = controlPart s :=
  controlled_of_portFreed (portFreed_creditsIn s p h)

@[simp] theorem portFreed_heldIn (s : State) (p : Nat) (m : BitVec 16) :
    portFreePart (heldIn s p m) = portFreePart s := by
  unfold heldIn; simp (maxDischargeDepth := 9)

@[simp] theorem controlled_heldIn (s : State) (p : Nat) (m : BitVec 16) :
    controlPart (heldIn s p m) = controlPart s :=
  controlled_of_portFreed (portFreed_heldIn s p m)

@[simp] theorem portFreed_headerIn (s : State) (p : Nat) (k : Pkt) :
    portFreePart (headerIn s p k) = portFreePart s := by
  unfold headerIn; simp (maxDischargeDepth := 9)

@[simp] theorem engined_headerIn (s : State) (p : Nat) (k : Pkt) :
    enginePart (headerIn s p k) = enginePart s :=
  engined_of_portFreed (portFreed_headerIn s p k)

@[simp] theorem portFreed_lostHeader (s : State) (p : Nat) (k : Pkt) :
    portFreePart (lostHeader s p k) = portFreePart s := by
  unfold lostHeader; simp (maxDischargeDepth := 9)

@[simp] theorem engined_lostHeader (s : State) (p : Nat) (k : Pkt) :
    enginePart (lostHeader s p k) = enginePart s :=
  engined_of_portFreed (portFreed_lostHeader s p k)

@[simp] theorem engined_framingLost (s : State) (p : Nat) (follow : List Frag) :
    enginePart (framingLost s p follow) = enginePart s := by
  unfold framingLost; (repeat' (first | split | (refine Eq.trans (engined_foldS _ _ _ ?_) ?_; intro _ _) | (refine Eq.trans (foldl_engined _ ?_ _ _) ?_; intro _ _) | (simp (maxDischargeDepth := 9) [*]; done) | simp (maxDischargeDepth := 9) [foldl_engined]))

@[simp] theorem controlled_framingLost (s : State) (p : Nat) (follow : List Frag) :
    controlPart (framingLost s p follow) = controlPart s :=
  controlled_of_engined (engined_framingLost s p follow)

@[simp] theorem portFreed_framingBack (s : State) (p : Nat) :
    portFreePart (framingBack s p) = portFreePart s := by
  unfold framingBack; simp (maxDischargeDepth := 9) [foldl_portFreed]

@[simp] theorem controlled_framingBack (s : State) (p : Nat) :
    controlPart (framingBack s p) = controlPart s :=
  controlled_of_portFreed (portFreed_framingBack s p)

@[simp] theorem engined_packetEnds (s : State) (p : Nat) (abort : Bool) :
    enginePart (packetEnds s p abort) = enginePart s := by
  unfold packetEnds; (repeat' split) <;> simp (maxDischargeDepth := 9)

@[simp] theorem engined_takeFrags (s : State) (p : Nat) (abort : Bool) (x0 : List Frag) :
    enginePart (takeFrags s p abort x0) = enginePart s := by
  induction x0 generalizing s with
  | nil => simp (maxDischargeDepth := 9) [takeFrags]
  | cons a l ih => (unfold takeFrags; simp only; repeat' split) <;> simp_all (maxDischargeDepth := 9)

@[simp] theorem controlled_takeFrags (s : State) (p : Nat) (abort : Bool) (x0 : List Frag) :
    controlPart (takeFrags s p abort x0) = controlPart s :=
  controlled_of_engined (engined_takeFrags s p abort x0)

@[simp] theorem portFreed_edgeEnd (s : State) (p vc : Nat) (first : Option Nat) (last : Nat) :
    portFreePart (edgeEnd s p vc first last) = portFreePart s := by
  unfold edgeEnd; simp only; (repeat' split) <;> simp_all (maxDischargeDepth := 9)

@[simp] theorem portFreed_edgeWalk (s : State) (p : Nat) (checked : Bool) (at_ off : Nat) (x0 : List Frag) :
    portFreePart (edgeWalk s p checked at_ off x0) = portFreePart s := by
  induction x0 generalizing s off with
  | nil => rfl
  | cons f rest ih =>
    cases f with
    | cont n =>
      unfold edgeWalk
      dsimp only
      rw [ih]
      repeat' split
      all_goals simp
    | start k n =>
      unfold edgeWalk
      dsimp only
      rw [ih]
      split <;> simp

@[simp] theorem portFreed_edgeCheck (s : State) (p : Nat) (h : LtbHdr) (since : Nat) (fs : List Frag) :
    portFreePart (edgeCheck s p h since fs) = portFreePart s := by
  unfold edgeCheck; simp (maxDischargeDepth := 9)

@[simp] theorem controlled_edgeCheck (s : State) (p : Nat) (h : LtbHdr) (since : Nat) (fs : List Frag) :
    controlPart (edgeCheck s p h since fs) = controlPart s :=
  controlled_of_portFreed (portFreed_edgeCheck s p h since fs)

theorem controlled_execLtbDataRx (p : Nat) (h : LtbHdr) (frags : List Frag) (since : Nat) (s : State) :
    resControl (execLtbDataRx p h frags since s) s := by
  unfold execLtbDataRx; simp (maxDischargeDepth := 9)

theorem portFreed_execLtbBadRx (p : Nat) (badType : Bool) (s : State) :
    resPortFree (execLtbBadRx p badType s) s := by
  unfold execLtbBadRx; (repeat' split) <;> simp (maxDischargeDepth := 9)

theorem controlled_execLtbIdleRx (p : Nat) (h : LtbHdr) (s : State) :
    resControl (execLtbIdleRx p h s) s := by
  unfold execLtbIdleRx; simp (maxDischargeDepth := 9)

theorem controlled_execLtbCtrlCreditRx (p : Nat) (h : LtbHdr) (heldMask : BitVec 16) (s : State) :
    resControl (execLtbCtrlCreditRx p h heldMask s) s := by
  unfold execLtbCtrlCreditRx; simp (maxDischargeDepth := 9)

theorem controlled_execLtbCtrlLinkDownRx (p : Nat) (h : LtbHdr) (heldMask : BitVec 16) (s : State) :
    resControl (execLtbCtrlLinkDownRx p h heldMask s) s := by
  unfold execLtbCtrlLinkDownRx; simp (maxDischargeDepth := 9)

theorem controlled_execLtbCtrlReservedRx (p : Nat) (h : LtbHdr) (s : State) :
    resControl (execLtbCtrlReservedRx p h s) s := by
  unfold execLtbCtrlReservedRx; simp (maxDischargeDepth := 9)

@[simp] theorem portFreed_loadInit (s : State) (p lane : Nat) (i : InitMsg) :
    portFreePart (loadInit s p lane i) = portFreePart s := by
  unfold loadInit; simp (maxDischargeDepth := 9)

@[simp] theorem controlled_loadInit (s : State) (p lane : Nat) (i : InitMsg) :
    controlPart (loadInit s p lane i) = controlPart s :=
  controlled_of_portFreed (portFreed_loadInit s p lane i)

theorem controlled_execLtbInitRx (p lane : Nat) (h : LtbHdr) (i : InitMsg) (s : State) :
    resControl (execLtbInitRx p lane h i s) s := by
  unfold execLtbInitRx
  refine controlled_guardRes' _ _ _ (controlled_unmarked _ _ _ _ ?_)
  intro z
  dsimp only
  repeat' split
  all_goals simp

theorem portFreed_execInitRepeat (p : Nat) (s : State) :
    resPortFree (execInitRepeat p s) s := by
  unfold execInitRepeat; simp (maxDischargeDepth := 9)

theorem portFreed_execInitPoolRetry (p : Nat) (s : State) :
    resPortFree (execInitPoolRetry p s) s := by
  unfold execInitPoolRetry; simp (maxDischargeDepth := 9)

theorem portFreed_execTrainWaitExpire (p : Nat) (s : State) :
    resPortFree (execTrainWaitExpire p s) s := by
  unfold execTrainWaitExpire; simp (maxDischargeDepth := 9)

theorem linkSided_execInitTmoExpire (p : Nat) (s : State) :
    resLinkSide (execInitTmoExpire p s) s := by
  unfold execInitTmoExpire; simp (maxDischargeDepth := 9)

theorem controlled_execLtbLaneMapRx (p : Nat) (h : LtbHdr) (mapSeq : BitVec 8) (rxMap : BitVec 8) (echo : Bool) (s : State) :
    resControl (execLtbLaneMapRx p h mapSeq rxMap echo s) s := by
  unfold execLtbLaneMapRx
  refine controlled_guardRes' _ _ _ (controlled_unmarked _ _ _ _ ?_)
  intro z
  dsimp only
  repeat' split
  all_goals simp

theorem controlled_execLtbLoadHintRx (p : Nat) (h : LtbHdr) (m : HintMsg) (s : State) :
    resControl (execLtbLoadHintRx p h m s) s := by
  unfold execLtbLoadHintRx; simp (maxDischargeDepth := 9)

theorem portFreed_execLoadHintSend (p : Nat) (s : State) :
    resPortFree (execLoadHintSend p s) s := by
  unfold execLoadHintSend; simp (maxDischargeDepth := 9)

theorem portFreed_execHeldIntervalExpire (p vc : Nat) (s : State) :
    resPortFree (execHeldIntervalExpire p vc s) s := by
  unfold execHeldIntervalExpire; simp (maxDischargeDepth := 9)

theorem portFreed_execSharedGrantAdjust (p : Nat) (s : State) :
    resPortFree (execSharedGrantAdjust p s) s := by
  unfold execSharedGrantAdjust; simp (maxDischargeDepth := 9)

theorem controlled_execReplayTmoExpire (p : Nat) (s : State) :
    resControl (execReplayTmoExpire p s) s := by
  unfold execReplayTmoExpire; (repeat' split) <;> simp (maxDischargeDepth := 9)

theorem controlled_execReplayLimit (p : Nat) (s : State) :
    resControl (execReplayLimit p s) s := by
  unfold execReplayLimit; (repeat' split) <;> simp (maxDischargeDepth := 9)

theorem portFreed_execLinkGraceExpire (p : Nat) (s : State) :
    resPortFree (execLinkGraceExpire p s) s := by
  unfold execLinkGraceExpire; simp (maxDischargeDepth := 9)

theorem portFreed_execDrainComplete (p : Nat) (s : State) :
    resPortFree (execDrainComplete p s) s := by
  unfold execDrainComplete; simp (maxDischargeDepth := 9)

theorem controlled_execLinkDownWaitEnd (p : Nat) (s : State) :
    resControl (execLinkDownWaitEnd p s) s := by
  unfold execLinkDownWaitEnd; simp (maxDischargeDepth := 9)

@[simp] theorem portFreed_noteDeferred (s : State) (p vc : Nat) :
    portFreePart (noteDeferred s p vc) = portFreePart s := by
  unfold noteDeferred; (repeat' split) <;> simp (maxDischargeDepth := 9)

@[simp] theorem portFreed_startPacket (s : State) (p vc : Nat) (x : Port) (q : QPkt) :
    portFreePart (startPacket s p vc x q) = portFreePart s := by
  unfold startPacket; simp (maxDischargeDepth := 9)

theorem portFreed_execEgressPacketStart (p : Nat) (s : State) :
    resPortFree (execEgressPacketStart p s) s := by
  unfold execEgressPacketStart; simp only; (repeat' split) <;> simp_all (maxDischargeDepth := 9)

@[simp] theorem portFreed_sendRest (s : State) (p : Nat) (aborted : Bool) :
    portFreePart (sendRest s p aborted) = portFreePart s := by
  unfold sendRest; simp (maxDischargeDepth := 9)

theorem portFreed_execPacketDeparted (p : Nat) (s : State) :
    resPortFree (execPacketDeparted p s) s := by
  unfold execPacketDeparted; simp only; (repeat' split) <;> simp_all (maxDischargeDepth := 9)

theorem controlled_execCreditTmoExpire (p vc : Nat) (s : State) :
    resControl (execCreditTmoExpire p vc s) s := by
  unfold execCreditTmoExpire; simp (maxDischargeDepth := 9)

theorem portFreed_execAlmanacEntryChange (p : Nat) (s : State) :
    resPortFree (execAlmanacEntryChange p s) s := by
  unfold execAlmanacEntryChange; simp only; (repeat' split) <;> simp_all (maxDischargeDepth := 9)

theorem portFreed_execGateWakeLead (p : Nat) (s : State) :
    resPortFree (execGateWakeLead p s) s := by
  unfold execGateWakeLead; simp (maxDischargeDepth := 9) [foldl_portFreed]

theorem portFreed_execHoldoverMaxExpire (p : Nat) (s : State) :
    resPortFree (execHoldoverMaxExpire p s) s := by
  unfold execHoldoverMaxExpire; simp (maxDischargeDepth := 9)

theorem portFreed_execEdgeRunLimit (p : Nat) (_err : Int) (s : State) :
    resPortFree (execEdgeRunLimit p _err s) s := by
  unfold execEdgeRunLimit; (repeat' split) <;> simp (maxDischargeDepth := 9)

theorem settled_execAlmanacBankAdopt (p : Nat) (s : State) :
    resSettled (execAlmanacBankAdopt p s) s := by
  unfold execAlmanacBankAdopt; simp (maxDischargeDepth := 9)

theorem settled_execRouteBankAdopt (s : State) :
    resSettled (execRouteBankAdopt s) s := by
  unfold execRouteBankAdopt; simp (maxDischargeDepth := 9)

@[simp] theorem linkSided_noteFlags (s : State) (p : Nat) (t : TimeMsg) :
    linkSidePart (noteFlags s p t) = linkSidePart s := by
  unfold noteFlags; simp (maxDischargeDepth := 9)

@[simp] theorem controlled_noteFlags (s : State) (p : Nat) (t : TimeMsg) :
    controlPart (noteFlags s p t) = controlPart s :=
  controlled_of_linkSided (linkSided_noteFlags s p t)

@[simp] theorem settled_noteFlags (s : State) (p : Nat) (t : TimeMsg) :
    settledPart (noteFlags s p t) = settledPart s :=
  settled_of_linkSided (linkSided_noteFlags s p t)

@[simp] theorem controlled_timeRx (s : State) (p : Nat) (h : LtbHdr) (t : TimeMsg) (k : State → State) (hk : ∀ z , controlPart (k z ) = controlPart z) :
    controlPart (timeRx s p h t k) = controlPart s := by
  unfold timeRx; simp (maxDischargeDepth := 9) [hk]

@[simp] theorem settled_timeRx (s : State) (p : Nat) (h : LtbHdr) (t : TimeMsg) (k : State → State) (hk : ∀ z , settledPart (k z ) = settledPart z) :
    settledPart (timeRx s p h t k) = settledPart s := by
  unfold timeRx; simp (maxDischargeDepth := 9) [hk]

theorem controlled_execTimeReqRx (p : Nat) (t : TimeLtb) (s : State) :
    resControl (execTimeReqRx p t s) s := by
  unfold execTimeReqRx; simp (maxDischargeDepth := 9)

@[simp] theorem settled_measured (s : State) (p : Nat) (o : Int) :
    settledPart (measured s p o) = settledPart s := by
  unfold measured; simp only; (repeat' split) <;> simp_all (maxDischargeDepth := 9)

@[simp] theorem portFreed_respAnswered (s : State) (p : Nat) (seq : BitVec 16) (t1 t4 : Nat) (out : Bool) :
    portFreePart (respAnswered s p seq t1 t4 out) = portFreePart s := by
  unfold respAnswered; simp (maxDischargeDepth := 9)

@[simp] theorem settled_respAnswered (s : State) (p : Nat) (seq : BitVec 16) (t1 t4 : Nat) (out : Bool) :
    settledPart (respAnswered s p seq t1 t4 out) = settledPart s :=
  settled_of_portFreed (portFreed_respAnswered s p seq t1 t4 out)

@[simp] theorem portFreed_respAccepted (s : State) (p : Nat) (o d : Int) :
    portFreePart (respAccepted s p o d) = portFreePart s := by
  unfold respAccepted; simp (maxDischargeDepth := 9)

@[simp] theorem settled_respAccepted (s : State) (p : Nat) (o d : Int) :
    settledPart (respAccepted s p o d) = settledPart s :=
  settled_of_portFreed (portFreed_respAccepted s p o d)

theorem settled_execTimeRespRx (p : Nat) (t : TimeLtb) (s : State) :
    resSettled (execTimeRespRx p t s) s := by
  unfold execTimeRespRx
  refine settled_guardRes' _ _ _ ?_
  refine settled_timeRx _ _ _ _ _ ?_
  intros
  dsimp only
  repeat' split
  all_goals simp

theorem controlled_execTimeReportRx (p : Nat) (t : TimeLtb) (s : State) :
    resControl (execTimeReportRx p t s) s := by
  unfold execTimeReportRx; simp (maxDischargeDepth := 9)

theorem settled_execTimeAnnounceRx (p : Nat) (t : TimeLtb) (s : State) :
    resSettled (execTimeAnnounceRx p t s) s := by
  unfold execTimeAnnounceRx; simp (maxDischargeDepth := 9)

theorem linkSided_execTimeLockGained (s : State) :
    resLinkSide (execTimeLockGained s) s := by
  unfold execTimeLockGained; (repeat' split) <;> simp (maxDischargeDepth := 9)

theorem portFreed_execEqxExchangeStart (p : Nat) (s : State) :
    resPortFree (execEqxExchangeStart p s) s := by
  unfold execEqxExchangeStart; simp (maxDischargeDepth := 9)

theorem linkSided_execEqxIntervalEnd (p : Nat) (s : State) :
    resLinkSide (execEqxIntervalEnd p s) s := by
  unfold execEqxIntervalEnd; simp (maxDischargeDepth := 9)

theorem linkSided_execTimeMissLimit (s : State) :
    resLinkSide (execTimeMissLimit s) s := by
  unfold execTimeMissLimit; (repeat' split) <;> simp (maxDischargeDepth := 9)

theorem settled_execTimeStepApply (s : State) :
    resSettled (execTimeStepApply s) s := by
  unfold execTimeStepApply; (repeat' split) <;> simp (maxDischargeDepth := 9)

theorem settled_execPpsInEdge (s : State) :
    resSettled (execPpsInEdge s) s := by
  unfold execPpsInEdge; (repeat' split) <;> simp (maxDischargeDepth := 9)

theorem linkSided_execPpsLossTimeout (s : State) :
    resLinkSide (execPpsLossTimeout s) s := by
  unfold execPpsLossTimeout; simp only; (repeat' split) <;> simp_all (maxDischargeDepth := 9)

theorem linkSided_execSourceWaitExpire (s : State) :
    resLinkSide (execSourceWaitExpire s) s := by
  unfold execSourceWaitExpire; (repeat' split) <;> simp (maxDischargeDepth := 9)

theorem linkSided_execPpsOutEdge (s : State) :
    resLinkSide (execPpsOutEdge s) s := by
  unfold execPpsOutEdge; simp only; (repeat' split) <;> simp_all (maxDischargeDepth := 9)

@[simp] theorem cored_countWalk (s : State) (ep n : Nat) :
    corePart (countWalk s ep n) = corePart s := by
  unfold countWalk; simp (maxDischargeDepth := 9)

@[simp] theorem hostSided_countWalk (s : State) (ep n : Nat) :
    hostSidePart (countWalk s ep n) = hostSidePart s :=
  hostSided_of_cored (cored_countWalk s ep n)

@[simp] theorem cored_unexpFull (s : State) (ep : Nat) (f srq : Nat) :
    corePart (unexpFull s ep f srq).1 = corePart s := by
  unfold unexpFull; simp (maxDischargeDepth := 9)

@[simp] theorem hostSided_unexpFull (s : State) (ep : Nat) (f srq : Nat) :
    hostSidePart (unexpFull s ep f srq).1 = hostSidePart s :=
  hostSided_of_cored (cored_unexpFull s ep f srq)

@[simp] theorem cored_updMatched (s : State) (q : Nat) (m : TagMsg) (f : Matched → Matched) :
    corePart (updMatched s q m f) = corePart s := by
  rfl

@[simp] theorem cored_dropMatched (s : State) (q : Nat) (m : TagMsg) :
    corePart (dropMatched s q m) = corePart s := by
  rfl

@[simp] theorem hostSided_dropMatched (s : State) (q : Nat) (m : TagMsg) :
    hostSidePart (dropMatched s q m) = hostSidePart s :=
  hostSided_of_cored (cored_dropMatched s q m)

@[simp] theorem cored_matchedDone (s : State) (q : Nat) (m : Matched) :
    corePart (matchedDone s q m) = corePart s := by
  unfold matchedDone; simp (maxDischargeDepth := 9)

@[simp] theorem hostSided_matchedDone (s : State) (q : Nat) (m : Matched) :
    hostSidePart (matchedDone s q m) = hostSidePart s :=
  hostSided_of_cored (cored_matchedDone s q m)

@[simp] theorem cored_matchedData (s : State) (q : Nat) (msg : TagMsg) (off : Nat) (bytes : List Byte) (fromPool : Bool) :
    corePart (matchedData s q msg off bytes fromPool) = corePart s := by
  unfold matchedData
  split
  · rfl
  · split
    · rfl
    · split
      · split <;> simp
      · split
        · simp
        · rename_i t e
          simpa using cored_placeMatched _ _ _ _ _ _ t e

@[simp] theorem hostSided_matchedData (s : State) (q : Nat) (msg : TagMsg) (off : Nat) (bytes : List Byte) (fromPool : Bool) :
    hostSidePart (matchedData s q msg off bytes fromPool) = hostSidePart s :=
  hostSided_of_cored (cored_matchedData s q msg off bytes fromPool)

@[simp] theorem cored_orphanData (s : State) (r : Srq) (x0 : Matched) (x1 : List (Nat × List Byte)) :
    corePart (orphanData s r x0 x1).1 = corePart s := by
  induction x1 generalizing s x0 with
  | nil => simp [orphanData]
  | cons h rest ih =>
    unfold orphanData
    split
    · rfl
    · rename_i t e
      rw [ih]
      exact cored_placeMatched _ _ _ _ _ _ t e

@[simp] theorem cored_orphanMatch (s : State) (srq : Nat) (r : Srq) (x : Matched) (data : List (Nat × List Byte)) :
    corePart (orphanMatch s srq r x data) = corePart s := by
  unfold orphanMatch; simp (maxDischargeDepth := 9)

@[simp] theorem hostSided_orphanMatch (s : State) (srq : Nat) (r : Srq) (x : Matched) (data : List (Nat × List Byte)) :
    hostSidePart (orphanMatch s srq r x data) = hostSidePart s :=
  hostSided_of_cored (cored_orphanMatch s srq r x data)

@[simp] theorem hostSided_startMatch (s : State) (srq : Nat) (r : Srq) (m : TagMsg) (p : Posted) (unexp lost : Bool) (data : List (Nat × List Byte)) :
    hostSidePart (startMatch s srq r m p unexp lost data) = hostSidePart s := by
  unfold startMatch; simp only; (repeat' split) <;> simp_all (maxDischargeDepth := 9) [foldl_hostSided]

@[simp] theorem cored_nextOrd (s : State) :
    corePart (nextOrd s) = corePart s := by
  unfold nextOrd; simp (maxDischargeDepth := 9)

@[simp] theorem hostSided_nextOrd (s : State) :
    hostSidePart (nextOrd s) = hostSidePart s :=
  hostSided_of_cored (cored_nextOrd s)

@[simp] theorem cored_unexpData (s : State) (srq : Nat) (m : TagMsg) (data : List (Nat × List Byte)) (n : Nat) :
    corePart (unexpData s srq m data n) = corePart s := by
  unfold unexpData; simp (maxDischargeDepth := 9)

@[simp] theorem hostSided_unexpData (s : State) (srq : Nat) (m : TagMsg) (data : List (Nat × List Byte)) (n : Nat) :
    hostSidePart (unexpData s srq m data n) = hostSidePart s :=
  hostSided_of_cored (cored_unexpData s srq m data n)

theorem hostSided_release (s : State) (q : Nat) (x : Qp) (srq : Nat) (r : Srq) (m : TagMsg) (data : List (Nat × List Byte)) (held : List Nat) :
    ∀ t, release s q x srq r m data held = some t → hostSidePart t = hostSidePart s := by
  unfold release; (repeat' split) <;> simp (maxDischargeDepth := 9)

@[simp] theorem hostSided_releaseWaiting (s : State) (q srq : Nat) (x0 : Nat) :
    hostSidePart (releaseWaiting s q srq x0) = hostSidePart s := by
  induction x0 generalizing s with
  | zero => rfl
  | succ k ih =>
    unfold releaseWaiting
    split
    · split
      · rfl
      · split
        · rfl
        · rename_i h
          have k := hostSided_release _ _ _ _ _ _ _ _ _ h
          dsimp only
          simpa [ih] using k
    · rfl

@[simp] theorem hostSided_tagPacket (s : State) (q : Nat) (x : Qp) (srq : Nat) (r : Srq) (m : TagMsg) (off : Nat) (bytes : List Byte) :
    hostSidePart (tagPacket s q x srq r m off bytes).1 = hostSidePart s := by
  unfold tagPacket
  dsimp only
  split
  · simp
  · split
    · split
      · split
        · rfl
        · simp
      · rename_i h
        have k := hostSided_release _ _ _ _ _ _ _ _ _ h
        rw [hostSided_releaseWaiting]
        repeat' split
        all_goals simpa using k
    · repeat' split
      all_goals simp

@[simp] theorem hostSided_onTagged (s : State) (q : Nat) (x : Qp) (f : State → Nat → Srq → State × Nat) (hf : ∀ z y0 y1, hostSidePart (f z y0 y1).1 = hostSidePart z) :
    hostSidePart (onTagged s q x f).1 = hostSidePart s := by
  unfold onTagged
  split
  · split
    · rfl
    · split <;> rename_i t e
      · exact hostSided_useLine _ _ _ _ _ _ _ (.inl e)
      · have k := hostSided_useLine _ _ _ _ _ _ _ (.inr e)
        split <;> rename_i t2 e2
        · exact (hostSided_useStores _ _ _ _ (.inl e2)).trans k
        · have k2 := (hostSided_useStores _ _ _ _ (.inr e2)).trans k
          rw [hf]; exact k2
  · rfl

@[simp] theorem hostSided_doEager (s : State) (q : Nat) (x : Qp) (a : Arrival) :
    hostSidePart (doEager s q x a).1 = hostSidePart s := by
  unfold doEager; (repeat' split) <;> simp (maxDischargeDepth := 9)

@[simp] theorem engined_doEager (s : State) (q : Nat) (x : Qp) (a : Arrival) :
    enginePart (doEager s q x a).1 = enginePart s :=
  engined_of_hostSided (hostSided_doEager s q x a)

theorem engined_execTagEagerRx (ep : Nat) (s : State) :
    resEngine (execTagEagerRx ep s) s := by
  unfold execTagEagerRx; simp (maxDischargeDepth := 9)

@[simp] theorem hostSided_doRts (s : State) (q : Nat) (x : Qp) (a : Arrival) :
    hostSidePart (doRts s q x a).1 = hostSidePart s := by
  unfold doRts; (repeat' split) <;> simp (maxDischargeDepth := 9)

@[simp] theorem engined_doRts (s : State) (q : Nat) (x : Qp) (a : Arrival) :
    enginePart (doRts s q x a).1 = enginePart s :=
  engined_of_hostSided (hostSided_doRts s q x a)

theorem engined_execTagRtsRx (ep : Nat) (s : State) :
    resEngine (execTagRtsRx ep s) s := by
  unfold execTagRtsRx; simp (maxDischargeDepth := 9)

theorem hostSided_execRdvReadComplete (q : Nat) (status : Nat) (s : State) :
    resHostSide (execRdvReadComplete q status s) s := by
  unfold execRdvReadComplete; (repeat' split) <;> simp (maxDischargeDepth := 9)

@[simp] theorem cored_doFin (s : State) (q : Nat) (x : Qp) (a : Arrival) :
    corePart (doFin s q x a).1 = corePart s := by
  unfold doFin; (repeat' split) <;> simp (maxDischargeDepth := 9)

@[simp] theorem engined_doFin (s : State) (q : Nat) (x : Qp) (a : Arrival) :
    enginePart (doFin s q x a).1 = enginePart s :=
  engined_of_cored (cored_doFin s q x a)

theorem engined_execTagFinRx (ep : Nat) (s : State) :
    resEngine (execTagFinRx ep s) s := by
  unfold execTagFinRx; simp (maxDischargeDepth := 9)

@[simp] theorem hostSided_popRecv (s : State) (srq : Nat) (e : Ent) :
    hostSidePart (popRecv s srq e) = hostSidePart s := by
  unfold popRecv; simp (maxDischargeDepth := 9)

@[simp] theorem hostSided_retryWaiting (s : State) :
    hostSidePart (retryWaiting s) = hostSidePart s := by
  unfold retryWaiting; (repeat' (first | split | (refine Eq.trans (hostSided_foldS _ _ _ ?_) ?_; intro _ _) | (refine Eq.trans (foldl_hostSided _ ?_ _ _) ?_; intro _ _) | (simp (maxDischargeDepth := 9) [*]; done) | simp (maxDischargeDepth := 9) [foldl_hostSided]))

@[simp] theorem hostSided_postRecv (s : State) (srq : Nat) (r : Srq) (e : Ent) :
    hostSidePart (postRecv s srq r e) = hostSidePart s := by
  unfold postRecv; simp only; (repeat' split) <;> simp_all (maxDischargeDepth := 9)

theorem hostSided_execTrecv (srq : Nat) (s : State) :
    resHostSide (execTrecv srq s) s := by
  unfold execTrecv
  simp only [resHostSide_next]
  split
  · rfl
  · split
    · rfl
    · split
      · rfl
      · split
        · simp
        · split <;> rename_i t e
          · exact hostSided_useStores _ _ _ _ (.inl e)
          · have k := hostSided_useStores _ _ _ _ (.inr e)
            split <;> rename_i t2 e2
            · exact (hostSided_useWins _ _ _ _ _ (.inl e2)).trans k
            · have k2 := (hostSided_useWins _ _ _ _ _ (.inr e2)).trans k
              repeat' split
              all_goals simpa using k2

@[simp] theorem controlled_portUnlocked (s : State) (p : Nat) :
    controlPart (portUnlocked s p) = controlPart s := by
  unfold portUnlocked; (repeat' split) <;> simp (maxDischargeDepth := 9)

@[simp] theorem controlled_unlockPll (s : State) (o : Nat) :
    controlPart (unlockPll s o) = controlPart s := by
  unfold unlockPll; simp (maxDischargeDepth := 9)

theorem controlled_execOctetPllUnlock (o : Nat) (s : State) :
    resControl (execOctetPllUnlock o s) s := by
  unfold execOctetPllUnlock; simp (maxDischargeDepth := 9)

theorem linkSided_execOctetPllRelock (o : Nat) (s : State) :
    resLinkSide (execOctetPllRelock o s) s := by
  unfold execOctetPllRelock
  refine linkSided_guardRes' _ _ _ ?_
  split
  · refine (linkSided_foldS _ _ _ ?_).trans (by simp)
    intros
    repeat' split
    all_goals simp
  · rfl

theorem controlled_execRefclkNetLost (q : Nat) (s : State) :
    resControl (execRefclkNetLost q s) s := by
  unfold execRefclkNetLost; simp (maxDischargeDepth := 9)

theorem linkSided_execCodewordRx (l : Nat) (corrected : Option Nat) (s : State) :
    resLinkSide (execCodewordRx l corrected s) s := by
  unfold execCodewordRx; (repeat' split) <;> simp (maxDischargeDepth := 9)

@[simp] theorem linkSided_storeCoeffs (s : State) (l : Nat) :
    linkSidePart (storeCoeffs s l) = linkSidePart s := by
  unfold storeCoeffs; simp (maxDischargeDepth := 9)

@[simp] theorem portFreed_checkLaneOf (s : State) (l : Nat) :
    portFreePart (checkLaneOf s l) = portFreePart s := by
  unfold checkLaneOf; (repeat' split) <;> simp (maxDischargeDepth := 9)

@[simp] theorem linkSided_checkLaneOf (s : State) (l : Nat) :
    linkSidePart (checkLaneOf s l) = linkSidePart s :=
  linkSided_of_portFreed (portFreed_checkLaneOf s l)

theorem linkSided_execFecLockGained (l : Nat) (rxInv : Bool) (s : State) :
    resLinkSide (execFecLockGained l rxInv s) s := by
  unfold execFecLockGained; (repeat' split) <;> simp (maxDischargeDepth := 9)

theorem controlled_execFecLockLost (l : Nat) (s : State) :
    resControl (execFecLockLost l s) s := by
  unfold execFecLockLost; simp (maxDischargeDepth := 9)

theorem controlled_execLossOfSignal (l : Nat) (s : State) :
    resControl (execLossOfSignal l s) s := by
  unfold execLossOfSignal; simp (maxDischargeDepth := 9)

theorem linkSided_execNoLockTimerExpire (l : Nat) (s : State) :
    resLinkSide (execNoLockTimerExpire l s) s := by
  unfold execNoLockTimerExpire; simp (maxDischargeDepth := 9)

theorem linkSided_execRetryWaitExpire (l : Nat) (s : State) :
    resLinkSide (execRetryWaitExpire l s) s := by
  unfold execRetryWaitExpire; (repeat' split) <;> simp (maxDischargeDepth := 9)

theorem linkSided_execRetrainTmoExpire (l : Nat) (s : State) :
    resLinkSide (execRetrainTmoExpire l s) s := by
  unfold execRetrainTmoExpire; (repeat' split) <;> simp (maxDischargeDepth := 9)

theorem portFreed_execIdleEnterExpire (p : Nat) (s : State) :
    resPortFree (execIdleEnterExpire p s) s := by
  unfold execIdleEnterExpire; simp (maxDischargeDepth := 9)

theorem linkSided_execIdleSequenceSent (p : Nat) (s : State) :
    resLinkSide (execIdleSequenceSent p s) s := by
  unfold execIdleSequenceSent; simp (maxDischargeDepth := 9)

theorem linkSided_execPartnerIdleRx (l : Nat) (s : State) :
    resLinkSide (execPartnerIdleRx l s) s := by
  unfold execPartnerIdleRx; simp (maxDischargeDepth := 9)

theorem portFreed_execEidleRefreshExpire (p : Nat) (s : State) :
    resPortFree (execEidleRefreshExpire p s) s := by
  unfold execEidleRefreshExpire; simp (maxDischargeDepth := 9)

@[simp] theorem linkSided_startPort (s : State) (p : Nat) :
    linkSidePart (startPort s p) = linkSidePart s := by
  unfold startPort; simp (maxDischargeDepth := 9)

@[simp] theorem linkSided_serveBatch (s : State) (room : Nat) (x0 : List Nat) :
    linkSidePart (serveBatch s room x0) = linkSidePart s := by
  induction x0 generalizing s room with
  | nil => simp [serveBatch]
  | cons p rest ih =>
    unfold serveBatch
    split
    · rw [ih]; simp
    · rfl

@[simp] theorem portFreed_wokenPort (s : State) (p : Nat) :
    portFreePart (wokenPort s p) = portFreePart s := by
  unfold wokenPort; simp only; (repeat' split) <;> simp_all (maxDischargeDepth := 9) [foldl_portFreed]

@[simp] theorem linkSided_wokenPort (s : State) (p : Nat) :
    linkSidePart (wokenPort s p) = linkSidePart s :=
  linkSided_of_portFreed (portFreed_wokenPort s p)

theorem linkSided_execExitBurstDone (l : Nat) (s : State) :
    resLinkSide (execExitBurstDone l s) s := by
  unfold execExitBurstDone; simp only; (repeat' split) <;> simp_all (maxDischargeDepth := 9)

theorem linkSided_execSignalDetect (l : Nat) (s : State) :
    resLinkSide (execSignalDetect l s) s := by
  unfold execSignalDetect; simp (maxDischargeDepth := 9)

theorem linkSided_execStartOfStreamRx (l : Nat) (s : State) :
    resLinkSide (execStartOfStreamRx l s) s := by
  unfold execStartOfStreamRx; simp (maxDischargeDepth := 9)

theorem controlled_execWakeAlignTmoExpire (l : Nat) (s : State) :
    resControl (execWakeAlignTmoExpire l s) s := by
  unfold execWakeAlignTmoExpire; simp (maxDischargeDepth := 9)

theorem linkSided_execAdaptationPass (l : Nat) (rxEq snr eye ber : Word32) (s : State) :
    resLinkSide (execAdaptationPass l rxEq snr eye ber s) s := by
  unfold execAdaptationPass; simp (maxDischargeDepth := 9)

theorem linkSided_execCalibCoeffWrite (l : Nat) (s : State) :
    resLinkSide (execCalibCoeffWrite l s) s := by
  unfold execCalibCoeffWrite; simp (maxDischargeDepth := 9)

theorem linkSided_execPrbsCheckerLock (l : Nat) (s : State) :
    resLinkSide (execPrbsCheckerLock l s) s := by
  unfold execPrbsCheckerLock; simp (maxDischargeDepth := 9)

theorem linkSided_execPrbsCheckerLoss (l bits errs : Nat) (s : State) :
    resLinkSide (execPrbsCheckerLoss l bits errs s) s := by
  unfold execPrbsCheckerLoss; simp (maxDischargeDepth := 9)

theorem linkSided_execErrInjectFire (l : Nat) (s : State) :
    resLinkSide (execErrInjectFire l s) s := by
  unfold execErrInjectFire; simp (maxDischargeDepth := 9)

theorem linkSided_execLaneDropEnd (l : Nat) (s : State) :
    resLinkSide (execLaneDropEnd l s) s := by
  unfold execLaneDropEnd; simp (maxDischargeDepth := 9)

theorem linkSided_execLtbLockGained (l : Nat) (s : State) :
    resLinkSide (execLtbLockGained l s) s := by
  unfold execLtbLockGained; simp (maxDischargeDepth := 9)

theorem controlled_execLtbLockLost (l : Nat) (s : State) :
    resControl (execLtbLockLost l s) s := by
  unfold execLtbLockLost; simp (maxDischargeDepth := 9)

@[simp] theorem hostSided_nudgeQueue (s : State) (q : Nat) :
    hostSidePart (nudgeQueue s q) = hostSidePart s := by
  unfold nudgeQueue
  split
  · rfl
  · split
    · rfl
    · split
      · simp
      · split <;> rename_i t e
        · exact hostSided_useQueue _ _ _ _ _ (.inl e)
        · have k := hostSided_useQueue _ _ _ _ _ (.inr e)
          dsimp only
          repeat' split
          all_goals simpa using k

theorem hostSided_execNudgeWrite (fn idx : Nat) (s : State) :
    resHostSide (execNudgeWrite fn idx s) s := by
  unfold execNudgeWrite; (repeat' split) <;> simp (maxDischargeDepth := 9)

theorem hostSided_execDoorbellPoll (q : Nat) (s : State) :
    resHostSide (execDoorbellPoll q s) s := by
  unfold execDoorbellPoll
  simp only [resHostSide_next]
  split
  · rfl
  · split
    · split <;> rename_i t e
      · exact hostSided_useQueue _ _ _ _ _ (.inl e)
      · have k := hostSided_useQueue _ _ _ _ _ (.inr e)
        simpa using k
    · rfl

@[simp] theorem hostSided_assembleQueue (s : State) (q : Nat) :
    hostSidePart (assembleQueue s q) = hostSidePart s := by
  unfold assembleQueue; (repeat' split) <;> simp (maxDischargeDepth := 9)

@[simp] theorem hostSided_overrun (s : State) (q : Nat) :
    hostSidePart (overrun s q) = hostSidePart s := by
  unfold overrun; (repeat' split) <;> simp (maxDischargeDepth := 9)

@[simp] theorem cored_parkNow (s : State) (f q : Nat) :
    corePart (parkNow s f q) = corePart s := by
  rfl

@[simp] theorem hostSided_parkNow (s : State) (f q : Nat) :
    hostSidePart (parkNow s f q) = hostSidePart s :=
  hostSided_of_cored (cored_parkNow s f q)

@[simp] theorem hostSided_pollAgain (s : State) (q : Nat) :
    hostSidePart (pollAgain s q) = hostSidePart s := by
  unfold pollAgain; (repeat' split) <;> simp (maxDischargeDepth := 9)

@[simp] theorem hostSided_emptyPoll (s : State) (f q : Nat) (r : Ring) :
    hostSidePart (emptyPoll s f q r) = hostSidePart s := by
  unfold emptyPoll; simp (maxDischargeDepth := 9)

theorem hostSided_execDoorbellReadComplete (q : Nat) (db : List Byte) (s : State) :
    resHostSide (execDoorbellReadComplete q db s) s := by
  unfold execDoorbellReadComplete
  simp only [resHostSide_next, hostSided_finishDestroys]
  split
  · rfl
  · split
    · rfl
    · split
      · simp
      · split
        · repeat' split
          all_goals simp
        · split <;> rename_i t e
          · exact (hostSided_useQueue _ _ _ _ _ (.inl e)).trans (by simp)
          · have k := hostSided_useQueue _ _ _ _ _ (.inr e)
            simp only [hostSided_readBack, hostSided_updRing] at k
            repeat' split
            all_goals simpa using k

theorem cored_execEmptyPollLimit (q : Nat) (s : State) :
    resCore (execEmptyPollLimit q s) s := by
  unfold execEmptyPollLimit; (repeat' split) <;> simp (maxDischargeDepth := 9)

theorem hostSided_execSlotReadComplete (q : Nat) (slots : List (List Byte)) (s : State) :
    resHostSide (execSlotReadComplete q slots s) s := by
  unfold execSlotReadComplete; (repeat' split) <;> simp (maxDischargeDepth := 9)

theorem hostSided_execSlotReread (q : Nat) (slot : List Byte) (s : State) :
    resHostSide (execSlotReread q slot s) s := by
  unfold execSlotReread; (repeat' split) <;> simp (maxDischargeDepth := 9)

theorem hostSided_execSlotWaitExpire (q : Nat) (s : State) :
    resHostSide (execSlotWaitExpire q s) s := by
  unfold execSlotWaitExpire; (repeat' split) <;> simp (maxDischargeDepth := 9)

@[simp] theorem hostSided_failAny (s : State) (q : Nat) (e : Ent) (st : Nat) :
    hostSidePart (failAny s q e st) = hostSidePart s := by
  unfold failAny; simp (maxDischargeDepth := 9)

@[simp] theorem hostSided_chainJoin (s : State) (f q : Nat) (e : Ent) (elems : List Sge) :
    hostSidePart (chainJoin s f q e elems) = hostSidePart s := by
  unfold chainJoin; simp only; (repeat' split) <;> simp_all (maxDischargeDepth := 9)

theorem hostSided_execChainListReadComplete (q : Nat) (elems : List Byte) (s : State) :
    resHostSide (execChainListReadComplete q elems s) s := by
  unfold execChainListReadComplete; simp only; (repeat' split) <;> simp_all (maxDischargeDepth := 9)

theorem hostSided_execHostReadError (q : Nat) (why : ReadFail) (s : State) :
    resHostSide (execHostReadError q why s) s := by
  unfold execHostReadError; simp only; (repeat' split) <;> simp_all (maxDischargeDepth := 9)

theorem hostSided_execParkIdleExpire (q : Nat) (s : State) :
    resHostSide (execParkIdleExpire q s) s := by
  unfold execParkIdleExpire; (repeat' split) <;> simp (maxDischargeDepth := 9)

@[simp] theorem cored_noteWaits (s : State) (quad : Nat) :
    corePart (noteWaits s quad) = corePart s := by
  unfold noteWaits; (repeat' (first | split | (refine Eq.trans (cored_foldS _ _ _ ?_) ?_; intro _ _) | (refine Eq.trans (foldl_cored _ ?_ _ _) ?_; intro _ _) | (simp (maxDischargeDepth := 9) [*]; done) | simp (maxDischargeDepth := 9) [foldl_cored]))

@[simp] theorem hostSided_noteWaits (s : State) (quad : Nat) :
    hostSidePart (noteWaits s quad) = hostSidePart s :=
  hostSided_of_cored (cored_noteWaits s quad)

theorem hostSided_execQueueServiceTurn (quad : Nat) (s : State) :
    resHostSide (execQueueServiceTurn quad s) s := by
  unfold execQueueServiceTurn
  refine hostSided_guardRes' _ _ _ ?_
  split
  · simp
  · dsimp only
    split <;> rename_i t e
    · exact (hostSided_useQueue _ _ _ _ _ (.inl e)).trans (by simp)
    · have k := (hostSided_useQueue _ _ _ _ _ (.inr e)).trans (by simp : _ = hostSidePart s)
      split <;> simpa using k

theorem hostSided_execHeadRecordWrite (q : Nat) (s : State) :
    resHostSide (execHeadRecordWrite q s) s := by
  unfold execHeadRecordWrite; (repeat' split) <;> simp (maxDischargeDepth := 9)

theorem hostSided_execCqHeadReread (cq : Nat) (s : State) :
    resHostSide (execCqHeadReread cq s) s := by
  unfold execCqHeadReread
  simp only [resHostSide_next]
  split
  · rfl
  · split
    · split <;> rename_i t e
      · exact hostSided_useLine _ _ _ _ _ _ _ (.inl e)
      · have k := hostSided_useLine _ _ _ _ _ _ _ (.inr e)
        simpa using k
    · rfl

theorem hostSided_execCqHeadReadComplete (cq : Nat) (head : List Byte) (s : State) :
    resHostSide (execCqHeadReadComplete cq head s) s := by
  unfold execCqHeadReadComplete
  simp only [resHostSide_next, hostSided_finishDestroys]
  split
  · rfl
  · split
    · simp
    · split
      · simp
      · split <;> rename_i t e
        · exact (hostSided_useLine _ _ _ _ _ _ _ (.inl e)).trans (by simp)
        · have k := (hostSided_useLine _ _ _ _ _ _ _ (.inr e)).trans (by simp : _ = hostSidePart s)
          simpa using k

theorem hostSided_execCqFullTimeout (cq : Nat) (s : State) :
    resHostSide (execCqFullTimeout cq s) s := by
  unfold execCqFullTimeout; (repeat' split) <;> simp (maxDischargeDepth := 9)

theorem cored_execInterruptHoldoffEnd (fn vec : Nat) (s : State) :
    resCore (execInterruptHoldoffEnd fn vec s) s := by
  unfold execInterruptHoldoffEnd; (repeat' split) <;> simp (maxDischargeDepth := 9)

@[simp] theorem hostSided_startOp (s : State) (q op : Nat) :
    hostSidePart (startOp s q op) = hostSidePart s := by
  unfold startOp
  split
  · split <;> rename_i t e
    · exact hostSided_useQueue _ _ _ _ _ (.inl e)
    · rw [hostSided_startAndSend]; exact hostSided_useQueue _ _ _ _ _ (.inr e)
  · rfl

theorem hostSided_execWrite (q : Nat) (s : State) :
    resHostSide (execWrite q s) s := by
  unfold execWrite; simp (maxDischargeDepth := 9)

theorem hostSided_execWriteWithCount (q : Nat) (s : State) :
    resHostSide (execWriteWithCount q s) s := by
  unfold execWriteWithCount; simp (maxDischargeDepth := 9)

theorem hostSided_execRead (q : Nat) (s : State) :
    resHostSide (execRead q s) s := by
  unfold execRead; simp (maxDischargeDepth := 9)

theorem hostSided_execSend (q : Nat) (s : State) :
    resHostSide (execSend q s) s := by
  unfold execSend; simp (maxDischargeDepth := 9)

theorem hostSided_execFetchAdd (q : Nat) (s : State) :
    resHostSide (execFetchAdd q s) s := by
  unfold execFetchAdd; simp (maxDischargeDepth := 9)

theorem hostSided_execCswap64 (q : Nat) (s : State) :
    resHostSide (execCswap64 q s) s := by
  unfold execCswap64; simp (maxDischargeDepth := 9)

theorem hostSided_execCswap128 (q : Nat) (s : State) :
    resHostSide (execCswap128 q s) s := by
  unfold execCswap128; simp (maxDischargeDepth := 9)

theorem hostSided_execCounterFetch (q : Nat) (s : State) :
    resHostSide (execCounterFetch q s) s := by
  unfold execCounterFetch; simp (maxDischargeDepth := 9)

theorem hostSided_execTsend (q : Nat) (s : State) :
    resHostSide (execTsend q s) s := by
  unfold execTsend; simp (maxDischargeDepth := 9)

@[simp] theorem hostSided_startCollective (s : State) (q : Nat) :
    hostSidePart (startCollective s q) = hostSidePart s := by
  unfold startCollective
  split
  · split
    · split <;> rename_i t e
      · exact hostSided_useTree _ _ _ (.inl e)
      · rw [hostSided_startOp]; exact hostSided_useTree _ _ _ (.inr e)
    · simp
  · rfl

theorem hostSided_execCollective (q : Nat) (s : State) :
    resHostSide (execCollective q s) s := by
  unfold execCollective; simp (maxDischargeDepth := 9)

@[simp] theorem cored_contextLostEvent (s : State) (home kind num f : Nat) :
    corePart (contextLostEvent s home kind num f) = corePart s := by
  unfold contextLostEvent; simp (maxDischargeDepth := 9)

@[simp] theorem hostSided_contextLostEvent (s : State) (home kind num f : Nat) :
    hostSidePart (contextLostEvent s home kind num f) = hostSidePart s :=
  hostSided_of_cored (cored_contextLostEvent s home kind num f)

@[simp] theorem hostSided_loseQueue (s : State) (kind q : Nat) :
    hostSidePart (loseQueue s kind q) = hostSidePart s := by
  unfold loseQueue; (repeat' split) <;> simp (maxDischargeDepth := 9)

@[simp] theorem hostSided_loseMapEntry (s : State) (q : Nat) :
    hostSidePart (loseMapEntry s q) = hostSidePart s := by
  unfold loseMapEntry; (repeat' split) <;> simp (maxDischargeDepth := 9)

@[simp] theorem hostSided_loseContext (s : State) (l : LineId) :
    hostSidePart (loseContext s l) = hostSidePart s := by
  unfold loseContext; (repeat' split) <;> simp (maxDischargeDepth := 9)

@[simp] theorem hostSided_hbmLost (s : State) (stack : Nat) (l : LineId) (a : Nat) :
    hostSidePart (hbmLost s stack l a) = hostSidePart s := by
  unfold hbmLost; simp (maxDischargeDepth := 9)

theorem hostSided_execEvictionComplete (q : Nat) (s : State) :
    resHostSide (execEvictionComplete q s) s := by
  unfold execEvictionComplete; simp (maxDischargeDepth := 9)

@[simp] theorem hostSided_nowResident (s : State) (q : Nat) (x : Qp) :
    hostSidePart (nowResident s q x) = hostSidePart s := by
  unfold nowResident; (repeat' split) <;> simp (maxDischargeDepth := 9)

@[simp] theorem hostSided_pageInDenied (s : State) (q : Nat) (x : Qp) (t : Nat) :
    hostSidePart (pageInDenied s q x t) = hostSidePart s := by
  unfold pageInDenied; simp (maxDischargeDepth := 9)

theorem hostSided_execPageInReadComplete (q : Nat) (img : Option (Bool × Nat × Nat × Bool)) (s : State) :
    resHostSide (execPageInReadComplete q img s) s := by
  unfold execPageInReadComplete; simp only; (repeat' split) <;> simp_all (maxDischargeDepth := 9)

theorem cored_execIdleWriteback (quad : Nat) (line : LineId) (s : State) :
    resCore (execIdleWriteback quad line s) s := by
  unfold execIdleWriteback; simp (maxDischargeDepth := 9)

theorem cored_execGetS (req : CacheId) (line : LineId) (s : State) :
    resCore (execGetS req line s) s := by
  unfold execGetS; simp (maxDischargeDepth := 9)

theorem cored_execGetM (req : CacheId) (line : LineId) (s : State) :
    resCore (execGetM req line s) s := by
  unfold execGetM; simp (maxDischargeDepth := 9)

theorem cored_execUpgrade (req : CacheId) (line : LineId) (s : State) :
    resCore (execUpgrade req line s) s := by
  unfold execUpgrade; simp (maxDischargeDepth := 9)

theorem cored_execPut (req : CacheId) (line : LineId) (s : State) :
    resCore (execPut req line s) s := by
  unfold execPut; (repeat' split) <;> simp (maxDischargeDepth := 9)

theorem cored_execPutClean (req : CacheId) (line : LineId) (s : State) :
    resCore (execPutClean req line s) s := by
  unfold execPutClean; (repeat' split) <;> simp (maxDischargeDepth := 9)

@[simp] theorem cored_fwdShared (s : State) (owner req : Nat) (line : LineId) :
    corePart (fwdShared s owner req line) = corePart s := by
  unfold fwdShared; simp (maxDischargeDepth := 9)

theorem cored_execFwdS (owner req : CacheId) (line : LineId) (s : State) :
    resCore (execFwdS owner req line s) s := by
  unfold execFwdS; simp (maxDischargeDepth := 9)

theorem cored_execFwdM (owner req : CacheId) (line : LineId) (s : State) :
    resCore (execFwdM owner req line s) s := by
  unfold execFwdM; simp (maxDischargeDepth := 9)

theorem cored_execInv (sharer req : CacheId) (line : LineId) (s : State) :
    resCore (execInv sharer req line s) s := by
  unfold execInv; simp (maxDischargeDepth := 9)

theorem cored_execCohAck (req : CacheId) (line : LineId) (s : State) :
    resCore (execCohAck req line s) s := by
  unfold execCohAck; simp (maxDischargeDepth := 9)

theorem cored_execPutAck (req : CacheId) (line : LineId) (s : State) :
    resCore (execPutAck req line s) s := by
  unfold execPutAck; simp only; (repeat' split) <;> simp_all (maxDischargeDepth := 9)

theorem cored_execGrant (req : CacheId) (line : LineId) (acks : Nat) (s : State) :
    resCore (execGrant req line acks s) s := by
  unfold execGrant; simp (maxDischargeDepth := 9)

theorem hostSided_execCohData (req : CacheId) (line : LineId) (acks : Nat) (state : Nat) (ecc : Ecc) (s : State) :
    resHostSide (execCohData req line acks state ecc s) s := by
  unfold execCohData; simp only; (repeat' split) <;> simp_all (maxDischargeDepth := 9)

theorem cored_execHostSnoop (quad : Nat) (line : LineId) (invalidate : Bool) (s : State) :
    resCore (execHostSnoop quad line invalidate s) s := by
  unfold execHostSnoop; simp (maxDischargeDepth := 9)

@[simp] theorem cored_rowError (s : State) (stack row : Nat) :
    corePart (rowError s stack row) = corePart s := by
  unfold rowError; simp (maxDischargeDepth := 9)

@[simp] theorem hostSided_rowError (s : State) (stack row : Nat) :
    hostSidePart (rowError s stack row) = hostSidePart s :=
  hostSided_of_cored (cored_rowError s stack row)

theorem hostSided_execPatrolScrubRead (stack : Nat) (ecc : Ecc) (row : Nat) (s : State) :
    resHostSide (execPatrolScrubRead stack ecc row s) s := by
  unfold execPatrolScrubRead; simp only; (repeat' split) <;> simp_all (maxDischargeDepth := 9)

theorem cored_execPatrolPassStart (stack : Nat) (s : State) :
    resCore (execPatrolPassStart stack s) s := by
  unfold execPatrolPassStart; simp (maxDischargeDepth := 9)

theorem hostSided_execCacheScrubPass (quad : Nat) (line : LineId) (ecc : Ecc) (s : State) :
    resHostSide (execCacheScrubPass quad line ecc s) s := by
  unfold execCacheScrubPass; (repeat' split) <;> simp (maxDischargeDepth := 9)

theorem cored_execNumberQuarantineEnd (space num : Nat) (s : State) :
    resCore (execNumberQuarantineEnd space num s) s := by
  unfold execNumberQuarantineEnd; simp (maxDischargeDepth := 9)

@[simp] theorem cored_useGrant (s : State) (g : Nat) :
    corePart (useGrant s g) = corePart s := by
  unfold useGrant; simp (maxDischargeDepth := 9)

@[simp] theorem linkSided_useGrant (s : State) (g : Nat) :
    linkSidePart (useGrant s g) = linkSidePart s :=
  linkSided_of_cored (cored_useGrant s g)

theorem cored_execPstepAckRise (g : Nat) (s : State) :
    resCore (execPstepAckRise g s) s := by
  unfold execPstepAckRise; simp (maxDischargeDepth := 9)

theorem cored_execPstepAckFall (g : Nat) (s : State) :
    resCore (execPstepAckFall g s) s := by
  unfold execPstepAckFall; simp (maxDischargeDepth := 9)

theorem cored_execNoticeLeadExpire (g : Nat) (s : State) :
    resCore (execNoticeLeadExpire g s) s := by
  unfold execNoticeLeadExpire; simp (maxDischargeDepth := 9)

theorem cored_execGrantHoldExpire (g : Nat) (s : State) :
    resCore (execGrantHoldExpire g s) s := by
  unfold execGrantHoldExpire; simp (maxDischargeDepth := 9)

theorem cored_execPstepStepDone (g : Nat) (s : State) :
    resCore (execPstepStepDone g s) s := by
  unfold execPstepStepDone; simp (maxDischargeDepth := 9)

theorem linkSided_execWakeBatch (s : State) :
    resLinkSide (execWakeBatch s) s := by
  unfold execWakeBatch; simp (maxDischargeDepth := 9)

end Sys2Proof.Machine
end

