-- ==== Sys2Proof/Laws/KeepControl.lean ====
section
/-! SUPPORT. What the control side: registers, mailbox, admin queues, starts, service, the chain and the board leave unchanged. Nine parts of the state, each operation with the strongest it keeps:
`corePart`, `hostSidePart`, `portFreePart`, `enginePart`, `linkSidePart`, `controlPart`, `settledPart`, `bootPart`, `fixedPart`; the weaker ones follow by the lemmas named after both. -/

namespace Sys2Proof.Machine

theorem cored_execAqSqTailWrite (fn : Nat) (val : Word32) (s : State) :
    resCore (execAqSqTailWrite fn val s) s := by
  unfold execAqSqTailWrite; simp (maxDischargeDepth := 9)

theorem cored_execAqCqHeadWrite (fn : Nat) (val : Word32) (s : State) :
    resCore (execAqCqHeadWrite fn val s) s := by
  unfold execAqCqHeadWrite; simp (maxDischargeDepth := 9)

@[simp] theorem cored_setAqEnable (s : State) (fn : Nat) (irqEn : Bool) :
    corePart (setAqEnable s fn irqEn) = corePart s := by
  unfold setAqEnable; simp (maxDischargeDepth := 9)

theorem cored_execAqEnableSet (fn : Nat) (irqEn : Bool) (s : State) :
    resCore (execAqEnableSet fn irqEn s) s := by
  unfold execAqEnableSet; simp (maxDischargeDepth := 9)

@[simp] theorem cored_clearAqEnable (s : State) (fn : Nat) (irqEn : Bool) :
    corePart (clearAqEnable s fn irqEn) = corePart s := by
  unfold clearAqEnable; simp (maxDischargeDepth := 9)

theorem cored_execAqEnableClear (fn : Nat) (irqEn : Bool) (s : State) :
    resCore (execAqEnableClear fn irqEn s) s := by
  unfold execAqEnableClear; simp (maxDischargeDepth := 9)

theorem cored_execAqCommandFetch (fn : Nat) (r : AqFetch) (s : State) :
    resCore (execAqCommandFetch fn r s) s := by
  unfold execAqCommandFetch; (repeat' split) <;> simp (maxDischargeDepth := 9)

theorem hostSided_takeSlot (s : State) (stack : Nat) :
    ∀ t, takeSlot s stack = some t → hostSidePart t = hostSidePart s := by
  unfold takeSlot; (repeat' split) <;> simp (maxDischargeDepth := 9)

@[simp] theorem hostSided_createQp (s : State) (f : Nat) (e : List Byte) (db : DbRec) :
    hostSidePart (createQp s f e db).1 = hostSidePart s := by
  unfold createQp
  dsimp only
  repeat' split
  all_goals first
  | rfl
  | (rename_i h3; have k := hostSided_takeSlot _ _ _ h3; simpa using k)
  | (rename_i h3 _; have k := hostSided_takeSlot _ _ _ h3; simpa using k)
  | (rename_i h3 _ _; have k := hostSided_takeSlot _ _ _ h3; simpa using k)

theorem hostSided_execAqCreateQp (fn : Nat) (db : List Byte) (s : State) :
    resHostSide (execAqCreateQp fn db s) s := by
  unfold execAqCreateQp
  refine hostSided_guardRes' _ _ _ ?_
  refine hostSided_runAq _ _ _ _ ?_ <;> intro z e
  all_goals repeat' split
  all_goals simp (maxDischargeDepth := 9)

@[simp] theorem cored_createSrq (s : State) (f : Nat) (e : List Byte) (db : DbRec) :
    corePart (createSrq s f e db).1 = corePart s := by
  unfold createSrq; simp only; (repeat' split) <;> simp_all (maxDischargeDepth := 9)

theorem cored_execAqCreateSrq (fn : Nat) (db : List Byte) (s : State) :
    resCore (execAqCreateSrq fn db s) s := by
  unfold execAqCreateSrq; simp (maxDischargeDepth := 9)

@[simp] theorem cored_createCq (s : State) (f : Nat) (e : List Byte) (head : DbRec) :
    corePart (createCq s f e head).1 = corePart s := by
  unfold createCq; simp only; (repeat' split) <;> simp_all (maxDischargeDepth := 9)

theorem cored_execAqCreateCq (fn : Nat) (head : List Byte) (s : State) :
    resCore (execAqCreateCq fn head s) s := by
  unfold execAqCreateCq; simp (maxDischargeDepth := 9)

@[simp] theorem cored_createEq (s : State) (f : Nat) (e : List Byte) :
    corePart (createEq s f e).1 = corePart s := by
  unfold createEq; simp only; (repeat' split) <;> simp_all (maxDischargeDepth := 9)

theorem cored_execAqCreateEq (fn : Nat) (s : State) :
    resCore (execAqCreateEq fn s) s := by
  unfold execAqCreateEq; simp (maxDischargeDepth := 9)

@[simp] theorem cored_createPd (s : State) (f : Nat) (e : List Byte) :
    corePart (createPd s f e).1 = corePart s := by
  unfold createPd; simp only; (repeat' split) <;> simp_all (maxDischargeDepth := 9)

theorem cored_execAqCreatePd (fn : Nat) (s : State) :
    resCore (execAqCreatePd fn s) s := by
  unfold execAqCreatePd; simp (maxDischargeDepth := 9)

@[simp] theorem hostSided_becomeReady (s : State) (q : Nat) :
    hostSidePart (becomeReady s q) = hostSidePart s := by
  unfold becomeReady; (repeat' split) <;> simp (maxDischargeDepth := 9)

@[simp] theorem cored_backToInit (s : State) (q : Nat) :
    corePart (backToInit s q) = corePart s := by
  rfl

@[simp] theorem hostSided_backToInit (s : State) (q : Nat) :
    hostSidePart (backToInit s q) = hostSidePart s :=
  hostSided_of_cored (cored_backToInit s q)

@[simp] theorem hostSided_modifyQp (s : State) (f : Nat) (e : List Byte) :
    hostSidePart (modifyQp s f e).1 = hostSidePart s := by
  unfold modifyQp
  dsimp only
  refine hostSided_ifFst _ _ _ _ rfl ?_
  split
  · rfl
  · refine hostSided_ifFst _ _ _ _ rfl (hostSided_ifFst _ _ _ _ rfl (hostSided_ifFst _ _ _ _ rfl (hostSided_ifFst _ _ _ _ rfl ?_)))
    have k : ∀ (c d : Prop) [Decidable c] [Decidable d] (f g : Qp → Qp) (n : Nat),
        hostSidePart (if c then updQp (if d then updQp s n f else s) n g else (if d then updQp s n f else s)) = hostSidePart s := by
      intro c d _ _ f g n
      have h := hostSided_if d (updQp s n f) s s (hostSided_updQp _ _ _) rfl
      exact hostSided_if _ _ _ _ ((hostSided_updQp _ _ _).trans h) h
    refine hostSided_if _ _ _ _ (k _ _ _ _ _) (hostSided_if _ _ _ _ ((hostSided_becomeReady _ _).trans (k _ _ _ _ _)) (hostSided_if _ _ _ _ ?_ ?_))
    · exact ((hostSided_enterError _ _ _ _).trans (hostSided_drawn _)).trans (k _ _ _ _ _)
    · exact (hostSided_backToInit _ _).trans (k _ _ _ _ _)

theorem hostSided_execAqModifyQp (fn : Nat) (s : State) :
    resHostSide (execAqModifyQp fn s) s := by
  unfold execAqModifyQp; simp (maxDischargeDepth := 9)

@[simp] theorem hostSided_destroyQp (s : State) (f : Nat) (e : List Byte) :
    hostSidePart (destroyQp s f e).1 = hostSidePart s := by
  unfold destroyQp; simp only; (repeat' split) <;> simp_all (maxDischargeDepth := 9)

theorem hostSided_execAqDestroyQp (fn : Nat) (s : State) :
    resHostSide (execAqDestroyQp fn s) s := by
  unfold execAqDestroyQp; simp (maxDischargeDepth := 9)

@[simp] theorem hostSided_destroySrq (s : State) (f : Nat) (e : List Byte) :
    hostSidePart (destroySrq s f e).1 = hostSidePart s := by
  unfold destroySrq; simp only; (repeat' split) <;> simp_all (maxDischargeDepth := 9)

theorem hostSided_execAqDestroySrq (fn : Nat) (s : State) :
    resHostSide (execAqDestroySrq fn s) s := by
  unfold execAqDestroySrq; simp (maxDischargeDepth := 9)

@[simp] theorem cored_destroyCq (s : State) (f : Nat) (e : List Byte) :
    corePart (destroyCq s f e).1 = corePart s := by
  unfold destroyCq; simp only; (repeat' split) <;> simp_all (maxDischargeDepth := 9)

theorem cored_execAqDestroyCq (fn : Nat) (s : State) :
    resCore (execAqDestroyCq fn s) s := by
  unfold execAqDestroyCq; simp (maxDischargeDepth := 9)

@[simp] theorem cored_destroyEq (s : State) (f : Nat) (e : List Byte) :
    corePart (destroyEq s f e).1 = corePart s := by
  unfold destroyEq; simp only; (repeat' split) <;> simp_all (maxDischargeDepth := 9)

theorem cored_execAqDestroyEq (fn : Nat) (s : State) :
    resCore (execAqDestroyEq fn s) s := by
  unfold execAqDestroyEq; simp (maxDischargeDepth := 9)

@[simp] theorem cored_destroyPd (s : State) (f : Nat) (e : List Byte) :
    corePart (destroyPd s f e).1 = corePart s := by
  unfold destroyPd; simp only; (repeat' split) <;> simp_all (maxDischargeDepth := 9)

theorem cored_execAqDestroyPd (fn : Nat) (s : State) :
    resCore (execAqDestroyPd fn s) s := by
  unfold execAqDestroyPd; simp (maxDischargeDepth := 9)

theorem cored_execAqRegisterWindow (fn : Nat) (extents : List Byte) (s : State) :
    resCore (execAqRegisterWindow fn extents s) s := by
  unfold execAqRegisterWindow
  refine cored_guardRes' _ _ _ ?_
  refine cored_runAq _ _ _ _ ?_ <;> intro z e
  all_goals dsimp only
  all_goals repeat' split
  all_goals simp (maxDischargeDepth := 9)

theorem cored_execAqRevokeWindow (fn : Nat) (s : State) :
    resCore (execAqRevokeWindow fn s) s := by
  unfold execAqRevokeWindow
  refine cored_guardRes' _ _ _ ?_
  refine cored_runAq _ _ _ _ ?_ <;> intro z e
  all_goals dsimp only
  all_goals repeat' split
  all_goals simp (maxDischargeDepth := 9)

@[simp] theorem cored_invalidate (s : State) (f : Nat) (e : List Byte) :
    corePart (invalidate s f e).1 = corePart s := by
  unfold invalidate; simp only; (repeat' split) <;> simp_all (maxDischargeDepth := 9)

theorem cored_execAqInvalidate (fn : Nat) (s : State) :
    resCore (execAqInvalidate fn s) s := by
  unfold execAqInvalidate; simp (maxDischargeDepth := 9)

@[simp] theorem hostSided_bindNow (s : State) (q : Nat) (x : Qp) (e : Ent) (extents : List (Nat × Nat)) :
    hostSidePart (bindNow s q x e extents) = hostSidePart s := by
  unfold bindNow; simp (maxDischargeDepth := 9)

theorem hostSided_execBindWindow (q : Nat) (extents : List Byte) (s : State) :
    resHostSide (execBindWindow q extents s) s := by
  unfold execBindWindow; (repeat' split) <;> simp (maxDischargeDepth := 9)

theorem hostSided_execAqAbort (fn : Nat) (s : State) :
    resHostSide (execAqAbort fn s) s := by
  unfold execAqAbort
  refine hostSided_guardRes' _ _ _ ?_
  refine hostSided_runAq _ _ _ _ ?_ <;> intro z e
  all_goals dsimp only
  all_goals repeat' split
  all_goals simp (maxDischargeDepth := 9)

theorem cored_execAqSetQuota (fn : Nat) (s : State) :
    resCore (execAqSetQuota fn s) s := by
  unfold execAqSetQuota
  refine cored_guardRes' _ _ _ ?_
  refine cored_runAq _ _ _ _ ?_ <;> intro z e
  all_goals repeat' split
  all_goals simp (maxDischargeDepth := 9)

theorem cored_execAqQueryQuota (fn : Nat) (s : State) :
    resCore (execAqQueryQuota fn s) s := by
  unfold execAqQueryQuota
  refine cored_guardRes' _ _ _ ?_
  refine cored_runAq _ _ _ _ ?_ <;> intro z e
  all_goals repeat' split
  all_goals simp (maxDischargeDepth := 9)

@[simp] theorem cored_accErr (s : State) (m : Nat) :
    corePart (accErr s m) = corePart s := by
  unfold accErr; simp (maxDischargeDepth := 9)

@[simp] theorem settled_accErr (s : State) (m : Nat) :
    settledPart (accErr s m) = settledPart s :=
  settled_of_cored (cored_accErr s m)

@[simp] theorem booted_accErr (s : State) (m : Nat) :
    bootPart (accErr s m) = bootPart s :=
  booted_of_cored (cored_accErr s m)

@[simp] theorem cored_selErr (s : State) (m : Nat) :
    corePart (selErr s m) = corePart s := by
  unfold selErr; simp (maxDischargeDepth := 9)

@[simp] theorem settled_selErr (s : State) (m : Nat) :
    settledPart (selErr s m) = settledPart s :=
  settled_of_cored (cored_selErr s m)

@[simp] theorem booted_selErr (s : State) (m : Nat) :
    bootPart (selErr s m) = bootPart s :=
  booted_of_cored (cored_selErr s m)

theorem booted_counterReg (s : State) (m off : Nat) :
    ∀ t, counterReg s m off = some t → bootPart t.2 = bootPart s := by
  unfold counterReg; simp only; (repeat' split) <;> simp_all (maxDischargeDepth := 9)

@[simp] theorem booted_timeReg (s : State) (m off : Nat) :
    bootPart (timeReg s m off).2 = bootPart s := by
  unfold timeReg; (repeat' split) <;> simp (maxDischargeDepth := 9)

@[simp] theorem booted_eventReg (s : State) (m off : Nat) :
    bootPart (eventReg s m off).2 = bootPart s := by
  unfold eventReg; (repeat' split) <;> simp (maxDischargeDepth := 9)

@[simp] theorem cored_rangeRead (s : State) (m : Nat) :
    corePart (rangeRead s m).2.2 = corePart s := by
  unfold rangeRead; simp (maxDischargeDepth := 9)

@[simp] theorem booted_rangeRead (s : State) (m : Nat) :
    bootPart (rangeRead s m).2.2 = bootPart s :=
  booted_of_cored (cored_rangeRead s m)

@[simp] theorem cored_windowAns (s : State) (m : Nat) (ok : Bool) (v : Nat) :
    corePart (windowAns s m ok v).2.2 = corePart s := by
  unfold windowAns; (repeat' split) <;> simp (maxDischargeDepth := 9)

@[simp] theorem booted_windowAns (s : State) (m : Nat) (ok : Bool) (v : Nat) :
    bootPart (windowAns s m ok v).2.2 = bootPart s :=
  booted_of_cored (cored_windowAns s m ok v)

@[simp] theorem booted_readBlock (s : State) (m : Nat) (b : Block) (off : Nat) :
    bootPart (readBlock s m b off).2.2 = bootPart s := by
  unfold readBlock
  dsimp only
  split
  all_goals try (simp; done)
  split
  · rename_i h
    exact booted_counterReg _ _ _ _ h
  · simp

@[simp] theorem booted_read32 (s : State) (m off : Nat) :
    bootPart (read32 s m off).2.2 = bootPart s := by
  unfold read32; (repeat' split) <;> simp (maxDischargeDepth := 9)

@[simp] theorem booted_regRead (s : State) (m off width : Nat) :
    bootPart (regRead s m off width).2.2 = bootPart s := by
  unfold regRead; (repeat' split) <;> simp (maxDischargeDepth := 9)

@[simp] theorem cored_releasePending (s : State) (f : Nat) :
    corePart (releasePending s f) = corePart s := by
  unfold releasePending; simp (maxDischargeDepth := 9)

@[simp] theorem hostSided_releasePending (s : State) (f : Nat) :
    hostSidePart (releasePending s f) = hostSidePart s :=
  hostSided_of_cored (cored_releasePending s f)

@[simp] theorem cored_setVecMask (s : State) (f v : Nat) (b : Bool) :
    corePart (setVecMask s f v b) = corePart s := by
  unfold setVecMask; simp (maxDischargeDepth := 9)

@[simp] theorem cored_unmaskFn (s : State) (f : Nat) :
    corePart (unmaskFn s f) = corePart s := by
  unfold unmaskFn; simp (maxDischargeDepth := 9)

@[simp] theorem cored_writeCause (s : State) (m : Nat) (v : Nat) :
    corePart (writeCause s m v) = corePart s := by
  unfold writeCause; simp (maxDischargeDepth := 9)

@[simp] theorem booted_writeCause (s : State) (m : Nat) (v : Nat) :
    bootPart (writeCause s m v) = bootPart s :=
  booted_of_cored (cored_writeCause s m v)

@[simp] theorem cored_writeMask (s : State) (m : Nat) (v : Nat) :
    corePart (writeMask s m v) = corePart s := by
  unfold writeMask; simp (maxDischargeDepth := 9)

@[simp] theorem booted_writeMask (s : State) (m : Nat) (v : Nat) :
    bootPart (writeMask s m v) = bootPart s :=
  booted_of_cored (cored_writeMask s m v)

@[simp] theorem settled_ringDoorbell (s : State) (m : Nat) :
    settledPart (ringDoorbell s m) = settledPart s := by
  unfold ringDoorbell; simp (maxDischargeDepth := 9)

@[simp] theorem settled_writeMailbox (s : State) (m off v : Nat) :
    settledPart (writeMailbox s m off v) = settledPart s := by
  unfold writeMailbox; simp (maxDischargeDepth := 9)

@[simp] theorem booted_writeMailbox (s : State) (m off v : Nat) :
    bootPart (writeMailbox s m off v) = bootPart s :=
  booted_of_settled (settled_writeMailbox s m off v)

@[simp] theorem booted_writeChsel (s : State) (m off v : Nat) :
    bootPart (writeChsel s m off v) = bootPart s := by
  unfold writeChsel; simp (maxDischargeDepth := 9)

@[simp] theorem cored_writeAdmin (s : State) (m off v : Nat) :
    corePart (writeAdmin s m off v) = corePart s := by
  unfold writeAdmin; (repeat' split) <;> simp (maxDischargeDepth := 9)

@[simp] theorem booted_writeAdmin (s : State) (m off v : Nat) :
    bootPart (writeAdmin s m off v) = bootPart s :=
  booted_of_cored (cored_writeAdmin s m off v)

@[simp] theorem portFreed_writePort (s : State) (p off v : Nat) :
    portFreePart (writePort s p off v) = portFreePart s := by
  unfold writePort; simp (maxDischargeDepth := 9)

@[simp] theorem booted_writePort (s : State) (p off v : Nat) :
    bootPart (writePort s p off v) = bootPart s :=
  booted_of_portFreed (portFreed_writePort s p off v)

@[simp] theorem booted_writeLaneCfg (s : State) (l v : Nat) :
    bootPart (writeLaneCfg s l v) = bootPart s := by
  unfold writeLaneCfg; simp (maxDischargeDepth := 9)

@[simp] theorem linkSided_writeOctTimers (s : State) (o v : Nat) :
    linkSidePart (writeOctTimers s o v) = linkSidePart s := by
  unfold writeOctTimers; simp (maxDischargeDepth := 9)

@[simp] theorem booted_writeOctTimers (s : State) (o v : Nat) :
    bootPart (writeOctTimers s o v) = bootPart s :=
  booted_of_linkSided (linkSided_writeOctTimers s o v)

@[simp] theorem hostSided_writeBacking (s : State) (e off v : Nat) :
    hostSidePart (writeBacking s e off v) = hostSidePart s := by
  unfold writeBacking; simp (maxDischargeDepth := 9)

@[simp] theorem hostSided_writeHost (s : State) (e off v : Nat) :
    hostSidePart (writeHost s e off v) = hostSidePart s := by
  unfold writeHost; simp (maxDischargeDepth := 9)

@[simp] theorem booted_writeHost (s : State) (e off v : Nat) :
    bootPart (writeHost s e off v) = bootPart s :=
  booted_of_hostSided (hostSided_writeHost s e off v)

@[simp] theorem portFreed_writeShaper (s : State) (p off v : Nat) :
    portFreePart (writeShaper s p off v) = portFreePart s := by
  unfold writeShaper; simp (maxDischargeDepth := 9)

@[simp] theorem booted_writeShaper (s : State) (p off v : Nat) :
    bootPart (writeShaper s p off v) = bootPart s :=
  booted_of_portFreed (portFreed_writeShaper s p off v)

theorem settled_withSnap (s : State) (x : Snap) : settledPart { s with snap := x } = settledPart s := rfl

@[simp] theorem settled_writeTime (s : State) (m off v : Nat) :
    settledPart (writeTime s m off v).2 = settledPart s := by
  unfold writeTime
  dsimp only
  split
  · split
    · rfl
    · exact settled_withSnap _ _
  · split
    · split
      · rfl
      · exact settled_withSnap _ _
    · split
      · split
        · simp only [settled_accErr]
        · split
          · simp only [settled_armSnap]
          · split
            · simp only [settled_cancelSnap]
            · rfl
      · rfl

@[simp] theorem booted_writeTime (s : State) (m off v : Nat) :
    bootPart (writeTime s m off v).2 = bootPart s :=
  booted_of_settled (settled_writeTime s m off v)

@[simp] theorem booted_windowWrite (s : State) (m : Nat) (ok : Bool) (t : State) (ht : bootPart t = bootPart s) :
    bootPart (windowWrite s m ok t).2 = bootPart s := by
  unfold windowWrite; (repeat' split) <;> simp (maxDischargeDepth := 9) [ht]

@[simp] theorem booted_writeBlock (s : State) (m : Nat) (b : Block) (off v : Nat) :
    bootPart (writeBlock s m b off v).2 = bootPart s := by
  unfold writeBlock; (repeat' split) <;> simp (maxDischargeDepth := 9)

@[simp] theorem booted_write32 (s : State) (m off v : Nat) :
    bootPart (write32 s m off v).2 = bootPart s := by
  unfold write32; (repeat' split) <;> simp (maxDischargeDepth := 9)

@[simp] theorem cored_writeMsixByte (s : State) (m off : Nat) (b : Byte) :
    corePart (writeMsixByte s m off b) = corePart s := by
  unfold writeMsixByte; simp (maxDischargeDepth := 9)

@[simp] theorem cored_writeAreaByte (s : State) (m off : Nat) (b : Byte) :
    corePart (writeAreaByte s m off b) = corePart s := by
  unfold writeAreaByte; (repeat' split) <;> simp (maxDischargeDepth := 9)

@[simp] theorem cored_writeArea (s : State) (m : Nat) (x0 : Nat) (x1 : List Byte) :
    corePart (writeArea s m x0 x1) = corePart s := by
  induction x1 generalizing s x0 with
  | nil => simp (maxDischargeDepth := 9) [writeArea]
  | cons a l ih => (unfold writeArea; (repeat' split) <;> first | rfl | (simp (maxDischargeDepth := 9) [ih]; done))

@[simp] theorem booted_writeArea (s : State) (m : Nat) (x0 : Nat) (x1 : List Byte) :
    bootPart (writeArea s m x0 x1) = bootPart s :=
  booted_of_cored (cored_writeArea s m x0 x1)

@[simp] theorem booted_regWrite (s : State) (m off : Nat) (bytes : List Byte) :
    bootPart (regWrite s m off bytes).2 = bootPart s := by
  unfold regWrite; simp only; (repeat' split) <;> simp_all (maxDischargeDepth := 9)

theorem settled_execMbIdentGet (s : State) :
    resSettled (execMbIdentGet s) s := by
  unfold execMbIdentGet; simp (maxDischargeDepth := 9)

theorem settled_execMbCapsGet (s : State) :
    resSettled (execMbCapsGet s) s := by
  unfold execMbCapsGet; simp (maxDischargeDepth := 9)

@[simp] theorem linkSided_setOctet (s : State) (o rate reach : Nat) :
    linkSidePart (setOctet s o rate reach) = linkSidePart s := by
  unfold setOctet; simp (maxDischargeDepth := 9)

@[simp] theorem booted_setOctet (s : State) (o rate reach : Nat) :
    bootPart (setOctet s o rate reach) = bootPart s :=
  booted_of_linkSided (linkSided_setOctet s o rate reach)

@[simp] theorem booted_doOctetSet (s : State) (c : MbCmd) :
    bootPart (doOctetSet s c).2.2 = bootPart s := by
  unfold doOctetSet; simp only; (repeat' split) <;> simp_all (maxDischargeDepth := 9)

theorem booted_execMbOctetSet (s : State) :
    resBoot (execMbOctetSet s) s := by
  unfold execMbOctetSet; simp (maxDischargeDepth := 9)

@[simp] theorem portFreed_removePort (s : State) (p : Nat) :
    portFreePart (removePort s p) = portFreePart s := by
  unfold removePort; simp (maxDischargeDepth := 9)

@[simp] theorem booted_removePort (s : State) (p : Nat) :
    bootPart (removePort s p) = bootPart s :=
  booted_of_portFreed (portFreed_removePort s p)

@[simp] theorem portFreed_reshapePort (s : State) (p width role : Nat) :
    portFreePart (reshapePort s p width role) = portFreePart s := by
  unfold reshapePort; simp (maxDischargeDepth := 9)

@[simp] theorem booted_reshapePort (s : State) (p width role : Nat) :
    bootPart (reshapePort s p width role) = bootPart s :=
  booted_of_portFreed (portFreed_reshapePort s p width role)

@[simp] theorem linkSided_relane (s : State) (old : List Nat) (p : Nat) :
    linkSidePart (relane s old p) = linkSidePart s := by
  unfold relane; simp (maxDischargeDepth := 9)

@[simp] theorem booted_relane (s : State) (old : List Nat) (p : Nat) :
    bootPart (relane s old p) = bootPart s :=
  booted_of_linkSided (linkSided_relane s old p)

@[simp] theorem booted_configurePort (s : State) (p width role : Nat) (up : Bool) :
    bootPart (configurePort s p width role up) = bootPart s := by
  unfold configurePort; simp (maxDischargeDepth := 9)

@[simp] theorem settled_movePort (s : State) (c : MbCmd) (p : Nat) (up : Bool) (wasUp : Bool) :
    settledPart (movePort s c p up wasUp).2.2 = settledPart s := by
  unfold movePort; simp only; (repeat' split) <;> simp_all (maxDischargeDepth := 9)

@[simp] theorem booted_movePort (s : State) (c : MbCmd) (p : Nat) (up : Bool) (wasUp : Bool) :
    bootPart (movePort s c p up wasUp).2.2 = bootPart s :=
  booted_of_settled (settled_movePort s c p up wasUp)

@[simp] theorem booted_doPortSet (s : State) (c : MbCmd) :
    bootPart (doPortSet s c).2.2 = bootPart s := by
  unfold doPortSet; simp only; (repeat' split) <;> simp_all (maxDischargeDepth := 9)

theorem booted_execMbPortSet (s : State) :
    resBoot (execMbPortSet s) s := by
  unfold execMbPortSet; simp (maxDischargeDepth := 9)

@[simp] theorem controlled_doPortGet (s : State) (c : MbCmd) :
    controlPart (doPortGet s c).2.2 = controlPart s := by
  unfold doPortGet; simp only; (repeat' split) <;> simp_all (maxDischargeDepth := 9)

@[simp] theorem settled_doPortGet (s : State) (c : MbCmd) :
    settledPart (doPortGet s c).2.2 = settledPart s :=
  settled_of_controlled (controlled_doPortGet s c)

theorem settled_execMbPortGet (s : State) :
    resSettled (execMbPortGet s) s := by
  unfold execMbPortGet; simp (maxDischargeDepth := 9)

@[simp] theorem booted_doHostModeStore (s : State) (c : MbCmd) :
    bootPart (doHostModeStore s c).2.2 = bootPart s := by
  unfold doHostModeStore; simp only; (repeat' split) <;> simp_all (maxDischargeDepth := 9)

theorem booted_execMbHostModeStore (s : State) :
    resBoot (execMbHostModeStore s) s := by
  unfold execMbHostModeStore; simp (maxDischargeDepth := 9)

@[simp] theorem settled_doPartitionSet (s : State) (c : MbCmd) :
    settledPart (doPartitionSet s c).2.2 = settledPart s := by
  unfold doPartitionSet; simp only; (repeat' split) <;> simp_all (maxDischargeDepth := 9)

theorem settled_execMbPartitionSet (s : State) :
    resSettled (execMbPartitionSet s) s := by
  unfold execMbPartitionSet; simp (maxDischargeDepth := 9)

@[simp] theorem settled_dropMailbox (s : State) (m : Nat) :
    settledPart (dropMailbox s m) = settledPart s := by
  unfold dropMailbox; simp (maxDischargeDepth := 9)

@[simp] theorem settled_resetMailbox (s : State) (m : Nat) :
    settledPart (resetMailbox s m) = settledPart s := by
  rfl

@[simp] theorem booted_resetMailbox (s : State) (m : Nat) :
    bootPart (resetMailbox s m) = bootPart s :=
  booted_of_settled (settled_resetMailbox s m)

@[simp] theorem hostSided_quiesceQueues (s : State) (f : Nat) :
    hostSidePart (quiesceQueues s f) = hostSidePart s := by
  unfold quiesceQueues; simp (maxDischargeDepth := 9)

@[simp] theorem engined_quiesceQueues (s : State) (f : Nat) :
    enginePart (quiesceQueues s f) = enginePart s :=
  engined_of_hostSided (hostSided_quiesceQueues s f)

@[simp] theorem cored_abortFnColls (s : State) (f : Nat) :
    corePart (abortFnColls s f) = corePart s := by
  unfold abortFnColls; simp (maxDischargeDepth := 9)

@[simp] theorem hostSided_abortFnColls (s : State) (f : Nat) :
    hostSidePart (abortFnColls s f) = hostSidePart s :=
  hostSided_of_cored (cored_abortFnColls s f)

@[simp] theorem engined_abortFnColls (s : State) (f : Nat) :
    enginePart (abortFnColls s f) = enginePart s :=
  engined_of_cored (cored_abortFnColls s f)

@[simp] theorem hostSided_quiesceFn (s : State) (f : Nat) :
    hostSidePart (quiesceFn s f) = hostSidePart s := by
  unfold quiesceFn; simp (maxDischargeDepth := 9)

@[simp] theorem booted_quiesceFn (s : State) (f : Nat) :
    bootPart (quiesceFn s f) = bootPart s :=
  booted_of_hostSided (hostSided_quiesceFn s f)

@[simp] theorem booted_resetOne (s : State) (f : Nat) :
    bootPart (resetOne s f) = bootPart s := by
  unfold resetOne; simp (maxDischargeDepth := 9)

@[simp] theorem booted_resetFn (s : State) (f : Nat) :
    bootPart (resetFn s f) = bootPart s := by
  unfold resetFn; simp (maxDischargeDepth := 9)

@[simp] theorem engined_hostDown (s : State) (e : Nat) :
    enginePart (hostDown s e) = enginePart s := by
  unfold hostDown; simp (maxDischargeDepth := 9) [foldl_engined]

@[simp] theorem controlled_hostDown (s : State) (e : Nat) :
    controlPart (hostDown s e) = controlPart s :=
  controlled_of_engined (engined_hostDown s e)

@[simp] theorem settled_hostDown (s : State) (e : Nat) :
    settledPart (hostDown s e) = settledPart s :=
  settled_of_engined (engined_hostDown s e)

@[simp] theorem booted_hostDown (s : State) (e : Nat) :
    bootPart (hostDown s e) = bootPart s :=
  booted_of_engined (engined_hostDown s e)

@[simp] theorem hostSided_readiness (s : State) (e : Nat) :
    hostSidePart (readiness s e) = hostSidePart s := by
  unfold readiness; simp (maxDischargeDepth := 9)

@[simp] theorem booted_readiness (s : State) (e : Nat) :
    bootPart (readiness s e) = bootPart s :=
  booted_of_hostSided (hostSided_readiness s e)

@[simp] theorem hostSided_becomeCfgReady (s : State) :
    hostSidePart (becomeCfgReady s) = hostSidePart s := by
  unfold becomeCfgReady; simp (maxDischargeDepth := 9)

@[simp] theorem fixed_becomeCfgReady (s : State) :
    fixedPart (becomeCfgReady s) = fixedPart s :=
  fixed_of_hostSided (hostSided_becomeCfgReady s)

@[simp] theorem fixed_setErased (s : State) (slot : Nat) (b : Bool) :
    fixedPart (setErased s slot b) = fixedPart s := by
  unfold setErased; simp (maxDischargeDepth := 9)

@[simp] theorem cored_rejectImage (s : State) (slot st : Nat) :
    corePart (rejectImage s slot st) = corePart s := by
  unfold rejectImage; simp (maxDischargeDepth := 9)

@[simp] theorem fixed_rejectImage (s : State) (slot st : Nat) :
    fixedPart (rejectImage s slot st) = fixedPart s :=
  fixed_of_cored (cored_rejectImage s slot st)

@[simp] theorem fixed_loadImage (s : State) (slot : Nat) (i : Image) :
    fixedPart (loadImage s slot i) = fixedPart s := by
  unfold loadImage; simp (maxDischargeDepth := 9)

@[simp] theorem fixed_flashOp (s : State) (op addr len : Nat) :
    fixedPart (flashOp s op addr len) = fixedPart s := by
  unfold flashOp; simp (maxDischargeDepth := 9)

@[simp] theorem fixed_coldClear (s : State) :
    fixedPart (coldClear s) = fixedPart s := by
  unfold coldClear; simp (maxDischargeDepth := 9)

@[simp] theorem cored_tellPowerFail (s : State) :
    corePart (tellPowerFail s) = corePart s := by
  unfold tellPowerFail; (repeat' split) <;> simp (maxDischargeDepth := 9)

@[simp] theorem fixed_tellPowerFail (s : State) :
    fixedPart (tellPowerFail s) = fixedPart s :=
  fixed_of_cored (cored_tellPowerFail s)

@[simp] theorem fixed_beginCold (s : State) :
    fixedPart (beginCold s) = fixedPart s := by
  unfold beginCold; simp only; (repeat' split) <;> simp_all (maxDischargeDepth := 9)

@[simp] theorem hostSided_destroyAll (s : State) :
    hostSidePart (destroyAll s) = hostSidePart s := by
  unfold destroyAll; simp (maxDischargeDepth := 9)

@[simp] theorem fixed_destroyAll (s : State) :
    fixedPart (destroyAll s) = fixedPart s :=
  fixed_of_hostSided (hostSided_destroyAll s)

@[simp] theorem linkSided_holdTime (s : State) :
    linkSidePart (holdTime s) = linkSidePart s := by
  unfold holdTime; simp (maxDischargeDepth := 9)

@[simp] theorem fixed_holdTime (s : State) :
    fixedPart (holdTime s) = fixedPart s :=
  fixed_of_linkSided (linkSided_holdTime s)

@[simp] theorem fixed_warmClear (s : State) :
    fixedPart (warmClear s) = fixedPart s := by
  unfold warmClear; simp (maxDischargeDepth := 9)

@[simp] theorem fixed_beginWarm (s : State) :
    fixedPart (beginWarm s) = fixedPart s := by
  unfold beginWarm; (repeat' split) <;> simp (maxDischargeDepth := 9)

@[simp] theorem booted_applyOctet (s : State) (o : Nat) :
    bootPart (applyOctet s o) = bootPart s := by
  unfold applyOctet; simp only; (repeat' split) <;> simp_all (maxDischargeDepth := 9) [foldl_booted]

@[simp] theorem fixed_applyOctet (s : State) (o : Nat) :
    fixedPart (applyOctet s o) = fixedPart s :=
  fixed_of_booted (booted_applyOctet s o)

@[simp] theorem booted_applyHostModes (s : State) :
    bootPart (applyHostModes s) = bootPart s := by
  unfold applyHostModes; simp (maxDischargeDepth := 9)

@[simp] theorem fixed_applyHostModes (s : State) :
    fixedPart (applyHostModes s) = fixedPart s :=
  fixed_of_booted (booted_applyHostModes s)

@[simp] theorem cored_applyRetired (s : State) :
    corePart (applyRetired s) = corePart s := by
  unfold applyRetired; simp (maxDischargeDepth := 9)

@[simp] theorem fixed_applyRetired (s : State) :
    fixedPart (applyRetired s) = fixedPart s :=
  fixed_of_cored (cored_applyRetired s)

@[simp] theorem booted_selectProfile (s : State) :
    bootPart (selectProfile s) = bootPart s := by
  unfold selectProfile; simp (maxDischargeDepth := 9)

@[simp] theorem fixed_selectProfile (s : State) :
    fixedPart (selectProfile s) = fixedPart s :=
  fixed_of_booted (booted_selectProfile s)

@[simp] theorem portFreed_applyAlmanac (s : State) :
    portFreePart (applyAlmanac s) = portFreePart s := by
  unfold applyAlmanac; simp (maxDischargeDepth := 9)

@[simp] theorem fixed_applyAlmanac (s : State) :
    fixedPart (applyAlmanac s) = fixedPart s :=
  fixed_of_portFreed (portFreed_applyAlmanac s)

@[simp] theorem fixed_applyConfig (s : State) :
    fixedPart (applyConfig s) = fixedPart s := by
  unfold applyConfig; simp (maxDischargeDepth := 9)

@[simp] theorem settled_strapFea (s : State) :
    settledPart (strapFea s) = settledPart s := by
  unfold strapFea; simp (maxDischargeDepth := 9)

@[simp] theorem settled_takeFea (s : State) :
    settledPart (takeFea s) = settledPart s := by
  unfold takeFea; simp (maxDischargeDepth := 9)

@[simp] theorem fixed_takeFea (s : State) :
    fixedPart (takeFea s) = fixedPart s :=
  fixed_of_settled (settled_takeFea s)

@[simp] theorem fixed_enterSafe (s : State) :
    fixedPart (enterSafe s) = fixedPart s := by
  unfold enterSafe; simp (maxDischargeDepth := 9)

@[simp] theorem fixed_startFailed (s : State) (golden : Bool) (cause : Nat) :
    fixedPart (startFailed s golden cause) = fixedPart s := by
  unfold startFailed; simp (maxDischargeDepth := 9)

@[simp] theorem fixed_resolveRunning (s : State) :
    fixedPart (resolveRunning s) = fixedPart s := by
  unfold resolveRunning; (repeat' (first | split | (refine Eq.trans (fixed_foldS _ _ _ ?_) ?_; intro _ _) | (refine Eq.trans (foldl_fixed _ ?_ _ _) ?_; intro _ _) | (simp (maxDischargeDepth := 9) [*]; done) | simp (maxDischargeDepth := 9) [foldl_fixed]))

@[simp] theorem fixed_endUpdate (s : State) :
    fixedPart (endUpdate s) = fixedPart s := by
  unfold endUpdate; simp (maxDischargeDepth := 9)

@[simp] theorem settled_cutHead (s : State) :
    settledPart (cutHead s) = settledPart s := by
  unfold cutHead; simp (maxDischargeDepth := 9)

@[simp] theorem fixed_cutHead (s : State) :
    fixedPart (cutHead s) = fixedPart s :=
  fixed_of_settled (settled_cutHead s)

@[simp] theorem settled_answerCut (s : State) :
    settledPart (answerCut s) = settledPart s := by
  unfold answerCut; simp (maxDischargeDepth := 9) [foldl_settled]

@[simp] theorem fixed_answerCut (s : State) :
    fixedPart (answerCut s) = fixedPart s :=
  fixed_of_settled (settled_answerCut s)

@[simp] theorem fixed_molzuRestart (s : State) (cause slot : Nat) :
    fixedPart (molzuRestart s cause slot) = fixedPart s := by
  unfold molzuRestart; simp (maxDischargeDepth := 9)

theorem settled_execMbEventClearNonce (s : State) :
    resSettled (execMbEventClearNonce s) s := by
  unfold execMbEventClearNonce; simp (maxDischargeDepth := 9)

@[simp] theorem settled_doEventClear (sigOk : Bool) (s : State) (c : MbCmd) :
    settledPart (doEventClear sigOk s c).2.2 = settledPart s := by
  unfold doEventClear; simp only; (repeat' split) <;> simp_all (maxDischargeDepth := 9)

theorem settled_execMbEventClear (sigOk : Bool) (s : State) :
    resSettled (execMbEventClear sigOk s) s := by
  unfold execMbEventClear; simp (maxDischargeDepth := 9)

theorem settled_execNonceExpire (s : State) :
    resSettled (execNonceExpire s) s := by
  unfold execNonceExpire; simp (maxDischargeDepth := 9)

theorem settled_execMbTelemetryGet (s : State) :
    resSettled (execMbTelemetryGet s) s := by
  unfold execMbTelemetryGet; simp (maxDischargeDepth := 9)

theorem settled_execMbLifeGet (s : State) :
    resSettled (execMbLifeGet s) s := by
  unfold execMbLifeGet; simp (maxDischargeDepth := 9)

@[simp] theorem fixed_doFwUpdateBegin (s : State) (c : MbCmd) :
    fixedPart (doFwUpdateBegin s c).2.2 = fixedPart s := by
  unfold doFwUpdateBegin; simp only; (repeat' split) <;> simp_all (maxDischargeDepth := 9)

theorem fixed_execMbFwUpdateBegin (s : State) :
    resFixed (execMbFwUpdateBegin s) s := by
  unfold execMbFwUpdateBegin; simp (maxDischargeDepth := 9)

@[simp] theorem fixed_doFwUpdateWrite (queueFull : Bool) (s : State) (c : MbCmd) :
    fixedPart (doFwUpdateWrite queueFull s c).2.2 = fixedPart s := by
  unfold doFwUpdateWrite; simp only; (repeat' split) <;> simp_all (maxDischargeDepth := 9)

theorem fixed_execMbFwUpdateWrite (queueFull : Bool) (s : State) :
    resFixed (execMbFwUpdateWrite queueFull s) s := by
  unfold execMbFwUpdateWrite; simp (maxDischargeDepth := 9)

@[simp] theorem fixed_doFwUpdateEnd (img : Image) (s : State) (c : MbCmd) :
    fixedPart (doFwUpdateEnd img s c).2.2 = fixedPart s := by
  unfold doFwUpdateEnd; (repeat' split) <;> simp (maxDischargeDepth := 9)

theorem fixed_execMbFwUpdateEnd (img : Image) (s : State) :
    resFixed (execMbFwUpdateEnd img s) s := by
  unfold execMbFwUpdateEnd; simp (maxDischargeDepth := 9)

@[simp] theorem fixed_doFwActivate (img : Image) (s : State) (c : MbCmd) :
    fixedPart (doFwActivate img s c).2.2 = fixedPart s := by
  unfold doFwActivate; simp only; (repeat' split) <;> simp_all (maxDischargeDepth := 9)

@[simp] theorem fixed_activateRestart (s : State) (slot : Nat) :
    fixedPart (activateRestart s slot) = fixedPart s := by
  unfold activateRestart; simp (maxDischargeDepth := 9)

theorem fixed_execMbFwActivate (img : Image) (s : State) :
    resFixed (execMbFwActivate img s) s := by
  unfold execMbFwActivate; (repeat' split) <;> simp (maxDischargeDepth := 9)

theorem fixed_execFwUpdateIdleTimeout (s : State) :
    resFixed (execFwUpdateIdleTimeout s) s := by
  unfold execFwUpdateIdleTimeout; simp (maxDischargeDepth := 9)

theorem settled_execMbMeasureGet (s : State) :
    resSettled (execMbMeasureGet s) s := by
  unfold execMbMeasureGet; simp (maxDischargeDepth := 9)

@[simp] theorem booted_doAccessSet (s : State) (c : MbCmd) :
    bootPart (doAccessSet s c).2.2 = bootPart s := by
  unfold doAccessSet; simp only; (repeat' split) <;> simp_all (maxDischargeDepth := 9)

theorem booted_execMbAccessSet (s : State) :
    resBoot (execMbAccessSet s) s := by
  unfold execMbAccessSet; simp (maxDischargeDepth := 9)

theorem settled_execMbAccessGet (s : State) :
    resSettled (execMbAccessGet s) s := by
  unfold execMbAccessGet; simp (maxDischargeDepth := 9)

@[simp] theorem linkSided_doGroupRoleSet (s : State) (c : MbCmd) :
    linkSidePart (doGroupRoleSet s c).2.2 = linkSidePart s := by
  unfold doGroupRoleSet; (repeat' split) <;> simp (maxDischargeDepth := 9)

@[simp] theorem settled_doGroupRoleSet (s : State) (c : MbCmd) :
    settledPart (doGroupRoleSet s c).2.2 = settledPart s :=
  settled_of_linkSided (linkSided_doGroupRoleSet s c)

theorem settled_execMbGroupRoleSet (s : State) :
    resSettled (execMbGroupRoleSet s) s := by
  unfold execMbGroupRoleSet; simp (maxDischargeDepth := 9)

@[simp] theorem controlled_retrainFabric (s : State) :
    controlPart (retrainFabric s) = controlPart s := by
  unfold retrainFabric; simp (maxDischargeDepth := 9)

@[simp] theorem booted_retrainFabric (s : State) :
    bootPart (retrainFabric s) = bootPart s :=
  booted_of_controlled (controlled_retrainFabric s)

@[simp] theorem booted_doFeaSet (s : State) (c : MbCmd) :
    bootPart (doFeaSet s c).2.2 = bootPart s := by
  unfold doFeaSet; (repeat' split) <;> simp (maxDischargeDepth := 9)

theorem booted_execMbFeaSet (s : State) :
    resBoot (execMbFeaSet s) s := by
  unfold execMbFeaSet; simp (maxDischargeDepth := 9)

theorem settled_execMbChainStatus (s : State) :
    resSettled (execMbChainStatus s) s := by
  unfold execMbChainStatus; simp (maxDischargeDepth := 9)

@[simp] theorem linkSided_laneNamed (s : State) (l : Nat) (k : MbAns) (hk : linkSidePart k.2.2 = linkSidePart s) :
    linkSidePart (laneNamed s l k).2.2 = linkSidePart s := by
  unfold laneNamed; (repeat' split) <;> simp (maxDischargeDepth := 9) [hk]

@[simp] theorem linkSided_stopCheck (s : State) (l : Nat) :
    linkSidePart (stopCheck s l) = linkSidePart s := by
  unfold stopCheck; simp (maxDischargeDepth := 9)

@[simp] theorem linkSided_doPrbsSet (s : State) (c : MbCmd) :
    linkSidePart (doPrbsSet s c).2.2 = linkSidePart s := by
  unfold doPrbsSet; simp only; (repeat' split) <;> simp_all (maxDischargeDepth := 9)

@[simp] theorem settled_doPrbsSet (s : State) (c : MbCmd) :
    settledPart (doPrbsSet s c).2.2 = settledPart s :=
  settled_of_linkSided (linkSided_doPrbsSet s c)

theorem settled_execMbPrbsSet (s : State) :
    resSettled (execMbPrbsSet s) s := by
  unfold execMbPrbsSet; simp (maxDischargeDepth := 9)

@[simp] theorem linkSided_doPrbsGet (bits errs : Nat) (s : State) (c : MbCmd) :
    linkSidePart (doPrbsGet bits errs s c).2.2 = linkSidePart s := by
  unfold doPrbsGet; simp only; (repeat' split) <;> simp_all (maxDischargeDepth := 9)

@[simp] theorem settled_doPrbsGet (bits errs : Nat) (s : State) (c : MbCmd) :
    settledPart (doPrbsGet bits errs s c).2.2 = settledPart s :=
  settled_of_linkSided (linkSided_doPrbsGet bits errs s c)

theorem settled_execMbPrbsGet (bits errs : Nat) (s : State) :
    resSettled (execMbPrbsGet bits errs s) s := by
  unfold execMbPrbsGet; simp (maxDischargeDepth := 9)

@[simp] theorem linkSided_doLoopbackSet (s : State) (c : MbCmd) :
    linkSidePart (doLoopbackSet s c).2.2 = linkSidePart s := by
  unfold doLoopbackSet; simp only; (repeat' split) <;> simp_all (maxDischargeDepth := 9)

@[simp] theorem settled_doLoopbackSet (s : State) (c : MbCmd) :
    settledPart (doLoopbackSet s c).2.2 = settledPart s :=
  settled_of_linkSided (linkSided_doLoopbackSet s c)

theorem settled_execMbLoopbackSet (s : State) :
    resSettled (execMbLoopbackSet s) s := by
  unfold execMbLoopbackSet; simp (maxDischargeDepth := 9)

@[simp] theorem linkSided_doErrInject (s : State) (c : MbCmd) :
    linkSidePart (doErrInject s c).2.2 = linkSidePart s := by
  unfold doErrInject; simp only; (repeat' split) <;> simp_all (maxDischargeDepth := 9)

@[simp] theorem settled_doErrInject (s : State) (c : MbCmd) :
    settledPart (doErrInject s c).2.2 = settledPart s :=
  settled_of_linkSided (linkSided_doErrInject s c)

theorem settled_execMbErrInject (s : State) :
    resSettled (execMbErrInject s) s := by
  unfold execMbErrInject; simp (maxDischargeDepth := 9)

@[simp] theorem controlled_doConfigRead (s : State) (c : MbCmd) :
    controlPart (doConfigRead s c).2.2 = controlPart s := by
  unfold doConfigRead; simp only; (repeat' split) <;> simp_all (maxDischargeDepth := 9)

@[simp] theorem settled_doConfigRead (s : State) (c : MbCmd) :
    settledPart (doConfigRead s c).2.2 = settledPart s :=
  settled_of_controlled (controlled_doConfigRead s c)

theorem settled_execMbConfigRead (s : State) :
    resSettled (execMbConfigRead s) s := by
  unfold execMbConfigRead; simp (maxDischargeDepth := 9)

@[simp] theorem settled_doConfigExport (s : State) (c : MbCmd) :
    settledPart (doConfigExport s c).2.2 = settledPart s := by
  unfold doConfigExport; (repeat' split) <;> simp (maxDischargeDepth := 9)

theorem settled_execMbConfigExport (s : State) :
    resSettled (execMbConfigExport s) s := by
  unfold execMbConfigExport; simp (maxDischargeDepth := 9)

@[simp] theorem settled_doConfigExportRead (s : State) (c : MbCmd) :
    settledPart (doConfigExportRead s c).2.2 = settledPart s := by
  unfold doConfigExportRead; simp only; (repeat' split) <;> simp_all (maxDischargeDepth := 9)

theorem settled_execMbConfigExportRead (s : State) :
    resSettled (execMbConfigExportRead s) s := by
  unfold execMbConfigExportRead; simp (maxDischargeDepth := 9)

@[simp] theorem settled_doConfigImportWrite (s : State) (c : MbCmd) :
    settledPart (doConfigImportWrite s c).2.2 = settledPart s := by
  unfold doConfigImportWrite; simp only; (repeat' split) <;> simp_all (maxDischargeDepth := 9)

theorem settled_execMbConfigImportWrite (s : State) :
    resSettled (execMbConfigImportWrite s) s := by
  unfold execMbConfigImportWrite; simp (maxDischargeDepth := 9)

@[simp] theorem fixed_doConfigImportCommit (s : State) (c : MbCmd) :
    fixedPart (doConfigImportCommit s c).2.2 = fixedPart s := by
  unfold doConfigImportCommit; simp only; (repeat' split) <;> simp_all (maxDischargeDepth := 9)

theorem fixed_execMbConfigImportCommit (s : State) :
    resFixed (execMbConfigImportCommit s) s := by
  unfold execMbConfigImportCommit; simp (maxDischargeDepth := 9)

theorem settled_execStagingIdleTimeout (importBuf : Bool) (s : State) :
    resSettled (execStagingIdleTimeout importBuf s) s := by
  unfold execStagingIdleTimeout; simp (maxDischargeDepth := 9)

@[simp] theorem booted_releaseTrip (s : State) :
    bootPart (releaseTrip s) = bootPart s := by
  unfold releaseTrip; simp (maxDischargeDepth := 9)

@[simp] theorem fixed_releaseTrip (s : State) :
    fixedPart (releaseTrip s) = fixedPart s :=
  fixed_of_booted (booted_releaseTrip s)

theorem fixed_execPorstNAssert (s : State) :
    resFixed (execPorstNAssert s) s := by
  unfold execPorstNAssert; simp (maxDischargeDepth := 9)

theorem fixed_execColdStart (straps : Straps) (s : State) :
    resFixed (execColdStart straps s) s := by
  unfold execColdStart; (repeat' split) <;> simp (maxDischargeDepth := 9)

@[simp] theorem fixed_stepDone (s : State) (f : BootSteps → BootSteps) :
    fixedPart (stepDone s f) = fixedPart s := by
  unfold stepDone; simp (maxDischargeDepth := 9)

@[simp] theorem settled_sendEnum (s : State) (src next flags : Nat) (base : BitVec 20) :
    settledPart (sendEnum s src next flags base) = settledPart s := by
  unfold sendEnum; simp (maxDischargeDepth := 9)

@[simp] theorem settled_beginEnum (s : State) :
    settledPart (beginEnum s) = settledPart s := by
  unfold beginEnum; simp (maxDischargeDepth := 9)

@[simp] theorem fixed_beginEnum (s : State) :
    fixedPart (beginEnum s) = fixedPart s :=
  fixed_of_settled (settled_beginEnum s)

theorem fixed_execRootPllLock (s : State) :
    resFixed (execRootPllLock s) s := by
  unfold execRootPllLock; (repeat' split) <;> simp (maxDischargeDepth := 9)

theorem fixed_execBootRomConfigRead (newerCopyOk : Bool) (s : State) :
    resFixed (execBootRomConfigRead newerCopyOk s) s := by
  unfold execBootRomConfigRead; (repeat' split) <;> simp (maxDischargeDepth := 9)

theorem fixed_execServiceDieSelfTest (s : State) :
    resFixed (execServiceDieSelfTest s) s := by
  unfold execServiceDieSelfTest; (repeat' split) <;> simp (maxDischargeDepth := 9)

theorem fixed_execQuadrantPowerUp (q : Nat) (s : State) :
    resFixed (execQuadrantPowerUp q s) s := by
  unfold execQuadrantPowerUp; simp (maxDischargeDepth := 9)

theorem fixed_execQuadrantArraySelfTest (s : State) :
    resFixed (execQuadrantArraySelfTest s) s := by
  unfold execQuadrantArraySelfTest; (repeat' split) <;> simp (maxDischargeDepth := 9)

theorem fixed_execHbmTraining (s : State) :
    resFixed (execHbmTraining s) s := by
  unfold execHbmTraining
  split
  · simp only [resFixed_next, fixed_stepDone]
    refine (fixed_agentWrite _ _ _ (fun t => { t with boot := { t.boot with calibHbm := t.boot.calibHbm ||| _ } }) (fun _ => rfl)).trans ?_
    simp
  · simp

@[simp] theorem fixed_selectCold (s : State) (a b golden : Image) :
    fixedPart (selectCold s a b golden) = fixedPart s := by
  unfold selectCold; simp (maxDischargeDepth := 9)

@[simp] theorem fixed_onAsCold (s : State) :
    fixedPart (onAsCold s) = fixedPart s := by
  unfold onAsCold; simp (maxDischargeDepth := 9)

theorem fixed_execImageSelection (a b golden : Image) (s : State) :
    resFixed (execImageSelection a b golden s) s := by
  unfold execImageSelection; simp only; (repeat' split) <;> simp_all (maxDischargeDepth := 9)

theorem fixed_execMolzuStart (vkeepLost : Bool) (s : State) :
    resFixed (execMolzuStart vkeepLost s) s := by
  unfold execMolzuStart; (repeat' split) <;> simp (maxDischargeDepth := 9)

theorem fixed_execHbmClearing (s : State) :
    resFixed (execHbmClearing s) s := by
  unfold execHbmClearing; (repeat' split) <;> simp (maxDischargeDepth := 9)

theorem fixed_execLaneCalibration (s : State) :
    resFixed (execLaneCalibration s) s := by
  unfold execLaneCalibration; (repeat' split) <;> simp (maxDischargeDepth := 9)

theorem fixed_execQuadrantInitialisation (s : State) :
    resFixed (execQuadrantInitialisation s) s := by
  unfold execQuadrantInitialisation; (repeat' split) <;> simp (maxDischargeDepth := 9)

theorem fixed_execFwReadySet (s : State) :
    resFixed (execFwReadySet s) s := by
  unfold execFwReadySet; (repeat' split) <;> simp (maxDischargeDepth := 9)

theorem fixed_execWarmRstNAssert (s : State) :
    resFixed (execWarmRstNAssert s) s := by
  unfold execWarmRstNAssert; (repeat' split) <;> simp (maxDischargeDepth := 9)

theorem fixed_execWarmStart (s : State) :
    resFixed (execWarmStart s) s := by
  unfold execWarmStart; (repeat' split) <;> simp (maxDischargeDepth := 9)

theorem fixed_execBootTmoExpire (s : State) :
    resFixed (execBootTmoExpire s) s := by
  unfold execBootTmoExpire; (repeat' split) <;> simp (maxDischargeDepth := 9)

theorem fixed_execWatchdogExpire (s : State) :
    resFixed (execWatchdogExpire s) s := by
  unfold execWatchdogExpire; simp (maxDischargeDepth := 9)

theorem fixed_execAntiRollbackRaise (s : State) :
    resFixed (execAntiRollbackRaise s) s := by
  unfold execAntiRollbackRaise; simp (maxDischargeDepth := 9)

theorem booted_execPerstNAssert (h : Nat) (s : State) :
    resBoot (execPerstNAssert h s) s := by
  unfold execPerstNAssert; simp (maxDischargeDepth := 9)

theorem booted_execPerstNDeassert (h : Nat) (s : State) :
    resBoot (execPerstNDeassert h s) s := by
  unfold execPerstNDeassert
  exact booted_guardRes' _ _ _ rfl

theorem settled_execHostLinkDown (ep : Nat) (s : State) :
    resSettled (execHostLinkDown ep s) s := by
  unfold execHostLinkDown; simp (maxDischargeDepth := 9)

theorem booted_execHostLinkUp (ep speed width : Nat) (s : State) :
    resBoot (execHostLinkUp ep speed width s) s := by
  unfold execHostLinkUp; simp (maxDischargeDepth := 9)

@[simp] theorem cored_configWrite (s : State) (fn : Nat) (x0 : CfgWrite) :
    corePart (configWrite s fn x0) = corePart s := by
  cases x0 with
  | msixMask on => unfold configWrite; split <;> simp
  | _ => simp [configWrite]

theorem cored_execConfigRequest (r : CfgRequest) (s : State) :
    resCore (execConfigRequest r s) s := by
  unfold execConfigRequest; (repeat' split) <;> simp (maxDischargeDepth := 9)

theorem hostSided_execBusMasterEnableClear (fn : Nat) (s : State) :
    resHostSide (execBusMasterEnableClear fn s) s := by
  unfold execBusMasterEnableClear; simp (maxDischargeDepth := 9)

theorem hostSided_execBusMasterEnableSet (fn : Nat) (s : State) :
    resHostSide (execBusMasterEnableSet fn s) s := by
  unfold execBusMasterEnableSet; simp (maxDischargeDepth := 9)

theorem booted_execFlr (fn : Nat) (s : State) :
    resBoot (execFlr fn s) s := by
  unfold execFlr; simp (maxDischargeDepth := 9)

theorem cored_execFlrComplete (fn : Nat) (s : State) :
    resCore (execFlrComplete fn s) s := by
  unfold execFlrComplete; simp (maxDischargeDepth := 9)

theorem hostSided_execLateCompletion (fn : Nat) (s : State) :
    resHostSide (execLateCompletion fn s) s := by
  unfold execLateCompletion; simp (maxDischargeDepth := 9)

theorem fixed_execFlashReqAssert (s : State) :
    resFixed (execFlashReqAssert s) s := by
  unfold execFlashReqAssert; simp (maxDischargeDepth := 9)

theorem fixed_execFlashGntAssert (s : State) :
    resFixed (execFlashGntAssert s) s := by
  unfold execFlashGntAssert; (repeat' split) <;> simp (maxDischargeDepth := 9)

theorem fixed_execFlashReqDeassert (s : State) :
    resFixed (execFlashReqDeassert s) s := by
  unfold execFlashReqDeassert; (repeat' split) <;> simp (maxDischargeDepth := 9) [foldl_fixed]

theorem cored_execSpdmRequest (ep code : Nat) (s : State) :
    resCore (execSpdmRequest ep code s) s := by
  unfold execSpdmRequest; simp (maxDischargeDepth := 9)

theorem settled_execSnapshotTake (s : State) :
    resSettled (execSnapshotTake s) s := by
  unfold execSnapshotTake; simp (maxDischargeDepth := 9)

theorem settled_execCounterFoldDone (s : State) :
    resSettled (execCounterFoldDone s) s := by
  unfold execCounterFoldDone; simp (maxDischargeDepth := 9)

theorem cored_execEventForward (quad : Nat) (s : State) :
    resCore (execEventForward quad s) s := by
  unfold execEventForward; simp (maxDischargeDepth := 9)

theorem cored_execEventFlush (s : State) :
    resCore (execEventFlush s) s := by
  unfold execEventFlush; simp (maxDischargeDepth := 9)

@[simp] theorem cored_trimRing (s : State) :
    corePart (trimRing s) = corePart s := by
  unfold trimRing; simp (maxDischargeDepth := 9)

@[simp] theorem fixed_trimRing (s : State) :
    fixedPart (trimRing s) = fixedPart s :=
  fixed_of_cored (cored_trimRing s)

@[simp] theorem fixed_spareLow (s : State) :
    fixedPart (spareLow s) = fixedPart s := by
  unfold spareLow; simp (maxDischargeDepth := 9)

theorem fixed_execMramRemap (part sector : Nat) (s : State) :
    resFixed (execMramRemap part sector s) s := by
  unfold execMramRemap; simp (maxDischargeDepth := 9)

@[simp] theorem fixed_powerFails (s : State) :
    fixedPart (powerFails s) = fixedPart s := by
  unfold powerFails; simp (maxDischargeDepth := 9)

theorem fixed_execPwrfailAssert (s : State) :
    resFixed (execPwrfailAssert s) s := by
  unfold execPwrfailAssert; simp (maxDischargeDepth := 9)

theorem booted_execPwrfailDeassert (s : State) :
    resBoot (execPwrfailDeassert s) s := by
  unfold execPwrfailDeassert; (repeat' split) <;> simp (maxDischargeDepth := 9)

theorem fixed_execVaonLoss (s : State) :
    resFixed (execVaonLoss s) s := by
  unfold execVaonLoss; simp (maxDischargeDepth := 9)

@[simp] theorem fixed_voidRating (s : State) :
    fixedPart (voidRating s) = fixedPart s := by
  unfold voidRating
  exact fixed_agentWrite _ _ _ (fun t => { t with lifePart := { t.lifePart with void := true, recAt := s.life.recAt } }) (fun _ => rfl)

theorem fixed_execLifeSecondCheck (meanTemp : Int) (s : State) :
    resFixed (execLifeSecondCheck meanTemp s) s := by
  unfold execLifeSecondCheck; simp (maxDischargeDepth := 9)

theorem fixed_execLifeHourlyWrite (s : State) :
    resFixed (execLifeHourlyWrite s) s := by
  unfold execLifeHourlyWrite
  simp only [resFixed_next]
  split
  · exact fixed_agentWrite _ _ _ (fun t => { t with lifePart := t.life }) (fun _ => rfl)
  · rfl

theorem fixed_execLifeMonthBoundary (s : State) :
    resFixed (execLifeMonthBoundary s) s := by
  unfold execLifeMonthBoundary; simp (maxDischargeDepth := 9)

@[simp] theorem booted_thermDie (s : State) (d : Nat) (r : Int) :
    bootPart (thermDie s d r) = bootPart s := by
  unfold thermDie; simp (maxDischargeDepth := 9)

theorem booted_execTelemetrySample (group : Nat) (readings : List Int) (s : State) :
    resBoot (execTelemetrySample group readings s) s := by
  unfold execTelemetrySample; simp (maxDischargeDepth := 9)

theorem fixed_withFive (s : State) (b : Boot) (p : Tbl Port) (e : Endpoint) (es : Tbl HostEp) (f : Tbl Fn) :
    fixedPart { s with boot := b, ports := p, ep := e, eps := es, fns := f } = fixedPart s := rfl

@[simp] theorem fixed_holdQuads (s : State) :
    fixedPart (holdQuads s) = fixedPart s := by
  have h : fixedPart (foldS (List.range 512) s offLane) = fixedPart s := fixed_foldS _ _ _ (fun _ _ => by simp)
  unfold holdQuads
  refine (fixed_foldS _ _ _ (fun _ _ => by simp)).trans ?_
  exact (fixed_withFive _ _ _ _ _ _).trans h

@[simp] theorem fixed_fwStops (was t : State) (ht : fixedPart t = fixedPart was) :
    fixedPart (fwStops was t) = fixedPart was := by
  unfold fwStops; simp (maxDischargeDepth := 9) [ht]

theorem fixed_execThermalTrip (die : Nat) (s : State) :
    resFixed (execThermalTrip die s) s := by
  unfold execThermalTrip; simp (maxDischargeDepth := 9)

theorem cored_execRailOutOfRange (rail mv : Nat) (s : State) :
    resCore (execRailOutOfRange rail mv s) s := by
  unfold execRailOutOfRange; simp (maxDischargeDepth := 9)

theorem fixed_execRailUndervoltage (rail _mv : Nat) (s : State) :
    resFixed (execRailUndervoltage rail _mv s) s := by
  unfold execRailUndervoltage; simp (maxDischargeDepth := 9)

theorem fixed_execRefclkCoreLost (s : State) :
    resFixed (execRefclkCoreLost s) s := by
  unfold execRefclkCoreLost; simp (maxDischargeDepth := 9)

@[simp] theorem cored_badFrame (s : State) :
    corePart (badFrame s) = corePart s := by
  unfold badFrame; simp (maxDischargeDepth := 9)

@[simp] theorem settled_badFrame (s : State) :
    settledPart (badFrame s) = settledPart s :=
  settled_of_cored (cored_badFrame s)

@[simp] theorem booted_badFrame (s : State) :
    bootPart (badFrame s) = bootPart s :=
  booted_of_cored (cored_badFrame s)

@[simp] theorem cored_repeatFrame (s : State) (p : ChainPort) (f : ChainFrame) :
    corePart (repeatFrame s p f) = corePart s := by
  unfold repeatFrame; simp (maxDischargeDepth := 9)

@[simp] theorem settled_repeatFrame (s : State) (p : ChainPort) (f : ChainFrame) :
    settledPart (repeatFrame s p f) = settledPart s :=
  settled_of_cored (cored_repeatFrame s p f)

@[simp] theorem booted_repeatFrame (s : State) (p : ChainPort) (f : ChainFrame) :
    bootPart (repeatFrame s p f) = bootPart s :=
  booted_of_cored (cored_repeatFrame s p f)

@[simp] theorem cored_chainRx (s : State) (p : ChainPort) (f : ChainFrame) (type : Nat) (act : State) (hact : corePart act = corePart s) :
    corePart (chainRx s p f type act) = corePart s := by
  unfold chainRx; simp (maxDischargeDepth := 9) [hact]

@[simp] theorem settled_chainRx (s : State) (p : ChainPort) (f : ChainFrame) (type : Nat) (act : State) (hact : settledPart act = settledPart s) :
    settledPart (chainRx s p f type act) = settledPart s := by
  unfold chainRx; simp (maxDischargeDepth := 9) [hact]

@[simp] theorem booted_chainRx (s : State) (p : ChainPort) (f : ChainFrame) (type : Nat) (act : State) (hact : bootPart act = bootPart s) :
    bootPart (chainRx s p f type act) = bootPart s := by
  unfold chainRx; simp (maxDischargeDepth := 9) [hact]

@[simp] theorem cored_chainOwn (s : State) (p : ChainPort) (f : ChainFrame) (act : State) (hact : corePart act = corePart s) :
    corePart (chainOwn s p f act) = corePart s := by
  unfold chainOwn; simp (maxDischargeDepth := 9) [hact]

@[simp] theorem settled_chainOwn (s : State) (p : ChainPort) (f : ChainFrame) (act : State) (hact : settledPart act = settledPart s) :
    settledPart (chainOwn s p f act) = settledPart s := by
  unfold chainOwn; simp (maxDischargeDepth := 9) [hact]

@[simp] theorem booted_chainOwn (s : State) (p : ChainPort) (f : ChainFrame) (act : State) (hact : bootPart act = bootPart s) :
    bootPart (chainOwn s p f act) = bootPart s := by
  unfold chainOwn; simp (maxDischargeDepth := 9) [hact]

@[simp] theorem settled_originate (s : State) (type : Nat) (payload : List Byte) :
    settledPart (originate s type payload) = settledPart s := by
  unfold originate; simp (maxDischargeDepth := 9)

@[simp] theorem settled_setLock (s : State) (p : ChainPort) (b : Bool) :
    settledPart (setLock s p b) = settledPart s := by
  unfold setLock; (repeat' split) <;> simp (maxDischargeDepth := 9)

theorem settled_execChainPortLock (port : ChainPort) (s : State) :
    resSettled (execChainPortLock port s) s := by
  unfold execChainPortLock; simp (maxDischargeDepth := 9)

theorem settled_execChainPortLockLost (port : ChainPort) (s : State) :
    resSettled (execChainPortLockLost port s) s := by
  unfold execChainPortLockLost; simp (maxDischargeDepth := 9)

@[simp] theorem settled_feaFromChain (s : State) :
    settledPart (feaFromChain s) = settledPart s := by
  unfold feaFromChain; simp (maxDischargeDepth := 9)

@[simp] theorem settled_onEnum (s : State) (f : ChainFrame) :
    settledPart (onEnum s f) = settledPart s := by
  unfold onEnum; simp (maxDischargeDepth := 9)

theorem settled_execEnum (port : ChainPort) (f : ChainFrame) (s : State) :
    resSettled (execEnum port f s) s := by
  unfold execEnum; simp (maxDischargeDepth := 9)

theorem settled_withChain (s : State) (c : Chain) : settledPart { s with chain := c } = settledPart s := rfl

theorem settled_execEnumAck (port : ChainPort) (f : ChainFrame) (s : State) :
    resSettled (execEnumAck port f s) s := by
  unfold execEnumAck
  simp only [resSettled_next]
  exact settled_chainRx _ _ _ _ _ (settled_withChain _ _)

@[simp] theorem settled_enumerated (s : State) (len : Nat) (past : Bool) :
    settledPart (enumerated s len past) = settledPart s := by
  unfold enumerated; simp (maxDischargeDepth := 9)

theorem settled_execEnumDone (port : ChainPort) (f : ChainFrame) (s : State) :
    resSettled (execEnumDone port f s) s := by
  unfold execEnumDone; simp (maxDischargeDepth := 9)

theorem settled_execEnumTmoExpire (s : State) :
    resSettled (execEnumTmoExpire s) s := by
  unfold execEnumTmoExpire; simp (maxDischargeDepth := 9)

theorem settled_execHeartbeat (port : ChainPort) (f : ChainFrame) (s : State) :
    resSettled (execHeartbeat port f s) s := by
  unfold execHeartbeat; simp (maxDischargeDepth := 9)

theorem settled_execHeartbeatSend (s : State) :
    resSettled (execHeartbeatSend s) s := by
  unfold execHeartbeatSend; simp (maxDischargeDepth := 9)

theorem settled_execJoinReq (port : ChainPort) (f : ChainFrame) (s : State) :
    resSettled (execJoinReq port f s) s := by
  unfold execJoinReq; simp (maxDischargeDepth := 9)

theorem settled_execJoinReqSend (s : State) :
    resSettled (execJoinReqSend s) s := by
  unfold execJoinReqSend; simp (maxDischargeDepth := 9)

theorem cored_execChainBreak (port : ChainPort) (f : ChainFrame) (s : State) :
    resCore (execChainBreak port f s) s := by
  unfold execChainBreak; simp (maxDischargeDepth := 9)

theorem settled_execOrphanTmoExpire (s : State) :
    resSettled (execOrphanTmoExpire s) s := by
  unfold execOrphanTmoExpire; simp (maxDischargeDepth := 9)

@[simp] theorem cored_chainDenied (s : State) :
    corePart (chainDenied s) = corePart s := by
  unfold chainDenied; simp (maxDischargeDepth := 9)

@[simp] theorem settled_chainDenied (s : State) :
    settledPart (chainDenied s) = settledPart s :=
  settled_of_cored (cored_chainDenied s)

theorem cored_execStatusReq (port : ChainPort) (f : ChainFrame) (s : State) :
    resCore (execStatusReq port f s) s := by
  unfold execStatusReq; simp (maxDischargeDepth := 9)

theorem cored_execStatusRsp (port : ChainPort) (f : ChainFrame) (s : State) :
    resCore (execStatusRsp port f s) s := by
  unfold execStatusRsp; simp (maxDischargeDepth := 9)

theorem settled_execReset (port : ChainPort) (f : ChainFrame) (s : State) :
    resSettled (execReset port f s) s := by
  unfold execReset; simp (maxDischargeDepth := 9)

theorem fixed_execChainResetAction (s : State) :
    resFixed (execChainResetAction s) s := by
  unfold execChainResetAction; (repeat' split) <;> simp (maxDischargeDepth := 9)

@[simp] theorem cored_regRsp (s : State) (ftag val : Nat) (e : AccEnd) :
    corePart (regRsp s ftag val e) = corePart s := by
  unfold regRsp; simp (maxDischargeDepth := 9)

@[simp] theorem booted_regRsp (s : State) (ftag val : Nat) (e : AccEnd) :
    bootPart (regRsp s ftag val e) = bootPart s :=
  booted_of_cored (cored_regRsp s ftag val e)

@[simp] theorem booted_boardRead (s : State) (m off : Nat) :
    bootPart (boardRead s m off).2.2 = bootPart s := by
  unfold boardRead; (repeat' split) <;> simp (maxDischargeDepth := 9)

@[simp] theorem booted_boardWrite (s : State) (m off v : Nat) :
    bootPart (boardWrite s m off v).2 = bootPart s := by
  unfold boardWrite; (repeat' split) <;> simp (maxDischargeDepth := 9)

theorem booted_execRegRead (port : ChainPort) (f : ChainFrame) (s : State) :
    resBoot (execRegRead port f s) s := by
  unfold execRegRead
  simp only [resBoot_next]
  exact booted_chainRx _ _ _ _ _ (booted_chainOwn _ _ _ _ (by simp))

theorem booted_execRegWrite (port : ChainPort) (f : ChainFrame) (s : State) :
    resBoot (execRegWrite port f s) s := by
  unfold execRegWrite; simp (maxDischargeDepth := 9)

theorem cored_execRegRsp (port : ChainPort) (f : ChainFrame) (s : State) :
    resCore (execRegRsp port f s) s := by
  unfold execRegRsp; simp (maxDischargeDepth := 9)

@[simp] theorem cored_mbRspOut (s : State) (ftag tag status : Nat) :
    corePart (mbRspOut s ftag tag status) = corePart s := by
  unfold mbRspOut; simp (maxDischargeDepth := 9)

@[simp] theorem settled_mbRspOut (s : State) (ftag tag status : Nat) :
    settledPart (mbRspOut s ftag tag status) = settledPart s :=
  settled_of_cored (cored_mbRspOut s ftag tag status)

@[simp] theorem cored_relayCmd (s : State) (f : ChainFrame) :
    corePart (relayCmd s f) = corePart s := by
  unfold relayCmd; simp (maxDischargeDepth := 9)

@[simp] theorem settled_relayCmd (s : State) (f : ChainFrame) :
    settledPart (relayCmd s f) = settledPart s :=
  settled_of_cored (cored_relayCmd s f)

@[simp] theorem settled_chainMailbox (s : State) (f : ChainFrame) :
    settledPart (chainMailbox s f) = settledPart s := by
  unfold chainMailbox; simp (maxDischargeDepth := 9)

theorem settled_execMbCmd (port : ChainPort) (f : ChainFrame) (s : State) :
    resSettled (execMbCmd port f s) s := by
  unfold execMbCmd; simp (maxDischargeDepth := 9)

theorem cored_execMbRsp (port : ChainPort) (f : ChainFrame) (s : State) :
    resCore (execMbRsp port f s) s := by
  unfold execMbRsp; simp (maxDischargeDepth := 9)

theorem cored_execEvent (port : ChainPort) (f : ChainFrame) (s : State) :
    resCore (execEvent port f s) s := by
  unfold execEvent; simp (maxDischargeDepth := 9)

theorem cored_execChainBadFrame (port : ChainPort) (f : ChainFrame) (s : State) :
    resCore (execChainBadFrame port f s) s := by
  unfold execChainBadFrame; simp (maxDischargeDepth := 9)

theorem cored_execChainCrcFail (port : ChainPort) (f : ChainFrame) (s : State) :
    resCore (execChainCrcFail port f s) s := by
  unfold execChainCrcFail; simp (maxDischargeDepth := 9)

theorem booted_execBmcRegWrite (off : Nat) (val : Word32) (pecOk : Bool) (s : State) :
    resBoot (execBmcRegWrite off val pecOk s) s := by
  unfold execBmcRegWrite; simp (maxDischargeDepth := 9)

theorem booted_execBmcRegRead (off : Nat) (s : State) :
    resBoot (execBmcRegRead off s) s := by
  unfold execBmcRegRead; simp (maxDischargeDepth := 9)

theorem booted_execI3cAddressAssign (addr : Nat) (s : State) :
    resBoot (execI3cAddressAssign addr s) s := by
  unfold execI3cAddressAssign; simp (maxDischargeDepth := 9)

theorem booted_execI3cRstdaa (s : State) :
    resBoot (execI3cRstdaa s) s := by
  unfold execI3cRstdaa; simp (maxDischargeDepth := 9)

theorem cored_execSmbusAlertResponse (s : State) :
    resCore (execSmbusAlertResponse s) s := by
  unfold execSmbusAlertResponse; simp (maxDischargeDepth := 9)

theorem booted_execTrstNAssert (s : State) :
    resBoot (execTrstNAssert s) s := by
  unfold execTrstNAssert; simp (maxDischargeDepth := 9)

@[simp] theorem booted_tapSelect (s : State) (code : Nat) :
    bootPart (tapSelect s code) = bootPart s := by
  unfold tapSelect; simp (maxDischargeDepth := 9)

theorem booted_execIdcode (s : State) :
    resBoot (execIdcode s) s := by
  unfold execIdcode; simp (maxDischargeDepth := 9)

theorem booted_execSamplePreload (s : State) :
    resBoot (execSamplePreload s) s := by
  unfold execSamplePreload; simp (maxDischargeDepth := 9)

theorem booted_execExtest (s : State) :
    resBoot (execExtest s) s := by
  unfold execExtest; simp (maxDischargeDepth := 9)

theorem booted_execExtestPulse (s : State) :
    resBoot (execExtestPulse s) s := by
  unfold execExtestPulse; simp (maxDischargeDepth := 9)

theorem booted_execExtestTrain (s : State) :
    resBoot (execExtestTrain s) s := by
  unfold execExtestTrain; simp (maxDischargeDepth := 9)

theorem booted_execClamp (s : State) :
    resBoot (execClamp s) s := by
  unfold execClamp; simp (maxDischargeDepth := 9)

theorem booted_execHighz (s : State) :
    resBoot (execHighz s) s := by
  unfold execHighz; simp (maxDischargeDepth := 9)

theorem booted_execBypass (s : State) :
    resBoot (execBypass s) s := by
  unfold execBypass; simp (maxDischargeDepth := 9)

theorem booted_withPins (s : State) (x : Pins) : bootPart { s with pins := x } = bootPart s := rfl

theorem booted_execRegAccess (dr : BitVec 59) (s : State) :
    resBoot (execRegAccess dr s) s := by
  unfold execRegAccess
  simp only [resBoot_next]
  split
  · simp
  · split
    · rw [booted_emit, booted_withPins]; simp
    · rw [booted_emit, booted_withPins]; simp

theorem booted_execRegisterWrite (m off : Nat) (bytes : List Byte) (s : State) :
    resBoot (execRegisterWrite m off bytes s) s := by
  unfold execRegisterWrite; simp (maxDischargeDepth := 9)

theorem booted_answerRead (m : Nat) (a : RegAns) : bootPart (answerRead m a) = bootPart a.2.2 := by simp [answerRead]

theorem booted_execWindowRead (m off width : Nat) (s : State) :
    resBoot (execWindowRead m off width s) s := by
  unfold execWindowRead
  exact booted_guardRes' _ _ _ (by simp [booted_answerRead])

theorem cored_execStatusCauseWrite (m : Nat) (val : Word32) (s : State) :
    resCore (execStatusCauseWrite m val s) s := by
  unfold execStatusCauseWrite; simp (maxDischargeDepth := 9)

theorem cored_execStatusMaskWrite (m : Nat) (val : Word32) (s : State) :
    resCore (execStatusMaskWrite m val s) s := by
  unfold execStatusMaskWrite; simp (maxDischargeDepth := 9)

theorem cored_execMsixUnmask (fn : Nat) (vec : Option Nat) (s : State) :
    resCore (execMsixUnmask fn vec s) s := by
  unfold execMsixUnmask; (repeat' split) <;> simp (maxDischargeDepth := 9)

theorem booted_execMailboxDoorbell (m : Nat) (val : Word32) (s : State) :
    resBoot (execMailboxDoorbell m val s) s := by
  unfold execMailboxDoorbell; simp (maxDischargeDepth := 9)

theorem booted_execTimeFtLoRead (m : Nat) (s : State) :
    resBoot (execTimeFtLoRead m s) s := by
  unfold execTimeFtLoRead
  exact booted_guardRes' _ _ _ (by simp [booted_answerRead])

theorem booted_execSnapCtrlArm (m : Nat) (s : State) :
    resBoot (execSnapCtrlArm m s) s := by
  unfold execSnapCtrlArm; simp (maxDischargeDepth := 9)

theorem booted_execSnapCtrlCancel (m : Nat) (s : State) :
    resBoot (execSnapCtrlCancel m s) s := by
  unfold execSnapCtrlCancel; simp (maxDischargeDepth := 9)

theorem booted_execEventData7Read (m : Nat) (s : State) :
    resBoot (execEventData7Read m s) s := by
  unfold execEventData7Read
  exact booted_guardRes' _ _ _ (by simp [booted_answerRead])

theorem booted_execCounterLoRead (m k : Nat) (s : State) :
    resBoot (execCounterLoRead m k s) s := by
  unfold execCounterLoRead
  exact booted_guardRes' _ _ _ (by simp [booted_answerRead])

theorem booted_execLaneCfgWrite (m : Nat) (val : Word32) (s : State) :
    resBoot (execLaneCfgWrite m val s) s := by
  unfold execLaneCfgWrite; simp (maxDischargeDepth := 9)

theorem booted_execOctetTimersWrite (m : Nat) (val : Word32) (s : State) :
    resBoot (execOctetTimersWrite m val s) s := by
  unfold execOctetTimersWrite; simp (maxDischargeDepth := 9)

theorem booted_execPortSharedLimitsWrite (m : Nat) (val : Word32) (s : State) :
    resBoot (execPortSharedLimitsWrite m val s) s := by
  unfold execPortSharedLimitsWrite; simp (maxDischargeDepth := 9)

theorem booted_execHostBackingWrite (m off : Nat) (val : Word32) (s : State) :
    resBoot (execHostBackingWrite m off val s) s := by
  unfold execHostBackingWrite; simp (maxDischargeDepth := 9)

@[simp] theorem settled_doRouteWrite (s : State) (c : MbCmd) :
    settledPart (doRouteWrite s c).2.2 = settledPart s := by
  unfold doRouteWrite; simp only; (repeat' split) <;> simp_all (maxDischargeDepth := 9)

theorem settled_execMbRouteWrite (s : State) :
    resSettled (execMbRouteWrite s) s := by
  unfold execMbRouteWrite; simp (maxDischargeDepth := 9)

@[simp] theorem settled_doRouteCommit (s : State) (c : MbCmd) :
    settledPart (doRouteCommit s c).2.2 = settledPart s := by
  unfold doRouteCommit; simp only; (repeat' split) <;> simp_all (maxDischargeDepth := 9)

theorem settled_execMbRouteCommit (s : State) :
    resSettled (execMbRouteCommit s) s := by
  unfold execMbRouteCommit; simp (maxDischargeDepth := 9)

@[simp] theorem cored_doRouteStatus (s : State) (w0 : MbCmd) :
    corePart (doRouteStatus s w0).2.2 = corePart s := by
  unfold doRouteStatus; simp (maxDischargeDepth := 9)

@[simp] theorem settled_doRouteStatus (s : State) (w0 : MbCmd) :
    settledPart (doRouteStatus s w0).2.2 = settledPart s :=
  settled_of_cored (cored_doRouteStatus s w0)

theorem settled_execMbRouteStatus (s : State) :
    resSettled (execMbRouteStatus s) s := by
  unfold execMbRouteStatus; simp (maxDischargeDepth := 9)

@[simp] theorem settled_doRouteAbandon (s : State) (c : MbCmd) :
    settledPart (doRouteAbandon s c).2.2 = settledPart s := by
  unfold doRouteAbandon; (repeat' split) <;> simp (maxDischargeDepth := 9)

theorem settled_execMbRouteAbandon (s : State) :
    resSettled (execMbRouteAbandon s) s := by
  unfold execMbRouteAbandon; simp (maxDischargeDepth := 9)

@[simp] theorem linkSided_becomeSource (s : State) :
    linkSidePart (becomeSource s) = linkSidePart s := by
  unfold becomeSource; simp (maxDischargeDepth := 9)

@[simp] theorem settled_becomeSource (s : State) :
    settledPart (becomeSource s) = settledPart s :=
  settled_of_linkSided (linkSided_becomeSource s)

@[simp] theorem settled_doTimeSet (s : State) (c : MbCmd) :
    settledPart (doTimeSet s c).2.2 = settledPart s := by
  unfold doTimeSet; (repeat' split) <;> simp (maxDischargeDepth := 9)

theorem settled_execMbTimeSet (s : State) :
    resSettled (execMbTimeSet s) s := by
  unfold execMbTimeSet; simp (maxDischargeDepth := 9)

theorem settled_execMbTimeStatus (s : State) :
    resSettled (execMbTimeStatus s) s := by
  unfold execMbTimeStatus; simp (maxDischargeDepth := 9)

@[simp] theorem cored_distributeSnap (s : State) (ft : Nat) :
    corePart (distributeSnap s ft) = corePart s := by
  unfold distributeSnap; simp (maxDischargeDepth := 9) [foldl_cored]

@[simp] theorem settled_distributeSnap (s : State) (ft : Nat) :
    settledPart (distributeSnap s ft) = settledPart s :=
  settled_of_cored (cored_distributeSnap s ft)

@[simp] theorem settled_doSnapArm (s : State) (c : MbCmd) :
    settledPart (doSnapArm s c).2.2 = settledPart s := by
  unfold doSnapArm; simp only; (repeat' split) <;> simp_all (maxDischargeDepth := 9)

theorem settled_execMbSnapArm (s : State) :
    resSettled (execMbSnapArm s) s := by
  unfold execMbSnapArm; simp (maxDischargeDepth := 9)

@[simp] theorem settled_doSnapCancel (s : State) (c : MbCmd) :
    settledPart (doSnapCancel s c).2.2 = settledPart s := by
  unfold doSnapCancel; (repeat' split) <;> simp (maxDischargeDepth := 9)

theorem settled_execMbSnapCancel (s : State) :
    resSettled (execMbSnapCancel s) s := by
  unfold execMbSnapCancel; simp (maxDischargeDepth := 9)

@[simp] theorem controlled_doEqxSet (s : State) (c : MbCmd) :
    controlPart (doEqxSet s c).2.2 = controlPart s := by
  unfold doEqxSet; simp (maxDischargeDepth := 9)

@[simp] theorem settled_doEqxSet (s : State) (c : MbCmd) :
    settledPart (doEqxSet s c).2.2 = settledPart s :=
  settled_of_controlled (controlled_doEqxSet s c)

theorem settled_execMbEqxSet (s : State) :
    resSettled (execMbEqxSet s) s := by
  unfold execMbEqxSet; simp (maxDischargeDepth := 9)

@[simp] theorem controlled_doAlmanacLoad (s : State) (c : MbCmd) :
    controlPart (doAlmanacLoad s c).2.2 = controlPart s := by
  unfold doAlmanacLoad; simp only; (repeat' split) <;> simp_all (maxDischargeDepth := 9)

@[simp] theorem settled_doAlmanacLoad (s : State) (c : MbCmd) :
    settledPart (doAlmanacLoad s c).2.2 = settledPart s :=
  settled_of_controlled (controlled_doAlmanacLoad s c)

theorem settled_execMbAlmanacLoad (s : State) :
    resSettled (execMbAlmanacLoad s) s := by
  unfold execMbAlmanacLoad; simp (maxDischargeDepth := 9)

@[simp] theorem controlled_doAlmanacGet (s : State) (c : MbCmd) :
    controlPart (doAlmanacGet s c).2.2 = controlPart s := by
  unfold doAlmanacGet; simp only; (repeat' split) <;> simp_all (maxDischargeDepth := 9)

@[simp] theorem settled_doAlmanacGet (s : State) (c : MbCmd) :
    settledPart (doAlmanacGet s c).2.2 = settledPart s :=
  settled_of_controlled (controlled_doAlmanacGet s c)

theorem settled_execMbAlmanacGet (s : State) :
    resSettled (execMbAlmanacGet s) s := by
  unfold execMbAlmanacGet; simp (maxDischargeDepth := 9)

@[simp] theorem controlled_partNamed (s : State) (k : Nat) (a : MbAns) (ha : controlPart a.2.2 = controlPart s) :
    controlPart (partNamed s k a).2.2 = controlPart s := by
  unfold partNamed; (repeat' split) <;> simp (maxDischargeDepth := 9) [ha]

@[simp] theorem controlled_doShaperSet (s : State) (c : MbCmd) :
    controlPart (doShaperSet s c).2.2 = controlPart s := by
  unfold doShaperSet; simp only; (repeat' split) <;> simp_all (maxDischargeDepth := 9)

@[simp] theorem settled_doShaperSet (s : State) (c : MbCmd) :
    settledPart (doShaperSet s c).2.2 = settledPart s :=
  settled_of_controlled (controlled_doShaperSet s c)

theorem settled_execMbShaperSet (s : State) :
    resSettled (execMbShaperSet s) s := by
  unfold execMbShaperSet; simp (maxDischargeDepth := 9)

@[simp] theorem controlled_doPolicerSet (s : State) (c : MbCmd) :
    controlPart (doPolicerSet s c).2.2 = controlPart s := by
  unfold doPolicerSet; simp only; (repeat' split) <;> simp_all (maxDischargeDepth := 9)

@[simp] theorem settled_doPolicerSet (s : State) (c : MbCmd) :
    settledPart (doPolicerSet s c).2.2 = settledPart s :=
  settled_of_controlled (controlled_doPolicerSet s c)

theorem settled_execMbPolicerSet (s : State) :
    resSettled (execMbPolicerSet s) s := by
  unfold execMbPolicerSet; simp (maxDischargeDepth := 9)

@[simp] theorem controlled_doSlWeightsSet (s : State) (c : MbCmd) :
    controlPart (doSlWeightsSet s c).2.2 = controlPart s := by
  unfold doSlWeightsSet; simp (maxDischargeDepth := 9)

@[simp] theorem settled_doSlWeightsSet (s : State) (c : MbCmd) :
    settledPart (doSlWeightsSet s c).2.2 = settledPart s :=
  settled_of_controlled (controlled_doSlWeightsSet s c)

theorem settled_execMbSlWeightsSet (s : State) :
    resSettled (execMbSlWeightsSet s) s := by
  unfold execMbSlWeightsSet; simp (maxDischargeDepth := 9)

theorem controlled_withEp (s : State) (x : Endpoint) : controlPart { s with ep := x } = controlPart s := rfl

@[simp] theorem controlled_doTreeSetup (s : State) (c : MbCmd) :
    controlPart (doTreeSetup s c).2.2 = controlPart s := by
  unfold doTreeSetup
  dsimp only
  repeat refine controlled_ifAns _ _ _ _ (controlled_ansFail _ _) ?_
  rw [controlled_ansOk, controlled_foldS _ _ _ (fun _ _ => controlled_edgeUp _ _ _), controlled_updQuad]
  exact controlled_withEp _ _

@[simp] theorem settled_doTreeSetup (s : State) (c : MbCmd) :
    settledPart (doTreeSetup s c).2.2 = settledPart s :=
  settled_of_controlled (controlled_doTreeSetup s c)

theorem settled_execMbTreeSetup (s : State) :
    resSettled (execMbTreeSetup s) s := by
  unfold execMbTreeSetup; simp (maxDischargeDepth := 9)

@[simp] theorem cored_removeTree (s : State) (id : Nat) :
    corePart (removeTree s id) = corePart s := by
  unfold removeTree; (repeat' split) <;> simp (maxDischargeDepth := 9)

@[simp] theorem cored_doTreeTeardown (s : State) (c : MbCmd) :
    corePart (doTreeTeardown s c).2.2 = corePart s := by
  unfold doTreeTeardown; simp only; (repeat' split) <;> simp_all (maxDischargeDepth := 9) [foldl_cored]

@[simp] theorem settled_doTreeTeardown (s : State) (c : MbCmd) :
    settledPart (doTreeTeardown s c).2.2 = settledPart s :=
  settled_of_cored (cored_doTreeTeardown s c)

theorem settled_execMbTreeTeardown (s : State) :
    resSettled (execMbTreeTeardown s) s := by
  unfold execMbTreeTeardown; simp (maxDischargeDepth := 9)

@[simp] theorem cored_doTreeGet (s : State) (c : MbCmd) :
    corePart (doTreeGet s c).2.2 = corePart s := by
  unfold doTreeGet; (repeat' split) <;> simp (maxDischargeDepth := 9)

@[simp] theorem settled_doTreeGet (s : State) (c : MbCmd) :
    settledPart (doTreeGet s c).2.2 = settledPart s :=
  settled_of_cored (cored_doTreeGet s c)

theorem settled_execMbTreeGet (s : State) :
    resSettled (execMbTreeGet s) s := by
  unfold execMbTreeGet; simp (maxDischargeDepth := 9)

@[simp] theorem portFreed_agentTake (s : State) (type : Nat) (act : State → ArrSrc → FabHdr → MgmtHdr → List Byte → State) (hact : ∀ z y0 y1 y2 y3, portFreePart (act z y0 y1 y2 y3) = portFreePart z) :
    portFreePart (agentTake s type act) = portFreePart s := by
  unfold agentTake; simp only; (repeat' split) <;> simp_all (maxDischargeDepth := 9)

@[simp] theorem linkSided_agentTake (s : State) (type : Nat) (act : State → ArrSrc → FabHdr → MgmtHdr → List Byte → State) (hact : ∀ z y0 y1 y2 y3, linkSidePart (act z y0 y1 y2 y3) = linkSidePart z) :
    linkSidePart (agentTake s type act) = linkSidePart s := by
  unfold agentTake; simp only; (repeat' split) <;> simp_all (maxDischargeDepth := 9)

@[simp] theorem settled_agentTake (s : State) (type : Nat) (act : State → ArrSrc → FabHdr → MgmtHdr → List Byte → State) (hact : ∀ z y0 y1 y2 y3, settledPart (act z y0 y1 y2 y3) = settledPart z) :
    settledPart (agentTake s type act) = settledPart s := by
  unfold agentTake; simp only; (repeat' split) <;> simp_all (maxDischargeDepth := 9)

@[simp] theorem settled_takeCommand (s : State) (src : ArrSrc) (h : FabHdr) (mh : MgmtHdr) (body : List Byte) :
    settledPart (takeCommand s src h mh body) = settledPart s := by
  unfold takeCommand; (repeat' split) <;> simp (maxDischargeDepth := 9)

theorem settled_execMgmtCmdRx (s : State) :
    resSettled (execMgmtCmdRx s) s := by
  unfold execMgmtCmdRx; simp (maxDischargeDepth := 9)

@[simp] theorem cored_assignFeas (s : State) (x0 : List GrpMember) (x1 : List Nat) :
    corePart (assignFeas s x0 x1) = corePart s := by
  induction x0 generalizing s x1 with
  | nil => simp (maxDischargeDepth := 9) [assignFeas]
  | cons a l ih => (unfold assignFeas; (repeat' split) <;> first | rfl | (simp (maxDischargeDepth := 9) [ih]; done))

@[simp] theorem cored_endWalk (s : State) :
    corePart (endWalk s) = corePart s := by
  unfold endWalk; simp (maxDischargeDepth := 9) [foldl_cored]

@[simp] theorem cored_walkNext (s : State) :
    corePart (walkNext s) = corePart s := by
  unfold walkNext; (repeat' split) <;> simp (maxDischargeDepth := 9)

theorem cored_execGroupWalk (s : State) :
    resCore (execGroupWalk s) s := by
  unfold execGroupWalk; simp (maxDischargeDepth := 9)

@[simp] theorem cored_foundRouter (s : State) (path : List Nat) (serial : List Byte) (fea : BitVec 24) :
    corePart (foundRouter s path serial fea) = corePart s := by
  unfold foundRouter; simp (maxDischargeDepth := 9)

@[simp] theorem cored_onIdent (s : State) (path : List Nat) (d : List Byte) :
    corePart (onIdent s path d) = corePart s := by
  unfold onIdent; simp (maxDischargeDepth := 9)

@[simp] theorem cored_onAnswer (s : State) (what : SentFor) (body : List Byte) :
    corePart (onAnswer s what body) = corePart s := by
  unfold onAnswer; (repeat' split) <;> simp (maxDischargeDepth := 9)

@[simp] theorem portFreed_onAnswer (s : State) (what : SentFor) (body : List Byte) :
    portFreePart (onAnswer s what body) = portFreePart s :=
  portFreed_of_cored (cored_onAnswer s what body)

theorem portFreed_execMgmtRespRx (s : State) :
    resPortFree (execMgmtRespRx s) s := by
  unfold execMgmtRespRx
  simp only [resPortFree_next]
  split
  · rfl
  · refine portFreed_agentTake _ _ _ ?_
    intros
    repeat' split
    all_goals simp

theorem cored_execRelayTmoExpire (mtag : Nat) (s : State) :
    resCore (execRelayTmoExpire mtag s) s := by
  unfold execRelayTmoExpire; (repeat' split) <;> simp (maxDischargeDepth := 9)

@[simp] theorem cored_remoteRecords (s : State) (src : BitVec 24) (x0 : Nat) (x1 : List Byte) :
    corePart (remoteRecords s src x0 x1) = corePart s := by
  induction x0 generalizing s x1 with
  | zero => simp (maxDischargeDepth := 9) [remoteRecords]
  | succ k ih => (unfold remoteRecords; (repeat' split) <;> first | rfl | (simp (maxDischargeDepth := 9) [ih]; done))

@[simp] theorem portFreed_remoteRecords (s : State) (src : BitVec 24) (x0 : Nat) (x1 : List Byte) :
    portFreePart (remoteRecords s src x0 x1) = portFreePart s :=
  portFreed_of_cored (cored_remoteRecords s src x0 x1)

theorem portFreed_execMgmtEventRx (s : State) :
    resPortFree (execMgmtEventRx s) s := by
  unfold execMgmtEventRx; simp (maxDischargeDepth := 9)

@[simp] theorem cored_distOut (s : State) (ports : List Nat) (body : List Byte) :
    corePart (distOut s ports body) = corePart s := by
  unfold distOut; simp (maxDischargeDepth := 9)

@[simp] theorem linkSided_distOut (s : State) (ports : List Nat) (body : List Byte) :
    linkSidePart (distOut s ports body) = linkSidePart s :=
  linkSided_of_cored (cored_distOut s ports body)

theorem cored_execAnnounceSend (s : State) :
    resCore (execAnnounceSend s) s := by
  unfold execAnnounceSend; simp (maxDischargeDepth := 9)

@[simp] theorem cored_hear (s : State) (h : Heard) :
    corePart (hear s h) = corePart s := by
  unfold hear; simp (maxDischargeDepth := 9)

@[simp] theorem linkSided_hear (s : State) (h : Heard) :
    linkSidePart (hear s h) = linkSidePart s :=
  linkSided_of_cored (cored_hear s h)

@[simp] theorem linkSided_settle (s : State) (h : Heard) :
    linkSidePart (settle s h) = linkSidePart s := by
  unfold settle; simp (maxDischargeDepth := 9)

@[simp] theorem linkSided_onAnnounce (s : State) (src : ArrSrc) (body : List Byte) :
    linkSidePart (onAnnounce s src body) = linkSidePart s := by
  unfold onAnnounce; simp (maxDischargeDepth := 9)

theorem linkSided_execMgmtDistRx (s : State) :
    resLinkSide (execMgmtDistRx s) s := by
  unfold execMgmtDistRx; simp (maxDischargeDepth := 9)

@[simp] theorem cored_forget (s : State) :
    corePart (forget s) = corePart s := by
  unfold forget; simp (maxDischargeDepth := 9)

@[simp] theorem linkSided_forget (s : State) :
    linkSidePart (forget s) = linkSidePart s :=
  linkSided_of_cored (cored_forget s)

theorem cored_execMgrLossTmoExpire (s : State) :
    resCore (execMgrLossTmoExpire s) s := by
  unfold execMgrLossTmoExpire; simp (maxDischargeDepth := 9)

theorem linkSided_execElectTmoExpire (s : State) :
    resLinkSide (execElectTmoExpire s) s := by
  unfold execElectTmoExpire; simp (maxDischargeDepth := 9)

theorem cored_execIsolateTmoExpire (s : State) :
    resCore (execIsolateTmoExpire s) s := by
  unfold execIsolateTmoExpire; simp (maxDischargeDepth := 9)

@[simp] theorem cored_moveSpace (s : State) (q h : Nat) (less more : Quad → Quad) :
    corePart (moveSpace s q h less more) = corePart s := by
  unfold moveSpace; simp (maxDischargeDepth := 9)

@[simp] theorem hostSided_moveSpace (s : State) (q h : Nat) (less more : Quad → Quad) :
    hostSidePart (moveSpace s q h less more) = hostSidePart s :=
  hostSided_of_cored (cored_moveSpace s q h less more)

@[simp] theorem cored_recallCtx (s : State) (q kind n : Nat) :
    corePart (recallCtx s q kind n) = corePart s := by
  unfold recallCtx; simp (maxDischargeDepth := 9)

@[simp] theorem hostSided_recallCtx (s : State) (q kind n : Nat) :
    hostSidePart (recallCtx s q kind n) = hostSidePart s :=
  hostSided_of_cored (cored_recallCtx s q kind n)

@[simp] theorem cored_rehomeStrm (s : State) (q n : Nat) :
    corePart (rehomeStrm s q n) = corePart s := by
  unfold rehomeStrm; (repeat' split) <;> simp (maxDischargeDepth := 9)

@[simp] theorem hostSided_rehomeStrm (s : State) (q n : Nat) :
    hostSidePart (rehomeStrm s q n) = hostSidePart s :=
  hostSided_of_cored (cored_rehomeStrm s q n)

@[simp] theorem hostSided_rehomeQp (s : State) (q n : Nat) :
    hostSidePart (rehomeQp s q n) = hostSidePart s := by
  unfold rehomeQp; (repeat' split) <;> simp (maxDischargeDepth := 9)

@[simp] theorem cored_rechunk (s : State) (x0 : List Nat) (x1 : List (List Nat)) :
    corePart (rechunk s x0 x1) = corePart s := by
  induction x0 generalizing s x1 with
  | nil => simp (maxDischargeDepth := 9) [rechunk]
  | cons a l ih => (unfold rechunk; (repeat' split) <;> first | rfl | (simp (maxDischargeDepth := 9) [ih]; done))

@[simp] theorem cored_renumber (s : State) (h n : Nat) (r : Srq) :
    corePart (renumber s h n r) = corePart s := by
  unfold renumber; simp (maxDischargeDepth := 9)

@[simp] theorem cored_rehomeSrq (s : State) (q n : Nat) :
    corePart (rehomeSrq s q n) = corePart s := by
  unfold rehomeSrq; (repeat' split) <;> simp (maxDischargeDepth := 9)

@[simp] theorem hostSided_rehomeSrq (s : State) (q n : Nat) :
    hostSidePart (rehomeSrq s q n) = hostSidePart s :=
  hostSided_of_cored (cored_rehomeSrq s q n)

@[simp] theorem cored_moveSmall (s : State) (q : Nat) :
    corePart (moveSmall s q).1 = corePart s := by
  unfold moveSmall; simp (maxDischargeDepth := 9)

@[simp] theorem cored_rehomeCq (s : State) (q n : Nat) :
    corePart (rehomeCq s q n) = corePart s := by
  unfold rehomeCq; (repeat' split) <;> simp (maxDischargeDepth := 9)

@[simp] theorem hostSided_rehomeCq (s : State) (q n : Nat) :
    hostSidePart (rehomeCq s q n) = hostSidePart s :=
  hostSided_of_cored (cored_rehomeCq s q n)

@[simp] theorem cored_rehomeEq (s : State) (q n : Nat) :
    corePart (rehomeEq s q n) = corePart s := by
  unfold rehomeEq; (repeat' split) <;> simp (maxDischargeDepth := 9)

@[simp] theorem hostSided_rehomeEq (s : State) (q n : Nat) :
    hostSidePart (rehomeEq s q n) = hostSidePart s :=
  hostSided_of_cored (cored_rehomeEq s q n)

@[simp] theorem cored_rehomePd (s : State) (q n : Nat) :
    corePart (rehomePd s q n) = corePart s := by
  unfold rehomePd; (repeat' split) <;> simp (maxDischargeDepth := 9)

@[simp] theorem hostSided_rehomePd (s : State) (q n : Nat) :
    hostSidePart (rehomePd s q n) = hostSidePart s :=
  hostSided_of_cored (cored_rehomePd s q n)

@[simp] theorem cored_rehomeWin (s : State) (q n : Nat) :
    corePart (rehomeWin s q n) = corePart s := by
  unfold rehomeWin; (repeat' split) <;> simp (maxDischargeDepth := 9)

@[simp] theorem hostSided_rehomeWin (s : State) (q n : Nat) :
    hostSidePart (rehomeWin s q n) = hostSidePart s :=
  hostSided_of_cored (cored_rehomeWin s q n)

@[simp] theorem cored_moveStripe (s : State) (q : Nat) :
    corePart (moveStripe s q) = corePart s := by
  unfold moveStripe; simp (maxDischargeDepth := 9) [foldl_cored]

@[simp] theorem hostSided_moveStripe (s : State) (q : Nat) :
    hostSidePart (moveStripe s q) = hostSidePart s :=
  hostSided_of_cored (cored_moveStripe s q)

@[simp] theorem hostSided_rehomeAll (s : State) (q : Nat) :
    hostSidePart (rehomeAll s q) = hostSidePart s := by
  unfold rehomeAll; simp (maxDischargeDepth := 9)

@[simp] theorem portFreed_dropCacheOf (s : State) (q : Nat) :
    portFreePart (dropCacheOf s q) = portFreePart s := by
  unfold dropCacheOf; simp (maxDischargeDepth := 9) [foldl_portFreed]

@[simp] theorem controlled_dropCacheOf (s : State) (q : Nat) :
    controlPart (dropCacheOf s q) = controlPart s :=
  controlled_of_portFreed (portFreed_dropCacheOf s q)

@[simp] theorem controlled_beginGate (s : State) (q : Nat) :
    controlPart (beginGate s q) = controlPart s := by
  unfold beginGate; simp (maxDischargeDepth := 9)

@[simp] theorem settled_beginGate (s : State) (q : Nat) :
    settledPart (beginGate s q) = settledPart s :=
  settled_of_controlled (controlled_beginGate s q)

@[simp] theorem settled_doQuadGate (s : State) (c : MbCmd) :
    settledPart (doQuadGate s c).2.2 = settledPart s := by
  unfold doQuadGate; simp only; (repeat' split) <;> simp_all (maxDischargeDepth := 9)

theorem settled_execMbQuadGate (s : State) :
    resSettled (execMbQuadGate s) s := by
  unfold execMbQuadGate; simp (maxDischargeDepth := 9)

@[simp] theorem booted_doQuadRetire (s : State) (c : MbCmd) :
    bootPart (doQuadRetire s c).2.2 = bootPart s := by
  unfold doQuadRetire; simp only; (repeat' split) <;> simp_all (maxDischargeDepth := 9)

theorem booted_execMbQuadRetire (s : State) :
    resBoot (execMbQuadRetire s) s := by
  unfold execMbQuadRetire; simp (maxDischargeDepth := 9)

theorem cored_execQuadPortsDrained (q : Nat) (s : State) :
    resCore (execQuadPortsDrained q s) s := by
  unfold execQuadPortsDrained; simp (maxDischargeDepth := 9)

theorem hostSided_execQuadRehomeDone (q : Nat) (s : State) :
    resHostSide (execQuadRehomeDone q s) s := by
  unfold execQuadRehomeDone; simp (maxDischargeDepth := 9)

@[simp] theorem controlled_gateOff (s : State) (q : Nat) :
    controlPart (gateOff s q) = controlPart s := by
  unfold gateOff; simp (maxDischargeDepth := 9)

theorem controlled_execQuadGateDone (q : Nat) (s : State) :
    resControl (execQuadGateDone q s) s := by
  unfold execQuadGateDone; simp (maxDischargeDepth := 9)

theorem linkSided_execQuadUngateTrained (q : Nat) (s : State) :
    resLinkSide (execQuadUngateTrained q s) s := by
  unfold execQuadUngateTrained; simp (maxDischargeDepth := 9)

end Sys2Proof.Machine
end

