-- ==== Sys2Proof/Laws/Mailbox.lean ====
section
/-! SUPPORT. A mailbox command that is served: the shared checks pass, and its own meaning answers. -/

namespace Sys2Proof.Machine

/-- [R100 R119] the shared checks of a command at the head of the queue pass. -/
theorem mbRun_atHead (s : State) (c : MbCmd) (rest : List MbCmd) (op : Nat) (fields : List Byte → Bool) (rights : List (Nat × Bool))
    (k : State → MbCmd → MbAns) (h : AtHead s c rest op rights) (hf : fields c.payload = true) :
    mbRun s op fields rights k = respond (k (served s rest) c).2.2 c (k (served s rest) c).1 (k (served s rest) c).2.1 := by
  obtain ⟨hq, ho, hr, hs, hl, hm, hg, ha⟩ := h
  have hl' : lacking { s with cmds := { s.cmds with queue := rest } } c.m rights = [] := ha
  have h1 : ¬ 4088 < c.payload.length := by omega
  have h2 : ¬ 1 < c.flags := by omega
  have hc : c.len = c.payload.length := hl.symm
  simp [mbRun, runMb, hq, ho, molzuUp, hr, mbChecked, hs, hc, h1, h2, hf, hl', served]

end Sys2Proof.Machine
end

