-- ==== Sys2Proof/Laws/Tbl.lean ====
section
/-! SUPPORT. Laws of `Tbl`: what is read after a write, and that every operation keeps the canonical form. -/

namespace Sys2Proof.Machine

theorem cellsGet_erase_self {α : Type} (d : α) (l : List (Nat × α)) (k : Nat) : cellsGet d (cellsErase l k) k = d := by
  induction l with
  | nil => rfl
  | cons a l ih =>
    by_cases h : a.1 = k
    · simpa [cellsErase, h] using ih
    · have h' : ¬ k = a.1 := fun e => h e.symm
      simpa [cellsErase, h, cellsGet, h'] using ih

theorem cellsGet_erase_ne {α : Type} (d : α) (l : List (Nat × α)) (k j : Nat) (h : j ≠ k) :
    cellsGet d (cellsErase l k) j = cellsGet d l j := by
  induction l with
  | nil => rfl
  | cons a l ih =>
    by_cases e : a.1 = k
    · have e' : ¬ j = a.1 := fun x => h (x.trans e)
      have e'' : (a.1 != k) = false := by simp [e]
      simp only [cellsErase, List.filter_cons, e'', Bool.false_eq_true, if_false, cellsGet, e']
      exact ih
    · have e'' : (a.1 != k) = true := by simp [e]
      simp only [cellsErase, List.filter_cons, e'', if_true, cellsGet]
      split
      · rfl
      · exact ih

theorem cellsGet_put_self {α : Type} (d : α) (l : List (Nat × α)) (k : Nat) (v : α) (h : cellsErase l k = l) :
    cellsGet d (cellsPut l k v) k = v := by
  induction l with
  | nil => simp [cellsPut, cellsGet]
  | cons a l ih =>
    have ha : a.1 ≠ k ∧ cellsErase l k = l := by
      have := List.filter_eq_self.mp h
      exact ⟨by simpa using this a (by simp), List.filter_eq_self.mpr (fun b hb => this b (by simp [hb]))⟩
    unfold cellsPut
    split
    · simp [cellsGet]
    · have : ¬ k = a.1 := fun e => ha.1 e.symm
      simp only [cellsGet, this, if_false]
      exact ih ha.2

theorem cellsGet_put_ne {α : Type} (d : α) (l : List (Nat × α)) (k j : Nat) (v : α) (h : j ≠ k) :
    cellsGet d (cellsPut l k v) j = cellsGet d l j := by
  induction l with
  | nil => simp [cellsPut, cellsGet, h]
  | cons a l ih =>
    unfold cellsPut
    split
    · simp [cellsGet, h]
    · simp only [cellsGet]
      split
      · rfl
      · exact ih

theorem cellsErase_idem {α : Type} (l : List (Nat × α)) (k : Nat) : cellsErase (cellsErase l k) k = cellsErase l k := by
  simp [cellsErase, List.filter_filter]

/-- A read of the key just written gives the value written. -/
@[simp] theorem Tbl.get_set_self {α : Type} [DecidableEq α] (t : Tbl α) (k : Nat) (v : α) : (t.set k v).get k = v := by
  simp only [Tbl.get, Tbl.set, cellsSet]
  split
  · rename_i h; rw [cellsGet_erase_self]; exact h.symm
  · exact cellsGet_put_self _ _ _ _ (cellsErase_idem _ _)

/-- A write leaves every other key alone. -/
theorem Tbl.get_set_ne {α : Type} [DecidableEq α] (t : Tbl α) (k j : Nat) (v : α) (h : j ≠ k) : (t.set k v).get j = t.get j := by
  simp only [Tbl.get, Tbl.set, cellsSet]
  split
  · exact cellsGet_erase_ne _ _ _ _ h
  · rw [cellsGet_put_ne _ _ _ _ _ h, cellsGet_erase_ne _ _ _ _ h]

theorem Tbl.get_set {α : Type} [DecidableEq α] (t : Tbl α) (k j : Nat) (v : α) : (t.set k v).get j = if j = k then v else t.get j := by
  split
  · rename_i h; subst h; simp
  · rename_i h; exact t.get_set_ne k j v h

@[simp] theorem Tbl.get_upd_self {α : Type} [DecidableEq α] (t : Tbl α) (k : Nat) (f : α → α) : (t.upd k f).get k = f (t.get k) := by
  simp [Tbl.upd]
theorem Tbl.get_upd_ne {α : Type} [DecidableEq α] (t : Tbl α) (k j : Nat) (f : α → α) (h : j ≠ k) : (t.upd k f).get j = t.get j :=
  t.get_set_ne k j _ h
theorem Tbl.get_upd {α : Type} [DecidableEq α] (t : Tbl α) (k j : Nat) (f : α → α) :
    (t.upd k f).get j = if j = k then f (t.get k) else t.get j := t.get_set k j _
@[simp] theorem Tbl.set_dflt {α : Type} [DecidableEq α] (t : Tbl α) (k : Nat) (v : α) : (t.set k v).dflt = t.dflt := rfl
@[simp] theorem Tbl.upd_dflt {α : Type} [DecidableEq α] (t : Tbl α) (k : Nat) (f : α → α) : (t.upd k f).dflt = t.dflt := rfl

/-! ### The canonical form -/

theorem keysRising_iff {α : Type} (l : List (Nat × α)) : keysRising l = true ↔ l.Pairwise (fun a b => a.1 < b.1) := by
  induction l with
  | nil => simp [keysRising]
  | cons a l ih =>
    cases l with
    | nil => simp [keysRising]
    | cons b l =>
      rw [List.pairwise_cons, ← ih]
      simp only [keysRising, Bool.and_eq_true, decide_eq_true_eq]
      constructor
      · rintro ⟨h1, h2⟩
        refine ⟨fun c hc => ?_, h2⟩
        rcases List.mem_cons.mp hc with rfl | hc
        · exact h1
        · exact Nat.lt_trans h1 ((List.pairwise_cons.mp (ih.mp h2)).1 c hc)
      · rintro ⟨h1, h2⟩
        exact ⟨h1 b (by simp), h2⟩

theorem mem_cellsPut {α : Type} (l : List (Nat × α)) (k : Nat) (v : α) (c : Nat × α) (h : c ∈ cellsPut l k v) : c = (k, v) ∨ c ∈ l := by
  induction l with
  | nil => simpa [cellsPut] using h
  | cons a l ih =>
    unfold cellsPut at h
    split at h
    · simpa using h
    · rcases List.mem_cons.mp h with rfl | h
      · simp
      · rcases ih h with h | h
        · exact .inl h
        · exact .inr (by simp [h])

theorem cellsPut_rising {α : Type} (l : List (Nat × α)) (k : Nat) (v : α) (hl : l.Pairwise (fun a b => a.1 < b.1)) (hk : ∀ c ∈ l, c.1 ≠ k) :
    (cellsPut l k v).Pairwise (fun a b => a.1 < b.1) := by
  induction l with
  | nil => simp [cellsPut]
  | cons a l ih =>
    obtain ⟨ha, hl'⟩ := List.pairwise_cons.mp hl
    unfold cellsPut
    split
    · rename_i h
      refine List.pairwise_cons.mpr ⟨fun c hc => ?_, hl⟩
      rcases List.mem_cons.mp hc with rfl | hc
      · exact h
      · exact Nat.lt_trans h (ha c hc)
    · rename_i h
      refine List.pairwise_cons.mpr ⟨fun c hc => ?_, ih hl' (fun c hc => hk c (by simp [hc]))⟩
      rcases mem_cellsPut l k v c hc with rfl | hc
      · have := hk a (by simp)
        simp only at h ⊢
        omega
      · exact ha c hc

/-- A write keeps the canonical form. -/
theorem Tbl.wf_set {α : Type} [DecidableEq α] (t : Tbl α) (k : Nat) (v : α) (h : t.wf = true) : (t.set k v).wf = true := by
  simp only [Tbl.wf, Bool.and_eq_true, keysRising_iff, List.all_eq_true, decide_eq_true_eq] at h ⊢
  obtain ⟨h1, h2⟩ := h
  have he1 : (cellsErase t.cells k).Pairwise (fun a b => a.1 < b.1) := h1.filter _
  have he2 : ∀ c ∈ cellsErase t.cells k, c.1 ≠ k := fun c hc => by simpa using (List.mem_filter.mp hc).2
  have he3 : ∀ c ∈ cellsErase t.cells k, c ∈ t.cells := fun c hc => (List.mem_filter.mp hc).1
  simp only [Tbl.set, cellsSet]
  split
  · exact ⟨he1, fun c hc => h2 c (he3 c hc)⟩
  · rename_i hv
    refine ⟨cellsPut_rising _ _ _ he1 he2, fun c hc => ?_⟩
    rcases mem_cellsPut _ _ _ _ hc with rfl | hc
    · exact hv
    · exact h2 c (he3 c hc)

theorem Tbl.wf_upd {α : Type} [DecidableEq α] (t : Tbl α) (k : Nat) (f : α → α) (h : t.wf = true) : (t.upd k f).wf = true := t.wf_set k _ h

theorem Tbl.wf_eraseIf {α : Type} [DecidableEq α] (t : Tbl α) (p : Nat → α → Bool) (h : t.wf = true) : (t.eraseIf p).wf = true := by
  simp only [Tbl.wf, Tbl.eraseIf, Bool.and_eq_true, keysRising_iff, List.all_eq_true, decide_eq_true_eq] at h ⊢
  exact ⟨h.1.filter _, fun c hc => decide_eq_true (h.2 c (List.mem_filter.mp hc).1)⟩

theorem Tbl.foldl_set_dflt {α β : Type} [DecidableEq α] (l : List β) (k : β → Nat) (v : β → α) (t : Tbl α) :
    (l.foldl (fun acc b => acc.set (k b) (v b)) t).dflt = t.dflt := by
  induction l generalizing t with
  | nil => rfl
  | cons a l ih => simp only [List.foldl_cons, ih, Tbl.set_dflt]

theorem Tbl.wf_foldl_set {α β : Type} [DecidableEq α] (l : List β) (k : β → Nat) (v : β → α) (t : Tbl α) (h : t.wf = true) :
    (l.foldl (fun acc b => acc.set (k b) (v b)) t).wf = true := by
  induction l generalizing t with
  | nil => exact h
  | cons a l ih => exact ih _ (t.wf_set _ _ h)

theorem Tbl.wf_mapCells {α : Type} [DecidableEq α] (t : Tbl α) (f : Nat → α → α) : (t.mapCells f).wf = true :=
  Tbl.wf_foldl_set t.cells (fun kv => kv.1) (fun kv => f kv.1 kv.2) { t with cells := [] } rfl

/-- What a key holds after every listed value is changed, where the table has its canonical form. -/
theorem Tbl.get_mapCells {α : Type} [DecidableEq α] (t : Tbl α) (f : Nat → α → α) (h : t.wf = true) (k : Nat) (hd : f k t.dflt = t.dflt) :
    (t.mapCells f).get k = f k (t.get k) := by
  have key : ∀ (l : List (Nat × α)) (acc : Tbl α), l.Pairwise (fun a b => a.1 < b.1) → (∀ c ∈ l, acc.get c.1 = acc.dflt) →
      (l.foldl (fun acc kv => acc.set kv.1 (f kv.1 kv.2)) acc).get k = if ∃ c ∈ l, c.1 = k then f k (cellsGet t.dflt l k) else acc.get k := by
    intro l
    induction l with
    | nil => intro acc _ _; simp
    | cons a l ih =>
      intro acc hp hacc
      obtain ⟨ha, hp'⟩ := List.pairwise_cons.mp hp
      have hne : ∀ c ∈ l, c.1 ≠ a.1 := fun c hc => Nat.ne_of_gt (ha c hc)
      rw [List.foldl_cons, ih _ hp' (fun c hc => by rw [acc.get_set_ne _ _ _ (hne c hc)]; exact hacc c (by simp [hc]))]
      by_cases hk : a.1 = k
      · have hn : ¬∃ c ∈ l, c.1 = k := fun ⟨c, hc, e⟩ => hne c hc (e.trans hk.symm)
        rw [if_neg hn, if_pos ⟨a, by simp, hk⟩]
        subst hk
        simp [cellsGet]
      · have hk' : ¬ k = a.1 := fun e => hk e.symm
        have : (∃ c ∈ a :: l, c.1 = k) ↔ ∃ c ∈ l, c.1 = k := by simp [hk]
        simp only [this, cellsGet, hk', if_false, acc.get_set_ne _ _ _ hk']
  simp only [Tbl.wf, Bool.and_eq_true, keysRising_iff] at h
  have := key t.cells { t with cells := [] } h.1 (fun c _ => rfl)
  unfold Tbl.mapCells
  rw [this]
  split
  · rfl
  · rename_i hn
    have hg : ∀ l : List (Nat × α), (¬∃ c ∈ l, c.1 = k) → cellsGet t.dflt l k = t.dflt := by
      intro l
      induction l with
      | nil => intro _; rfl
      | cons a l ih =>
        intro hl
        have h1 : ¬ k = a.1 := fun e => hl ⟨a, by simp, e.symm⟩
        simp only [cellsGet, h1, if_false]
        exact ih (fun ⟨c, hc, e⟩ => hl ⟨c, by simp [hc], e⟩)
    have : t.get k = t.dflt := hg _ hn
    rw [this, hd]
    rfl

end Sys2Proof.Machine
end

