-- ==== Sys2Proof/Laws/State.lean ====
section
/-! SUPPORT. What each update of a part of the state leaves as it was, one lemma per field, and what it leaves at its own key. -/

namespace Sys2Proof.Machine

@[simp] theorem updLane_lane_self (s : State) (l : Nat) (f : Lane → Lane) : (updLane s l f).lane l = f (s.lane l) := by
  simp [updLane, State.lane]
theorem updLane_lane_ne (s : State) (l j : Nat) (f : Lane → Lane) (h : j ≠ l) : (updLane s l f).lane j = s.lane j :=
  Tbl.get_upd_ne _ _ _ _ h
theorem updLane_lane (s : State) (l j : Nat) (f : Lane → Lane) : (updLane s l f).lane j = if j = l then f (s.lane l) else s.lane j :=
  Tbl.get_upd _ _ _ _
@[simp] theorem updLane_ident (s : State) (l : Nat) (f : Lane → Lane) : (updLane s l f).ident = s.ident := rfl
@[simp] theorem updLane_clk (s : State) (l : Nat) (f : Lane → Lane) : (updLane s l f).clk = s.clk := rfl
@[simp] theorem updLane_boot (s : State) (l : Nat) (f : Lane → Lane) : (updLane s l f).boot = s.boot := rfl
@[simp] theorem updLane_cfg (s : State) (l : Nat) (f : Lane → Lane) : (updLane s l f).cfg = s.cfg := rfl
@[simp] theorem updLane_cfgOld (s : State) (l : Nat) (f : Lane → Lane) : (updLane s l f).cfgOld = s.cfgOld := rfl
@[simp] theorem updLane_hostMode (s : State) (l : Nat) (f : Lane → Lane) : (updLane s l f).hostMode = s.hostMode := rfl
@[simp] theorem updLane_profile (s : State) (l : Nat) (f : Lane → Lane) : (updLane s l f).profile = s.profile := rfl
@[simp] theorem updLane_octets (s : State) (l : Nat) (f : Lane → Lane) : (updLane s l f).octets = s.octets := rfl
@[simp] theorem updLane_ports (s : State) (l : Nat) (f : Lane → Lane) : (updLane s l f).ports = s.ports := rfl
@[simp] theorem updLane_tu (s : State) (l : Nat) (f : Lane → Lane) : (updLane s l f).tu = s.tu := rfl
@[simp] theorem updLane_routes (s : State) (l : Nat) (f : Lane → Lane) : (updLane s l f).routes = s.routes := rfl
@[simp] theorem updLane_snap (s : State) (l : Nat) (f : Lane → Lane) : (updLane s l f).snap = s.snap := rfl
@[simp] theorem updLane_ctrs (s : State) (l : Nat) (f : Lane → Lane) : (updLane s l f).ctrs = s.ctrs := rfl
@[simp] theorem updLane_quads (s : State) (l : Nat) (f : Lane → Lane) : (updLane s l f).quads = s.quads := rfl
@[simp] theorem updLane_eps (s : State) (l : Nat) (f : Lane → Lane) : (updLane s l f).eps = s.eps := rfl
@[simp] theorem updLane_fns (s : State) (l : Nat) (f : Lane → Lane) : (updLane s l f).fns = s.fns := rfl
@[simp] theorem updLane_insts (s : State) (l : Nat) (f : Lane → Lane) : (updLane s l f).insts = s.insts := rfl
@[simp] theorem updLane_masters (s : State) (l : Nat) (f : Lane → Lane) : (updLane s l f).masters = s.masters := rfl
@[simp] theorem updLane_access (s : State) (l : Nat) (f : Lane → Lane) : (updLane s l f).access = s.access := rfl
@[simp] theorem updLane_cmds (s : State) (l : Nat) (f : Lane → Lane) : (updLane s l f).cmds = s.cmds := rfl
@[simp] theorem updLane_ep (s : State) (l : Nat) (f : Lane → Lane) : (updLane s l f).ep = s.ep := rfl
@[simp] theorem updLane_chain (s : State) (l : Nat) (f : Lane → Lane) : (updLane s l f).chain = s.chain := rfl
@[simp] theorem updLane_grp (s : State) (l : Nat) (f : Lane → Lane) : (updLane s l f).grp = s.grp := rfl
@[simp] theorem updLane_recd (s : State) (l : Nat) (f : Lane → Lane) : (updLane s l f).recd = s.recd := rfl
@[simp] theorem updLane_tele (s : State) (l : Nat) (f : Lane → Lane) : (updLane s l f).tele = s.tele := rfl
@[simp] theorem updLane_teleFt (s : State) (l : Nat) (f : Lane → Lane) : (updLane s l f).teleFt = s.teleFt := rfl
@[simp] theorem updLane_life (s : State) (l : Nat) (f : Lane → Lane) : (updLane s l f).life = s.life := rfl
@[simp] theorem updLane_lifePart (s : State) (l : Nat) (f : Lane → Lane) : (updLane s l f).lifePart = s.lifePart := rfl
@[simp] theorem updLane_mram (s : State) (l : Nat) (f : Lane → Lane) : (updLane s l f).mram = s.mram := rfl
@[simp] theorem updLane_pstepC (s : State) (l : Nat) (f : Lane → Lane) : (updLane s l f).pstepC = s.pstepC := rfl
@[simp] theorem updLane_pstepS (s : State) (l : Nat) (f : Lane → Lane) : (updLane s l f).pstepS = s.pstepS := rfl
@[simp] theorem updLane_therm (s : State) (l : Nat) (f : Lane → Lane) : (updLane s l f).therm = s.therm := rfl
@[simp] theorem updLane_pins (s : State) (l : Nat) (f : Lane → Lane) : (updLane s l f).pins = s.pins := rfl
@[simp] theorem updLane_out (s : State) (l : Nat) (f : Lane → Lane) : (updLane s l f).out = s.out := rfl
@[simp] theorem updLane_free (s : State) (l : Nat) (f : Lane → Lane) : (updLane s l f).free = s.free := rfl
@[simp] theorem updLane_pending (s : State) (l : Nat) (f : Lane → Lane) : (updLane s l f).pending = s.pending := rfl
@[simp] theorem updLane_octet (s : State) (l j : Nat) (f : Lane → Lane) : (updLane s l f).octet j = s.octet j := rfl
@[simp] theorem updLane_port (s : State) (l j : Nat) (f : Lane → Lane) : (updLane s l f).port j = s.port j := rfl
@[simp] theorem updLane_quad (s : State) (l j : Nat) (f : Lane → Lane) : (updLane s l f).quad j = s.quad j := rfl
@[simp] theorem updLane_hostEp (s : State) (l j : Nat) (f : Lane → Lane) : (updLane s l f).hostEp j = s.hostEp j := rfl
@[simp] theorem updLane_fn (s : State) (l j : Nat) (f : Lane → Lane) : (updLane s l f).fn j = s.fn j := rfl
@[simp] theorem updLane_inst (s : State) (l j : Nat) (f : Lane → Lane) : (updLane s l f).inst j = s.inst j := rfl
@[simp] theorem updLane_master (s : State) (l j : Nat) (f : Lane → Lane) : (updLane s l f).master j = s.master j := rfl
@[simp] theorem updOctet_octet_self (s : State) (o : Nat) (f : Octet → Octet) : (updOctet s o f).octet o = f (s.octet o) := by
  simp [updOctet, State.octet]
theorem updOctet_octet_ne (s : State) (o j : Nat) (f : Octet → Octet) (h : j ≠ o) : (updOctet s o f).octet j = s.octet j :=
  Tbl.get_upd_ne _ _ _ _ h
theorem updOctet_octet (s : State) (o j : Nat) (f : Octet → Octet) : (updOctet s o f).octet j = if j = o then f (s.octet o) else s.octet j :=
  Tbl.get_upd _ _ _ _
@[simp] theorem updOctet_ident (s : State) (o : Nat) (f : Octet → Octet) : (updOctet s o f).ident = s.ident := rfl
@[simp] theorem updOctet_clk (s : State) (o : Nat) (f : Octet → Octet) : (updOctet s o f).clk = s.clk := rfl
@[simp] theorem updOctet_boot (s : State) (o : Nat) (f : Octet → Octet) : (updOctet s o f).boot = s.boot := rfl
@[simp] theorem updOctet_cfg (s : State) (o : Nat) (f : Octet → Octet) : (updOctet s o f).cfg = s.cfg := rfl
@[simp] theorem updOctet_cfgOld (s : State) (o : Nat) (f : Octet → Octet) : (updOctet s o f).cfgOld = s.cfgOld := rfl
@[simp] theorem updOctet_hostMode (s : State) (o : Nat) (f : Octet → Octet) : (updOctet s o f).hostMode = s.hostMode := rfl
@[simp] theorem updOctet_profile (s : State) (o : Nat) (f : Octet → Octet) : (updOctet s o f).profile = s.profile := rfl
@[simp] theorem updOctet_lanes (s : State) (o : Nat) (f : Octet → Octet) : (updOctet s o f).lanes = s.lanes := rfl
@[simp] theorem updOctet_ports (s : State) (o : Nat) (f : Octet → Octet) : (updOctet s o f).ports = s.ports := rfl
@[simp] theorem updOctet_tu (s : State) (o : Nat) (f : Octet → Octet) : (updOctet s o f).tu = s.tu := rfl
@[simp] theorem updOctet_routes (s : State) (o : Nat) (f : Octet → Octet) : (updOctet s o f).routes = s.routes := rfl
@[simp] theorem updOctet_snap (s : State) (o : Nat) (f : Octet → Octet) : (updOctet s o f).snap = s.snap := rfl
@[simp] theorem updOctet_ctrs (s : State) (o : Nat) (f : Octet → Octet) : (updOctet s o f).ctrs = s.ctrs := rfl
@[simp] theorem updOctet_quads (s : State) (o : Nat) (f : Octet → Octet) : (updOctet s o f).quads = s.quads := rfl
@[simp] theorem updOctet_eps (s : State) (o : Nat) (f : Octet → Octet) : (updOctet s o f).eps = s.eps := rfl
@[simp] theorem updOctet_fns (s : State) (o : Nat) (f : Octet → Octet) : (updOctet s o f).fns = s.fns := rfl
@[simp] theorem updOctet_insts (s : State) (o : Nat) (f : Octet → Octet) : (updOctet s o f).insts = s.insts := rfl
@[simp] theorem updOctet_masters (s : State) (o : Nat) (f : Octet → Octet) : (updOctet s o f).masters = s.masters := rfl
@[simp] theorem updOctet_access (s : State) (o : Nat) (f : Octet → Octet) : (updOctet s o f).access = s.access := rfl
@[simp] theorem updOctet_cmds (s : State) (o : Nat) (f : Octet → Octet) : (updOctet s o f).cmds = s.cmds := rfl
@[simp] theorem updOctet_ep (s : State) (o : Nat) (f : Octet → Octet) : (updOctet s o f).ep = s.ep := rfl
@[simp] theorem updOctet_chain (s : State) (o : Nat) (f : Octet → Octet) : (updOctet s o f).chain = s.chain := rfl
@[simp] theorem updOctet_grp (s : State) (o : Nat) (f : Octet → Octet) : (updOctet s o f).grp = s.grp := rfl
@[simp] theorem updOctet_recd (s : State) (o : Nat) (f : Octet → Octet) : (updOctet s o f).recd = s.recd := rfl
@[simp] theorem updOctet_tele (s : State) (o : Nat) (f : Octet → Octet) : (updOctet s o f).tele = s.tele := rfl
@[simp] theorem updOctet_teleFt (s : State) (o : Nat) (f : Octet → Octet) : (updOctet s o f).teleFt = s.teleFt := rfl
@[simp] theorem updOctet_life (s : State) (o : Nat) (f : Octet → Octet) : (updOctet s o f).life = s.life := rfl
@[simp] theorem updOctet_lifePart (s : State) (o : Nat) (f : Octet → Octet) : (updOctet s o f).lifePart = s.lifePart := rfl
@[simp] theorem updOctet_mram (s : State) (o : Nat) (f : Octet → Octet) : (updOctet s o f).mram = s.mram := rfl
@[simp] theorem updOctet_pstepC (s : State) (o : Nat) (f : Octet → Octet) : (updOctet s o f).pstepC = s.pstepC := rfl
@[simp] theorem updOctet_pstepS (s : State) (o : Nat) (f : Octet → Octet) : (updOctet s o f).pstepS = s.pstepS := rfl
@[simp] theorem updOctet_therm (s : State) (o : Nat) (f : Octet → Octet) : (updOctet s o f).therm = s.therm := rfl
@[simp] theorem updOctet_pins (s : State) (o : Nat) (f : Octet → Octet) : (updOctet s o f).pins = s.pins := rfl
@[simp] theorem updOctet_out (s : State) (o : Nat) (f : Octet → Octet) : (updOctet s o f).out = s.out := rfl
@[simp] theorem updOctet_free (s : State) (o : Nat) (f : Octet → Octet) : (updOctet s o f).free = s.free := rfl
@[simp] theorem updOctet_pending (s : State) (o : Nat) (f : Octet → Octet) : (updOctet s o f).pending = s.pending := rfl
@[simp] theorem updOctet_lane (s : State) (o j : Nat) (f : Octet → Octet) : (updOctet s o f).lane j = s.lane j := rfl
@[simp] theorem updOctet_port (s : State) (o j : Nat) (f : Octet → Octet) : (updOctet s o f).port j = s.port j := rfl
@[simp] theorem updOctet_quad (s : State) (o j : Nat) (f : Octet → Octet) : (updOctet s o f).quad j = s.quad j := rfl
@[simp] theorem updOctet_hostEp (s : State) (o j : Nat) (f : Octet → Octet) : (updOctet s o f).hostEp j = s.hostEp j := rfl
@[simp] theorem updOctet_fn (s : State) (o j : Nat) (f : Octet → Octet) : (updOctet s o f).fn j = s.fn j := rfl
@[simp] theorem updOctet_inst (s : State) (o j : Nat) (f : Octet → Octet) : (updOctet s o f).inst j = s.inst j := rfl
@[simp] theorem updOctet_master (s : State) (o j : Nat) (f : Octet → Octet) : (updOctet s o f).master j = s.master j := rfl
@[simp] theorem updPort_port_self (s : State) (p : Nat) (f : Port → Port) : (updPort s p f).port p = f (s.port p) := by
  simp [updPort, State.port]
theorem updPort_port_ne (s : State) (p j : Nat) (f : Port → Port) (h : j ≠ p) : (updPort s p f).port j = s.port j :=
  Tbl.get_upd_ne _ _ _ _ h
theorem updPort_port (s : State) (p j : Nat) (f : Port → Port) : (updPort s p f).port j = if j = p then f (s.port p) else s.port j :=
  Tbl.get_upd _ _ _ _
@[simp] theorem updPort_ident (s : State) (p : Nat) (f : Port → Port) : (updPort s p f).ident = s.ident := rfl
@[simp] theorem updPort_clk (s : State) (p : Nat) (f : Port → Port) : (updPort s p f).clk = s.clk := rfl
@[simp] theorem updPort_boot (s : State) (p : Nat) (f : Port → Port) : (updPort s p f).boot = s.boot := rfl
@[simp] theorem updPort_cfg (s : State) (p : Nat) (f : Port → Port) : (updPort s p f).cfg = s.cfg := rfl
@[simp] theorem updPort_cfgOld (s : State) (p : Nat) (f : Port → Port) : (updPort s p f).cfgOld = s.cfgOld := rfl
@[simp] theorem updPort_hostMode (s : State) (p : Nat) (f : Port → Port) : (updPort s p f).hostMode = s.hostMode := rfl
@[simp] theorem updPort_profile (s : State) (p : Nat) (f : Port → Port) : (updPort s p f).profile = s.profile := rfl
@[simp] theorem updPort_lanes (s : State) (p : Nat) (f : Port → Port) : (updPort s p f).lanes = s.lanes := rfl
@[simp] theorem updPort_octets (s : State) (p : Nat) (f : Port → Port) : (updPort s p f).octets = s.octets := rfl
@[simp] theorem updPort_tu (s : State) (p : Nat) (f : Port → Port) : (updPort s p f).tu = s.tu := rfl
@[simp] theorem updPort_routes (s : State) (p : Nat) (f : Port → Port) : (updPort s p f).routes = s.routes := rfl
@[simp] theorem updPort_snap (s : State) (p : Nat) (f : Port → Port) : (updPort s p f).snap = s.snap := rfl
@[simp] theorem updPort_ctrs (s : State) (p : Nat) (f : Port → Port) : (updPort s p f).ctrs = s.ctrs := rfl
@[simp] theorem updPort_quads (s : State) (p : Nat) (f : Port → Port) : (updPort s p f).quads = s.quads := rfl
@[simp] theorem updPort_eps (s : State) (p : Nat) (f : Port → Port) : (updPort s p f).eps = s.eps := rfl
@[simp] theorem updPort_fns (s : State) (p : Nat) (f : Port → Port) : (updPort s p f).fns = s.fns := rfl
@[simp] theorem updPort_insts (s : State) (p : Nat) (f : Port → Port) : (updPort s p f).insts = s.insts := rfl
@[simp] theorem updPort_masters (s : State) (p : Nat) (f : Port → Port) : (updPort s p f).masters = s.masters := rfl
@[simp] theorem updPort_access (s : State) (p : Nat) (f : Port → Port) : (updPort s p f).access = s.access := rfl
@[simp] theorem updPort_cmds (s : State) (p : Nat) (f : Port → Port) : (updPort s p f).cmds = s.cmds := rfl
@[simp] theorem updPort_ep (s : State) (p : Nat) (f : Port → Port) : (updPort s p f).ep = s.ep := rfl
@[simp] theorem updPort_chain (s : State) (p : Nat) (f : Port → Port) : (updPort s p f).chain = s.chain := rfl
@[simp] theorem updPort_grp (s : State) (p : Nat) (f : Port → Port) : (updPort s p f).grp = s.grp := rfl
@[simp] theorem updPort_recd (s : State) (p : Nat) (f : Port → Port) : (updPort s p f).recd = s.recd := rfl
@[simp] theorem updPort_tele (s : State) (p : Nat) (f : Port → Port) : (updPort s p f).tele = s.tele := rfl
@[simp] theorem updPort_teleFt (s : State) (p : Nat) (f : Port → Port) : (updPort s p f).teleFt = s.teleFt := rfl
@[simp] theorem updPort_life (s : State) (p : Nat) (f : Port → Port) : (updPort s p f).life = s.life := rfl
@[simp] theorem updPort_lifePart (s : State) (p : Nat) (f : Port → Port) : (updPort s p f).lifePart = s.lifePart := rfl
@[simp] theorem updPort_mram (s : State) (p : Nat) (f : Port → Port) : (updPort s p f).mram = s.mram := rfl
@[simp] theorem updPort_pstepC (s : State) (p : Nat) (f : Port → Port) : (updPort s p f).pstepC = s.pstepC := rfl
@[simp] theorem updPort_pstepS (s : State) (p : Nat) (f : Port → Port) : (updPort s p f).pstepS = s.pstepS := rfl
@[simp] theorem updPort_therm (s : State) (p : Nat) (f : Port → Port) : (updPort s p f).therm = s.therm := rfl
@[simp] theorem updPort_pins (s : State) (p : Nat) (f : Port → Port) : (updPort s p f).pins = s.pins := rfl
@[simp] theorem updPort_out (s : State) (p : Nat) (f : Port → Port) : (updPort s p f).out = s.out := rfl
@[simp] theorem updPort_free (s : State) (p : Nat) (f : Port → Port) : (updPort s p f).free = s.free := rfl
@[simp] theorem updPort_pending (s : State) (p : Nat) (f : Port → Port) : (updPort s p f).pending = s.pending := rfl
@[simp] theorem updPort_lane (s : State) (p j : Nat) (f : Port → Port) : (updPort s p f).lane j = s.lane j := rfl
@[simp] theorem updPort_octet (s : State) (p j : Nat) (f : Port → Port) : (updPort s p f).octet j = s.octet j := rfl
@[simp] theorem updPort_quad (s : State) (p j : Nat) (f : Port → Port) : (updPort s p f).quad j = s.quad j := rfl
@[simp] theorem updPort_hostEp (s : State) (p j : Nat) (f : Port → Port) : (updPort s p f).hostEp j = s.hostEp j := rfl
@[simp] theorem updPort_fn (s : State) (p j : Nat) (f : Port → Port) : (updPort s p f).fn j = s.fn j := rfl
@[simp] theorem updPort_inst (s : State) (p j : Nat) (f : Port → Port) : (updPort s p f).inst j = s.inst j := rfl
@[simp] theorem updPort_master (s : State) (p j : Nat) (f : Port → Port) : (updPort s p f).master j = s.master j := rfl
@[simp] theorem updQuad_quad_self (s : State) (q : Nat) (f : Quad → Quad) : (updQuad s q f).quad q = f (s.quad q) := by
  simp [updQuad, State.quad]
theorem updQuad_quad_ne (s : State) (q j : Nat) (f : Quad → Quad) (h : j ≠ q) : (updQuad s q f).quad j = s.quad j :=
  Tbl.get_upd_ne _ _ _ _ h
theorem updQuad_quad (s : State) (q j : Nat) (f : Quad → Quad) : (updQuad s q f).quad j = if j = q then f (s.quad q) else s.quad j :=
  Tbl.get_upd _ _ _ _
@[simp] theorem updQuad_ident (s : State) (q : Nat) (f : Quad → Quad) : (updQuad s q f).ident = s.ident := rfl
@[simp] theorem updQuad_clk (s : State) (q : Nat) (f : Quad → Quad) : (updQuad s q f).clk = s.clk := rfl
@[simp] theorem updQuad_boot (s : State) (q : Nat) (f : Quad → Quad) : (updQuad s q f).boot = s.boot := rfl
@[simp] theorem updQuad_cfg (s : State) (q : Nat) (f : Quad → Quad) : (updQuad s q f).cfg = s.cfg := rfl
@[simp] theorem updQuad_cfgOld (s : State) (q : Nat) (f : Quad → Quad) : (updQuad s q f).cfgOld = s.cfgOld := rfl
@[simp] theorem updQuad_hostMode (s : State) (q : Nat) (f : Quad → Quad) : (updQuad s q f).hostMode = s.hostMode := rfl
@[simp] theorem updQuad_profile (s : State) (q : Nat) (f : Quad → Quad) : (updQuad s q f).profile = s.profile := rfl
@[simp] theorem updQuad_lanes (s : State) (q : Nat) (f : Quad → Quad) : (updQuad s q f).lanes = s.lanes := rfl
@[simp] theorem updQuad_octets (s : State) (q : Nat) (f : Quad → Quad) : (updQuad s q f).octets = s.octets := rfl
@[simp] theorem updQuad_ports (s : State) (q : Nat) (f : Quad → Quad) : (updQuad s q f).ports = s.ports := rfl
@[simp] theorem updQuad_tu (s : State) (q : Nat) (f : Quad → Quad) : (updQuad s q f).tu = s.tu := rfl
@[simp] theorem updQuad_routes (s : State) (q : Nat) (f : Quad → Quad) : (updQuad s q f).routes = s.routes := rfl
@[simp] theorem updQuad_snap (s : State) (q : Nat) (f : Quad → Quad) : (updQuad s q f).snap = s.snap := rfl
@[simp] theorem updQuad_ctrs (s : State) (q : Nat) (f : Quad → Quad) : (updQuad s q f).ctrs = s.ctrs := rfl
@[simp] theorem updQuad_eps (s : State) (q : Nat) (f : Quad → Quad) : (updQuad s q f).eps = s.eps := rfl
@[simp] theorem updQuad_fns (s : State) (q : Nat) (f : Quad → Quad) : (updQuad s q f).fns = s.fns := rfl
@[simp] theorem updQuad_insts (s : State) (q : Nat) (f : Quad → Quad) : (updQuad s q f).insts = s.insts := rfl
@[simp] theorem updQuad_masters (s : State) (q : Nat) (f : Quad → Quad) : (updQuad s q f).masters = s.masters := rfl
@[simp] theorem updQuad_access (s : State) (q : Nat) (f : Quad → Quad) : (updQuad s q f).access = s.access := rfl
@[simp] theorem updQuad_cmds (s : State) (q : Nat) (f : Quad → Quad) : (updQuad s q f).cmds = s.cmds := rfl
@[simp] theorem updQuad_ep (s : State) (q : Nat) (f : Quad → Quad) : (updQuad s q f).ep = s.ep := rfl
@[simp] theorem updQuad_chain (s : State) (q : Nat) (f : Quad → Quad) : (updQuad s q f).chain = s.chain := rfl
@[simp] theorem updQuad_grp (s : State) (q : Nat) (f : Quad → Quad) : (updQuad s q f).grp = s.grp := rfl
@[simp] theorem updQuad_recd (s : State) (q : Nat) (f : Quad → Quad) : (updQuad s q f).recd = s.recd := rfl
@[simp] theorem updQuad_tele (s : State) (q : Nat) (f : Quad → Quad) : (updQuad s q f).tele = s.tele := rfl
@[simp] theorem updQuad_teleFt (s : State) (q : Nat) (f : Quad → Quad) : (updQuad s q f).teleFt = s.teleFt := rfl
@[simp] theorem updQuad_life (s : State) (q : Nat) (f : Quad → Quad) : (updQuad s q f).life = s.life := rfl
@[simp] theorem updQuad_lifePart (s : State) (q : Nat) (f : Quad → Quad) : (updQuad s q f).lifePart = s.lifePart := rfl
@[simp] theorem updQuad_mram (s : State) (q : Nat) (f : Quad → Quad) : (updQuad s q f).mram = s.mram := rfl
@[simp] theorem updQuad_pstepC (s : State) (q : Nat) (f : Quad → Quad) : (updQuad s q f).pstepC = s.pstepC := rfl
@[simp] theorem updQuad_pstepS (s : State) (q : Nat) (f : Quad → Quad) : (updQuad s q f).pstepS = s.pstepS := rfl
@[simp] theorem updQuad_therm (s : State) (q : Nat) (f : Quad → Quad) : (updQuad s q f).therm = s.therm := rfl
@[simp] theorem updQuad_pins (s : State) (q : Nat) (f : Quad → Quad) : (updQuad s q f).pins = s.pins := rfl
@[simp] theorem updQuad_out (s : State) (q : Nat) (f : Quad → Quad) : (updQuad s q f).out = s.out := rfl
@[simp] theorem updQuad_free (s : State) (q : Nat) (f : Quad → Quad) : (updQuad s q f).free = s.free := rfl
@[simp] theorem updQuad_pending (s : State) (q : Nat) (f : Quad → Quad) : (updQuad s q f).pending = s.pending := rfl
@[simp] theorem updQuad_lane (s : State) (q j : Nat) (f : Quad → Quad) : (updQuad s q f).lane j = s.lane j := rfl
@[simp] theorem updQuad_octet (s : State) (q j : Nat) (f : Quad → Quad) : (updQuad s q f).octet j = s.octet j := rfl
@[simp] theorem updQuad_port (s : State) (q j : Nat) (f : Quad → Quad) : (updQuad s q f).port j = s.port j := rfl
@[simp] theorem updQuad_hostEp (s : State) (q j : Nat) (f : Quad → Quad) : (updQuad s q f).hostEp j = s.hostEp j := rfl
@[simp] theorem updQuad_fn (s : State) (q j : Nat) (f : Quad → Quad) : (updQuad s q f).fn j = s.fn j := rfl
@[simp] theorem updQuad_inst (s : State) (q j : Nat) (f : Quad → Quad) : (updQuad s q f).inst j = s.inst j := rfl
@[simp] theorem updQuad_master (s : State) (q j : Nat) (f : Quad → Quad) : (updQuad s q f).master j = s.master j := rfl
@[simp] theorem updHost_hostEp_self (s : State) (e : Nat) (f : HostEp → HostEp) : (updHost s e f).hostEp e = f (s.hostEp e) := by
  simp [updHost, State.hostEp]
theorem updHost_hostEp_ne (s : State) (e j : Nat) (f : HostEp → HostEp) (h : j ≠ e) : (updHost s e f).hostEp j = s.hostEp j :=
  Tbl.get_upd_ne _ _ _ _ h
theorem updHost_hostEp (s : State) (e j : Nat) (f : HostEp → HostEp) : (updHost s e f).hostEp j = if j = e then f (s.hostEp e) else s.hostEp j :=
  Tbl.get_upd _ _ _ _
@[simp] theorem updHost_ident (s : State) (e : Nat) (f : HostEp → HostEp) : (updHost s e f).ident = s.ident := rfl
@[simp] theorem updHost_clk (s : State) (e : Nat) (f : HostEp → HostEp) : (updHost s e f).clk = s.clk := rfl
@[simp] theorem updHost_boot (s : State) (e : Nat) (f : HostEp → HostEp) : (updHost s e f).boot = s.boot := rfl
@[simp] theorem updHost_cfg (s : State) (e : Nat) (f : HostEp → HostEp) : (updHost s e f).cfg = s.cfg := rfl
@[simp] theorem updHost_cfgOld (s : State) (e : Nat) (f : HostEp → HostEp) : (updHost s e f).cfgOld = s.cfgOld := rfl
@[simp] theorem updHost_hostMode (s : State) (e : Nat) (f : HostEp → HostEp) : (updHost s e f).hostMode = s.hostMode := rfl
@[simp] theorem updHost_profile (s : State) (e : Nat) (f : HostEp → HostEp) : (updHost s e f).profile = s.profile := rfl
@[simp] theorem updHost_lanes (s : State) (e : Nat) (f : HostEp → HostEp) : (updHost s e f).lanes = s.lanes := rfl
@[simp] theorem updHost_octets (s : State) (e : Nat) (f : HostEp → HostEp) : (updHost s e f).octets = s.octets := rfl
@[simp] theorem updHost_ports (s : State) (e : Nat) (f : HostEp → HostEp) : (updHost s e f).ports = s.ports := rfl
@[simp] theorem updHost_tu (s : State) (e : Nat) (f : HostEp → HostEp) : (updHost s e f).tu = s.tu := rfl
@[simp] theorem updHost_routes (s : State) (e : Nat) (f : HostEp → HostEp) : (updHost s e f).routes = s.routes := rfl
@[simp] theorem updHost_snap (s : State) (e : Nat) (f : HostEp → HostEp) : (updHost s e f).snap = s.snap := rfl
@[simp] theorem updHost_ctrs (s : State) (e : Nat) (f : HostEp → HostEp) : (updHost s e f).ctrs = s.ctrs := rfl
@[simp] theorem updHost_quads (s : State) (e : Nat) (f : HostEp → HostEp) : (updHost s e f).quads = s.quads := rfl
@[simp] theorem updHost_fns (s : State) (e : Nat) (f : HostEp → HostEp) : (updHost s e f).fns = s.fns := rfl
@[simp] theorem updHost_insts (s : State) (e : Nat) (f : HostEp → HostEp) : (updHost s e f).insts = s.insts := rfl
@[simp] theorem updHost_masters (s : State) (e : Nat) (f : HostEp → HostEp) : (updHost s e f).masters = s.masters := rfl
@[simp] theorem updHost_access (s : State) (e : Nat) (f : HostEp → HostEp) : (updHost s e f).access = s.access := rfl
@[simp] theorem updHost_cmds (s : State) (e : Nat) (f : HostEp → HostEp) : (updHost s e f).cmds = s.cmds := rfl
@[simp] theorem updHost_ep (s : State) (e : Nat) (f : HostEp → HostEp) : (updHost s e f).ep = s.ep := rfl
@[simp] theorem updHost_chain (s : State) (e : Nat) (f : HostEp → HostEp) : (updHost s e f).chain = s.chain := rfl
@[simp] theorem updHost_grp (s : State) (e : Nat) (f : HostEp → HostEp) : (updHost s e f).grp = s.grp := rfl
@[simp] theorem updHost_recd (s : State) (e : Nat) (f : HostEp → HostEp) : (updHost s e f).recd = s.recd := rfl
@[simp] theorem updHost_tele (s : State) (e : Nat) (f : HostEp → HostEp) : (updHost s e f).tele = s.tele := rfl
@[simp] theorem updHost_teleFt (s : State) (e : Nat) (f : HostEp → HostEp) : (updHost s e f).teleFt = s.teleFt := rfl
@[simp] theorem updHost_life (s : State) (e : Nat) (f : HostEp → HostEp) : (updHost s e f).life = s.life := rfl
@[simp] theorem updHost_lifePart (s : State) (e : Nat) (f : HostEp → HostEp) : (updHost s e f).lifePart = s.lifePart := rfl
@[simp] theorem updHost_mram (s : State) (e : Nat) (f : HostEp → HostEp) : (updHost s e f).mram = s.mram := rfl
@[simp] theorem updHost_pstepC (s : State) (e : Nat) (f : HostEp → HostEp) : (updHost s e f).pstepC = s.pstepC := rfl
@[simp] theorem updHost_pstepS (s : State) (e : Nat) (f : HostEp → HostEp) : (updHost s e f).pstepS = s.pstepS := rfl
@[simp] theorem updHost_therm (s : State) (e : Nat) (f : HostEp → HostEp) : (updHost s e f).therm = s.therm := rfl
@[simp] theorem updHost_pins (s : State) (e : Nat) (f : HostEp → HostEp) : (updHost s e f).pins = s.pins := rfl
@[simp] theorem updHost_out (s : State) (e : Nat) (f : HostEp → HostEp) : (updHost s e f).out = s.out := rfl
@[simp] theorem updHost_free (s : State) (e : Nat) (f : HostEp → HostEp) : (updHost s e f).free = s.free := rfl
@[simp] theorem updHost_pending (s : State) (e : Nat) (f : HostEp → HostEp) : (updHost s e f).pending = s.pending := rfl
@[simp] theorem updHost_lane (s : State) (e j : Nat) (f : HostEp → HostEp) : (updHost s e f).lane j = s.lane j := rfl
@[simp] theorem updHost_octet (s : State) (e j : Nat) (f : HostEp → HostEp) : (updHost s e f).octet j = s.octet j := rfl
@[simp] theorem updHost_port (s : State) (e j : Nat) (f : HostEp → HostEp) : (updHost s e f).port j = s.port j := rfl
@[simp] theorem updHost_quad (s : State) (e j : Nat) (f : HostEp → HostEp) : (updHost s e f).quad j = s.quad j := rfl
@[simp] theorem updHost_fn (s : State) (e j : Nat) (f : HostEp → HostEp) : (updHost s e f).fn j = s.fn j := rfl
@[simp] theorem updHost_inst (s : State) (e j : Nat) (f : HostEp → HostEp) : (updHost s e f).inst j = s.inst j := rfl
@[simp] theorem updHost_master (s : State) (e j : Nat) (f : HostEp → HostEp) : (updHost s e f).master j = s.master j := rfl
@[simp] theorem updFn_fn_self (s : State) (m : Nat) (f : Fn → Fn) : (updFn s m f).fn m = f (s.fn m) := by
  simp [updFn, State.fn]
theorem updFn_fn_ne (s : State) (m j : Nat) (f : Fn → Fn) (h : j ≠ m) : (updFn s m f).fn j = s.fn j :=
  Tbl.get_upd_ne _ _ _ _ h
theorem updFn_fn (s : State) (m j : Nat) (f : Fn → Fn) : (updFn s m f).fn j = if j = m then f (s.fn m) else s.fn j :=
  Tbl.get_upd _ _ _ _
@[simp] theorem updFn_ident (s : State) (m : Nat) (f : Fn → Fn) : (updFn s m f).ident = s.ident := rfl
@[simp] theorem updFn_clk (s : State) (m : Nat) (f : Fn → Fn) : (updFn s m f).clk = s.clk := rfl
@[simp] theorem updFn_boot (s : State) (m : Nat) (f : Fn → Fn) : (updFn s m f).boot = s.boot := rfl
@[simp] theorem updFn_cfg (s : State) (m : Nat) (f : Fn → Fn) : (updFn s m f).cfg = s.cfg := rfl
@[simp] theorem updFn_cfgOld (s : State) (m : Nat) (f : Fn → Fn) : (updFn s m f).cfgOld = s.cfgOld := rfl
@[simp] theorem updFn_hostMode (s : State) (m : Nat) (f : Fn → Fn) : (updFn s m f).hostMode = s.hostMode := rfl
@[simp] theorem updFn_profile (s : State) (m : Nat) (f : Fn → Fn) : (updFn s m f).profile = s.profile := rfl
@[simp] theorem updFn_lanes (s : State) (m : Nat) (f : Fn → Fn) : (updFn s m f).lanes = s.lanes := rfl
@[simp] theorem updFn_octets (s : State) (m : Nat) (f : Fn → Fn) : (updFn s m f).octets = s.octets := rfl
@[simp] theorem updFn_ports (s : State) (m : Nat) (f : Fn → Fn) : (updFn s m f).ports = s.ports := rfl
@[simp] theorem updFn_tu (s : State) (m : Nat) (f : Fn → Fn) : (updFn s m f).tu = s.tu := rfl
@[simp] theorem updFn_routes (s : State) (m : Nat) (f : Fn → Fn) : (updFn s m f).routes = s.routes := rfl
@[simp] theorem updFn_snap (s : State) (m : Nat) (f : Fn → Fn) : (updFn s m f).snap = s.snap := rfl
@[simp] theorem updFn_ctrs (s : State) (m : Nat) (f : Fn → Fn) : (updFn s m f).ctrs = s.ctrs := rfl
@[simp] theorem updFn_quads (s : State) (m : Nat) (f : Fn → Fn) : (updFn s m f).quads = s.quads := rfl
@[simp] theorem updFn_eps (s : State) (m : Nat) (f : Fn → Fn) : (updFn s m f).eps = s.eps := rfl
@[simp] theorem updFn_insts (s : State) (m : Nat) (f : Fn → Fn) : (updFn s m f).insts = s.insts := rfl
@[simp] theorem updFn_masters (s : State) (m : Nat) (f : Fn → Fn) : (updFn s m f).masters = s.masters := rfl
@[simp] theorem updFn_access (s : State) (m : Nat) (f : Fn → Fn) : (updFn s m f).access = s.access := rfl
@[simp] theorem updFn_cmds (s : State) (m : Nat) (f : Fn → Fn) : (updFn s m f).cmds = s.cmds := rfl
@[simp] theorem updFn_ep (s : State) (m : Nat) (f : Fn → Fn) : (updFn s m f).ep = s.ep := rfl
@[simp] theorem updFn_chain (s : State) (m : Nat) (f : Fn → Fn) : (updFn s m f).chain = s.chain := rfl
@[simp] theorem updFn_grp (s : State) (m : Nat) (f : Fn → Fn) : (updFn s m f).grp = s.grp := rfl
@[simp] theorem updFn_recd (s : State) (m : Nat) (f : Fn → Fn) : (updFn s m f).recd = s.recd := rfl
@[simp] theorem updFn_tele (s : State) (m : Nat) (f : Fn → Fn) : (updFn s m f).tele = s.tele := rfl
@[simp] theorem updFn_teleFt (s : State) (m : Nat) (f : Fn → Fn) : (updFn s m f).teleFt = s.teleFt := rfl
@[simp] theorem updFn_life (s : State) (m : Nat) (f : Fn → Fn) : (updFn s m f).life = s.life := rfl
@[simp] theorem updFn_lifePart (s : State) (m : Nat) (f : Fn → Fn) : (updFn s m f).lifePart = s.lifePart := rfl
@[simp] theorem updFn_mram (s : State) (m : Nat) (f : Fn → Fn) : (updFn s m f).mram = s.mram := rfl
@[simp] theorem updFn_pstepC (s : State) (m : Nat) (f : Fn → Fn) : (updFn s m f).pstepC = s.pstepC := rfl
@[simp] theorem updFn_pstepS (s : State) (m : Nat) (f : Fn → Fn) : (updFn s m f).pstepS = s.pstepS := rfl
@[simp] theorem updFn_therm (s : State) (m : Nat) (f : Fn → Fn) : (updFn s m f).therm = s.therm := rfl
@[simp] theorem updFn_pins (s : State) (m : Nat) (f : Fn → Fn) : (updFn s m f).pins = s.pins := rfl
@[simp] theorem updFn_out (s : State) (m : Nat) (f : Fn → Fn) : (updFn s m f).out = s.out := rfl
@[simp] theorem updFn_free (s : State) (m : Nat) (f : Fn → Fn) : (updFn s m f).free = s.free := rfl
@[simp] theorem updFn_pending (s : State) (m : Nat) (f : Fn → Fn) : (updFn s m f).pending = s.pending := rfl
@[simp] theorem updFn_lane (s : State) (m j : Nat) (f : Fn → Fn) : (updFn s m f).lane j = s.lane j := rfl
@[simp] theorem updFn_octet (s : State) (m j : Nat) (f : Fn → Fn) : (updFn s m f).octet j = s.octet j := rfl
@[simp] theorem updFn_port (s : State) (m j : Nat) (f : Fn → Fn) : (updFn s m f).port j = s.port j := rfl
@[simp] theorem updFn_quad (s : State) (m j : Nat) (f : Fn → Fn) : (updFn s m f).quad j = s.quad j := rfl
@[simp] theorem updFn_hostEp (s : State) (m j : Nat) (f : Fn → Fn) : (updFn s m f).hostEp j = s.hostEp j := rfl
@[simp] theorem updFn_inst (s : State) (m j : Nat) (f : Fn → Fn) : (updFn s m f).inst j = s.inst j := rfl
@[simp] theorem updFn_master (s : State) (m j : Nat) (f : Fn → Fn) : (updFn s m f).master j = s.master j := rfl
@[simp] theorem updInst_inst_self (s : State) (m : Nat) (f : Inst → Inst) : (updInst s m f).inst m = f (s.inst m) := by
  simp [updInst, State.inst]
theorem updInst_inst_ne (s : State) (m j : Nat) (f : Inst → Inst) (h : j ≠ m) : (updInst s m f).inst j = s.inst j :=
  Tbl.get_upd_ne _ _ _ _ h
theorem updInst_inst (s : State) (m j : Nat) (f : Inst → Inst) : (updInst s m f).inst j = if j = m then f (s.inst m) else s.inst j :=
  Tbl.get_upd _ _ _ _
@[simp] theorem updInst_ident (s : State) (m : Nat) (f : Inst → Inst) : (updInst s m f).ident = s.ident := rfl
@[simp] theorem updInst_clk (s : State) (m : Nat) (f : Inst → Inst) : (updInst s m f).clk = s.clk := rfl
@[simp] theorem updInst_boot (s : State) (m : Nat) (f : Inst → Inst) : (updInst s m f).boot = s.boot := rfl
@[simp] theorem updInst_cfg (s : State) (m : Nat) (f : Inst → Inst) : (updInst s m f).cfg = s.cfg := rfl
@[simp] theorem updInst_cfgOld (s : State) (m : Nat) (f : Inst → Inst) : (updInst s m f).cfgOld = s.cfgOld := rfl
@[simp] theorem updInst_hostMode (s : State) (m : Nat) (f : Inst → Inst) : (updInst s m f).hostMode = s.hostMode := rfl
@[simp] theorem updInst_profile (s : State) (m : Nat) (f : Inst → Inst) : (updInst s m f).profile = s.profile := rfl
@[simp] theorem updInst_lanes (s : State) (m : Nat) (f : Inst → Inst) : (updInst s m f).lanes = s.lanes := rfl
@[simp] theorem updInst_octets (s : State) (m : Nat) (f : Inst → Inst) : (updInst s m f).octets = s.octets := rfl
@[simp] theorem updInst_ports (s : State) (m : Nat) (f : Inst → Inst) : (updInst s m f).ports = s.ports := rfl
@[simp] theorem updInst_tu (s : State) (m : Nat) (f : Inst → Inst) : (updInst s m f).tu = s.tu := rfl
@[simp] theorem updInst_routes (s : State) (m : Nat) (f : Inst → Inst) : (updInst s m f).routes = s.routes := rfl
@[simp] theorem updInst_snap (s : State) (m : Nat) (f : Inst → Inst) : (updInst s m f).snap = s.snap := rfl
@[simp] theorem updInst_ctrs (s : State) (m : Nat) (f : Inst → Inst) : (updInst s m f).ctrs = s.ctrs := rfl
@[simp] theorem updInst_quads (s : State) (m : Nat) (f : Inst → Inst) : (updInst s m f).quads = s.quads := rfl
@[simp] theorem updInst_eps (s : State) (m : Nat) (f : Inst → Inst) : (updInst s m f).eps = s.eps := rfl
@[simp] theorem updInst_fns (s : State) (m : Nat) (f : Inst → Inst) : (updInst s m f).fns = s.fns := rfl
@[simp] theorem updInst_masters (s : State) (m : Nat) (f : Inst → Inst) : (updInst s m f).masters = s.masters := rfl
@[simp] theorem updInst_access (s : State) (m : Nat) (f : Inst → Inst) : (updInst s m f).access = s.access := rfl
@[simp] theorem updInst_cmds (s : State) (m : Nat) (f : Inst → Inst) : (updInst s m f).cmds = s.cmds := rfl
@[simp] theorem updInst_ep (s : State) (m : Nat) (f : Inst → Inst) : (updInst s m f).ep = s.ep := rfl
@[simp] theorem updInst_chain (s : State) (m : Nat) (f : Inst → Inst) : (updInst s m f).chain = s.chain := rfl
@[simp] theorem updInst_grp (s : State) (m : Nat) (f : Inst → Inst) : (updInst s m f).grp = s.grp := rfl
@[simp] theorem updInst_recd (s : State) (m : Nat) (f : Inst → Inst) : (updInst s m f).recd = s.recd := rfl
@[simp] theorem updInst_tele (s : State) (m : Nat) (f : Inst → Inst) : (updInst s m f).tele = s.tele := rfl
@[simp] theorem updInst_teleFt (s : State) (m : Nat) (f : Inst → Inst) : (updInst s m f).teleFt = s.teleFt := rfl
@[simp] theorem updInst_life (s : State) (m : Nat) (f : Inst → Inst) : (updInst s m f).life = s.life := rfl
@[simp] theorem updInst_lifePart (s : State) (m : Nat) (f : Inst → Inst) : (updInst s m f).lifePart = s.lifePart := rfl
@[simp] theorem updInst_mram (s : State) (m : Nat) (f : Inst → Inst) : (updInst s m f).mram = s.mram := rfl
@[simp] theorem updInst_pstepC (s : State) (m : Nat) (f : Inst → Inst) : (updInst s m f).pstepC = s.pstepC := rfl
@[simp] theorem updInst_pstepS (s : State) (m : Nat) (f : Inst → Inst) : (updInst s m f).pstepS = s.pstepS := rfl
@[simp] theorem updInst_therm (s : State) (m : Nat) (f : Inst → Inst) : (updInst s m f).therm = s.therm := rfl
@[simp] theorem updInst_pins (s : State) (m : Nat) (f : Inst → Inst) : (updInst s m f).pins = s.pins := rfl
@[simp] theorem updInst_out (s : State) (m : Nat) (f : Inst → Inst) : (updInst s m f).out = s.out := rfl
@[simp] theorem updInst_free (s : State) (m : Nat) (f : Inst → Inst) : (updInst s m f).free = s.free := rfl
@[simp] theorem updInst_pending (s : State) (m : Nat) (f : Inst → Inst) : (updInst s m f).pending = s.pending := rfl
@[simp] theorem updInst_lane (s : State) (m j : Nat) (f : Inst → Inst) : (updInst s m f).lane j = s.lane j := rfl
@[simp] theorem updInst_octet (s : State) (m j : Nat) (f : Inst → Inst) : (updInst s m f).octet j = s.octet j := rfl
@[simp] theorem updInst_port (s : State) (m j : Nat) (f : Inst → Inst) : (updInst s m f).port j = s.port j := rfl
@[simp] theorem updInst_quad (s : State) (m j : Nat) (f : Inst → Inst) : (updInst s m f).quad j = s.quad j := rfl
@[simp] theorem updInst_hostEp (s : State) (m j : Nat) (f : Inst → Inst) : (updInst s m f).hostEp j = s.hostEp j := rfl
@[simp] theorem updInst_fn (s : State) (m j : Nat) (f : Inst → Inst) : (updInst s m f).fn j = s.fn j := rfl
@[simp] theorem updInst_master (s : State) (m j : Nat) (f : Inst → Inst) : (updInst s m f).master j = s.master j := rfl
@[simp] theorem updMaster_master_self (s : State) (m : Nat) (f : Master → Master) : (updMaster s m f).master m = f (s.master m) := by
  simp [updMaster, State.master]
theorem updMaster_master_ne (s : State) (m j : Nat) (f : Master → Master) (h : j ≠ m) : (updMaster s m f).master j = s.master j :=
  Tbl.get_upd_ne _ _ _ _ h
theorem updMaster_master (s : State) (m j : Nat) (f : Master → Master) : (updMaster s m f).master j = if j = m then f (s.master m) else s.master j :=
  Tbl.get_upd _ _ _ _
@[simp] theorem updMaster_ident (s : State) (m : Nat) (f : Master → Master) : (updMaster s m f).ident = s.ident := rfl
@[simp] theorem updMaster_clk (s : State) (m : Nat) (f : Master → Master) : (updMaster s m f).clk = s.clk := rfl
@[simp] theorem updMaster_boot (s : State) (m : Nat) (f : Master → Master) : (updMaster s m f).boot = s.boot := rfl
@[simp] theorem updMaster_cfg (s : State) (m : Nat) (f : Master → Master) : (updMaster s m f).cfg = s.cfg := rfl
@[simp] theorem updMaster_cfgOld (s : State) (m : Nat) (f : Master → Master) : (updMaster s m f).cfgOld = s.cfgOld := rfl
@[simp] theorem updMaster_hostMode (s : State) (m : Nat) (f : Master → Master) : (updMaster s m f).hostMode = s.hostMode := rfl
@[simp] theorem updMaster_profile (s : State) (m : Nat) (f : Master → Master) : (updMaster s m f).profile = s.profile := rfl
@[simp] theorem updMaster_lanes (s : State) (m : Nat) (f : Master → Master) : (updMaster s m f).lanes = s.lanes := rfl
@[simp] theorem updMaster_octets (s : State) (m : Nat) (f : Master → Master) : (updMaster s m f).octets = s.octets := rfl
@[simp] theorem updMaster_ports (s : State) (m : Nat) (f : Master → Master) : (updMaster s m f).ports = s.ports := rfl
@[simp] theorem updMaster_tu (s : State) (m : Nat) (f : Master → Master) : (updMaster s m f).tu = s.tu := rfl
@[simp] theorem updMaster_routes (s : State) (m : Nat) (f : Master → Master) : (updMaster s m f).routes = s.routes := rfl
@[simp] theorem updMaster_snap (s : State) (m : Nat) (f : Master → Master) : (updMaster s m f).snap = s.snap := rfl
@[simp] theorem updMaster_ctrs (s : State) (m : Nat) (f : Master → Master) : (updMaster s m f).ctrs = s.ctrs := rfl
@[simp] theorem updMaster_quads (s : State) (m : Nat) (f : Master → Master) : (updMaster s m f).quads = s.quads := rfl
@[simp] theorem updMaster_eps (s : State) (m : Nat) (f : Master → Master) : (updMaster s m f).eps = s.eps := rfl
@[simp] theorem updMaster_fns (s : State) (m : Nat) (f : Master → Master) : (updMaster s m f).fns = s.fns := rfl
@[simp] theorem updMaster_insts (s : State) (m : Nat) (f : Master → Master) : (updMaster s m f).insts = s.insts := rfl
@[simp] theorem updMaster_access (s : State) (m : Nat) (f : Master → Master) : (updMaster s m f).access = s.access := rfl
@[simp] theorem updMaster_cmds (s : State) (m : Nat) (f : Master → Master) : (updMaster s m f).cmds = s.cmds := rfl
@[simp] theorem updMaster_ep (s : State) (m : Nat) (f : Master → Master) : (updMaster s m f).ep = s.ep := rfl
@[simp] theorem updMaster_chain (s : State) (m : Nat) (f : Master → Master) : (updMaster s m f).chain = s.chain := rfl
@[simp] theorem updMaster_grp (s : State) (m : Nat) (f : Master → Master) : (updMaster s m f).grp = s.grp := rfl
@[simp] theorem updMaster_recd (s : State) (m : Nat) (f : Master → Master) : (updMaster s m f).recd = s.recd := rfl
@[simp] theorem updMaster_tele (s : State) (m : Nat) (f : Master → Master) : (updMaster s m f).tele = s.tele := rfl
@[simp] theorem updMaster_teleFt (s : State) (m : Nat) (f : Master → Master) : (updMaster s m f).teleFt = s.teleFt := rfl
@[simp] theorem updMaster_life (s : State) (m : Nat) (f : Master → Master) : (updMaster s m f).life = s.life := rfl
@[simp] theorem updMaster_lifePart (s : State) (m : Nat) (f : Master → Master) : (updMaster s m f).lifePart = s.lifePart := rfl
@[simp] theorem updMaster_mram (s : State) (m : Nat) (f : Master → Master) : (updMaster s m f).mram = s.mram := rfl
@[simp] theorem updMaster_pstepC (s : State) (m : Nat) (f : Master → Master) : (updMaster s m f).pstepC = s.pstepC := rfl
@[simp] theorem updMaster_pstepS (s : State) (m : Nat) (f : Master → Master) : (updMaster s m f).pstepS = s.pstepS := rfl
@[simp] theorem updMaster_therm (s : State) (m : Nat) (f : Master → Master) : (updMaster s m f).therm = s.therm := rfl
@[simp] theorem updMaster_pins (s : State) (m : Nat) (f : Master → Master) : (updMaster s m f).pins = s.pins := rfl
@[simp] theorem updMaster_out (s : State) (m : Nat) (f : Master → Master) : (updMaster s m f).out = s.out := rfl
@[simp] theorem updMaster_free (s : State) (m : Nat) (f : Master → Master) : (updMaster s m f).free = s.free := rfl
@[simp] theorem updMaster_pending (s : State) (m : Nat) (f : Master → Master) : (updMaster s m f).pending = s.pending := rfl
@[simp] theorem updMaster_lane (s : State) (m j : Nat) (f : Master → Master) : (updMaster s m f).lane j = s.lane j := rfl
@[simp] theorem updMaster_octet (s : State) (m j : Nat) (f : Master → Master) : (updMaster s m f).octet j = s.octet j := rfl
@[simp] theorem updMaster_port (s : State) (m j : Nat) (f : Master → Master) : (updMaster s m f).port j = s.port j := rfl
@[simp] theorem updMaster_quad (s : State) (m j : Nat) (f : Master → Master) : (updMaster s m f).quad j = s.quad j := rfl
@[simp] theorem updMaster_hostEp (s : State) (m j : Nat) (f : Master → Master) : (updMaster s m f).hostEp j = s.hostEp j := rfl
@[simp] theorem updMaster_fn (s : State) (m j : Nat) (f : Master → Master) : (updMaster s m f).fn j = s.fn j := rfl
@[simp] theorem updMaster_inst (s : State) (m j : Nat) (f : Master → Master) : (updMaster s m f).inst j = s.inst j := rfl
@[simp] theorem emit_ident (s : State) (o : Out) : (emit s o).ident = s.ident := rfl
@[simp] theorem emit_clk (s : State) (o : Out) : (emit s o).clk = s.clk := rfl
@[simp] theorem emit_boot (s : State) (o : Out) : (emit s o).boot = s.boot := rfl
@[simp] theorem emit_cfg (s : State) (o : Out) : (emit s o).cfg = s.cfg := rfl
@[simp] theorem emit_cfgOld (s : State) (o : Out) : (emit s o).cfgOld = s.cfgOld := rfl
@[simp] theorem emit_hostMode (s : State) (o : Out) : (emit s o).hostMode = s.hostMode := rfl
@[simp] theorem emit_profile (s : State) (o : Out) : (emit s o).profile = s.profile := rfl
@[simp] theorem emit_lanes (s : State) (o : Out) : (emit s o).lanes = s.lanes := rfl
@[simp] theorem emit_octets (s : State) (o : Out) : (emit s o).octets = s.octets := rfl
@[simp] theorem emit_ports (s : State) (o : Out) : (emit s o).ports = s.ports := rfl
@[simp] theorem emit_tu (s : State) (o : Out) : (emit s o).tu = s.tu := rfl
@[simp] theorem emit_routes (s : State) (o : Out) : (emit s o).routes = s.routes := rfl
@[simp] theorem emit_snap (s : State) (o : Out) : (emit s o).snap = s.snap := rfl
@[simp] theorem emit_ctrs (s : State) (o : Out) : (emit s o).ctrs = s.ctrs := rfl
@[simp] theorem emit_quads (s : State) (o : Out) : (emit s o).quads = s.quads := rfl
@[simp] theorem emit_eps (s : State) (o : Out) : (emit s o).eps = s.eps := rfl
@[simp] theorem emit_fns (s : State) (o : Out) : (emit s o).fns = s.fns := rfl
@[simp] theorem emit_insts (s : State) (o : Out) : (emit s o).insts = s.insts := rfl
@[simp] theorem emit_masters (s : State) (o : Out) : (emit s o).masters = s.masters := rfl
@[simp] theorem emit_access (s : State) (o : Out) : (emit s o).access = s.access := rfl
@[simp] theorem emit_cmds (s : State) (o : Out) : (emit s o).cmds = s.cmds := rfl
@[simp] theorem emit_ep (s : State) (o : Out) : (emit s o).ep = s.ep := rfl
@[simp] theorem emit_chain (s : State) (o : Out) : (emit s o).chain = s.chain := rfl
@[simp] theorem emit_grp (s : State) (o : Out) : (emit s o).grp = s.grp := rfl
@[simp] theorem emit_recd (s : State) (o : Out) : (emit s o).recd = s.recd := rfl
@[simp] theorem emit_tele (s : State) (o : Out) : (emit s o).tele = s.tele := rfl
@[simp] theorem emit_teleFt (s : State) (o : Out) : (emit s o).teleFt = s.teleFt := rfl
@[simp] theorem emit_life (s : State) (o : Out) : (emit s o).life = s.life := rfl
@[simp] theorem emit_lifePart (s : State) (o : Out) : (emit s o).lifePart = s.lifePart := rfl
@[simp] theorem emit_mram (s : State) (o : Out) : (emit s o).mram = s.mram := rfl
@[simp] theorem emit_pstepC (s : State) (o : Out) : (emit s o).pstepC = s.pstepC := rfl
@[simp] theorem emit_pstepS (s : State) (o : Out) : (emit s o).pstepS = s.pstepS := rfl
@[simp] theorem emit_therm (s : State) (o : Out) : (emit s o).therm = s.therm := rfl
@[simp] theorem emit_pins (s : State) (o : Out) : (emit s o).pins = s.pins := rfl
@[simp] theorem emit_free (s : State) (o : Out) : (emit s o).free = s.free := rfl
@[simp] theorem emit_pending (s : State) (o : Out) : (emit s o).pending = s.pending := rfl
@[simp] theorem emit_out (s : State) (o : Out) : (emit s o).out = s.out ++ [o] := rfl
@[simp] theorem emit_lane (s : State) (o : Out) (j : Nat) : (emit s o).lane j = s.lane j := rfl
@[simp] theorem emit_octet (s : State) (o : Out) (j : Nat) : (emit s o).octet j = s.octet j := rfl
@[simp] theorem emit_port (s : State) (o : Out) (j : Nat) : (emit s o).port j = s.port j := rfl
@[simp] theorem emit_quad (s : State) (o : Out) (j : Nat) : (emit s o).quad j = s.quad j := rfl
@[simp] theorem emit_hostEp (s : State) (o : Out) (j : Nat) : (emit s o).hostEp j = s.hostEp j := rfl
@[simp] theorem emit_fn (s : State) (o : Out) (j : Nat) : (emit s o).fn j = s.fn j := rfl
@[simp] theorem emit_inst (s : State) (o : Out) (j : Nat) : (emit s o).inst j = s.inst j := rfl
@[simp] theorem emit_master (s : State) (o : Out) (j : Nat) : (emit s o).master j = s.master j := rfl

end Sys2Proof.Machine
end

