-- ==== Sys2Proof/Laws/Regs.lean ====
section
/-! SUPPORT. Which block an offset of the register space lies in, for the masters that see the whole space, and an access through an
access table that grants it. -/

namespace Sys2Proof.Machine

theorem msixSpan_le (s : State) (m : Nat) : msixSpan s m ≤ 0x8000 := by unfold msixSpan; split <;> omega

/-- The status block of a master with an instance of its own. -/
theorem blockOf_status (s : State) (m off : Nat) (h : hasInst s m = true) (h1 : 0x1000 ≤ off) (h2 : off < 0x2000) :
    blockOf s m off = some (.status, off - 0x1000) := by
  unfold blockOf
  simp only [h, if_true]
  rw [if_neg (by omega), if_pos h2]

/-- The mailbox of a master with an instance of its own. -/
theorem blockOf_mailbox (s : State) (m off : Nat) (h : hasInst s m = true) (v : isVf s m = false) (h1 : 0x10000 ≤ off) (h2 : off < 0x13000) :
    blockOf s m off = some (.mailbox, off - 0x10000) := by
  have := msixSpan_le s m
  unfold blockOf
  simp only [h, v, if_true, Bool.false_eq_true, if_false]
  repeat rw [if_neg (by omega)]
  rw [if_pos ⟨h1, h2⟩]

/-- [R85] the windows of 4 KiB that a board master, a physical function and Molzu share, with their bases. -/
def sharedWindows : List (Block × Nat) :=
  [(.chsel, 0x20000), (.portW, 0x30000), (.laneW, 0x31000), (.octetW, 0x32000), (.hostW, 0x33000), (.shaperW, 0x34000), (.counterW, 0x35000),
   (.time, 0x40000), (.event, 0x50000)]

/-- An offset inside a shared window lies in its block, for every master but a virtual function. -/
theorem blockOf_shared (s : State) (m off base : Nat) (b : Block) (w : (b, base) ∈ sharedWindows) (v : isVf s m = false) (h1 : base ≤ off)
    (h2 : off < base + 0x1000) : blockOf s m off = some (b, off - base) := by
  have := msixSpan_le s m
  simp only [sharedWindows, List.mem_cons, Prod.mk.injEq, List.not_mem_nil, or_false] at w
  unfold blockOf
  simp only [v, Bool.false_eq_true, if_false]
  rcases w with w | w | w | w | w | w | w | w | w <;> obtain ⟨rfl, rfl⟩ := w <;>
    (repeat rw [if_neg (by omega)]) <;> rw [if_pos ⟨h1, h2⟩]

/-- [R96 R118] a write that its access table grants reaches the block. -/
theorem write32_granted (s : State) (m off v t : Nat) (b : Block) (o : Nat) (hb : blockOf s m off = some (b, o)) (ht : b.target = some t)
    (ha : allowed s m t true = true) : write32 s m off v = writeBlock s m b o v := by
  simp [write32, hb, ht, ha]

/-- [R96 R118] a write to a block without an access table. -/
theorem write32_open (s : State) (m off v : Nat) (b : Block) (o : Nat) (hb : blockOf s m off = some (b, o)) (ht : b.target = none) :
    write32 s m off v = writeBlock s m b o v := by
  simp [write32, hb, ht]

/-- [R96 R118] a read that its access table grants reaches the block. -/
theorem read32_granted (s : State) (m off t : Nat) (b : Block) (o : Nat) (hb : blockOf s m off = some (b, o)) (ht : b.target = some t)
    (ha : allowed s m t false = true) : read32 s m off = readBlock s m b o := by
  simp [read32, hb, ht, ha]

/-- [R96 R118] a read of a block without an access table. -/
theorem read32_open (s : State) (m off : Nat) (b : Block) (o : Nat) (hb : blockOf s m off = some (b, o)) (ht : b.target = none) :
    read32 s m off = readBlock s m b o := by
  simp [read32, hb, ht]

/-- [R118] a read that its access table denies returns all ones. -/
theorem read32_denied (s : State) (m off t : Nat) (b : Block) (o : Nat) (hb : blockOf s m off = some (b, o)) (ht : b.target = some t)
    (ha : allowed s m t false = false) : (read32 s m off).1 = 0xFFFFFFFF := by
  simp [read32, hb, ht, ha, ones32]

end Sys2Proof.Machine
end

