-- ==== Sys2Proof/Laws/Tick.lean ====
section
/-! SUPPORT. What a tick leaves unchanged: it advances the clocks, ends and starts PPS pulses, works off a source's slew, and lets the ports send
what they owe and the engines go on. -/

namespace Sys2Proof.Machine

theorem advanceFt_frame (s : State) : advanceFt s = { s with clk := (advanceFt s).clk, tu := (advanceFt s).tu } := rfl

theorem advanceFt_now (s : State) : (advanceFt s).clk.now = s.clk.now := rfl

theorem advanceVigil_frame (s : State) : advanceVigil s = { s with clk := (advanceVigil s).clk } := by
  unfold advanceVigil; split <;> rfl

theorem advanceVigil_now (s : State) : (advanceVigil s).clk.now = s.clk.now := by
  unfold advanceVigil; split <;> rfl

theorem endPps_frame (s : State) : endPps s = { s with tu := (endPps s).tu, out := (endPps s).out } := by
  unfold endPps; split
  · rfl
  · split <;> rfl

theorem portFreed_idleLtbs (s : State) (p : Nat) : portFreePart (idleLtbs s p) = portFreePart s := by
  unfold idleLtbs
  dsimp only
  (repeat' split) <;> simp

theorem portFreed_padLtb (s : State) (p : Nat) : portFreePart (padLtb s p) = portFreePart s := by
  unfold padLtb; split <;> simp

theorem portFreed_repeatMap (s : State) (p : Nat) : portFreePart (repeatMap s p) = portFreePart s := by
  unfold repeatMap; split <;> simp

/-- A port's part of a tick touches neither the host endpoints nor anything on the control side. -/
theorem portFreed_portTick (s : State) (p : Nat) : portFreePart (portTick s p) = portFreePart s := by
  unfold portTick
  rw [portFreed_repeatMap, portFreed_idleLtbs, portFreed_padLtb]

@[simp] theorem hostSided_beginWritebacks (s : State) : hostSidePart (beginWritebacks s) = hostSidePart s := by
  unfold beginWritebacks
  exact hostSided_foldS _ _ _ (fun _ _ => by simp)

/-- What the engines do in a tick leaves the settings, the routes, the chain and the mailbox queue as they were. -/
theorem controlled_engineTick (s : State) : controlPart (engineTick s) = controlPart s := by
  unfold engineTick
  refine controlled_of_hostSided ?_
  simp

/-- A tick leaves the settings, the routes, the chain and the mailbox queue as they were, one nanosecond later. -/
theorem controlled_tick (s : State) : controlPart (tick s) = controlPart { s with clk := { s.clk with now := s.clk.now + 1 } } := by
  unfold tick
  dsimp only
  refine (controlled_engineTick _).trans ((controlled_of_portFreed (portFreed_foldS _ _ _ portFreed_portTick)).trans ?_)
  split
  · rw [endPps_frame, advanceFt_frame, advanceVigil_frame]; simp [controlPart, advanceFt_now, advanceVigil_now]
  · rw [advanceVigil_frame]; simp [controlPart, advanceVigil_now]

theorem tick_now (s : State) : (tick s).clk.now = s.clk.now + 1 :=
  have h := congrArg (fun x => x.2.2.1) (controlled_tick s)
  by simpa only [controlPart] using h

end Sys2Proof.Machine
end

