-- ==== Sys2Proof/Tests/Slice0.lean ====
section
/-! SUPPORT. Tests of the model on small states, the smoke test of the well-formedness checks, and for every statement with
hypotheses a theorem that states and operands meet them. -/

set_option linter.unusedVariables false
set_option linter.unusedSimpArgs false

namespace Sys2Proof.Tests

open Sys2Proof Sys2Proof.Machine

set_option Elab.async false

/-! ### States and operands the witnesses are made of -/

def wStraps : Straps := { chainHead := false, bootSrc := 0, mgrEligible := false, feaStrapEn := false, smbAddr := 0 }
/-- A device in a cold start with the given steps done. -/
def wBoot (b : BootSteps) : State := { State.reset with boot := { power := .run, porst := false, flashGnt := false, steps := b } }
/-- A device whose start-up state is `b`. -/
def wBootOf (b : Boot) : State := { State.reset with boot := b }
/-- An image that passes every check. -/
def wImage : Image :=
  { magicOk := true, formatOk := true, imageLen := 4096, keySlot := 0, pubkeyHashOk := true, sigOk := true, golden := false, svn := 0,
    version := 1, profiles := 1, variants := 3, sha := 7 }
/-- A Molzu restart that has come to its image in slot A. -/
def wRestart : State := wBootOf { power := .run, porst := false, flashGnt := false, fwRestarting := true, steps := { started := true } }
/-- A ready device held by WARM_RST_N. -/
def wWarmHeld : State := wBootOf { power := .run, porst := false, flashGnt := false, warmRst := true, readySinceCold := true, calibHbm := 0xF }
/-- A device whose host endpoint 0 has its link up and whose first PF0 is a bus master. -/
def wHost : State :=
  { State.reset with
    eps := { dflt := {}, cells := [(0, { linkUp := true, cfgReady := true })] }
    fns := { dflt := {}, cells := [(0x100, { bme := true })] } }
/-- A device whose first PF0 is within an FLR. -/
def wFlr : State := { State.reset with fns := { dflt := {}, cells := [(0x100, { flrBusy := true })] } }
/-- A device whose every target grants every master. -/
def wAcc : State := { State.reset with access := { dflt := [accEntry 0 0 true true] } }
/-- A ring of 16 slots, polled. -/
def ring0 : Ring := { log2 := 4, base := 0x10000, db := 0x20000, epoch := 0, nudge := 3, poll := .active }
/-- A ready queue pair of the first PF0. -/
def qp0 : Qp :=
  { fn := 0x100, pd := 1, sendCq := 2, recvCq := 2, srq := some 9, garnet := true, kernel := false, sl := 0, pkIdx := 0, headAddr := 0x30000,
    ring := ring0, st := 1, remote := some (5, 0x000120) }
/-- A device whose queue pair 7 is `x`. -/
def wQp (x : Qp) : State := { wAcc with ep := { qps := { dflt := none, cells := [(7, some x)] } } }
/-- The entry at the head of the test ring. -/
def ent0 : Ent :=
  { idx := 0, nslots := 1, slots := [], wqe := 4, op := 1, signal := true, fence := false, inline := true, solicit := false, sges := [], chain := none,
    hops := 0, elems := 0, inlineData := [] }
/-- A device whose queue pair 7 is about to start an entry of opcode `op`. -/
def wSend (op : Nat) : State := wQp { qp0 with ring := { ring0 with ents := [{ ent0 with op := op }] } }
/-- A queue pair that has polled in vain. -/
def qpIdle : Qp := { qp0 with ring := { ring0 with poll := .backoff, interval := 100000000, maxAt := some 0 } }
/-- A device whose nudge slot 3 is that of the idle queue pair 7. -/
def wNudge : State :=
  { wAcc with ep := { qps := { dflt := none, cells := [(7, some qpIdle)] }, nudges := { dflt := none, cells := [(0x100 * 2 ^ 23 + 3, some 7)] } } }
/-- A device that has a doorbell read of queue pair 7 outstanding. -/
def wReading : State := wQp { qp0 with ring := { ring0 with reading := true } }
/-- A completion queue of 16 entries that has its head in host memory. -/
def cq0 : Cq := { fn := 0x100, mode := 1, log2 := 4, vector := 0, base := 0x40000, headAddr := 0x50000, epoch := 0 }
/-- A device whose completion queue 2 is `c`. -/
def wCq (c : Cq) : State := { wAcc with ep := { cqs := { dflt := none, cells := [(2, some c)] } } }
/-- A 64 B admin slot with tag 9. -/
def aqSlot (op : Byte) (fields : List Byte) : List Byte := ([op, 0, 9, 0, 0, 0, 0, 0] ++ fields ++ List.replicate 56 0).take 64
/-- A device whose first PF0 has fetched the admin slot `e`. -/
def wAq (e : List Byte) (ep : Endpoint) : State :=
  { wAcc with
    boot := { fwReady := true }
    fns := { dflt := {}, cells := [(0x100, { bme := true, aq := { enable := true, state := 1, fetched := [e] } })] }
    ep := ep }
def pd1 : Tbl (Option Pd) := { dflt := none, cells := [(1, some { fn := 0x100, kernel := false })] }
def cqs2 : Tbl (Option Cq) := { dflt := none, cells := [(2, some cq0)] }
def srq0 : Srq := { fn := 0x100, pd := 1, cq := 2, garnet := false, ring := ring0 }
def slotQp : List Byte :=
  aqSlot 1 [1, 0, 0, 0, 2, 0, 0, 0, 2, 0, 0, 0, 255, 255, 255, 0, 0, 0, 0, 0, 6, 0, 0, 0, 0, 16, 0, 0, 0, 0, 0, 0, 8, 0, 0, 0, 0, 0, 0, 0, 16]
def slotSrq : List Byte := aqSlot 4 [1, 0, 0, 0, 2, 0, 0, 0, 0, 6, 0, 0, 0, 0, 0, 0, 0, 16, 0, 0, 0, 0, 0, 0, 8]
def slotCq : List Byte := aqSlot 6 [1, 6, 2, 0, 0, 0, 0, 0, 0, 16]
def slotEq : List Byte := aqSlot 8 [0, 6, 2, 0, 0, 0, 0, 0, 0, 16]
def slotAbort : List Byte := aqSlot 0xF [0, 0, 0, 0, 7, 0, 0, 0, 4]
def entBind : Ent := { ent0 with op := 8, inline := false, slots := [[8, 1, 0, 0, 4, 0, 0, 0, 3, 1]] }
def qpBind : Qp := { qp0 with ring := { ring0 with ents := [entBind] } }
def wBind : State := { wAcc with ep := { qps := { dflt := none, cells := [(7, some qpBind)] }, pds := pd1 } }
/-- A mailbox command of the board-management controller. -/
def mbCmd (op : Nat) (payload : List Byte) : MbCmd := { m := 0x22, op := op, tag := 3, len := payload.length, flags := 0, payload := payload, at_ := 0 }
/-- A running device whose access tables grant everything and whose only waiting command is `mbCmd op payload`. -/
def wMb (op : Nat) (payload : List Byte) : State :=
  { wAcc with boot := { fwReady := true, power := .run, porst := false, flashGnt := false }, cmds := { queue := [mbCmd op payload] } }
/-- The same device, changed by `f`. -/
def port0 (f : Port → Port) (s : State) : State := updPort s 0 (fun x => f { x with exists_ := true })
def tree1 : Tree := { parent := none, children := [.host 0], pkey := 0xFFFF, sl := 0, window := 4, stall := 100 }
/-- A running device with tree 1, asked about it by a mailbox command. -/
def wTreeMb (op : Nat) : State := { wMb op [1, 0, 0, 0] with ep := { trees := { dflt := none, cells := [(1, some tree1)] } } }
/-- A collective on tree 0, and a device with that tree about to start it. -/
def entColl : Ent := { ent0 with op := 0x20 }
def wSendColl : State :=
  { wAcc with ep := { qps := { dflt := none, cells := [(7, some { qp0 with ring := { ring0 with ents := [entColl] } })] }, trees := { dflt := none, cells := [(0, some tree1)] } } }
def lane0 (f : Lane → Lane) (s : State) : State := updLane s 0 f
def bgEnded : BgCmd := { m := 0x22, tag := 3, op := 0x0702, what := .fwEnd 1, committed := false, status := 0, done := true }
def wRunning : State := { State.reset with boot := { fwReady := true }, cmds := { running := [bgEnded] } }
/-- The shortest image body: 23,744 zero bytes after the header. -/
def importBytes : List Byte :=
  leBytes 4 0x55434647 ++ [1, 0, 1, 0] ++ List.replicate 23800 0
def importEcho : List Byte := leBytes 4 importBytes.length ++ leBytes 4 (crc32c (importBytes.drop 64)).toNat
def wImport : State :=
  { wMb 0x0804 importEcho with cmds := { queue := [mbCmd 0x0804 importEcho], importBuf := { owner := some 0x22, bytes := importBytes, next := 23808 } } }
/-- A small packet, waiting at port 0 on VC 12. -/
def pkt0 : Pkt := { hdr := { sl := 3, len := 64 }, body := .raw [] }
def tmsg0 : TimeMsg := { valid := true, locked := true, exchSeq := 1, tA := 0, tB := 0 }
/-- A device with FABRIC port 0 of one lane, changed by `f`. -/
def wPort (f : Port → Port) : State := { State.reset with ports := { dflt := {}, cells := [(0, f { exists_ := true, role := 0 })] } }
def active0 (x : Port) : Port := { x with link := .active }
/-- `pkt0` in an egress queue since the beginning, from host port 0. -/
def qpkt0 : QPkt := { pkt := pkt0, orig := { src := .host 0, vc := 12, credits := 1 }, at_ := 0 }
def vcq12 : Tbl (List QPkt) := { dflt := [], cells := [(12, [qpkt0])] }
/-- A gate of two entries: VC 12 is open in the first only. -/
def gate0 : Gate := { gating := true, bank0 := { gating := true, entries := [(100000, 0xFFFF), (100000, 0x0FFF)] } }
/-- A device whose FABRIC port 0 has credits and `pkt0` waiting. -/
def wQueued : State := wPort (fun x => { active0 x with vcq := vcq12, avail := { dflt := 0, cells := [(12, 16)] } })
def rec0 : EvRec :=
  { code := 0x901, sev := 1, keeper := false, summary := false, carried := false, die := 1, unit := 9, seq := 0, time := 0, p0 := 0, p1 := 0, p2 := 0, p3 := 0 }
/-- A device whose ACTIVE port 0 announces a locked source, with time unit `u`. -/
def wUp (u : TimeUnit) : State :=
  { State.reset with ports := { dflt := {}, cells := [(0, { exists_ := true, role := 0, link := .active, eqx := { ann := some { valid := true, locked := true } } })] }, tu := u }
def ltb1 : LtbHdr := { seq := 0, ackSeq := 0, nak := false, startOff := 0, creditA := (0, 0), creditB := (0, 0), shared := 0, abortEnd := false }
def init0 : InitMsg := { profile := 0, width := 0, laneIdx := 0, maxPacket := 4224 }
/-- A TRANSPORT packet of the partner of `qp0`, sealed with its CRCs. -/
def reqPkt (op : Nat) (ext : Ext) (pl : List Byte) (key : BitVec 32 := 0) : Pkt :=
  mkPkt { src := 0x000120, dest := 0x000010 } (.transport { opcode := op, destQpn := 7, srcQpn := 5, syn := true, windowKey := key } ext pl)
def qpT : Qp := { qp0 with srq := none, garnet := false }
def win0 : Win := { fn := 0x100, pd := 1, rights := 0xF, extents := [(0x10000, 4096)] }
def epT : Endpoint := { pds := pd1, cqs := cqs2 }
def epWin : Endpoint := { epT with wins := { dflt := {}, cells := [(0, { win := some win0 })] } }
def epSrq : Endpoint := { epWin with srqs := { dflt := none, cells := [(9, some { srq0 with recvs := [{ idx := 0, wqe := 4, sges := [{ key := 0, len := 8, off := 0 }] }] })] } }
def epGar : Endpoint := { epWin with srqs := { dflt := none, cells := [(9, some { srq0 with garnet := true })] } }
/-- A packet whole inside the device, come from `src`. -/
def inside (src : ArrSrc) (p : Pkt) : QPkt := { pkt := p, orig := { src := src, vc := 0, credits := 0 }, at_ := 0 }
/-- A device whose endpoint 0 holds packet `p` for queue pair 7. -/
def wRx (e : Endpoint) (x : Qp) (p : Pkt) : State :=
  { wAcc with
    eps := { dflt := {}, cells := [(0, { linkUp := true, cfgReady := true, rx := [inside (.host 0) p] })] }
    fns := { dflt := {}, cells := [(0x100, { bme := true, pkeys := { dflt := 0, cells := [(0, 0xFFFF)] } })] }
    ep := { e with qps := { dflt := none, cells := [(7, some x)] } } }
def pend0 (op : Nat) : Pend := { psn := 0, owner := .ent 0, op := op, off := 0, len := 8, firstAt := 0, lastAt := 0 }
def qpRead : Qp := { qp0 with pend := [pend0 1], ring := { ring0 with ents := [ent0] } }
def wSendRead : State := { wAcc with ep := { qps := { dflt := none, cells := [(7, some qpRead)] }, reads := { dflt := [], cells := [(0, [.send 7 0 false])] } } }
def hat0 : HostAtomic := { qp := 7, psn := 0, fn := 0x100, addr := 0x10000, aop := 1, a := 5, swap := 0, cxl := false }
def wSrq (r : Srq) : State := { wAcc with ep := { srqs := { dflt := none, cells := [(9, some r)] } } }
def mat0 : Matched :=
  { msg := { ctx := 1, rank := 2, tag := 3, len := 8, rts := some (4, 0), qp := 7, msn := 0 }, wqe := 4, key := 0, off := 0, cap := 8, got := 8, placed := 8,
    buffered := false, unexp := false, asked := 8 }
def coll0 (seq : BitVec 32) : Coll := { seq := seq, op := 0, dtype := 0, native := false, ebase := 0, vecLen := 0 }
def collPkt (c : CollHdr) : Pkt := mkPkt { type := 8, rmode := 3, treeId := 5 } (.coll c [])
/-- A device with tree 5 whose collective port holds `p`, come by network port `src`. -/
def wTree (tr : Tree) (src : Nat) (p : Pkt) : State :=
  { wAcc with ep := { trees := { dflt := none, cells := [(5, some tr)] }, collRx := { dflt := [], cells := [(1, [inside (.net src) p])] } } }
/-- A line of protection domain 1, homed at stack 2. -/
def ln0 : LineId := { kind := 3, num := 1, idx := 0 }
def wLine (c : Nat) (x : CLine) : State :=
  { wAcc with ep := { pds := { dflt := none, cells := [(1, some { fn := 0x100, kernel := false, home := 2 })] }, cache := { dflt := {}, cells := [(cacheKey c ln0, x)] } } }
def wHostLine : State :=
  { wAcc with ep := { cache := { dflt := {}, cells := [(cacheKey 1 { kind := 6, num := 0, idx := 0 }, { st := .m, dirty := true })] } } }
def wHead : State :=
  { State.reset with boot := { power := .run, straps := { chainHead := true, bootSrc := 0, mgrEligible := false, feaStrapEn := false, smbAddr := 0 } }, chain := { addr := 1, downLock := true, beating := true } }
/-- A device whose management agent holds one packet of a TYPE. -/
def wAgent (type : Nat) (body : List Byte) : State :=
  { State.reset with boot := { fwReady := true }, grp := { rx := [inside (.net 2) (mkPkt { type := type, sl := 3 } (.mgmt { mtag := 5 } body))] } }
/-- A tagged receive of one context, posted with the given stamp. -/
def wPost (ctx : Nat) (stamp : BitVec 48) : Posted :=
  { ctx := ctx, rank := 5, tag := 0x1F, ignore := 0, stamp := stamp, wqe := 1, ctag := 0, key := 0, len := 64, off := 0 }
/-- A shared receive queue with two receives of one key posted. -/
def srqTag : Srq := { srq0 with garnet := true, posted := [wPost 7 0, { wPost 7 1 with ord := 1 }] }
/-- A tagged message that both of them match. -/
def wTag : TagMsg := { ctx := 7, rank := 5, tag := 0x1F, len := 64, rts := none, qp := 7, msn := 0 }

/-! ### Witnesses -/

theorem exists_of_any {α : Type} {o : Option α} {p : α → Bool} (h : o.any p = true) : ∃ a, o = some a ∧ p a = true := by
  cases o with
  | none => cases h
  | some a => exact ⟨a, rfl, h⟩

theorem atHead_met {s : State} {c : MbCmd} {rest : List MbCmd} {op : Nat} {rights : List (Nat × Bool)}
    (h : s.cmds.queue = c :: rest ∧ c.op = op ∧ s.boot.fwReady = true ∧ s.boot.safe = false ∧ c.payload.length = c.len ∧ c.len ≤ 4088 ∧
      c.flags ≤ 1 ∧ lacking s c.m rights = []) : AtHead s c rest op rights := h

theorem completes_of_all {l : List Instr} (h : l.all (fun c => match exec c State.reset with | .next _ => true | _ => false) = true) :
    ∀ c ∈ l, ∃ t, exec c State.reset = .next t := by
  intro c hc
  have k := List.all_eq_true.mp h c hc
  split at k
  · exact ⟨_, ‹_›⟩
  · cases k

theorem leNat_leBytes (n v : Nat) : leNat (leBytes n v) = v % 256 ^ n := by
  induction n generalizing v with
  | zero => simp [leBytes, leNat, Nat.mod_one]
  | succ n ih =>
    have e : (BitVec.ofNat 8 v).toNat = v % 256 := by rw [BitVec.toNat_ofNat]
    rw [leBytes, leNat, ih, e, show 256 ^ (n + 1) = 256 * 256 ^ n from Nat.pow_succ']
    exact (Nat.mod_mul (x := v) (a := 256) (b := 256 ^ n)).symm

theorem leBytes_len (n v : Nat) : (leBytes n v).length = n := by
  induction n generalizing v with
  | zero => rfl
  | succ n ih => simp [leBytes, ih]

theorem importBytes_len : importBytes.length = 23808 := by
  simp only [importBytes, List.length_append, List.length_replicate, leBytes_len, List.length_cons, List.length_nil]

theorem importEcho_len : leAt importEcho 0 4 = importBytes.length := by
  have h : importEcho.take 4 = leBytes 4 importBytes.length := by
    rw [importEcho, List.take_append_of_le_length (by simp [leBytes_len]), List.take_of_length_le (by simp [leBytes_len])]
  rw [leAt, List.drop_zero, h, leNat_leBytes, importBytes_len]
  exact Nat.mod_eq_of_lt (by norm_num)

theorem importEcho_crc : leAt importEcho 4 4 = (crc32c (importBytes.drop 64)).toNat := by
  have h : importEcho.drop 4 = leBytes 4 (crc32c (importBytes.drop 64)).toNat := by
    rw [importEcho, List.drop_append_of_le_length (by simp [leBytes_len]), List.drop_of_length_le (by simp [leBytes_len]), List.nil_append]
  rw [leAt, h, List.take_of_length_le (by simp [leBytes_len]), leNat_leBytes]
  exact Nat.mod_eq_of_lt (BitVec.isLt _)

/-- The hypotheses on `mbConfigImportCommit` are met, by the shortest image that is admitted. -/
theorem met_mbConfigImportCommit :
    ∃ (s : State) (c : MbCmd) (rest : List MbCmd), (AtHead s c rest 0x0804 [(tgtDEVICE, true), (tgtCONFIG, true)]) ∧ (((lenIs 8 []) c.payload) = true) ∧ (stagingBusy (served s rest).cmds.importBuf c.m = false) ∧ (leAt c.payload 0 4 = (served s rest).cmds.importBuf.bytes.length) ∧ (leAt c.payload 4 4 = (crc32c ((served s rest).cmds.importBuf.bytes.drop 64)).toNat) ∧ (23808 ≤ (served s rest).cmds.importBuf.bytes.length) ∧ (leAt (served s rest).cmds.importBuf.bytes 0 4 = 0x55434647) ∧ (leAt (served s rest).cmds.importBuf.bytes 4 2 = 1) ∧ (byteAt (served s rest).cmds.importBuf.bytes 6 = b2n (served s rest).ident.h96) ∧ (byteAt (served s rest).cmds.importBuf.bytes 7 = b2n (served s rest).ident.gradeL) ∧ (partOk (served s rest) 1 = true) :=
  ⟨wImport, mbCmd 0x0804 importEcho, [], atHead_met ⟨rfl, rfl, rfl, rfl, rfl, by decide +kernel⟩, by decide +kernel, by decide +kernel, importEcho_len, importEcho_crc, (by rw [show (served wImport []).cmds.importBuf.bytes = importBytes from rfl, importBytes_len]), by decide +kernel, by decide +kernel, by decide +kernel, by decide +kernel, by decide +kernel⟩

/-- Every hypothesis of `Obligations.ResetsAndFirstStartStepsComplete` is met somewhere. -/
theorem witness_ResetsAndFirstStartStepsComplete :
    (∃ (s : State) (x : Straps), s.boot.power = .held) ∧
    (∃ (s : State), (coldRunning s = true) ∧ (s.boot.steps.pll = false)) ∧
    (∃ (s : State) (b : Bool), (s.boot.power = .run) ∧ (s.boot.warmRst = false) ∧ (s.pins.coreLost = false) ∧ (s.boot.steps.config = false) ∧ (s.boot.steps.pll = true) ∧ (s.boot.warm = false)) ∧
    (∃ (s : State), (coldRunning s = true) ∧ (s.boot.steps.config = true)) ∧
    (∃ (s : State) (q : Nat), (q < 4) ∧ (coldRunning s = true) ∧ (s.boot.steps.config = true) ∧ ((s.quad q).st ≠ 2)) ∧
    (∃ (s : State), (coldRunning s = true) ∧ (s.boot.steps.phys = true)) ∧
    (∃ (s : State), (coldRunning s = true) ∧ (s.boot.steps.phys = true) ∧ (s.boot.steps.hbmTrained = false)) ∧
    (∃ (s : State), (coldRunning s = true) ∧ (s.boot.steps.hbmTrained = true)) ∧
    (∃ (s : State), (coldRunning s = true) ∧ (s.boot.steps.arrays = true) ∧ (s.boot.steps.calibrated = false)) :=
  ⟨⟨State.reset, wStraps, by decide +kernel⟩,
   ⟨wBoot { started := true }, by decide +kernel⟩,
   ⟨wBoot { started := true, pll := true }, true, by decide +kernel⟩,
   ⟨wBoot { started := true, pll := true, config := true }, by decide +kernel⟩,
   ⟨wBoot { started := true, pll := true, config := true }, 3, by decide +kernel⟩,
   ⟨wBoot { started := true, config := true, phys := true }, by decide +kernel⟩,
   ⟨wBoot { started := true, config := true, phys := true }, by decide +kernel⟩,
   ⟨wBoot { started := true, hbmTrained := true }, by decide +kernel⟩,
   ⟨wBoot { started := true, arrays := true }, by decide +kernel⟩⟩

/-- Every hypothesis of `Obligations.ImagesMolzuAndReadyComplete` is met somewhere. -/
theorem witness_ImagesMolzuAndReadyComplete :
    (∃ (s : State) (a b golden : Image), (imageDue s = true) ∧ (s.boot.fwRestarting = true) ∧ (imageCheck s s.boot.restartSlot (if s.boot.restartSlot = 0 then a else if s.boot.restartSlot = 1 then b else golden) (sigSkipped s s.boot.restartSlot (if s.boot.restartSlot = 0 then a else if s.boot.restartSlot = 1 then b else golden)) = stSUCCESS)) ∧
    (∃ (s : State) (a b golden : Image), (imageDue s = true) ∧ (s.boot.fwRestarting = false) ∧ (s.boot.warm = false) ∧ (s.boot.straps.bootSrc = 0) ∧ (s.boot.attempts ≤ 3) ∧ (s.boot.preferred = 0) ∧ (imageCheck s 0 a false = stSUCCESS)) ∧
    (∃ (s : State) (a b golden : Image), (imageDue s = true) ∧ (s.boot.fwRestarting = false) ∧ (s.boot.warm = false) ∧ (s.boot.straps.bootSrc = 1) ∧ (imageCheck s 2 golden false = stSUCCESS)) ∧
    (∃ (s : State) (v : Bool), (s.boot.power = .run) ∧ (s.boot.warmRst = false) ∧ (s.boot.steps.image = true) ∧ (s.boot.steps.molzu = false) ∧ (s.boot.fwDown = false)) ∧
    (∃ (s : State), (s.boot.power = .run) ∧ (s.boot.warmRst = false) ∧ (s.boot.steps.molzu = true) ∧ (s.boot.steps.quadInit = false) ∧ (s.boot.fwRestarting = false) ∧ (s.boot.steps.hbmCleared = true) ∧ (s.boot.steps.calibrated = true)) ∧
    (∃ (s : State), (s.boot.power = .run) ∧ (s.boot.warmRst = false) ∧ (s.boot.fwReady = false) ∧ (s.boot.fwDown = false) ∧ (s.boot.steps.molzu = true) ∧ (s.boot.steps.quadInit = true)) ∧
    (∃ (s : State), (s.boot.porst = false) ∧ (s.boot.warmRst = false) ∧ (s.boot.power = .run)) ∧
    (∃ (s : State), (s.boot.warmRst = true) ∧ (s.boot.power = .run) ∧ (s.pins.coreLost = false) ∧ (warmAsColdCause { s with boot := { s.boot with warmRst := false } } = none)) ∧
    (∃ (s : State), (s.boot.power = .run) ∧ (s.boot.fwReady = false) ∧ (s.boot.fwDown = false) ∧ (s.boot.warmRst = false) ∧ (s.boot.fwRestarting = true) ∧ (s.boot.steps.image = true) ∧ (s.boot.goldenRestart = false)) ∧
    (∃ (s : State), (s.boot.power = .run) ∧ (s.boot.fwReady = false) ∧ (s.boot.fwDown = false) ∧ (s.boot.warmRst = false) ∧ (s.boot.fwRestarting = false) ∧ (s.boot.steps.molzu = true) ∧ (s.boot.slot < 2)) ∧
    (∃ (s : State), molzuRuns s = true) ∧
    (∃ (s : State), (s.boot.fwReady = true) ∧ (s.boot.readyAt + 60 * oneSec ≤ s.clk.now) ∧ (s.boot.slot < 2) ∧ (partOk s 3 = true)) :=
  ⟨⟨wRestart, wImage, wImage, wImage, by decide +kernel⟩,
   ⟨wBootOf { power := .run, porst := false, flashGnt := false, steps := { started := true, svcTest := true, phys := true }, preferred := 0, straps := wStraps }, wImage, wImage, wImage, by decide +kernel⟩,
   ⟨wBootOf { power := .run, porst := false, flashGnt := false, steps := { started := true, svcTest := true, phys := true }, straps := { wStraps with bootSrc := 1 } }, wImage, wImage, { wImage with golden := true }, by decide +kernel⟩,
   ⟨wBoot { started := true, image := true }, true, by decide +kernel⟩,
   ⟨wBoot { started := true, molzu := true, hbmCleared := true, calibrated := true }, by decide +kernel⟩,
   ⟨wBoot { started := true, molzu := true, quadInit := true }, by decide +kernel⟩,
   ⟨wBoot { started := true }, by decide +kernel⟩,
   ⟨wWarmHeld, by decide +kernel⟩,
   ⟨wBootOf { power := .run, porst := false, fwRestarting := true, steps := { image := true } }, by decide +kernel⟩,
   ⟨wBoot { started := true, molzu := true }, by decide +kernel⟩,
   ⟨wBoot { started := true, molzu := true }, by decide +kernel⟩,
   ⟨{ wBootOf { power := .run, porst := false, fwReady := true, svn := 3 } with clk := { now := 60000000000 } }, by decide +kernel⟩⟩

/-- Every hypothesis of `Obligations.HostPortsFunctionsAndFlashComplete` is met somewhere. -/
theorem witness_HostPortsFunctionsAndFlashComplete :
    (∃ (s : State) (h : Nat), h < 8) ∧
    (∃ (s : State) (e : Nat), (epExists s e = true) ∧ ((s.hostEp e).linkUp = true)) ∧
    (∃ (s : State) (e sp wd : Nat), (epExists s e = true) ∧ (s.boot.steps.phys = true) ∧ (quadActive s (quadOfEp e) = true) ∧ ((s.quad (quadOfEp e)).inReset = false) ∧ (s.pins.perst.getLsbD (e / 2) = false) ∧ ((s.hostEp e).linkUp = false)) ∧
    (∃ (s : State) (f : Nat), (fnExists s f = true) ∧ ((s.hostEp (epOfFn s f)).linkUp = true) ∧ (s.boot.safe = false)) ∧
    (∃ (s : State) (f : Nat) (w : CfgWrite), (fnExists s f = true) ∧ ((s.hostEp (epOfFn s f)).linkUp = true) ∧ (s.boot.safe = false) ∧ ((s.hostEp (epOfFn s f)).cfgReady = true)) ∧
    (∃ (s : State) (f : Nat) (w : CfgWrite), (fnExists s f = true) ∧ ((s.hostEp (epOfFn s f)).linkUp = true) ∧ (s.boot.safe = false) ∧ ((s.hostEp (epOfFn s f)).cfgReady = false)) ∧
    (∃ (s : State) (f : Nat), (fnExists s f = true) ∧ ((s.fn f).bme = true)) ∧
    (∃ (s : State) (f : Nat), (fnExists s f = true) ∧ ((s.fn f).bme = false) ∧ (isPf0 s f = false)) ∧
    (∃ (s : State) (f : Nat), fnExists s f = true) ∧
    (∃ (s : State) (f : Nat), (fnExists s f = true) ∧ ((s.fn f).flrBusy = true)) ∧
    (∃ (s : State) (f : Nat), (fnExists s f = true) ∧ ((s.fn f).flrBusy = false)) ∧
    (∃ (s : State), (s.boot.flashReq = true) ∧ (s.boot.flashGnt = false) ∧ (s.boot.porst = false) ∧ (s.boot.steps.image = true)) ∧
    (∃ (s : State), (s.boot.porst = false) ∧ (s.boot.flashWork = [])) ∧
    (∃ (s : State) (e code : Nat), (epExists s e = true) ∧ (s.boot.fwReady = false)) ∧
    (∃ (s : State) (e code : Nat) (k : Nat × Nat), (epExists s e = true) ∧ (s.boot.fwReady = true) ∧ (spdmCodes.find? (fun c => c.1 == code) = some k)) :=
  ⟨⟨State.reset, 7, by decide +kernel⟩,
   ⟨wHost, 0, by decide +kernel⟩,
   ⟨{ wBoot { started := true, phys := true } with pins := { perst := 0 } }, 14, 6, 16, by decide +kernel⟩,
   ⟨wHost, 0x100, by decide +kernel⟩,
   ⟨wHost, 0x100, .ats true, by decide +kernel⟩,
   ⟨{ wHost with eps := { dflt := { linkUp := true } } }, 0x100, .atomicEn true, by decide +kernel⟩,
   ⟨wHost, 0x100, by decide +kernel⟩,
   ⟨State.reset, 0x101, by decide +kernel⟩,
   ⟨State.reset, 0x100, by decide +kernel⟩,
   ⟨wFlr, 0x100, by decide +kernel⟩,
   ⟨State.reset, 0x100, by decide +kernel⟩,
   ⟨wBootOf { power := .run, porst := false, flashGnt := false, flashReq := true, steps := { image := true } }, by decide +kernel⟩,
   ⟨wBoot {}, by decide +kernel⟩,
   ⟨State.reset, 0, 0x84, by decide +kernel⟩,
   ⟨wBootOf { fwReady := true }, 0, 0x84, (0x84, 0x04), by decide +kernel, by decide +kernel, by rfl⟩⟩

/-- Every hypothesis of `Obligations.RegisterCommandsComplete` is met somewhere. -/
theorem witness_RegisterCommandsComplete :
    (∃ (s : State) (m v : Nat), (masterOk s m = true) ∧ (isVf s m = false) ∧ (v < 512)) ∧
    (∃ (s : State) (m : Nat), (masterOk s m = true) ∧ (isVf s m = false) ∧ ((s.master m).portSel < 512)) ∧
    (∃ (s : State) (m : Nat) (v : Word32), (hasInst s m = true) ∧ (fnExists s m = false)) ∧
    (∃ (s : State) (m : Nat) (v : Word32), (hasInst s m = true) ∧ (fnExists s m = false) ∧ (isVf s m = false)) ∧
    (∃ (s : State) (f v : Nat), (fnExists s f = true) ∧ ((s.fn f).bme = false)) ∧
    (∃ (s : State) (f v : Nat), (fnExists s f = true) ∧ ((s.fn f).bme = true) ∧ ((s.fn f).msixPend.cells = [(v, true)]) ∧ ((s.fn f).msixMask.get v = false)) ∧
    (∃ (s : State) (m : Nat) (v : Word32), (hasInst s m = true) ∧ (isVf s m = false) ∧ (v.getLsbD 0 = true) ∧ ((s.inst m).mbState ≠ 1)) ∧
    (∃ (s : State) (m : Nat) (v : Word32), (hasInst s m = true) ∧ (isVf s m = false) ∧ (v.getLsbD 0 = true) ∧ ((s.inst m).mbState = 1)) ∧
    (∃ (s : State) (m : Nat) (v : Word32), (hasInst s m = true) ∧ (isVf s m = false) ∧ (v.getLsbD 0 = false)) ∧
    (∃ (s : State) (m : Nat), (masterOk s m = true) ∧ (isVf s m = false) ∧ (allowed s m tgtTIME false = true)) ∧
    (∃ (s : State) (m : Nat), (masterOk s m = true) ∧ (isVf s m = false) ∧ (allowed s m tgtTIME true = true) ∧ (s.snap.st ≠ 1) ∧ (s.tu.valid = true) ∧ (s.clk.ft.toNat < s.snap.ft.toNat)) ∧
    (∃ (s : State) (m : Nat), (masterOk s m = true) ∧ (isVf s m = false) ∧ (allowed s m tgtTIME true = true) ∧ (s.snap.st = 1)) ∧
    (∃ (s : State) (m : Nat), (masterOk s m = true) ∧ (isVf s m = false) ∧ (allowed s m tgtEVENT false = true) ∧ ((shownRecords s).any (fun r => r.seq == rdPtrOf s m) = true)) ∧
    (∃ (s : State) (m k : Nat), (masterOk s m = true) ∧ (isVf s m = false) ∧ (k < 510) ∧ (allowed s m tgtCOUNTER false = true) ∧ ((counterReg s m (8 * k)).isSome = true)) ∧
    (∃ (s : State) (m : Nat) (v : Word32), (masterOk s m = true) ∧ (isVf s m = false) ∧ (allowed s m tgtLANE true = true) ∧ (laneSelOk s (s.master m).laneSel = true)) ∧
    (∃ (s : State) (m : Nat) (v : Word32), (masterOk s m = true) ∧ (isVf s m = false) ∧ (allowed s m tgtOCTET true = true) ∧ (octSelOk s (s.master m).octSel = true)) ∧
    (∃ (s : State) (m : Nat) (v : Word32), (masterOk s m = true) ∧ (isVf s m = false) ∧ (allowed s m tgtPORT true = true) ∧ (portSelOk s (s.master m).portSel = true) ∧ (v.toNat % 2 ^ 16 ≤ v.toNat / 2 ^ 16)) ∧
    (∃ (s : State) (m : Nat) (v : Word32), (masterOk s m = true) ∧ (isVf s m = false) ∧ (allowed s m tgtHOST true = true) ∧ (hostSelOk s (s.master m).hostSel = true) ∧ ((s.hostEp (hostSelEp (s.master m).hostSel)).images.cells = []) ∧ (v.toNat ≤ 4194304)) :=
  ⟨⟨State.reset, 0x20, 511, by decide +kernel⟩,
   ⟨State.reset, 0x20, by decide +kernel⟩,
   ⟨State.reset, 0x20, 0x1FF, by decide +kernel⟩,
   ⟨State.reset, 0x20, 0, by decide +kernel⟩,
   ⟨State.reset, 0x100, 2047, by decide +kernel⟩,
   ⟨updFn wHost 0x100 (fun x => { x with msixFnMask := true, msixMask := x.msixMask.set 3 false, msixPend := { dflt := false, cells := [(3, true)] } }), 0x100, 3, by decide +kernel⟩,
   ⟨State.reset, 0x20, 1, by decide +kernel⟩,
   ⟨{ State.reset with insts := State.reset.insts.set 0x20 { mbState := 1 } }, 0x20, 1, by decide +kernel⟩,
   ⟨State.reset, 0x20, 2, by decide +kernel⟩,
   ⟨wAcc, 0, by decide +kernel⟩,
   ⟨{ wAcc with tu := { valid := true }, snap := { ft := 1 } }, 0, by decide +kernel⟩,
   ⟨{ wAcc with snap := { st := 1 } }, 0, by decide +kernel⟩,
   ⟨recordEv (wAcc) .timeLock svcDie, 0, by decide +kernel⟩,
   ⟨{ wAcc with masters := ({ dflt := {} } : Tbl Master).set 0 { cntSel := 0x50000000 } }, 0, 0, by decide +kernel⟩,
   ⟨wAcc, 0, 0x10, by decide +kernel⟩,
   ⟨wAcc, 0, 0x01014005, by decide +kernel⟩,
   ⟨{ wAcc with ports := ({ dflt := {} } : Tbl Port).set 0 { exists_ := true } }, 0, 0x00010001, by decide +kernel⟩,
   ⟨wAcc, 0, 4194304, by decide +kernel⟩⟩

/-- Every hypothesis of `Obligations.PollingAndFetchingCompletes` is met somewhere. -/
theorem witness_PollingAndFetchingCompletes :
    (∃ (s : State) (f i : Nat), (fnExists s f = true) ∧ (nudgeSlotOk s f i = true) ∧ (s.ep.nudges.get (f * 2 ^ 23 + i) = none)) ∧
    (∃ (s : State) (f i q : Nat), (fnExists s f = true) ∧ (nudgeSlotOk s f i = true) ∧ (s.ep.nudges.get (f * 2 ^ 23 + i) = some q)) ∧
    (∃ (s : State) (f i q : Nat) (x : Qp) (u : State), (fnExists s f = true) ∧ (nudgeSlotOk s f i = true) ∧ (s.ep.nudges.get (f * 2 ^ 23 + i) = some q) ∧ (ringOf (count s .host (epOfFn s f) .nudge) q = some (x.fn, x.ring)) ∧ (getQp (count s .host (epOfFn s f) .nudge) q = some x) ∧ (x.st ≠ 3) ∧ (x.ring.poll = .backoff) ∧ (useQueue (count s .host (epOfFn s f) .nudge) x.fn q engHost = .inr u)) ∧
    (∃ (s : State) (q : Nat) (x : Qp) (u : State) (f : Nat) (r : Ring), (getQp s q = some x) ∧ (x.ring.poll = .active) ∧ (x.ring.reading = false) ∧ (x.ring.pollAt + x.ring.interval ≤ s.clk.now) ∧ (useQueue s x.fn q engHost = .inr u) ∧ (ringOf u q = some (f, r)) ∧ (r.stopped = false) ∧ (r.reading = false) ∧ (queueQuiesced u q = false)) ∧
    (∃ (s : State) (q : Nat) (bs : List Byte) (x : Qp), (getQp s q = some x) ∧ (x.ring.reading = true) ∧ (queueQuiesced s q = false) ∧ ((decDbRec bs).epoch = x.ring.epoch) ∧ ((decDbRec bs).index = x.ring.index)) ∧
    (∃ (s : State) (q : Nat) (bs : List Byte) (x : Qp) (u : State), (getQp s q = some x) ∧ (x.ring.reading = true) ∧ (queueQuiesced s q = false) ∧ ((decDbRec bs).epoch = x.ring.epoch) ∧ ((decDbRec bs).index ≠ x.ring.index) ∧ (((decDbRec bs).index - x.ring.head).toNat ≤ 2 ^ x.ring.log2) ∧ (useQueue (readBack (updRing s q (fun r => { r with reading := false })) x.fn) x.fn q engHost = .inr u) ∧ ((getQp u q).any (fun y => y.resident) = true)) ∧
    (∃ (s : State) (q : Nat) (x : Qp), (getQp s q = some x) ∧ (x.ring.poll = .active) ∧ (64 ≤ x.ring.empty)) ∧
    (∃ (s : State) (q : Nat) (slots : List (List Byte)) (x : Qp), (getQp s q = some x) ∧ (slots ≠ []) ∧ (slots.length ≤ x.ring.fetching) ∧ (queueQuiesced s q = false)) ∧
    (∃ (s : State) (q : Nat) (slot : List Byte) (x : Qp) (k : Nat), (getQp s q = some x) ∧ (x.ring.slotWait = some k) ∧ (genOk x.ring.log2 (x.ring.base0 + BitVec.ofNat 32 k) slot = true)) ∧
    (∃ (s : State) (q : Nat) (x : Qp) (k : Nat), (getQp s q = some x) ∧ (isSrq s q = false) ∧ (x.ring.slotWait = some k) ∧ (queueErr s q = true) ∧ (x.ring.waitAt + (s.hostEp (epOfFn s x.fn)).slotWait ≤ s.clk.now)) ∧
    (∃ (s : State) (q : Nat) (x : Qp) (k n : Nat) (e : Ent), (getQp s q = some x) ∧ (isSrq s q = false) ∧ (x.ring.slotWait = some k) ∧ (queueErr s q = false) ∧ (x.ring.waitAt + (s.hostEp (epOfFn s x.fn)).slotWait ≤ s.clk.now) ∧ (n = (if k = 0 then 1 else x.ring.headSlots)) ∧ (e = x.ring.broken false k stMALFORMED)) ∧
    (∃ (s : State) (q : Nat) (bs : List Byte) (x : Qp) (i : BitVec 32) (rest : List (BitVec 32 × Bool)) (e : Ent), (getQp s q = some x) ∧ (x.ring.chainQ = (i, false) :: rest) ∧ (x.ring.listEnt i = some e) ∧ (chainOk ((decSges bs).take ((e.chain.map (·.2)).getD 0)) = false)) ∧
    (∃ (s : State) (q : Nat) (bs : List Byte) (l : List Sge) (x : Qp) (i : BitVec 32) (rest : List (BitVec 32 × Bool)) (e : Ent) (u : State), (getQp s q = some x) ∧ (x.ring.chainQ = (i, false) :: rest) ∧ (x.ring.listEnt i = some e) ∧ (u = readBack (updRing s q (fun r => { r with chainQ := rest })) x.fn) ∧ (isSrq u q = false) ∧ (l = (decSges bs).take ((e.chain.map (·.2)).getD 0)) ∧ (chainOk l = true) ∧ (l.length = (e.chain.map (·.2)).getD 0) ∧ (l.getLast?.any isChain = false) ∧ (sgeLen (e.sges ++ l) < 2 ^ 32)) ∧
    (∃ (s : State) (q : Nat) (why : ReadFail) (x : Qp) (t : State), (getQp s q = some x) ∧ (getCq s q = none) ∧ (isSrq s q = false) ∧ (t = updRing (readBack s x.fn) q (fun r => r.readFailed false)) ∧ (queueQuiesced s q = true)) ∧
    (∃ (s : State) (q : Nat) (why : ReadFail) (x y : Qp) (t : State) (e : Ent), (getQp s q = some x) ∧ (getCq s q = none) ∧ (isSrq s q = false) ∧ (t = updRing (readBack s x.fn) q (fun r => r.readFailed false)) ∧ (queueQuiesced s q = false) ∧ (getQp t q = some y) ∧ (x.ring.current false = some e)) :=
  ⟨⟨State.reset, 0x100, 8388607, by decide +kernel⟩,
   ⟨wNudge, 0x100, 3, 7, by decide +kernel, by decide +kernel, by rfl⟩,
   ⟨wNudge, 0x100, 3, 7, qpIdle, (useQueue (count wNudge .host 0 .nudge) 0x100 7 engHost).elim id id, by decide +kernel, by decide +kernel, by rfl, by decide +kernel, by rfl, by decide +kernel, by decide +kernel, by rfl⟩,
   ⟨{ wQp qp0 with clk := { now := 1000000 } }, 7, qp0, (useQueue { wQp qp0 with clk := { now := 1000000 } } 0x100 7 engHost).elim id id, 0x100, ring0, by rfl, by decide +kernel, by decide +kernel, by decide +kernel, by rfl, by decide +kernel⟩,
   ⟨wQp { qp0 with ring := { ring0 with reading := true } }, 7, encDbRec 0 0 false false, { qp0 with ring := { ring0 with reading := true } }, by rfl, by decide +kernel⟩,
   ⟨wReading, 7, encDbRec 2 0 false false, { qp0 with ring := { ring0 with reading := true } }, (useQueue (readBack (updRing wReading 7 (fun r => { r with reading := false })) 0x100) 0x100 7 engHost).elim id id, by rfl, by decide +kernel, by decide +kernel, by decide +kernel, by decide +kernel, by decide +kernel, by rfl, by decide +kernel⟩,
   ⟨wQp { qp0 with ring := { ring0 with empty := 64 } }, 7, { qp0 with ring := { ring0 with empty := 64 } }, by rfl, by decide +kernel⟩,
   ⟨wQp { qp0 with ring := { ring0 with fetching := 1 } }, 7, [[]], { qp0 with ring := { ring0 with fetching := 1 } }, by rfl, by decide +kernel⟩,
   ⟨wQp { qp0 with ring := { ring0 with slotWait := some 0, fetch := 1, partial_ := [[]] } }, 7, List.replicate 63 0 ++ [0x80], { qp0 with ring := { ring0 with slotWait := some 0, fetch := 1, partial_ := [[]] } }, 0, by rfl, by rfl, by decide +kernel⟩,
   ⟨{ wQp { qp0 with st := 2, ring := { ring0 with slotWait := some 0 } } with clk := { now := 1000000000 } }, 7, { qp0 with st := 2, ring := { ring0 with slotWait := some 0 } }, 0, by rfl, by decide +kernel, by rfl, by decide +kernel⟩,
   ⟨{ wQp { qp0 with ring := { ring0 with slotWait := some 0, partial_ := [[]] } } with clk := { now := 1000000000 } }, 7, { qp0 with ring := { ring0 with slotWait := some 0, partial_ := [[]] } }, 0, 1, ({ ring0 with slotWait := some 0, partial_ := [[]] } : Ring).broken false 0 stMALFORMED, by rfl, by decide +kernel, by rfl, by decide +kernel⟩,
   ⟨wQp { qp0 with ring := { ring0 with chainQ := [(0, false)], ents := [{ ent0 with chainRead := true, chain := some (0, 2) }] } }, 7, leBytes 4 0xFFFFFFFF ++ leBytes 4 1 ++ leBytes 24 0, { qp0 with ring := { ring0 with chainQ := [(0, false)], ents := [{ ent0 with chainRead := true, chain := some (0, 2) }] } }, 0, [], { ent0 with chainRead := true, chain := some (0, 2) }, by rfl, by decide +kernel, by rfl, by decide +kernel⟩,
   ⟨wQp { qp0 with ring := { ring0 with chainQ := [(0, false)], ents := [{ ent0 with chainRead := true, chain := some (0, 1) }] } }, 7, leBytes 16 0, [{ key := 0, len := 0, off := 0 }], { qp0 with ring := { ring0 with chainQ := [(0, false)], ents := [{ ent0 with chainRead := true, chain := some (0, 1) }] } }, 0, [], { ent0 with chainRead := true, chain := some (0, 1) }, readBack (updRing (wQp { qp0 with ring := { ring0 with chainQ := [(0, false)], ents := [{ ent0 with chainRead := true, chain := some (0, 1) }] } }) 7 (fun r => { r with chainQ := [] })) 0x100, by rfl, by decide +kernel, by rfl, by decide +kernel⟩,
   ⟨wQp { qp0 with st := 3 }, 7, .abort, { qp0 with st := 3 }, updRing (readBack (wQp { qp0 with st := 3 }) 0x100) 7 (fun r => r.readFailed false), by rfl, by decide +kernel⟩,
   ⟨wQp { qp0 with ring := { ring0 with chainQ := [(0, false)], ents := [{ ent0 with chainRead := true, chain := some (0, 1) }] } }, 7, .timeout, { qp0 with ring := { ring0 with chainQ := [(0, false)], ents := [{ ent0 with chainRead := true, chain := some (0, 1) }] } }, { qp0 with ring := ({ ring0 with chainQ := [(0, false)], ents := [{ ent0 with chainRead := true, chain := some (0, 1) }] } : Ring).readFailed false }, updRing (readBack (wQp { qp0 with ring := { ring0 with chainQ := [(0, false)], ents := [{ ent0 with chainRead := true, chain := some (0, 1) }] } }) 0x100) 7 (fun r => r.readFailed false), { ent0 with chainRead := true, chain := some (0, 1) }, by rfl, by decide +kernel, by decide +kernel, by decide +kernel, by decide +kernel, by rfl, by rfl⟩⟩

/-- Every hypothesis of `Obligations.QueueServiceCompletes` is met somewhere. -/
theorem witness_QueueServiceCompletes :
    (∃ (s : State) (q : Nat) (x : Qp), (getQp s q = some x) ∧ (x.ring.poll = .backoff) ∧ (x.ring.maxAt.any (fun t => decide (t + (s.hostEp (epOfFn s x.fn)).parkIdle * 1000000 ≤ s.clk.now)) = true) ∧ (x.idle = true) ∧ (x.st = 1) ∧ (x.ring.index = x.ring.fetch) ∧ (x.ring.fetching = 0) ∧ (x.ring.partial_ = []) ∧ (x.ring.slotWait = none) ∧ (x.ring.parking = false)) ∧
    (∃ (s : State) (qd q sl pos : Nat) (x : Qp) (t u : State), (qd < 4) ∧ (t = noteWaits (pumpShapers s) qd) ∧ (selectTurn t qd = some (q, sl, pos)) ∧ (getQp t q = some x) ∧ (x.ring.ents.any (fun e => e.st == 1 && !e.cut && e.op != 0x20) = false) ∧ (useQueue (updQuad t qd (fun y => { y with turn := pos, lastServed := y.lastServed.set sl q })) x.fn q engHost = .inr u)) ∧
    (∃ (s : State) (q : Nat) (x : Qp), (getQp s q = some x) ∧ (x.ring.headDue = true) ∧ (x.st ≠ 3)) ∧
    (∃ (s : State) (n : Nat) (c : Cq) (u : State), (getCq s n = some c) ∧ (c.full = true) ∧ (c.err = false) ∧ (c.quiesced = false) ∧ (c.mode ≠ 0) ∧ (useLine s c.fn engHost false 1 n = .inr u)) ∧
    (∃ (s : State) (n : Nat) (bs : List Byte) (c : Cq) (u : State), (getCq s n = some c) ∧ (c.err = false) ∧ (c.quiesced = false) ∧ (c.mode ≠ 0) ∧ ((decDbRec bs).epoch = c.epoch) ∧ (useLine (readBack s c.fn) c.fn engHost true 1 n = .inr u)) ∧
    (∃ (s : State) (n : Nat) (c : Cq), (getCq s n = some c) ∧ (c.full = true) ∧ (c.fullAt.any (fun t => decide (t + (s.hostEp (epOfFn s c.fn)).cqFull * 1000 ≤ s.clk.now)) = true) ∧ (c.quiesced = false) ∧ (c.mode ≠ 0)) ∧
    (∃ (s : State) (f v : Nat), (fnExists s f = true) ∧ ((s.fn f).holdoff.get v = 1)) ∧
    (∃ (s : State) (q : Nat) (x : Qp) (u : State), (getQp s q = some x) ∧ (nextIs s q 0x01 = true) ∧ (useQueue s x.fn q engHost = .inr u)) ∧
    (∃ (s : State) (q : Nat) (x : Qp) (u : State), (getQp s q = some x) ∧ (nextIs s q 0x02 = true) ∧ (useQueue s x.fn q engHost = .inr u)) ∧
    (∃ (s : State) (q : Nat) (x : Qp) (u : State), (getQp s q = some x) ∧ (nextIs s q 0x03 = true) ∧ (useQueue s x.fn q engHost = .inr u)) ∧
    (∃ (s : State) (q : Nat) (x : Qp) (u : State), (getQp s q = some x) ∧ (nextIs s q 0x04 = true) ∧ (useQueue s x.fn q engHost = .inr u)) ∧
    (∃ (s : State) (q : Nat) (x : Qp) (u : State), (getQp s q = some x) ∧ (nextIs s q 0x05 = true) ∧ (useQueue s x.fn q engHost = .inr u)) ∧
    (∃ (s : State) (q : Nat) (x : Qp) (u : State), (getQp s q = some x) ∧ (nextIs s q 0x06 = true) ∧ (useQueue s x.fn q engHost = .inr u)) ∧
    (∃ (s : State) (q : Nat) (x : Qp) (u : State), (getQp s q = some x) ∧ (nextIs s q 0x07 = true) ∧ (useQueue s x.fn q engHost = .inr u)) ∧
    (∃ (s : State) (q : Nat) (x : Qp) (u : State), (getQp s q = some x) ∧ (nextIs s q 0x09 = true) ∧ (useQueue s x.fn q engHost = .inr u)) ∧
    (∃ (s : State) (q : Nat) (x : Qp) (u : State), (getQp s q = some x) ∧ (nextIs s q 0x10 = true) ∧ (useQueue s x.fn q engHost = .inr u)) ∧
    (∃ (s : State) (q : Nat) (x : Qp) (e : Ent) (v u : State), (getQp s q = some x) ∧ (x.ring.next = some e) ∧ (nextIs s q 0x20 = true) ∧ ((getTree s e.treeId).isSome = true) ∧ (useTree s e.treeId = .inr v) ∧ (getQp v q = some x) ∧ (nextIs v q 0x20 = true) ∧ (useQueue v x.fn q engHost = .inr u)) :=
  ⟨⟨{ wQp qpIdle with clk := { now := 1000000000000 } }, 7, qpIdle, by rfl, by decide +kernel⟩,
   ⟨wSend 1, 0, 7, 0, 4, { qp0 with ring := { ring0 with ents := [ent0] } }, noteWaits (pumpShapers (wSend 1)) 0, (useQueue (updQuad (noteWaits (pumpShapers (wSend 1)) 0) 0 (fun y => { y with turn := 4, lastServed := y.lastServed.set 0 7 })) 0x100 7 engHost).elim id id, by decide +kernel, by decide +kernel, by decide +kernel, by rfl, by decide +kernel, by rfl⟩,
   ⟨wQp { qp0 with ring := { ring0 with headDue := true } }, 7, { qp0 with ring := { ring0 with headDue := true } }, by rfl, by decide +kernel⟩,
   ⟨wCq { cq0 with written := 16 }, 2, { cq0 with written := 16 }, (useLine (wCq { cq0 with written := 16 }) 0x100 engHost false 1 2).elim id id, by rfl, by decide +kernel, by decide +kernel, by decide +kernel, by decide +kernel, by rfl⟩,
   ⟨wCq { cq0 with written := 16 }, 2, encDbRec 4 0 false false, { cq0 with written := 16 }, (useLine (readBack (wCq { cq0 with written := 16 }) 0x100) 0x100 engHost true 1 2).elim id id, by rfl, by decide +kernel, by decide +kernel, by decide +kernel, by decide +kernel, by rfl⟩,
   ⟨{ wCq { cq0 with written := 16, fullAt := some 0 } with clk := { now := 1000000000000 } }, 2, { cq0 with written := 16, fullAt := some 0 }, by rfl, by decide +kernel⟩,
   ⟨{ State.reset with fns := { dflt := {}, cells := [(0x100, { holdoff := { dflt := 0, cells := [(5, 1)] } })] } }, 0x100, 5, by decide +kernel⟩,
   ⟨wSend 0x01, 7, { qp0 with ring := { ring0 with ents := [{ ent0 with op := 0x01 }] } }, (useQueue (wSend 0x01) 0x100 7 engHost).elim id id, by rfl, by decide +kernel, by rfl⟩,
   ⟨wSend 0x02, 7, { qp0 with ring := { ring0 with ents := [{ ent0 with op := 0x02 }] } }, (useQueue (wSend 0x02) 0x100 7 engHost).elim id id, by rfl, by decide +kernel, by rfl⟩,
   ⟨wSend 0x03, 7, { qp0 with ring := { ring0 with ents := [{ ent0 with op := 0x03 }] } }, (useQueue (wSend 0x03) 0x100 7 engHost).elim id id, by rfl, by decide +kernel, by rfl⟩,
   ⟨wSend 0x04, 7, { qp0 with ring := { ring0 with ents := [{ ent0 with op := 0x04 }] } }, (useQueue (wSend 0x04) 0x100 7 engHost).elim id id, by rfl, by decide +kernel, by rfl⟩,
   ⟨wSend 0x05, 7, { qp0 with ring := { ring0 with ents := [{ ent0 with op := 0x05 }] } }, (useQueue (wSend 0x05) 0x100 7 engHost).elim id id, by rfl, by decide +kernel, by rfl⟩,
   ⟨wSend 0x06, 7, { qp0 with ring := { ring0 with ents := [{ ent0 with op := 0x06 }] } }, (useQueue (wSend 0x06) 0x100 7 engHost).elim id id, by rfl, by decide +kernel, by rfl⟩,
   ⟨wSend 0x07, 7, { qp0 with ring := { ring0 with ents := [{ ent0 with op := 0x07 }] } }, (useQueue (wSend 0x07) 0x100 7 engHost).elim id id, by rfl, by decide +kernel, by rfl⟩,
   ⟨wSend 0x09, 7, { qp0 with ring := { ring0 with ents := [{ ent0 with op := 0x09 }] } }, (useQueue (wSend 0x09) 0x100 7 engHost).elim id id, by rfl, by decide +kernel, by rfl⟩,
   ⟨wSend 0x10, 7, { qp0 with ring := { ring0 with ents := [{ ent0 with op := 0x10 }] } }, (useQueue (wSend 0x10) 0x100 7 engHost).elim id id, by rfl, by decide +kernel, by rfl⟩,
   ⟨wSendColl, 7, { qp0 with ring := { ring0 with ents := [entColl] } }, entColl, (useTree wSendColl 0).elim id id, (useQueue ((useTree wSendColl 0).elim id id) 0x100 7 engHost).elim id id, by rfl, by rfl, by decide +kernel, by decide +kernel, by rfl, by rfl, by decide +kernel, by rfl⟩⟩

/-- Every hypothesis of `Obligations.AdminQueueRegistersComplete` is met somewhere. -/
theorem witness_AdminQueueRegistersComplete :
    (∃ (s : State) (f : Nat) (v : Word32), fnExists s f = true) ∧
    (∃ (s : State) (f : Nat) (b : Bool), (fnExists s f = true) ∧ ((s.fn f).aq.enable = false) ∧ ((s.fn f).aq.state = 0)) ∧
    (∃ (s : State) (f : Nat) (b : Bool), (fnExists s f = true) ∧ ((s.fn f).aq.state = 2)) ∧
    (∃ (s : State) (f : Nat), (fnExists s f = true) ∧ ((s.fn f).aq.state = 1) ∧ ((s.fn f).aq.enable = true) ∧ ((s.fn f).bme = true) ∧ ((s.fn f).aq.room ≠ 0)) ∧
    (∃ (s : State) (f : Nat) (sl : Option (List (List Byte))), (fnExists s f = true) ∧ ((s.fn f).aq.state = 1) ∧ ((s.fn f).aq.enable = true) ∧ ((s.fn f).bme = true)) ∧
    (∃ (s : State) (f : Nat) (l : List (List Byte)), (fnExists s f = true) ∧ ((s.fn f).aq.state = 1) ∧ ((s.fn f).aq.enable = true) ∧ ((s.fn f).bme = true) ∧ ((s.fn f).aq.room ≠ 0)) :=
  ⟨⟨State.reset, 0x100, 3, by decide +kernel⟩,
   ⟨State.reset, 0x100, true, by decide +kernel⟩,
   ⟨{ State.reset with fns := { dflt := {}, cells := [(0x100, { aq := { enable := true, state := 2 } })] } }, 0x100, true, by decide +kernel⟩,
   ⟨{ State.reset with fns := { dflt := {}, cells := [(0x100, { bme := true, aq := { enable := true, state := 1, sqTail := 1, log2 := 4 } })] } }, 0x100, by decide +kernel⟩,
   ⟨wAq [] {}, 0x100, none, by decide +kernel⟩,
   ⟨{ wAcc with fns := { dflt := {}, cells := [(0x100, { bme := true, aq := { enable := true, state := 1, sqTail := 1, log2 := 4 } })] } }, 0x100, [slotAbort], by decide +kernel⟩⟩

/-- Every hypothesis of `Obligations.AdminCreationCompletes` is met somewhere. -/
theorem witness_AdminCreationCompletes :
    (∃ (s : State) (f : Nat) (bs : List Byte) (e : List Byte) (q i : Nat), (fnExists s f = true) ∧ (aqTurn s f 0x01 = some e) ∧ (aqClean e = true) ∧ ((createQp (aqTaken s f e) f e (decDbRec bs)).2 = some (stSUCCESS, q, i))) ∧
    (∃ (s : State) (f : Nat) (bs : List Byte) (e : List Byte) (q i : Nat), (fnExists s f = true) ∧ (aqTurn s f 0x04 = some e) ∧ (aqClean e = true) ∧ ((createSrq (aqTaken s f e) f e (decDbRec bs)).2 = some (stSUCCESS, q, i))) ∧
    (∃ (s : State) (f : Nat) (bs : List Byte) (e : List Byte) (q : Nat), (fnExists s f = true) ∧ (aqTurn s f 0x06 = some e) ∧ (aqClean e = true) ∧ ((createCq (aqTaken s f e) f e (decDbRec bs)).2 = some (stSUCCESS, q, 0))) ∧
    (∃ (s : State) (f : Nat) (e : List Byte) (q : Nat), (fnExists s f = true) ∧ (aqTurn s f 0x08 = some e) ∧ (aqClean e = true) ∧ ((createEq (aqTaken s f e) f e).2 = some (stSUCCESS, q, 0))) ∧
    (∃ (s : State) (f : Nat) (e : List Byte) (q : Nat), (fnExists s f = true) ∧ (aqTurn s f 0x0A = some e) ∧ (aqClean e = true) ∧ ((createPd (aqTaken s f e) f e).2 = some (stSUCCESS, q, 0))) ∧
    (∃ (s : State) (f : Nat) (bs : List Byte) (e : List Byte) (k : Nat), (fnExists s f = true) ∧ (aqTurn s f 0x0C = some e) ∧ (aqClean e = true) ∧ (byteAt e 12 ≤ 15) ∧ (1 ≤ byteAt e 13) ∧ (byteAt e 13 ≤ 6) ∧ (windowBad (byteAt e 12) (byteAt e 13) (decExtents bs) = false) ∧ (pf1Denied (emit (aqTaken s f e) (.dmaRead f (leAt e 16 8) (16 * byteAt e 13) 0)) f 0x0C = false) ∧ ((registerWindow (emit (aqTaken s f e) (.dmaRead f (leAt e 16 8) (16 * byteAt e 13) 0)) f (leAt e 8 3) (byteAt e 12) (byteAt e 13) (decExtents bs)).2 = (stSUCCESS, k))) :=
  ⟨⟨wAq slotQp { pds := pd1, cqs := cqs2 }, 0x100, leBytes 4 0 ++ leBytes 4 5, slotQp, 1, 0, by decide +kernel, by rfl, by decide +kernel⟩,
   ⟨wAq slotSrq { pds := pd1, cqs := cqs2 }, 0x100, leBytes 4 0 ++ leBytes 4 5, slotSrq, 1, 0, by decide +kernel, by rfl, by decide +kernel⟩,
   ⟨wAq slotCq {}, 0x100, leBytes 4 0 ++ leBytes 4 5, slotCq, 1, by decide +kernel, by rfl, by decide +kernel⟩,
   ⟨wAq slotEq {}, 0x100, slotEq, 1, by decide +kernel, by rfl, by decide +kernel⟩,
   ⟨wAq (aqSlot 0xA [1]) {}, 0x100, aqSlot 0xA [1], 1, by decide +kernel, by rfl, by decide +kernel⟩,
   ⟨wAq (aqSlot 0xC [1, 0, 0, 0, 3, 1]) { pds := pd1 }, 0x100, leBytes 8 0 ++ leBytes 8 4096, aqSlot 0xC [1, 0, 0, 0, 3, 1], 0, by decide +kernel, by rfl, by decide +kernel⟩⟩

/-- Every hypothesis of `Obligations.AdminChangesComplete` is met somewhere. -/
theorem witness_AdminChangesComplete :
    (∃ (s : State) (f : Nat) (e : List Byte), (fnExists s f = true) ∧ (aqTurn s f 0x02 = some e) ∧ (aqClean e = true) ∧ ((modifyQp (aqTaken s f e) f e).2 = some (stSUCCESS, 0, 0))) ∧
    (∃ (s : State) (f : Nat) (e : List Byte), (fnExists s f = true) ∧ (aqTurn s f 0x03 = some e) ∧ (aqClean e = true) ∧ ((destroyQp (aqTaken s f e) f e).2 = none)) ∧
    (∃ (s : State) (f : Nat) (e : List Byte), (fnExists s f = true) ∧ (aqTurn s f 0x05 = some e) ∧ (aqClean e = true) ∧ ((destroySrq (aqTaken s f e) f e).2 = none)) ∧
    (∃ (s : State) (f : Nat) (e : List Byte), (fnExists s f = true) ∧ (aqTurn s f 0x07 = some e) ∧ (aqClean e = true) ∧ ((destroyCq (aqTaken s f e) f e).2 = some (stSUCCESS, 0, 0))) ∧
    (∃ (s : State) (f : Nat) (e : List Byte), (fnExists s f = true) ∧ (aqTurn s f 0x09 = some e) ∧ (aqClean e = true) ∧ ((destroyEq (aqTaken s f e) f e).2 = some (stSUCCESS, 0, 0))) ∧
    (∃ (s : State) (f : Nat) (e : List Byte), (fnExists s f = true) ∧ (aqTurn s f 0x0B = some e) ∧ (aqClean e = true) ∧ ((destroyPd (aqTaken s f e) f e).2 = some (stSUCCESS, 0, 0))) ∧
    (∃ (s : State) (f : Nat) (e : List Byte), (fnExists s f = true) ∧ (aqTurn s f 0x0D = some e) ∧ (aqClean e = true) ∧ ((winOf (aqTaken s f e) (BitVec.ofNat 32 (leAt e 8 4))).any (fun w => w.fn == f) = true) ∧ (winBusy (aqTaken s f e) ((BitVec.ofNat 32 (leAt e 8 4)).toNat / 256) = false)) ∧
    (∃ (s : State) (f : Nat) (e : List Byte), (fnExists s f = true) ∧ (aqTurn s f 0x0E = some e) ∧ (aqClean e = true) ∧ ((invalidate (aqTaken s f e) f e).2 = some (stSUCCESS, 0, 0))) ∧
    (∃ (s : State) (f : Nat) (e : List Byte) (x : Qp), (fnExists s f = true) ∧ (aqTurn s f 0x0F = some e) ∧ (aqClean e = true) ∧ (byteAt e 8 = 0) ∧ (getQp (aqTaken s f e) (leAt e 12 3) = some x) ∧ (x.fn = f) ∧ ((abortSend (aqTaken s f e) (leAt e 12 3) x (BitVec.ofNat 16 (leAt e 16 2))).2 = some (stSUCCESS, 0, 0))) ∧
    (∃ (s : State) (f : Nat) (e : List Byte) (v : Nat), (fnExists s f = true) ∧ (aqTurn s f 0x10 = some e) ∧ (aqClean e = true) ∧ (isPf0 (aqTaken s f e) f = true) ∧ (ownVf (aqTaken s f e) f (leAt e 8 4) = some v)) ∧
    (∃ (s : State) (f : Nat) (e : List Byte) (v : Nat), (fnExists s f = true) ∧ (aqTurn s f 0x11 = some e) ∧ (aqClean e = true) ∧ (ownVf (aqTaken s f e) f (leAt e 8 4) = some v)) ∧
    (∃ (s : State) (q : Nat) (bs : List Byte) (x : Qp) (e : Ent) (k : Nat), (getQp s q = some x) ∧ (x.ring.chainQ = []) ∧ (x.ring.next = some e) ∧ (e.op = 0x08) ∧ (e.status = stSUCCESS) ∧ (x.st = 1) ∧ (x.resident = true) ∧ (fenceOk x.ring e = true) ∧ (mayWork s q x = true) ∧ (e.chainRead = false) ∧ ((registerWindow (emit s (.dmaRead x.fn (leAt e.slot0 16 8) (16 * byteAt e.slot0 9) q)) x.fn x.pd (byteAt e.slot0 8) (byteAt e.slot0 9) (decExtents bs)).2 = (stSUCCESS, k))) ∧
    (∃ (s : State) (q : Nat) (bs : List Byte) (x : Qp) (e : Ent) (i : BitVec 32) (rest : List (BitVec 32 × Bool)), (getQp s q = some x) ∧ (x.ring.chainQ = (i, true) :: rest) ∧ (x.ring.ents.find? (fun e => e.idx == i && e.chainRead && e.st == 0) = some e)) :=
  ⟨⟨wAq (aqSlot 2 [7, 0, 0, 0, 2, 0, 0, 0, 5, 0, 0, 0, 0x20, 1]) { qps := { dflt := none, cells := [(7, some { qp0 with st := 0 })] } }, 0x100, aqSlot 2 [7, 0, 0, 0, 2, 0, 0, 0, 5, 0, 0, 0, 0x20, 1], by decide +kernel, by rfl, by decide +kernel⟩,
   ⟨wAq (aqSlot 3 [7]) { qps := { dflt := none, cells := [(7, some qp0)] } }, 0x100, aqSlot 3 [7], by decide +kernel, by rfl, by decide +kernel⟩,
   ⟨wAq (aqSlot 5 [9]) { srqs := { dflt := none, cells := [(9, some srq0)] } }, 0x100, aqSlot 5 [9], by decide +kernel, by rfl, by decide +kernel⟩,
   ⟨wAq (aqSlot 7 [2]) { cqs := cqs2 }, 0x100, aqSlot 7 [2], by decide +kernel, by rfl, by decide +kernel⟩,
   ⟨wAq (aqSlot 9 [2]) { eqs := { dflt := none, cells := [(2, some { fn := 0x100, log2 := 6, vector := 2, base := 0 })] } }, 0x100, aqSlot 9 [2], by decide +kernel, by rfl, by decide +kernel⟩,
   ⟨wAq (aqSlot 0xB [1]) { pds := pd1 }, 0x100, aqSlot 0xB [1], by decide +kernel, by rfl, by decide +kernel⟩,
   ⟨wAq (aqSlot 0xD [0, 1]) { wins := { dflt := {}, cells := [(1, { win := some { fn := 0x100, pd := 1, rights := 3, extents := [(0, 4096)] } })] } }, 0x100, aqSlot 0xD [0, 1], by decide +kernel, by rfl, by decide +kernel⟩,
   ⟨wAq (aqSlot 0xE [2]) {}, 0x100, aqSlot 0xE [2], by decide +kernel, by rfl, by decide +kernel⟩,
   ⟨wAq slotAbort { qps := { dflt := none, cells := [(7, some { qp0 with ring := { ring0 with ents := [ent0] } })] } }, 0x100, slotAbort, { qp0 with ring := { ring0 with ents := [ent0] } }, by decide +kernel, by rfl, by decide +kernel, by decide +kernel, by rfl, by decide +kernel⟩,
   ⟨wAq (aqSlot 0x10 [2]) {}, 0x100, aqSlot 0x10 [2], 0x102, by decide +kernel, by rfl, by decide +kernel, by decide +kernel, by rfl⟩,
   ⟨wAq (aqSlot 0x11 [2]) {}, 0x100, aqSlot 0x11 [2], 0x102, by decide +kernel, by rfl, by decide +kernel, by rfl⟩,
   ⟨wBind, 7, leBytes 8 0 ++ leBytes 8 4096, qpBind, entBind, 0, by rfl, by decide +kernel, by rfl, by decide +kernel⟩,
   ⟨wQp { qpBind with ring := { ring0 with chainQ := [(0, true)], ents := [{ entBind with chainRead := true }] } }, 7, leBytes 8 0 ++ leBytes 8 4096, { qpBind with ring := { ring0 with chainQ := [(0, true)], ents := [{ entBind with chainRead := true }] } }, { entBind with chainRead := true }, 0, [], by rfl, by decide +kernel, by rfl⟩⟩

/-- Every hypothesis of `Obligations.InterfaceMailboxCommandsComplete` is met somewhere. -/
theorem witness_InterfaceMailboxCommandsComplete :
    (∃ (s : State) (c : MbCmd) (rest : List MbCmd), (AtHead s c rest 0x0000 []) ∧ (((lenIs 0 []) c.payload) = true)) ∧
    (∃ (s : State) (c : MbCmd) (rest : List MbCmd), (AtHead s c rest 0x0001 []) ∧ (((lenIs 0 []) c.payload) = true)) ∧
    (∃ (s : State) (c : MbCmd) (rest : List MbCmd), (AtHead s c rest 0x0100 [(tgtOCTET, true)]) ∧ ((lenIs 4 [(3, 1)] c.payload && decide (byteAt c.payload 0 < 64) && decide (byteAt c.payload 1 < 4) && decide (byteAt c.payload 2 < 2)) = true) ∧ (quadOut (served s rest) (byteAt c.payload 0 / 16) = false) ∧ (quadBusy (served s rest) (byteAt c.payload 0 / 16) = false) ∧ ((portsOfOctet (served s rest) (byteAt c.payload 0)).any (portBusy (served s rest)) = false) ∧ ((portsOfOctet (served s rest) (byteAt c.payload 0)).any (portIsUp (served s rest)) = false) ∧ (2 ≤ byteAt c.payload 1) ∧ (partOk (served s rest) 1 = true)) ∧
    (∃ (s : State) (c : MbCmd) (rest : List MbCmd), (AtHead s c rest 0x0101 [(tgtPORT, true)]) ∧ ((lenIs 8 [(5, 3)] c.payload && decide (leAt c.payload 0 2 < 512) && decide (byteAt c.payload 2 < 4) && decide (byteAt c.payload 3 < 4) && decide (byteAt c.payload 4 < 2)) = true) ∧ (quadOut (served s rest) (quadOfLane (leAt c.payload 0 2)) = false) ∧ (portBusy (served s rest) (leAt c.payload 0 2) = false) ∧ (((served s rest).port (leAt c.payload 0 2)).exists_ = false) ∧ (leAt c.payload 0 2 % widthLanes (byteAt c.payload 2) = 0) ∧ (claimedBy (served s rest) (leAt c.payload 0 2) (widthLanes (byteAt c.payload 2)) = []) ∧ (byteAt c.payload 3 = 3) ∧ (byteAt c.payload 4 = 0) ∧ (((portDown (updPort (configurePort (served s rest) (leAt c.payload 0 2) (byteAt c.payload 2) 3 false) (leAt c.payload 0 2) (fun x => { x with again := false })) (leAt c.payload 0 2)).port (leAt c.payload 0 2)).link = .down) ∧ (partOk (served s rest) 1 = true)) ∧
    (∃ (s : State) (c : MbCmd) (rest : List MbCmd), (AtHead s c rest 0x0101 [(tgtPORT, true)]) ∧ ((lenIs 8 [(5, 3)] c.payload && decide (leAt c.payload 0 2 < 512) && decide (byteAt c.payload 2 < 4) && decide (byteAt c.payload 3 < 4) && decide (byteAt c.payload 4 < 2)) = true) ∧ (quadOut (served s rest) (quadOfLane (leAt c.payload 0 2)) = false) ∧ (portBusy (served s rest) (leAt c.payload 0 2) = false) ∧ (leAt c.payload 0 2 % widthLanes (byteAt c.payload 2) = 0) ∧ (claimedBy (served s rest) (leAt c.payload 0 2) (widthLanes (byteAt c.payload 2)) = []) ∧ (((served s rest).port (leAt c.payload 0 2)).exists_ = true) ∧ (((served s rest).port (leAt c.payload 0 2)).width = byteAt c.payload 2) ∧ (((served s rest).port (leAt c.payload 0 2)).role = byteAt c.payload 3) ∧ (((served s rest).port (leAt c.payload 0 2)).up = false) ∧ (byteAt c.payload 3 ≠ 1) ∧ (byteAt c.payload 4 = 1) ∧ (partOk (served s rest) 1 = true)) ∧
    (∃ (s : State) (c : MbCmd) (rest : List MbCmd), (AtHead s c rest 0x0102 [(tgtPORT, false)]) ∧ ((lenIs 2 [] c.payload && decide (leAt c.payload 0 2 < 512)) = true) ∧ (quadOut (served s rest) (quadOfLane (leAt c.payload 0 2)) = false) ∧ (portBusy (served s rest) (leAt c.payload 0 2) = false) ∧ (((served s rest).port (leAt c.payload 0 2)).exists_ = true)) ∧
    (∃ (s : State) (c : MbCmd) (rest : List MbCmd), (AtHead s c rest 0x0103 [(tgtHOST, true), (tgtDEVICE, true)]) ∧ ((lenIs 4 [(2, 2)] c.payload && decide (byteAt c.payload 0 < 8) && decide (byteAt c.payload 1 < 3)) = true) ∧ (¬ (byteAt c.payload 0 = 7 ∧ byteAt c.payload 1 = 1)) ∧ (partOk (served s rest) 1 = true)) ∧
    (∃ (s : State) (c : MbCmd) (rest : List MbCmd), (AtHead s c rest 0x0104 [(tgtSWITCH, true)]) ∧ ((partitionFields c.payload) = true) ∧ (byteAt c.payload 0 = 2)) :=
  ⟨⟨wMb 0x0000 [], mbCmd 0x0000 [], [], atHead_met (by decide +kernel), by decide +kernel⟩,
   ⟨wMb 0x0001 [], mbCmd 0x0001 [], [], atHead_met (by decide +kernel), by decide +kernel⟩,
   ⟨wMb 0x0100 [0, 3, 1, 0], mbCmd 0x0100 [0, 3, 1, 0], [], atHead_met (by decide +kernel), by decide +kernel⟩,
   ⟨wMb 0x0101 [0, 0, 2, 3, 0, 0, 0, 0], mbCmd 0x0101 [0, 0, 2, 3, 0, 0, 0, 0], [], atHead_met (by decide +kernel), by decide +kernel⟩,
   ⟨port0 (fun x => { x with role := 0 }) (wMb 0x0101 [0, 0, 0, 0, 1, 0, 0, 0]), mbCmd 0x0101 [0, 0, 0, 0, 1, 0, 0, 0], [], atHead_met (by decide +kernel), by decide +kernel⟩,
   ⟨port0 id (wMb 0x0102 [0, 0]), mbCmd 0x0102 [0, 0], [], atHead_met (by decide +kernel), by decide +kernel⟩,
   ⟨wMb 0x0103 [7, 2, 0, 0], mbCmd 0x0103 [7, 2, 0, 0], [], atHead_met (by decide +kernel), by decide +kernel⟩,
   ⟨wMb 0x0104 [2, 0, 0, 0, 1, 0, 1, 0, 52, 18], mbCmd 0x0104 [2, 0, 0, 0, 1, 0, 1, 0, 52, 18], [], atHead_met (by decide +kernel), by decide +kernel⟩⟩

/-- Every hypothesis of `Obligations.FabricMailboxCommandsComplete` is met somewhere. -/
theorem witness_FabricMailboxCommandsComplete :
    (∃ (s : State) (c : MbCmd) (rest : List MbCmd), (AtHead s c rest 0x0200 [(tgtSWITCH, true)]) ∧ ((routeWriteFields c.payload) = true) ∧ ((served s rest).routes.stage = .none) ∧ ((served s rest).routes.lostEpoch = none)) ∧
    (∃ (s : State) (c : MbCmd) (rest : List MbCmd), (AtHead s c rest 0x0201 [(tgtSWITCH, true)]) ∧ ((lenIs 24 [(2, 2), (13, 3)] c.payload && (List.range 4).all (fun i => decide (fld (byteAt c.payload 12) (2 * i) 2 < 3))) = true) ∧ ((served s rest).routes.stage = .none) ∧ (BitVec.ofNat 16 (leAt c.payload 0 2) - (served s rest).routes.epoch ≠ 0) ∧ ((BitVec.ofNat 16 (leAt c.payload 0 2) - (served s rest).routes.epoch).toNat ≤ 32767) ∧ (fld (byteAt c.payload 12) 6 2 ≠ 2) ∧ (leAt c.payload 4 8 ≠ 0) ∧ (adoptFtFault (served s rest) (leAt c.payload 4 8) = 0)) ∧
    (∃ (s : State) (c : MbCmd) (rest : List MbCmd), (AtHead s c rest 0x0202 [(tgtSWITCH, false)]) ∧ (((lenIs 0 []) c.payload) = true) ∧ ((served s rest).routes.stage = .none)) ∧
    (∃ (s : State) (c : MbCmd) (rest : List MbCmd), (AtHead s c rest 0x0203 [(tgtSWITCH, true)]) ∧ (((lenIs 0 []) c.payload) = true) ∧ ((served s rest).routes.stage ≠ .none)) ∧
    (∃ (s : State) (c : MbCmd) (rest : List MbCmd), (AtHead s c rest 0x0300 [(tgtTIME, true)]) ∧ ((lenIs 16 [(9, 7)] c.payload && decide (byteAt c.payload 8 < 2)) = true) ∧ ((served s rest).grp.manager = true) ∧ (byteAt c.payload 8 = 1)) ∧
    (∃ (s : State) (c : MbCmd) (rest : List MbCmd), (AtHead s c rest 0x0301 [(tgtTIME, false)]) ∧ (((lenIs 0 []) c.payload) = true)) ∧
    (∃ (s : State) (c : MbCmd) (rest : List MbCmd), (AtHead s c rest 0x0302 [(tgtTIME, true)]) ∧ ((lenIs 16 [(9, 7)] c.payload && decide (byteAt c.payload 8 < 2)) = true) ∧ (byteAt c.payload 8 = 0) ∧ ((served s rest).snap.st ≠ 1) ∧ ((served s rest).tu.valid = true) ∧ ((served s rest).clk.ft.toNat < leAt c.payload 0 8)) ∧
    (∃ (s : State) (c : MbCmd) (rest : List MbCmd), (AtHead s c rest 0x0303 [(tgtTIME, true)]) ∧ (((lenIs 0 []) c.payload) = true) ∧ ((served s rest).snap.st = 1)) ∧
    (∃ (s : State) (c : MbCmd) (rest : List MbCmd), (AtHead s c rest 0x0304 [(tgtTIME, true)]) ∧ ((lenIs 4 [] c.payload && decide (leAt c.payload 0 2 < 512) && decide (1 ≤ leAt c.payload 2 2) && decide (leAt c.payload 2 2 ≤ 128)) = true) ∧ (quadOut (served s rest) (quadOfLane (leAt c.payload 0 2)) = false) ∧ (((served s rest).port (leAt c.payload 0 2)).exists_ = true) ∧ (portBusy (served s rest) (leAt c.payload 0 2) = false)) :=
  ⟨⟨wMb 0x0200 ([2, 1, 0, 0, 7, 0, 0, 0] ++ List.replicate 15 0 ++ [0x80]), mbCmd 0x0200 ([2, 1, 0, 0, 7, 0, 0, 0] ++ List.replicate 15 0 ++ [0x80]), [], atHead_met (by decide +kernel), by decide +kernel⟩,
   ⟨{ wMb 0x0201 ([1, 0, 0, 0, 0, 160, 0, 0] ++ List.replicate 16 0) with tu := { valid := true } }, mbCmd 0x0201 ([1, 0, 0, 0, 0, 160, 0, 0] ++ List.replicate 16 0), [], atHead_met (by decide +kernel), by decide +kernel⟩,
   ⟨wMb 0x0202 [], mbCmd 0x0202 [], [], atHead_met (by decide +kernel), by decide +kernel⟩,
   ⟨{ wMb 0x0203 [] with routes := { stage := .staged } }, mbCmd 0x0203 [], [], atHead_met (by decide +kernel), by decide +kernel⟩,
   ⟨{ wMb 0x0300 ([1, 0, 0, 0, 0, 0, 0, 0, 1] ++ List.replicate 7 0) with grp := { manager := true } }, mbCmd 0x0300 ([1, 0, 0, 0, 0, 0, 0, 0, 1] ++ List.replicate 7 0), [], atHead_met (by decide +kernel), by decide +kernel⟩,
   ⟨wMb 0x0301 [], mbCmd 0x0301 [], [], atHead_met (by decide +kernel), by decide +kernel⟩,
   ⟨{ wMb 0x0302 ([1] ++ List.replicate 15 0) with tu := { valid := true } }, mbCmd 0x0302 ([1] ++ List.replicate 15 0), [], atHead_met (by decide +kernel), by decide +kernel⟩,
   ⟨{ wMb 0x0303 [] with snap := { st := 1 } }, mbCmd 0x0303 [], [], atHead_met (by decide +kernel), by decide +kernel⟩,
   ⟨port0 id (wMb 0x0304 [0, 0, 128, 0]), mbCmd 0x0304 [0, 0, 128, 0], [], atHead_met (by decide +kernel), by decide +kernel⟩⟩

/-- Every hypothesis of `Obligations.SchedulingMailboxCommandsComplete` is met somewhere. -/
theorem witness_SchedulingMailboxCommandsComplete :
    (∃ (s : State) (c : MbCmd) (rest : List MbCmd), (AtHead s c rest 0x0400 [(tgtSWITCH, true)]) ∧ ((almFields c.payload) = true) ∧ (quadOut (served s rest) (quadOfLane (leAt c.payload 0 2)) = false) ∧ (((served s rest).port (leAt c.payload 0 2)).exists_ = true) ∧ (portBusy (served s rest) (leAt c.payload 0 2) = false) ∧ (((served s rest).port (leAt c.payload 0 2)).gate.pending = false) ∧ (byteAt c.payload 2 = 0) ∧ (leAt c.payload 8 8 ≠ 0) ∧ (adoptFtFault (served s rest) (leAt c.payload 8 8) = 0)) ∧
    (∃ (s : State) (c : MbCmd) (rest : List MbCmd), (AtHead s c rest 0x0401 [(tgtSWITCH, false)]) ∧ ((lenIs 4 [(3, 1)] c.payload && decide (leAt c.payload 0 2 < 512) && decide (byteAt c.payload 2 < 2)) = true) ∧ (quadOut (served s rest) (quadOfLane (leAt c.payload 0 2)) = false) ∧ (portBusy (served s rest) (leAt c.payload 0 2) = false) ∧ (((served s rest).port (leAt c.payload 0 2)).exists_ = true)) ∧
    (∃ (s : State) (c : MbCmd) (rest : List MbCmd), (AtHead s c rest 0x0402 [(tgtSHAPER, true)]) ∧ ((shaperFields c.payload) = true) ∧ (shpPort (leAt c.payload 0 4) = true) ∧ (quadOut (served s rest) (quadOfLane (fld (leAt c.payload 0 4) 0 9)) = false) ∧ (((served s rest).port (fld (leAt c.payload 0 4) 0 9)).exists_ = true) ∧ (portBusy (served s rest) (fld (leAt c.payload 0 4) 0 9) = false)) ∧
    (∃ (s : State) (c : MbCmd) (rest : List MbCmd), (AtHead s c rest 0x0403 [(tgtSHAPER, true)]) ∧ ((policerFields c.payload) = true) ∧ (fld (leAt c.payload 0 4) 31 1 = 0) ∧ (quadOut (served s rest) (quadOfLane (fld (leAt c.payload 0 4) 0 9)) = false) ∧ (((served s rest).port (fld (leAt c.payload 0 4) 0 9)).exists_ = true) ∧ (portBusy (served s rest) (fld (leAt c.payload 0 4) 0 9) = false) ∧ (fld (leAt c.payload 0 4) 9 2 = 0)) ∧
    (∃ (s : State) (c : MbCmd) (rest : List MbCmd), (AtHead s c rest 0x0404 [(tgtPORT, true)]) ∧ ((lenIs 8 [] c.payload && decide (leAt c.payload 0 2 < 512) && [2, 4, 6].all (fun i => decide (1 ≤ leAt c.payload i 2) && decide (leAt c.payload i 2 ≤ 4095))) = true) ∧ (quadOut (served s rest) (quadOfLane (leAt c.payload 0 2)) = false) ∧ (((served s rest).port (leAt c.payload 0 2)).exists_ = true) ∧ (portBusy (served s rest) (leAt c.payload 0 2) = false)) ∧
    (∃ (s : State) (c : MbCmd) (rest : List MbCmd), (AtHead s c rest 0x0500 [(tgtSWITCH, true)]) ∧ ((treeFields c.payload) = true) ∧ ((doTreeSetup (served s rest) c).1 = stSUCCESS)) ∧
    (∃ (s : State) (c : MbCmd) (rest : List MbCmd) (d : Tree), (AtHead s c rest 0x0501 [(tgtSWITCH, true)]) ∧ ((treeIdFields c.payload) = true) ∧ (getTree (served s rest) (leAt c.payload 0 4) = some d) ∧ (d.colls = [])) ∧
    (∃ (s : State) (c : MbCmd) (rest : List MbCmd) (d : Tree), (AtHead s c rest 0x0502 [(tgtSWITCH, false)]) ∧ ((treeIdFields c.payload) = true) ∧ (getTree (served s rest) (leAt c.payload 0 4) = some d)) :=
  ⟨⟨{ port0 id (wMb 0x0400 ([0, 0, 0, 0, 1, 0, 0, 0, 0, 160, 0, 0, 0, 0, 0, 0, 64, 0, 0, 0, 255, 255, 0, 0])) with tu := { valid := true } }, mbCmd 0x0400 ([0, 0, 0, 0, 1, 0, 0, 0, 0, 160, 0, 0, 0, 0, 0, 0, 64, 0, 0, 0, 255, 255, 0, 0]), [], atHead_met (by decide +kernel), by decide +kernel⟩,
   ⟨port0 id (wMb 0x0401 [0, 0, 0, 0]), mbCmd 0x0401 [0, 0, 0, 0], [], atHead_met (by decide +kernel), by decide +kernel⟩,
   ⟨port0 id (wMb 0x0402 [0, 0, 0, 0, 1, 0, 0, 0, 0, 0, 1, 0]), mbCmd 0x0402 ([0, 0, 0, 0, 1, 0, 0, 0, 0, 0, 1, 0]), [], atHead_met (by decide +kernel), by decide +kernel⟩,
   ⟨port0 id (wMb 0x0403 (List.replicate 20 0)), mbCmd 0x0403 (List.replicate 20 0), [], atHead_met (by decide +kernel), by decide +kernel⟩,
   ⟨port0 id (wMb 0x0404 [0, 0, 1, 0, 2, 0, 255, 15]), mbCmd 0x0404 [0, 0, 1, 0, 2, 0, 255, 15], [], atHead_met (by decide +kernel), by decide +kernel⟩,
   ⟨wMb 0x0500 [1, 0, 0, 0, 255, 255, 1, 0, 255, 255, 0, 4, 100, 0, 0, 0, 0, 128], mbCmd 0x0500 [1, 0, 0, 0, 255, 255, 1, 0, 255, 255, 0, 4, 100, 0, 0, 0, 0, 128], [], atHead_met (by decide +kernel), by decide +kernel⟩,
   ⟨wTreeMb 0x0501, mbCmd 0x0501 [1, 0, 0, 0], [], tree1, atHead_met (by decide +kernel), by decide +kernel, by rfl, by decide +kernel⟩,
   ⟨wTreeMb 0x0502, mbCmd 0x0502 [1, 0, 0, 0], [], tree1, atHead_met (by decide +kernel), by decide +kernel, by rfl⟩⟩

/-- Every hypothesis of `Obligations.LogAndFirmwareMailboxCommandsComplete` is met somewhere. -/
theorem witness_LogAndFirmwareMailboxCommandsComplete :
    (∃ (s : State) (c : MbCmd) (rest : List MbCmd), (AtHead s c rest 0x0600 [(tgtEVENT, true)]) ∧ (((lenIs 0 []) c.payload) = true)) ∧
    (∃ (s : State) (c : MbCmd) (rest : List MbCmd), (AtHead s c rest 0x0601 [(tgtEVENT, true)]) ∧ (((lenIs 136 []) c.payload) = true) ∧ ((served s rest).boot.ownerKeys.contains (tokenKey c.payload) = true) ∧ ((c.payload.drop 8).take 12 = (served s rest).ident.serial) ∧ ((served s rest).cmds.nonce = some (BitVec.ofNat 128 (leAt c.payload 20 16)))) ∧
    (∃ (s : State) (c : MbCmd) (rest : List MbCmd), (AtHead s c rest 0x0602 [(tgtDEVICE, false)]) ∧ ((lenIs 4 [(1, 3)] c.payload && decide (byteAt c.payload 0 < 6)) = true)) ∧
    (∃ (s : State) (c : MbCmd) (rest : List MbCmd), (AtHead s c rest 0x0603 [(tgtDEVICE, false)]) ∧ (((lenIs 0 []) c.payload) = true)) ∧
    (∃ (s : State) (c : MbCmd) (rest : List MbCmd), (AtHead s c rest 0x0700 [(tgtFLASH, true)]) ∧ ((lenIs 8 [(1, 3)] c.payload && decide (byteAt c.payload 0 < 2) && imageLenOk (leAt c.payload 4 4)) = true) ∧ ((served s rest).boot.slot ≠ byteAt c.payload 0) ∧ ((served s rest).boot.update = none)) ∧
    (∃ (s : State) (c : MbCmd) (rest : List MbCmd) (d : FwUpdate), (AtHead s c rest 0x0701 [(tgtFLASH, true)]) ∧ ((decide (9 ≤ c.payload.length) && decide (c.payload.length ≤ 4088) && zeroAt c.payload 4 4) = true) ∧ ((served s rest).boot.update = some d) ∧ (d.owner = c.m) ∧ (leAt c.payload 0 4 = d.next) ∧ (leAt c.payload 0 4 + (c.payload.length - 8) ≤ d.len)) ∧
    (∃ (s : State) (c : MbCmd) (rest : List MbCmd) (img : Image) (d : FwUpdate), (AtHead s c rest 0x0702 [(tgtFLASH, true)]) ∧ (((lenIs 0 []) c.payload) = true) ∧ (s.boot.flashGnt = false) ∧ (s.boot.flashReq = false) ∧ (s.boot.update = some d) ∧ (d.owner = c.m)) ∧
    (∃ (s : State) (c : MbCmd) (rest : List MbCmd) (img : Image), (AtHead s c rest 0x0703 [(tgtDEVICE, true)]) ∧ (activateFields c.payload = true) ∧ (s.boot.flashGnt = false) ∧ (s.boot.flashReq = false) ∧ (byteAt c.payload 1 = 0) ∧ (imageCheck (served s rest) (byteAt c.payload 0) img false = stSUCCESS) ∧ (partOk (served s rest) 3 = true)) ∧
    (∃ (s : State) (c : MbCmd) (rest : List MbCmd), (AtHead s c rest 0x0704 []) ∧ (((lenIs 0 []) c.payload) = true)) ∧
    (∃ (s : State) (u : FwUpdate), (s.boot.update = some u) ∧ (u.lastUse + 60 * oneSec ≤ s.clk.now)) :=
  ⟨⟨wMb 0x0600 [], mbCmd 0x0600 [], [], atHead_met (by decide +kernel), by decide +kernel⟩,
   ⟨{ wMb 0x0601 (List.replicate 8 0 ++ List.replicate 12 0x30 ++ List.replicate 116 0) with boot := { fwReady := true, power := .run, porst := false, flashGnt := false, ownerKeys := [0] }, cmds := { queue := [mbCmd 0x0601 (List.replicate 8 0 ++ List.replicate 12 0x30 ++ List.replicate 116 0)], nonce := some 0 } }, mbCmd 0x0601 (List.replicate 8 0 ++ List.replicate 12 0x30 ++ List.replicate 116 0), [], atHead_met (by decide +kernel), by decide +kernel⟩,
   ⟨wMb 0x0602 [5, 0, 0, 0], mbCmd 0x0602 [5, 0, 0, 0], [], atHead_met (by decide +kernel), by decide +kernel⟩,
   ⟨wMb 0x0603 [], mbCmd 0x0603 [], [], atHead_met (by decide +kernel), by decide +kernel⟩,
   ⟨wMb 0x0700 [1, 0, 0, 0, 0, 16, 0, 0], mbCmd 0x0700 [1, 0, 0, 0, 0, 16, 0, 0], [], atHead_met (by decide +kernel), by decide +kernel⟩,
   ⟨{ wMb 0x0701 [0, 0, 0, 0, 0, 0, 0, 0, 5] with boot := { power := .run, porst := false, flashGnt := false, fwReady := true, update := some { owner := 0x22, slot := 1, len := 4096, next := 0, lastUse := 0 } } }, mbCmd 0x0701 [0, 0, 0, 0, 0, 0, 0, 0, 5], [], { owner := 0x22, slot := 1, len := 4096, next := 0, lastUse := 0 }, atHead_met (by decide +kernel), by decide +kernel, by rfl, by decide +kernel⟩,
   ⟨{ wMb 0x0702 [] with boot := { power := .run, porst := false, flashGnt := false, fwReady := true, update := some { owner := 0x22, slot := 1, len := 4096, next := 0, lastUse := 0 } } }, mbCmd 0x0702 [], [], wImage, { owner := 0x22, slot := 1, len := 4096, next := 0, lastUse := 0 }, atHead_met (by decide +kernel), by decide +kernel, by decide +kernel, by decide +kernel, by rfl, by decide +kernel⟩,
   ⟨wMb 0x0703 [1, 0, 0, 0], mbCmd 0x0703 [1, 0, 0, 0], [], wImage, atHead_met (by decide +kernel), by decide +kernel⟩,
   ⟨wMb 0x0704 [], mbCmd 0x0704 [], [], atHead_met (by decide +kernel), by decide +kernel⟩,
   ⟨{ State.reset with boot := { update := some { owner := 0x22, slot := 1, len := 4096, next := 0, lastUse := 0 } }, clk := { State.reset.clk with now := 60000000000 } }, { owner := 0x22, slot := 1, len := 4096, next := 0, lastUse := 0 }, by rfl, by decide +kernel⟩⟩

/-- Every hypothesis of `Obligations.ConfigurationMailboxCommandsComplete` is met somewhere. -/
theorem witness_ConfigurationMailboxCommandsComplete :
    (∃ (s : State) (c : MbCmd) (rest : List MbCmd), (AtHead s c rest 0x0705 [(tgtDEVICE, true)]) ∧ ((lenIs 260 [(1, 3)] c.payload && isTarget (byteAt c.payload 0) && (List.range 64).all (fun i => fld (leAt c.payload (4 + 4 * i) 4) 26 5 == 0)) = true) ∧ (byteAt c.payload 0 ≠ tgtKEY) ∧ (byteAt c.payload 0 ≠ tgtSECURE) ∧ (byteAt c.payload 0 ≠ tgtDEVICE) ∧ (losesRight ((served s rest).access.get (byteAt c.payload 0)) (tableAt c.payload 4) 0 false = false) ∧ (losesRight ((served s rest).access.get (byteAt c.payload 0)) (tableAt c.payload 4) 0 true = false) ∧ (partOk (served s rest) 1 = true)) ∧
    (∃ (s : State) (c : MbCmd) (rest : List MbCmd), (AtHead s c rest 0x0706 [(tgtDEVICE, false)]) ∧ ((lenIs 4 [(1, 3)] c.payload && isTarget (byteAt c.payload 0)) = true)) ∧
    (∃ (s : State) (c : MbCmd) (rest : List MbCmd) (v : Nat × Nat), (AtHead s c rest 0x0800 [(tgtDEVICE, false)]) ∧ ((lenIs 4 [] c.payload && itemCodes.contains (byteAt c.payload 3)) = true) ∧ (itemQuadOut (served s rest) (byteAt c.payload 3) (leAt c.payload 0 3) = false) ∧ (itemBusy (served s rest) (byteAt c.payload 3) (leAt c.payload 0 3) = false) ∧ (itemValues (served s rest) (byteAt c.payload 3) (leAt c.payload 0 3) = some v)) ∧
    (∃ (s : State) (c : MbCmd) (rest : List MbCmd), (AtHead s c rest 0x0801 [(tgtDEVICE, false)]) ∧ (((lenIs 0 []) c.payload) = true) ∧ (stagingBusy (served s rest).cmds.exportBuf c.m = false)) ∧
    (∃ (s : State) (c : MbCmd) (rest : List MbCmd), (AtHead s c rest 0x0802 [(tgtDEVICE, false)]) ∧ (((lenIs 4 []) c.payload) = true) ∧ ((served s rest).cmds.exportBuf.owner = some c.m) ∧ (leAt c.payload 0 4 = (served s rest).cmds.exportBuf.next) ∧ (leAt c.payload 0 4 + (((served s rest).cmds.exportBuf.bytes.drop (leAt c.payload 0 4)).take 4080).length < (served s rest).cmds.exportBuf.bytes.length)) ∧
    (∃ (s : State) (c : MbCmd) (rest : List MbCmd), (AtHead s c rest 0x0803 [(tgtDEVICE, true)]) ∧ ((decide (9 ≤ c.payload.length) && decide (c.payload.length ≤ 4088) && zeroAt c.payload 4 4) = true) ∧ (stagingBusy (served s rest).cmds.importBuf c.m = false) ∧ (leAt c.payload 0 4 = (served s rest).cmds.importBuf.next) ∧ ((served s rest).cmds.importBuf.next + (c.payload.drop 8).length ≤ 720896)) ∧
    (∃ (s : State) (c : MbCmd) (rest : List MbCmd), (AtHead s c rest 0x0804 [(tgtDEVICE, true), (tgtCONFIG, true)]) ∧ (((lenIs 8 []) c.payload) = true) ∧ (stagingBusy (served s rest).cmds.importBuf c.m = false) ∧ (leAt c.payload 0 4 = (served s rest).cmds.importBuf.bytes.length) ∧ (leAt c.payload 4 4 = (crc32c ((served s rest).cmds.importBuf.bytes.drop 64)).toNat) ∧ (23808 ≤ (served s rest).cmds.importBuf.bytes.length) ∧ (leAt (served s rest).cmds.importBuf.bytes 0 4 = 0x55434647) ∧ (leAt (served s rest).cmds.importBuf.bytes 4 2 = 1) ∧ (byteAt (served s rest).cmds.importBuf.bytes 6 = b2n (served s rest).ident.h96) ∧ (byteAt (served s rest).cmds.importBuf.bytes 7 = b2n (served s rest).ident.gradeL) ∧ (partOk (served s rest) 1 = true)) ∧
    (∃ (s : State) (b : Bool), b = true) ∧
    (∃ (s : State) (c : MbCmd) (rest : List MbCmd), (AtHead s c rest 0x0805 [(tgtDEVICE, true)]) ∧ ((lenIs 4 [(1, 3)] c.payload && decide (byteAt c.payload 0 < 2)) = true) ∧ (byteAt c.payload 0 = 1)) ∧
    (∃ (s : State) (c : MbCmd) (rest : List MbCmd), (AtHead s c rest 0x0806 [(tgtDEVICE, true)]) ∧ ((lenIs 4 [] c.payload && decide (leAt c.payload 0 4 < 2 ^ 20)) = true) ∧ ((served s rest).boot.straps.feaStrapEn = false) ∧ (partOk (served s rest) 1 = true) ∧ ((served s rest).routes.fea.isSome = true)) ∧
    (∃ (s : State) (c : MbCmd) (rest : List MbCmd) (t u : State), (AtHead s c rest 0x0806 [(tgtDEVICE, true)]) ∧ ((lenIs 4 [] c.payload && decide (leAt c.payload 0 4 < 2 ^ 20)) = true) ∧ ((served s rest).boot.straps.feaStrapEn = false) ∧ (partOk (served s rest) 1 = true) ∧ (t = storeCfg (served s rest) (fun g => { g with fea := some (BitVec.ofNat 20 (leAt c.payload 0 4)) })) ∧ (t.routes.fea = none) ∧ (u = { t with routes := { t.routes with fea := some (BitVec.ofNat 20 (leAt c.payload 0 4)) } }) ∧ ((portsOf u).any (fun p => isFabric u p && (u.port p).link == .active) = false)) ∧
    (∃ (s : State) (c : MbCmd) (rest : List MbCmd), (AtHead s c rest 0x0807 [(tgtDEVICE, true)]) ∧ ((lenIs 4 [(2, 2)] c.payload && decide (byteAt c.payload 0 < 4) && decide (byteAt c.payload 1 < 2)) = true) ∧ (quadBusy (served s rest) (byteAt c.payload 0) = false) ∧ (byteAt c.payload 1 = 1) ∧ (((served s rest).quad (byteAt c.payload 0)).st = 0) ∧ (serviceKept (served s rest) (byteAt c.payload 0) = true) ∧ ((fnsOfQuad (served s rest) (byteAt c.payload 0)).any (fun f => ((served s rest).fn f).bme) = false) ∧ ((served s rest).ep.trees.cells.any (fun kv => kv.2.isSome && kv.1 % 4 == byteAt c.payload 0) = false) ∧ (rehomeRoom (served s rest) (byteAt c.payload 0) = true)) ∧
    (∃ (s : State) (c : MbCmd) (rest : List MbCmd), (AtHead s c rest 0x0807 [(tgtDEVICE, true)]) ∧ ((lenIs 4 [(2, 2)] c.payload && decide (byteAt c.payload 0 < 4) && decide (byteAt c.payload 1 < 2)) = true) ∧ (quadBusy (served s rest) (byteAt c.payload 0) = false) ∧ (byteAt c.payload 1 = 0) ∧ (((served s rest).quad (byteAt c.payload 0)).st = 1)) ∧
    (∃ (s : State) (c : MbCmd) (rest : List MbCmd), (AtHead s c rest 0x0808 [(tgtDEVICE, true), (tgtCONFIG, true)]) ∧ ((lenIs 4 [(2, 2)] c.payload && decide (byteAt c.payload 0 < 4) && decide (byteAt c.payload 1 < 2)) = true) ∧ (quadBusy (served s rest) (byteAt c.payload 0) = false) ∧ (byteAt c.payload 1 = 0) ∧ (partOk (served s rest) 1 = true)) ∧
    (∃ (s : State) (c : MbCmd) (rest : List MbCmd), (AtHead s c rest 0x0809 [(tgtDEVICE, false)]) ∧ (((lenIs 0 []) c.payload) = true)) :=
  ⟨⟨wMb 0x0705 ([0, 0, 0, 0, 0, 0, 0, 131] ++ List.replicate 252 0), mbCmd 0x0705 ([0, 0, 0, 0, 0, 0, 0, 131] ++ List.replicate 252 0), [], atHead_met (by decide +kernel), by decide +kernel⟩,
   ⟨wMb 0x0706 [1, 0, 0, 0], mbCmd 0x0706 [1, 0, 0, 0], [], atHead_met (by decide +kernel), by decide +kernel⟩,
   ⟨wMb 0x0800 [0, 0, 0, 0], mbCmd 0x0800 [0, 0, 0, 0], [], (0, 0), atHead_met (by decide +kernel), by decide +kernel, by decide +kernel, by decide +kernel, by rfl⟩,
   ⟨wMb 0x0801 [], mbCmd 0x0801 [], [], atHead_met (by decide +kernel), by decide +kernel⟩,
   ⟨{ wMb 0x0802 [0, 0, 0, 0] with cmds := { queue := [mbCmd 0x0802 [0, 0, 0, 0]], exportBuf := { owner := some 0x22, bytes := List.replicate 4081 0 } } }, mbCmd 0x0802 [0, 0, 0, 0], [], atHead_met (by decide +kernel), by decide +kernel⟩,
   ⟨wMb 0x0803 [0, 0, 0, 0, 0, 0, 0, 0, 5], mbCmd 0x0803 [0, 0, 0, 0, 0, 0, 0, 0, 5], [], atHead_met (by decide +kernel), by decide +kernel⟩,
   met_mbConfigImportCommit,
   ⟨State.reset, true, by decide +kernel⟩,
   ⟨wMb 0x0805 [1, 0, 0, 0], mbCmd 0x0805 [1, 0, 0, 0], [], atHead_met (by decide +kernel), by decide +kernel⟩,
   ⟨{ wMb 0x0806 [16, 0, 0, 0] with routes := { fea := some 3 } }, mbCmd 0x0806 [16, 0, 0, 0], [], atHead_met (by decide +kernel), by decide +kernel⟩,
   ⟨wMb 0x0806 [16, 0, 0, 0], mbCmd 0x0806 [16, 0, 0, 0], [], storeCfg (served (wMb 0x0806 [16, 0, 0, 0]) []) (fun g => { g with fea := some (BitVec.ofNat 20 (leAt [16, 0, 0, 0] 0 4)) }), { storeCfg (served (wMb 0x0806 [16, 0, 0, 0]) []) (fun g => { g with fea := some (BitVec.ofNat 20 (leAt [16, 0, 0, 0] 0 4)) }) with routes := { (storeCfg (served (wMb 0x0806 [16, 0, 0, 0]) []) (fun g => { g with fea := some (BitVec.ofNat 20 (leAt [16, 0, 0, 0] 0 4)) })).routes with fea := some (BitVec.ofNat 20 (leAt [16, 0, 0, 0] 0 4)) } }, atHead_met (by decide +kernel), by decide +kernel⟩,
   ⟨wMb 0x0807 [1, 1, 0, 0], mbCmd 0x0807 [1, 1, 0, 0], [], atHead_met (by decide +kernel), by decide +kernel⟩,
   ⟨{ wMb 0x0807 [1, 0, 0, 0] with quads := { dflt := {}, cells := [(1, { st := 1 })] } }, mbCmd 0x0807 [1, 0, 0, 0], [], atHead_met (by decide +kernel), by decide +kernel⟩,
   ⟨wMb 0x0808 [2, 0, 0, 0], mbCmd 0x0808 [2, 0, 0, 0], [], atHead_met (by decide +kernel), by decide +kernel⟩,
   ⟨wMb 0x0809 [], mbCmd 0x0809 [], [], atHead_met (by decide +kernel), by decide +kernel⟩⟩

/-- Every hypothesis of `Obligations.LaneTestAndClassLCommandsComplete` is met somewhere. -/
theorem witness_LaneTestAndClassLCommandsComplete :
    (∃ (s : State) (c : MbCmd) (rest : List MbCmd), (AtHead s c rest 0x0900 [(tgtLANE, true)]) ∧ ((lenIs 8 [(5, 3)] c.payload && decide (leAt c.payload 0 2 < 512) && decide (byteAt c.payload 2 < 8) && decide (byteAt c.payload 3 < 2) && decide (byteAt c.payload 4 < 2) && !(byteAt c.payload 4 == 1 && byteAt c.payload 2 == 7)) = true) ∧ (quadOut (served s rest) (quadOfLane (leAt c.payload 0 2)) = false) ∧ (quadBusy (served s rest) (quadOfLane (leAt c.payload 0 2)) = false) ∧ (((served s rest).lane (leAt c.payload 0 2)).st = .diag) ∧ (byteAt c.payload 2 ≠ 3) ∧ (byteAt c.payload 3 = 0) ∧ (byteAt c.payload 4 = 1)) ∧
    (∃ (s : State) (c : MbCmd) (rest : List MbCmd) (bits errs : Nat), (AtHead s c rest 0x0901 [(tgtLANE, false)]) ∧ ((lenIs 2 [] c.payload && decide (leAt c.payload 0 2 < 512)) = true) ∧ (quadOut (served s rest) (quadOfLane (leAt c.payload 0 2)) = false) ∧ (quadBusy (served s rest) (quadOfLane (leAt c.payload 0 2)) = false)) ∧
    (∃ (s : State) (c : MbCmd) (rest : List MbCmd), (AtHead s c rest 0x0902 [(tgtLANE, true)]) ∧ ((lenIs 4 [(3, 1)] c.payload && decide (leAt c.payload 0 2 < 512) && decide (byteAt c.payload 2 < 4)) = true) ∧ (quadOut (served s rest) (quadOfLane (leAt c.payload 0 2)) = false) ∧ (quadBusy (served s rest) (quadOfLane (leAt c.payload 0 2)) = false) ∧ (((served s rest).lane (leAt c.payload 0 2)).st = .diag) ∧ (leAt c.payload 0 2 % 4 = 0)) ∧
    (∃ (s : State) (c : MbCmd) (rest : List MbCmd), (AtHead s c rest 0x0903 [(tgtLANE, true)]) ∧ ((lenIs 8 [(3, 1)] c.payload && decide (leAt c.payload 0 2 < 512) && decide (byteAt c.payload 2 < 4) && (byteAt c.payload 2 != 3 || decide (leAt c.payload 4 4 < 2))) = true) ∧ (quadOut (served s rest) (quadOfLane (leAt c.payload 0 2)) = false) ∧ (quadBusy (served s rest) (quadOfLane (leAt c.payload 0 2)) = false) ∧ (injectableAs (served s rest) (leAt c.payload 0 2) (byteAt c.payload 2) = true)) ∧
    (∃ (s : State) (c : MbCmd) (rest : List MbCmd), (s.cmds.queue = c :: rest) ∧ (mbOpcodes.contains c.op = false) ∧ (molzuUp s = true)) ∧
    (∃ (s : State) (m tag : Nat) (b : BgCmd), (molzuUp s = true) ∧ (s.cmds.running.find? (fun b => b.m == m && b.tag == tag && workEnded s b) = some b)) ∧
    (∃ (s : State) (q : Nat), (q < 4) ∧ ((s.quad q).stage = .draining) ∧ ((portsOfQuad s q).all (fun p => (s.port p).link == .down) = true)) ∧
    (∃ (s : State) (q : Nat), (q < 4) ∧ ((s.quad q).stage = .rehoming)) ∧
    (∃ (s : State) (q : Nat), (q < 4) ∧ ((s.quad q).stage = .gating)) ∧
    (∃ (s : State) (q : Nat), (q < 4) ∧ ((s.quad q).stage = .ungating)) :=
  ⟨⟨lane0 (fun x => { x with st := .diag }) (wMb 0x0900 [0, 0, 2, 0, 1, 0, 0, 0]), mbCmd 0x0900 [0, 0, 2, 0, 1, 0, 0, 0], [], atHead_met (by decide +kernel), by decide +kernel⟩,
   ⟨wMb 0x0901 [0, 0], mbCmd 0x0901 [0, 0], [], 0, 0, atHead_met (by decide +kernel), by decide +kernel⟩,
   ⟨lane0 (fun x => { x with st := .diag }) (wMb 0x0902 [0, 0, 3, 0]), mbCmd 0x0902 [0, 0, 3, 0], [], atHead_met (by decide +kernel), by decide +kernel⟩,
   ⟨lane0 (fun x => { x with st := .up }) (wMb 0x0903 [0, 0, 1, 0, 1, 0, 0, 0]), mbCmd 0x0903 [0, 0, 1, 0, 1, 0, 0, 0], [], atHead_met (by decide +kernel), by decide +kernel⟩,
   ⟨wMb 0x0A00 [], mbCmd 0x0A00 [], [], by decide +kernel⟩,
   ⟨wRunning, 0x22, 3, bgEnded, by decide +kernel, by rfl⟩,
   ⟨{ State.reset with quads := { dflt := {}, cells := [(3, { stage := .draining })] } }, 3, by decide +kernel⟩,
   ⟨{ State.reset with quads := { dflt := {}, cells := [(3, { stage := .rehoming })] } }, 3, by decide +kernel⟩,
   ⟨{ State.reset with quads := { dflt := {}, cells := [(3, { stage := .gating })] } }, 3, by decide +kernel⟩,
   ⟨{ State.reset with quads := { dflt := {}, cells := [(3, { st := 1, stage := .ungating })] } }, 3, by decide +kernel⟩⟩

/-- Every hypothesis of `Obligations.SchedulerCommandsComplete` is met somewhere. -/
theorem witness_SchedulerCommandsComplete :
    (∃ (s : State) (p vc : Nat) (y : Port) (q : QPkt) (l : List QPkt), (p < 512) ∧ (((s.port p).link = .active ∨ (s.port p).link = .drain)) ∧ ((s.port p).leaving.all (·.departed) = true) ∧ ((s.port p).txIdle ≠ 3) ∧ (selectVc (foldS (List.range 16) (if (s.port p).txAt = (dropAllNofit s p).clk.now then dropAllNofit s p else closeLtb (dropAllNofit s p) p) (fun s v => noteDeferred s p v)) p = some (vc, y)) ∧ (((foldS (List.range 16) (if (s.port p).txAt = (dropAllNofit s p).clk.now then dropAllNofit s p else closeLtb (dropAllNofit s p) p) (fun s v => noteDeferred s p v)).port p).vcq.get vc = q :: l) ∧ ((s.port p).txIdle ≠ 2)) ∧
    (∃ (s : State) (p : Nat) (k : TxPkt), (p < 512) ∧ ((s.port p).leaving.find? (fun t => !t.departed) = some k) ∧ (stillArriving s k.q.orig = false) ∧ (k.aborted = false) ∧ (k.winEnd = none)) ∧
    (∃ (s : State) (p v : Nat), (p < 512) ∧ ((s.port p).gate.gating = true) ∧ ((List.range 16).find? (fun v => !(((dropAllNofit s p).port p).vcq.get v).isEmpty && ((dropAllNofit s p).port p).gate.openVc s.clk.ft v) = some v)) ∧
    (∃ (s : State) (p v : Nat) (q : QPkt) (l : List QPkt), (p < 512) ∧ ((s.port p).txIdle = 2) ∧ ((List.range 16).filter (leadDue s p) = [v]) ∧ ((s.port p).vcq.get v = q :: l)) ∧
    (∃ (s : State) (p : Nat), (p < 512) ∧ ((s.port p).gate.holdTmr = true) ∧ ((s.port p).gate.gating = true)) ∧
    (∃ (s : State) (p : Nat) (err : Int) (e : Int) (rest : List Int) (u : State), (p < 512) ∧ ((s.port p).gate.edgeDue = e :: rest) ∧ (u = (limited (updPort s p (fun x => { x with gate := { x.gate with edgeDue := rest } })) .timeEdge p oneSec (fun t n more => recordEv t .timeEdge (quadOfLane p) p (s32 e) n 0 more)))) ∧
    (∃ (s : State) (p : Nat) (y : Gate), (p < 512) ∧ (y = ((routeDue s).port p).gate) ∧ (y.pending = true) ∧ (y.otherBank.ft.toNat ≤ (routeDue s).clk.ft.toNat) ∧ ((y.otherBank.gating = false ∨ timeLocked (routeDue s) = true))) ∧
    (∃ (s : State), (s.routes.stage = .pending) ∧ (s.routes.adoptFt.toNat ≤ s.clk.ft.toNat)) :=
  ⟨⟨wQueued, 0, 12, (wQueued.port 0), qpkt0, [], by decide +kernel⟩,
   ⟨wPort (fun x => { active0 x with leaving := [{ q := qpkt0, lastSeq := 0 }] }), 0, { q := qpkt0, lastSeq := 0 }, by decide +kernel, by rfl, by decide +kernel⟩,
   ⟨wPort (fun x => { active0 x with txIdle := 2, gate := gate0, vcq := vcq12 }), 0, 12, by decide +kernel, by decide +kernel, by rfl⟩,
   ⟨wPort (fun x => { active0 x with txIdle := 2, gate := { gate0 with bank0 := { gating := true, entries := [(100, 0x0FFF), (100000, 0xFFFF)] } }, vcq := vcq12 }), 0, 12, qpkt0, [], by decide +kernel⟩,
   ⟨wPort (fun x => { active0 x with gate := { gate0 with holdTmr := true } }), 0, by decide +kernel⟩,
   ⟨wPort (fun x => { active0 x with gate := { gate0 with edgeDue := [5] } }), 0, 0, 5, [], (limited (updPort (wPort (fun x => { active0 x with gate := { gate0 with edgeDue := [5] } })) 0 (fun x => { x with gate := { x.gate with edgeDue := [] } })) .timeEdge 0 oneSec (fun t n more => recordEv t .timeEdge (quadOfLane 0) 0 (s32 5) n 0 more)), by decide +kernel⟩,
   ⟨wPort (fun x => { active0 x with gate := { pending := true } }), 0, { pending := true }, by decide +kernel⟩,
   ⟨{ State.reset with routes := { stage := .pending } }, by decide +kernel⟩⟩

/-- Every hypothesis of `Obligations.SnapshotRecorderAndPowerFailComplete` is met somewhere. -/
theorem witness_SnapshotRecorderAndPowerFailComplete :
    (∃ (s : State), ((banksDue s).snap.st = 1) ∧ ((banksDue s).snap.ft.toNat ≤ (banksDue s).clk.ft.toNat) ∧ ((banksDue s).snap.folded = true) ∧ (((banksDue s).boot.warm && !(banksDue s).boot.fwReady) = false)) ∧
    (∃ (s : State), s.snap.folded = false) ∧
    (∃ (s : State) (q : Nat) (r : EvRec) (l : List EvRec), (q < 4) ∧ (recorderRuns s = true) ∧ ((s.quad q).inReset = false) ∧ (s.pins.pwrfail = false) ∧ ((s.quad q).evBuf = r :: l) ∧ (s.recd.buf.length < 2048) ∧ ((s.quad q).evLost = 0)) ∧
    (∃ (s : State), (recorderRuns s = true) ∧ (s.pins.pwrfail = false) ∧ (flushDue s = true)) ∧
    (∃ (s : State) (part sector : Nat), (part < 6) ∧ (sector < 2048) ∧ (s.boot.power = .run) ∧ (molzuRuns s = true) ∧ (s.mram.spares ≠ 0) ∧ (s.mram.waiting.contains sector = false) ∧ (allowed s molzuMaster tgtSPARE true = true)) ∧
    (∃ (s : State), (s.pins.pwrfail = false) ∧ ((s.boot.power = .run ∨ s.boot.power = .safe))) ∧
    (∃ (s : State) (v : BitVec 40), (recorderRuns s = true) ∧ (s.recd.pfLatch = some v)) :=
  ⟨⟨{ State.reset with snap := { st := 1 } }, by decide +kernel⟩,
   ⟨{ State.reset with snap := { st := 2, folded := false } }, by decide +kernel⟩,
   ⟨{ State.reset with boot := { power := .run }, quads := { dflt := {}, cells := [(1, { evBuf := [rec0] })] } }, 1, rec0, [], by decide +kernel⟩,
   ⟨{ State.reset with boot := { power := .run }, recd := { buf := [{ rec0 with sev := 4 }] } }, by decide +kernel⟩,
   ⟨{ wAcc with boot := { power := .run, fwReady := true, porst := false, steps := { molzu := true } } }, 1, 7, by decide +kernel⟩,
   ⟨{ State.reset with boot := { power := .run } }, by decide +kernel⟩,
   ⟨{ State.reset with boot := { power := .run }, recd := { pfLatch := some 5 } }, 5, by decide +kernel, by rfl⟩⟩

/-- Every hypothesis of `Obligations.LifeTelemetryAndTripsComplete` is met somewhere. -/
theorem witness_LifeTelemetryAndTripsComplete :
    (∃ (s : State) (m : Int), (recorderRuns s = true) ∧ (0 ≤ m) ∧ (m ≤ rangeTop s)) ∧
    (∃ (s : State), (recorderRuns s = true) ∧ (partOk s 4 = true) ∧ (allowed s recorderMaster tgtLIFE true = true)) ∧
    (∃ (s : State), (recorderRuns s = true) ∧ (((s.life.cur :: s.life.months).take 13).length < 12)) ∧
    (∃ (s : State) (g : Nat) (rs : List Int), (g < 6) ∧ (rs.length = groupCount g) ∧ (g ≠ 0) ∧ (g ≠ 2) ∧ (s.boot.power ≠ .off) ∧ (s.boot.power ≠ .held)) ∧
    (∃ (s : State) (die : Nat), (die < 9) ∧ ((s.boot.power = .run ∨ s.boot.power = .safe))) ∧
    (∃ (s : State) (r mv : Nat), (r < 10) ∧ (recorderRuns s = true) ∧ (s.boot.porst = false)) ∧
    (∃ (s : State) (r mv : Nat), (r < 10) ∧ (recorderRuns s = true) ∧ (s.boot.porst = false) ∧ (s.pins.pwrfail = false)) ∧
    (∃ (s : State), ((s.boot.power = .run ∨ s.boot.power = .safe)) ∧ (s.pins.coreLost = false)) :=
  ⟨⟨{ State.reset with boot := { power := .run } }, 800, by decide +kernel⟩,
   ⟨{ wAcc with boot := { power := .run } }, by decide +kernel⟩,
   ⟨{ State.reset with boot := { power := .run } }, by decide +kernel⟩,
   ⟨{ State.reset with boot := { power := .run } }, 3, [1, 2, 3, 4], by decide +kernel⟩,
   ⟨{ State.reset with boot := { power := .run } }, 4, by decide +kernel⟩,
   ⟨{ State.reset with boot := { power := .run, porst := false } }, 3, 700, by decide +kernel⟩,
   ⟨{ State.reset with boot := { power := .run, porst := false } }, 3, 700, by decide +kernel⟩,
   ⟨{ State.reset with boot := { power := .run } }, by decide +kernel⟩⟩

/-- Every hypothesis of `Obligations.TimeMessagesAndLockComplete` is met somewhere. -/
theorem witness_TimeMessagesAndLockComplete :
    (∃ (s : State) (p : Nat) (h : LtbHdr) (m : TimeMsg), (LinkOpen s p) ∧ (Unmarked s p h) ∧ (isLegacy s p = false) ∧ (isFabric (ltbTaken s p h) p = true) ∧ (((ltbTaken s p h).port p).link = .active) ∧ (((noteFlags (ltbTaken s p h) p m).port p).txIdle < 2)) ∧
    (∃ (s : State) (p : Nat) (h : LtbHdr) (m : TimeMsg) (t1 : Nat) (out : Bool), (LinkOpen s p) ∧ (Unmarked s p h) ∧ (isLegacy s p = false) ∧ (isFabric (ltbTaken s p h) p = true) ∧ (((ltbTaken s p h).port p).link = .active) ∧ (openExchange ((noteFlags (ltbTaken s p h) p m).port p).eqx m.exchSeq = some (t1, out)) ∧ (stampAt (noteFlags (ltbTaken s p h) p m) h.phase - t1 ≤ ((noteFlags (ltbTaken s p h) p m).port p).eqx.interval * 65536) ∧ (delayOk ((noteFlags (ltbTaken s p h) p m).port p).eqx.delays (respDelay m t1 (stampAt (noteFlags (ltbTaken s p h) p m) h.phase)) = true)) ∧
    (∃ (s : State) (p : Nat) (h : LtbHdr) (m : TimeMsg), (LinkOpen s p) ∧ (Unmarked s p h) ∧ (isLegacy s p = false) ∧ (isFabric (ltbTaken s p h) p = true) ∧ (((ltbTaken s p h).port p).link = .active)) ∧
    (∃ (s : State) (p : Nat) (h : LtbHdr) (m : TimeMsg), (LinkOpen s p) ∧ (Unmarked s p h) ∧ (isLegacy s p = false) ∧ (isFabric (ltbTaken s p h) p = true) ∧ (((ltbTaken s p h).port p).link = .active) ∧ (¬ ((reselect (updPort (noteFlags (ltbTaken s p h) p m) p (fun x => { x with eqx := { x.eqx with ann := some (announcedBy m) } }))).tu.upstream = some p ∧ (reselect (updPort (noteFlags (ltbTaken s p h) p m) p (fun x => { x with eqx := { x.eqx with ann := some (announcedBy m) } }))).tu.stepSeq ≠ m.stepSeq))) ∧
    (∃ (s : State) (p : Nat) (h : LtbHdr) (m : TimeMsg), (LinkOpen s p) ∧ (Unmarked s p h) ∧ (isLegacy s p = false) ∧ (isFabric (ltbTaken s p h) p = true) ∧ (((ltbTaken s p h).port p).link = .active) ∧ ((reselect (updPort (noteFlags (ltbTaken s p h) p m) p (fun x => { x with eqx := { x.eqx with ann := some (announcedBy m) } }))).tu.upstream = some p) ∧ ((reselect (updPort (noteFlags (ltbTaken s p h) p m) p (fun x => { x with eqx := { x.eqx with ann := some (announcedBy m) } }))).tu.stepSeq ≠ m.stepSeq) ∧ ((reselect (updPort (noteFlags (ltbTaken s p h) p m) p (fun x => { x with eqx := { x.eqx with ann := some (announcedBy m) } }))).tu.st ≠ .free) ∧ (m.stepFt.toNat ≤ (reselect (updPort (noteFlags (ltbTaken s p h) p m) p (fun x => { x with eqx := { x.eqx with ann := some (announcedBy m) } }))).clk.ft.toNat)) ∧
    (∃ (s : State) (p : Nat) (h : LtbHdr) (m : TimeMsg), (LinkOpen s p) ∧ (Unmarked s p h) ∧ (isLegacy s p = false) ∧ (isFabric (ltbTaken s p h) p = true) ∧ (((ltbTaken s p h).port p).link = .active) ∧ ((reselect (updPort (noteFlags (ltbTaken s p h) p m) p (fun x => { x with eqx := { x.eqx with ann := some (announcedBy m) } }))).tu.upstream = some p) ∧ ((reselect (updPort (noteFlags (ltbTaken s p h) p m) p (fun x => { x with eqx := { x.eqx with ann := some (announcedBy m) } }))).tu.stepSeq ≠ m.stepSeq) ∧ ((reselect (updPort (noteFlags (ltbTaken s p h) p m) p (fun x => { x with eqx := { x.eqx with ann := some (announcedBy m) } }))).tu.st ≠ .free) ∧ ((reselect (updPort (noteFlags (ltbTaken s p h) p m) p (fun x => { x with eqx := { x.eqx with ann := some (announcedBy m) } }))).clk.ft.toNat < m.stepFt.toNat)) ∧
    (∃ (s : State) (p : Nat), (s.tu.upstream = some p) ∧ (s.tu.st = .acquiring) ∧ (8 ≤ s.tu.lockCount) ∧ ((selectable s p).isSome = true) ∧ (s.tu.hops ≤ 63)) ∧
    (∃ (s : State) (p : Nat), (p < 512) ∧ (isFabric s p = true) ∧ ((s.port p).link = .active) ∧ ((s.port p).txIdle = 0)) ∧
    (∃ (s : State) (p : Nat), (p < 512) ∧ (isFabric s p = true) ∧ ((s.port p).link = .active)) ∧
    (∃ (s : State) (p : Nat), (s.tu.upstream = some p) ∧ (4 ≤ (s.port p).eqx.missed) ∧ (s.tu.st = .locked)) ∧
    (∃ (s : State) (q : BitVec 8) (f : BitVec 64) (ns : Int), (s.tu.stepWait = some (q, f, ns)) ∧ (f.toNat ≤ s.clk.ft.toNat) ∧ (0 ≤ ns)) ∧
    (∃ (s : State) (v : BitVec 64), (s.tu.ppsAt.any (fun t => decide (s.clk.now < t + 500000000)) = false) ∧ (s.tu.tod = some v)) ∧
    (∃ (s : State), (s.tu.ppsAt.any (fun t => decide (s.clk.now < t + 500000000)) = false) ∧ (s.tu.tod = none) ∧ (s.tu.st = .source) ∧ (s.tu.cls = 0) ∧ (s.tu.ppsOn = true)) ∧
    (∃ (s : State), (s.tu.tod.isSome = true) ∧ (s.tu.todAt + ppsTimeout ≤ s.clk.now)) ∧
    (∃ (s : State) (a : Nat), (s.tu.tod = none) ∧ (s.tu.ppsAt = some a) ∧ (a + ppsTimeout ≤ s.clk.now) ∧ (s.tu.st = .source) ∧ (s.tu.cls = 0)) ∧
    (∃ (s : State), (s.grp.manager = true) ∧ (s.tu.waitFrom.any (fun t => decide (t + oneSec ≤ s.clk.now)) = true) ∧ ((s.tu.st = .free ∨ s.tu.st = .holdover)) ∧ ((bestSource s (fun _ => true)).isNone = true)) ∧
    (∃ (s : State), (s.tu.valid = true) ∧ (s.clk.ft.toNat % oneSec < 2) ∧ (s.tu.ppsSec ≠ some (s.clk.ft.toNat / oneSec))) :=
  ⟨⟨wPort active0, 0, ltb1, tmsg0, by decide +kernel⟩,
   ⟨wPort (fun x => { active0 x with eqx := { seq := 1, openSeq := 1, t1 := some 0 } }), 0, ltb1, tmsg0, 0, false, by decide +kernel⟩,
   ⟨wPort active0, 0, ltb1, tmsg0, by decide +kernel⟩,
   ⟨wPort active0, 0, ltb1, tmsg0, by decide +kernel⟩,
   ⟨wUp { st := .locked, upstream := some 0, valid := true }, 0, ltb1, { tmsg0 with stepSeq := 1 }, by decide +kernel, by decide +kernel, by decide +kernel, by decide +kernel, by decide +kernel, by rfl, by decide +kernel⟩,
   ⟨wUp { st := .locked, upstream := some 0, valid := true }, 0, ltb1, { tmsg0 with stepSeq := 1, stepFt := 5 }, by decide +kernel, by decide +kernel, by decide +kernel, by decide +kernel, by decide +kernel, by rfl, by decide +kernel⟩,
   ⟨wUp { st := .acquiring, upstream := some 0, lockCount := 8, valid := true }, 0, by rfl, by decide +kernel⟩,
   ⟨wPort active0, 0, by decide +kernel⟩,
   ⟨wPort active0, 0, by decide +kernel⟩,
   ⟨{ (wUp { st := .locked, upstream := some 0, valid := true }) with ports := { dflt := {}, cells := [(0, { exists_ := true, role := 0, link := .active, eqx := { missed := 4 } })] } }, 0, by rfl, by decide +kernel⟩,
   ⟨{ State.reset with tu := { stepWait := some (1, 0, 2000) } }, 1, 0, 2000, by decide +kernel⟩,
   ⟨{ State.reset with tu := { tod := some 9 } }, 9, by decide +kernel, by rfl⟩,
   ⟨{ State.reset with tu := { st := .source, cls := 0, ppsOn := true, valid := true } }, by decide +kernel⟩,
   ⟨{ State.reset with tu := { tod := some 9 }, clk := { State.reset.clk with now := 1500000000 } }, by decide +kernel⟩,
   ⟨{ State.reset with tu := { st := .source, cls := 0, ppsAt := some 0 }, clk := { State.reset.clk with now := 1500000000 } }, 0, by decide +kernel, by rfl, by decide +kernel⟩,
   ⟨{ State.reset with grp := { manager := true }, tu := { waitFrom := some 0 }, clk := { State.reset.clk with now := 1000000000 } }, by decide +kernel⟩,
   ⟨{ State.reset with tu := { valid := true } }, by decide +kernel⟩⟩

/-- Every hypothesis of `Obligations.PllsCodewordsAndTrainingComplete` is met somewhere. -/
theorem witness_PllsCodewordsAndTrainingComplete :
    (∃ (s : State) (o : Nat), (o < 64) ∧ ((s.octet o).pll = true)) ∧
    (∃ (s : State) (o : Nat), (o < 64) ∧ ((s.octet o).pll = false) ∧ (((s.quad (o / 16)).refOk || (s.quad (o / 16)).refLost) = true)) ∧
    (∃ (s : State) (q : Nat), (q < 4) ∧ ((s.quad q).refOk = true)) ∧
    (∃ (s : State) (l n : Nat), (l < 512) ∧ (n ≤ 15) ∧ ((s.lane l).st ≠ .off) ∧ ((s.lane l).st ≠ .parked)) ∧
    (∃ (s : State) (l : Nat), (l < 512) ∧ ((s.lane l).st ≠ .off) ∧ ((s.lane l).st ≠ .parked)) ∧
    (∃ (s : State) (l : Nat) (inv : Bool), (l < 512) ∧ ((s.lane l).good = 8) ∧ ((s.lane l).st = .diag)) ∧
    (∃ (s : State) (l : Nat) (inv : Bool), (l < 512) ∧ ((s.lane l).good = 8) ∧ ((s.lane l).st = .retrain)) ∧
    (∃ (s : State) (l : Nat) (inv : Bool), (l < 512) ∧ ((s.lane l).good = 8) ∧ ((s.lane l).st = .train) ∧ ((s.lane l).trainReq = false)) ∧
    (∃ (s : State) (l : Nat), (l < 512) ∧ ((s.lane l).uncorr = 4) ∧ (laneUp s l = true)) ∧
    (∃ (s : State) (l : Nat), (l < 512) ∧ ((s.lane l).uncorr = 4) ∧ (laneUp s l = false)) ∧
    (∃ (s : State) (l : Nat), (l < 512) ∧ ((s.lane l).uncorr ≠ 4)) ∧
    (∃ (s : State) (l : Nat), (l < 512) ∧ ((laneUp s l && !(s.lane l).eidleRx) = false)) ∧
    (∃ (s : State) (l : Nat), (l < 512) ∧ (laneUp s l = true) ∧ ((s.lane l).eidleRx = false)) ∧
    (∃ (s : State) (l : Nat), (l < 512) ∧ ((s.lane l).st = .train) ∧ ((s.lane l).noLockTmr = true)) ∧
    (∃ (s : State) (l p : Nat), (l < 512) ∧ ((s.lane l).st = .train) ∧ ((s.lane l).retryWait = true) ∧ (portOfLane s l = some p)) ∧
    (∃ (s : State) (l : Nat), (l < 512) ∧ ((s.lane l).st = .retrain) ∧ (portOfLane s l = none)) ∧
    (∃ (s : State) (l p : Nat), (l < 512) ∧ ((s.lane l).st = .retrain) ∧ (portOfLane s l = some p)) :=
  ⟨⟨{ State.reset with octets := { dflt := {}, cells := [(5, { pll := true })] } }, 5, by decide +kernel⟩,
   ⟨{ State.reset with quads := { dflt := { refOk := true } } }, 5, by decide +kernel⟩,
   ⟨{ State.reset with quads := { dflt := { refOk := true } } }, 1, by decide +kernel⟩,
   ⟨lane0 (fun x => { x with st := .up }) State.reset, 0, 3, by decide +kernel⟩,
   ⟨lane0 (fun x => { x with st := .up }) State.reset, 0, by decide +kernel⟩,
   ⟨lane0 (fun x => { x with st := .diag, good := 8 }) State.reset, 0, true, by decide +kernel⟩,
   ⟨lane0 (fun x => { x with st := .retrain, good := 8 }) State.reset, 0, true, by decide +kernel⟩,
   ⟨lane0 (fun x => { x with st := .train, good := 8 }) State.reset, 0, true, by decide +kernel⟩,
   ⟨lane0 (fun x => { x with st := .up, uncorr := 4 }) State.reset, 0, by decide +kernel⟩,
   ⟨lane0 (fun x => { x with uncorr := 4 }) State.reset, 0, by decide +kernel⟩,
   ⟨State.reset, 0, by decide +kernel⟩,
   ⟨State.reset, 0, by decide +kernel⟩,
   ⟨lane0 (fun x => { x with st := .up }) State.reset, 0, by decide +kernel⟩,
   ⟨lane0 (fun x => { x with st := .train, noLockTmr := true }) State.reset, 0, by decide +kernel⟩,
   ⟨lane0 (fun x => { x with st := .train, retryWait := true }) (wPort id), 0, 0, by decide +kernel, by decide +kernel, by decide +kernel, by rfl⟩,
   ⟨lane0 (fun x => { x with st := .retrain }) State.reset, 0, by decide +kernel⟩,
   ⟨lane0 (fun x => { x with st := .retrain }) (wPort (fun x => { x with link := .retrain })), 0, 0, by decide +kernel, by decide +kernel, by rfl⟩⟩

/-- Every hypothesis of `Obligations.ElectricalIdleAndWakeComplete` is met somewhere. -/
theorem witness_ElectricalIdleAndWakeComplete :
    (∃ (s : State) (p : Nat), (p < 512) ∧ ((s.port p).link = .active) ∧ ((s.port p).txIdle = 0) ∧ ((s.octet (octetOfLane p)).idleEn = true) ∧ (portQuiet s p = true) ∧ (refreshOver s p = true)) ∧
    (∃ (s : State) (p : Nat), (p < 512) ∧ ((s.port p).txIdle = 1)) ∧
    (∃ (s : State) (l : Nat), (l < 512) ∧ (laneUp s l = true)) ∧
    (∃ (s : State) (p : Nat), (p < 512) ∧ ((s.port p).txIdle = 2) ∧ ((s.port p).lastWake + (s.octet (octetOfLane p)).refresh * 1000000 ≤ s.clk.now)) ∧
    (∃ (s : State) (l : Nat), (l < 512) ∧ ((s.lane l).st = .wake) ∧ ((s.lane l).burst = true) ∧ (portOfLane (updLane s l (fun x => { x with st := .up, burst := false })) l = none)) ∧
    (∃ (s : State) (l p : Nat) (t : State), (l < 512) ∧ ((s.lane l).st = .wake) ∧ ((s.lane l).burst = true) ∧ (t = (updLane s l (fun x => { x with st := .up, burst := false }))) ∧ (portOfLane t l = some p) ∧ ((t.port p).txIdle = 3) ∧ ((portLanes t p).any (fun i => (t.lane i).burst) = false)) ∧
    (∃ (s : State) (l : Nat), l < 512) ∧
    (∃ (s : State) (l : Nat), (l < 512) ∧ ((s.lane l).eidleRx = true)) ∧
    (∃ (s : State) (l : Nat), (l < 512) ∧ ((s.lane l).alignTmr = true)) ∧
    (∃ (s : State), ((getStep s 1).rise ≠ 0) ∧ ((getStep s 1).grant = none)) ∧
    (∃ (s : State), ((getStep s 1).rise ≠ 0) ∧ ((getStep s 1).grant.isSome = true) ∧ (leadPassed s 1 = true)) :=
  ⟨⟨{ (wPort active0) with clk := { now := 1000000 } }, 0, by decide +kernel⟩,
   ⟨wPort (fun x => { active0 x with txIdle := 1 }), 0, by decide +kernel⟩,
   ⟨lane0 (fun x => { x with st := .up }) State.reset, 0, by decide +kernel⟩,
   ⟨{ (wPort (fun x => { active0 x with txIdle := 2 })) with clk := { State.reset.clk with now := 256000000 } }, 0, by decide +kernel⟩,
   ⟨lane0 (fun x => { x with st := .wake, burst := true }) State.reset, 0, by decide +kernel⟩,
   ⟨lane0 (fun x => { x with st := .wake, burst := true }) (wPort (fun x => { active0 x with txIdle := 3 })), 0, 0, updLane (lane0 (fun x => { x with st := .wake, burst := true }) (wPort (fun x => { active0 x with txIdle := 3 }))) 0 (fun x => { x with st := .up, burst := false }), by decide +kernel, by decide +kernel, by decide +kernel, by decide +kernel, by rfl, by decide +kernel⟩,
   ⟨State.reset, 0, by decide +kernel⟩,
   ⟨lane0 (fun x => { x with eidleRx := true }) State.reset, 0, by decide +kernel⟩,
   ⟨lane0 (fun x => { x with alignTmr := true }) State.reset, 0, by decide +kernel⟩,
   ⟨{ State.reset with pstepS := { rise := 5 } }, by decide +kernel⟩,
   ⟨{ State.reset with clk := { now := 5000 }, pstepS := { rise := 5, grant := some 0 } }, by decide +kernel⟩⟩

/-- Every hypothesis of `Obligations.AdaptationTestAndLtbLockComplete` is met somewhere. -/
theorem witness_AdaptationTestAndLtbLockComplete :
    (∃ (s : State) (l : Nat) (q snr eye ber : Word32), (l < 512) ∧ ((s.lane l).st = .up)) ∧
    (∃ (s : State) (l : Nat), (l < 512) ∧ ((s.lane l).lockedSinceCold = true) ∧ ((s.lane l).calibAt + 86400 * oneSec ≤ s.clk.now)) ∧
    (∃ (s : State) (l : Nat), (l < 512) ∧ ((s.lane l).st = .diag) ∧ ((s.lane l).prbsChk = true)) ∧
    (∃ (s : State) (l b e : Nat), (l < 512) ∧ ((s.lane l).prbsLock = true)) ∧
    (∃ (s : State) (l : Nat), (l < 512) ∧ ((s.lane l).inj ≠ 0) ∧ (injectable (s.lane l) = true)) ∧
    (∃ (s : State) (l : Nat), (l < 512) ∧ ((s.lane l).dropping = true)) ∧
    (∃ (s : State) (l : Nat), (l < 512) ∧ (laneUp s l = true) ∧ ((s.lane l).ltbLock = false)) ∧
    (∃ (s : State) (l : Nat), (l < 512) ∧ (laneUp s l = true) ∧ ((s.lane l).ltbLock = true)) :=
  ⟨⟨lane0 (fun x => { x with st := .up }) State.reset, 0, 1, 2, 3, 4, by decide +kernel⟩,
   ⟨lane0 (fun x => { x with lockedSinceCold := true }) { State.reset with clk := { now := 86400000000000 } }, 0, by decide +kernel⟩,
   ⟨lane0 (fun x => { x with st := .diag, prbsChk := true }) State.reset, 0, by decide +kernel⟩,
   ⟨lane0 (fun x => { x with prbsLock := true }) State.reset, 0, 1000, 2, by decide +kernel⟩,
   ⟨lane0 (fun x => { x with st := .up, inj := 2, injKind := 1 }) State.reset, 0, by decide +kernel⟩,
   ⟨lane0 (fun x => { x with dropping := true }) State.reset, 0, by decide +kernel⟩,
   ⟨lane0 (fun x => { x with st := .up }) State.reset, 0, by decide +kernel⟩,
   ⟨lane0 (fun x => { x with st := .up, ltbLock := true }) State.reset, 0, by decide +kernel⟩⟩

/-- Every hypothesis of `Obligations.PowerStepSignallingCompletes` is met somewhere. -/
theorem witness_PowerStepSignallingCompletes :
    (∃ (s : State) (g : Nat), (g < 2) ∧ ((getStep s g).ack = false) ∧ (isRise (getStep s g).code = true) ∧ ((getStep s g).armLow = false) ∧ (s.clk.now < (getStep s g).stbAt + 2000)) ∧
    (∃ (s : State) (g : Nat), g < 2) ∧
    (∃ (s : State) (g : Nat), (g < 2) ∧ ((getStep s g).stbAt + 2000 ≤ s.clk.now) ∧ ((getStep s g).grant.isSome = true) ∧ (isRise (getStep s g).code = true) ∧ ((getStep s g).used = false)) ∧
    (∃ (s : State) (g : Nat), (g < 2) ∧ ((getStep s g).code ≠ 0 ∨ (getStep s g).rise ≠ 0) ∧ ((getStep s g).rise ≤ codeAmps (getStep s g).code)) :=
  ⟨⟨{ State.reset with pstepC := { code := 1 } }, 0, by decide +kernel⟩,
   ⟨State.reset, 1, by decide +kernel⟩,
   ⟨{ State.reset with clk := { now := 2000 }, pstepC := { code := 1, grant := some 0 } }, 0, by decide +kernel⟩,
   ⟨{ State.reset with pstepC := { code := 5 } }, 0, by decide +kernel⟩⟩

/-- Every hypothesis of `Obligations.SequencedLtbsComplete` is met somewhere. -/
theorem witness_SequencedLtbsComplete :
    (∃ (s : State) (p : Nat) (h : LtbHdr) (fs : List Frag) (since : Nat), (InOrder s p h) ∧ (((edgeCheck (creditsIn (ltbInOrder s p h) p h) p h since fs).port p).rxLost = false) ∧ (framingOk (edgeCheck (creditsIn (ltbInOrder s p h) p h) p h since fs) p h.startOff fs = true)) ∧
    (∃ (s : State) (p : Nat), p < 512) ∧
    (∃ (s : State) (p : Nat), LinkOpen s p) ∧
    (∃ (s : State) (p : Nat) (h : LtbHdr), (LinkOpen s p) ∧ (Unmarked s p h)) ∧
    (∃ (s : State) (p : Nat) (h : LtbHdr) (m : BitVec 16), InOrder s p h) ∧
    (∃ (s : State) (p : Nat) (h : LtbHdr), InOrder s p h) ∧
    (∃ (s : State) (p : Nat) (h : LtbHdr) (q m : BitVec 8), (p < 512) ∧ (Unmarked s p h) ∧ (((s.port p).link = .active ∨ (s.port p).link = .drain)) ∧ ((s.port p).mapOpen = true) ∧ (q = (s.port p).mapSeq) ∧ (m = (s.port p).rxMap)) ∧
    (∃ (s : State) (p : Nat) (h : LtbHdr) (q m : BitVec 8), (p < 512) ∧ (Unmarked s p h) ∧ (((s.port p).link = .active ∨ (s.port p).link = .drain)) ∧ ((s.port p).peerMapSeq = some q)) ∧
    (∃ (s : State) (p : Nat) (h : LtbHdr) (q m : BitVec 8), (p < 512) ∧ (Unmarked s p h) ∧ (((s.port p).link = .active ∨ (s.port p).link = .drain)) ∧ ((s.port p).peerMapSeq ≠ some q) ∧ ((s.port p).peerMapSeq.any (fun r => !mapNewer q r) = false)) ∧
    (∃ (s : State) (p : Nat) (h : LtbHdr) (q m : BitVec 8) (r : BitVec 8), (p < 512) ∧ (Unmarked s p h) ∧ (((s.port p).link = .active ∨ (s.port p).link = .drain)) ∧ ((s.port p).peerMapSeq = some r) ∧ (r ≠ q) ∧ (mapNewer q r = false)) ∧
    (∃ (s : State) (p : Nat) (h : LtbHdr) (m : HintMsg), (LinkOpen s p) ∧ (Unmarked s p h) ∧ (isLegacy s p = false) ∧ (m.ver = 1) ∧ (((ltbTaken s p h).port p).link = .active)) :=
  ⟨⟨wPort active0, 0, ltb1, [.start pkt0 64], 0, by decide +kernel⟩,
   ⟨wPort active0, 0, by decide +kernel⟩,
   ⟨wPort active0, 0, by decide +kernel⟩,
   ⟨wPort active0, 0, ltb1, by decide +kernel⟩,
   ⟨wPort active0, 0, ltb1, 1, by decide +kernel⟩,
   ⟨wPort active0, 0, ltb1, by decide +kernel⟩,
   ⟨wPort (fun x => { active0 x with mapOpen := true }), 0, ltb1, 0, 0, by decide +kernel⟩,
   ⟨wPort (fun x => { active0 x with peerMapSeq := some 0 }), 0, ltb1, 0, 0, by decide +kernel, by decide +kernel, by decide +kernel, by rfl⟩,
   ⟨wPort active0, 0, ltb1, 0, 1, by decide +kernel⟩,
   ⟨wPort (fun x => { active0 x with peerMapSeq := some 5 }), 0, ltb1, 4, 1, 5, by decide +kernel, by decide +kernel, by decide +kernel, by rfl, by decide +kernel⟩,
   ⟨wPort active0, 0, ltb1, { ver := 1, block := 3 }, by decide +kernel⟩⟩

/-- Every hypothesis of `Obligations.LinkInitAndTimersComplete` is met somewhere. -/
theorem witness_LinkInitAndTimersComplete :
    (∃ (s : State) (p k : Nat) (h : LtbHdr) (i : InitMsg), (p < 512) ∧ (k < 8) ∧ (Unmarked s p h) ∧ ((s.port p).link = .init) ∧ (initCheck s p k i = 0)) ∧
    (∃ (s : State) (p k : Nat) (h : LtbHdr) (i : InitMsg), (p < 512) ∧ (k < 8) ∧ (Unmarked s p h) ∧ ((s.port p).link = .active) ∧ ((s.port p).mapOpen = false) ∧ (initCheck s p k i = 0)) ∧
    (∃ (s : State) (p : Nat), (p < 512) ∧ ((s.port p).link = .init) ∧ ((s.port p).allotted = true)) ∧
    (∃ (s : State) (p : Nat), (p < 512) ∧ ((s.port p).link = .init) ∧ ((s.port p).poolWait = true)) ∧
    (∃ (s : State) (p : Nat), (p < 512) ∧ ((s.port p).trainWait = true) ∧ ((s.port p).link = .train) ∧ ((portLanes s p).any (laneUp s) = true)) ∧
    (∃ (s : State) (p : Nat), (p < 512) ∧ ((s.port p).link = .init) ∧ ((s.port p).gotInit = false) ∧ ((s.port p).mismatch = 0)) ∧
    (∃ (s : State) (p : Nat), (p < 512) ∧ (isFabric s p = true) ∧ ((s.port p).link = .active) ∧ ((s.port p).txIdle = 0)) ∧
    (∃ (s : State) (p v : Nat), (p < 512) ∧ (v < 16) ∧ (((s.port p).link = .active ∨ (s.port p).link = .drain)) ∧ (heldDue (s.port p) s.clk.now v = true) ∧ (replayRoom s p 1 = true)) ∧
    (∃ (s : State) (p v : Nat), (p < 512) ∧ (v < 16) ∧ (((s.port p).link = .active ∨ (s.port p).link = .drain)) ∧ (waitsForCredits s p v = true) ∧ (creditFrom s p v + (s.port p).creditTmoNow * 1000 ≤ s.clk.now)) ∧
    (∃ (s : State) (p : Nat), (p < 512) ∧ (isFabric s p = true) ∧ ((s.port p).link = .active) ∧ ((s.port p).grant < 2 * sharedUse s p) ∧ ((s.port p).grant < (s.port p).sharedMaxNow) ∧ (256 * ((aheadInPool s p).length + 1) ≤ poolLeft s (quadOfLane p) p - portPool s p)) ∧
    (∃ (s : State) (p : Nat), (p < 512) ∧ (((s.port p).link = .active ∨ (s.port p).link = .drain))) ∧
    (∃ (s : State) (p : Nat) (h : HeldLtb), (p < 512) ∧ (((s.port p).link = .active ∨ (s.port p).link = .drain)) ∧ ((s.port p).held.find? (fun h => decide (8 ≤ h.replays)) = some h)) ∧
    (∃ (s : State) (p : Nat), (p < 512) ∧ ((s.port p).grace = true) ∧ ((s.port p).link ≠ .drain)) ∧
    (∃ (s : State) (p : Nat), (p < 512) ∧ ((s.port p).grace = true) ∧ ((s.port p).link = .drain)) ∧
    (∃ (s : State) (p : Nat), (p < 512) ∧ ((s.port p).link = .drain) ∧ ((s.port p).vcq.cells.all (·.2.isEmpty) = true) ∧ ((s.port p).held.isEmpty = true) ∧ ((s.port p).leaving.isEmpty = true) ∧ ((s.port p).txq.isEmpty = true)) ∧
    (∃ (s : State) (p : Nat), (p < 512) ∧ ((s.port p).link = .drain) ∧ ((s.port p).downSent = true)) ∧
    (∃ (s : State) (p n : Nat) (k : Pkt) (l : List (Pkt × Nat)), (p < 512) ∧ ((s.port p).arrived = (k, n) :: l) ∧ ((s.port p).rxCur = none)) ∧
    (∃ (s : State) (p n : Nat) (k : Pkt) (r : RxPkt), (p < 512) ∧ ((s.port p).arrived = [(k, n)]) ∧ ((s.port p).rxCur = some r) ∧ (r.bad = false) ∧ (r.gone = false)) ∧
    (∃ (s : State) (e : Nat) (k : Pkt) (l : List Pkt), (epExists s e = true) ∧ ((s.hostEp e).inject = k :: l) ∧ (poolTakes s (.host e) k = true)) ∧
    (∃ (s : State) (q p : Nat) (k : Pkt) (l : List (Nat × Pkt)), (q < 4) ∧ (s.ep.collTx.get q = (p, k) :: l) ∧ (poolTakes s (.coll q) k = true)) ∧
    (∃ (s : State) (k : Pkt) (l : List (Option Nat × Pkt)), (s.grp.tx = (none, k) :: l) ∧ (poolTakes s .service k = true)) ∧
    (∃ (s : State) (p : Nat) (k : Pkt) (l : List (Option Nat × Pkt)), (s.grp.tx = (some p, k) :: l) ∧ ((s.port p).link = .active) ∧ (poolTakes s .service k = true)) :=
  ⟨⟨wPort (fun x => { x with link := .init }), 0, 0, ltb1, {}, by decide +kernel⟩,
   ⟨wPort active0, 0, 0, ltb1, {}, by decide +kernel⟩,
   ⟨wPort (fun x => { x with link := .init, allotted := true }), 0, by decide +kernel⟩,
   ⟨wPort (fun x => { x with link := .init, poolWait := true }), 0, by decide +kernel⟩,
   ⟨lane0 (fun x => { x with st := .up }) (wPort (fun x => { x with link := .train, trainWait := true })), 0, by decide +kernel⟩,
   ⟨wPort (fun x => { x with link := .init }), 0, by decide +kernel⟩,
   ⟨wPort active0, 0, by decide +kernel⟩,
   ⟨{ (wPort (fun x => { active0 x with heldV := { dflt := 0, cells := [(12, 3)] } })) with clk := { now := 1000000000 } }, 0, 12, by decide +kernel⟩,
   ⟨{ (wPort (fun x => { active0 x with vcq := vcq12 })) with clk := { now := 1000000000 } }, 0, 12, by decide +kernel⟩,
   ⟨wPort (fun x => { active0 x with heldV := { dflt := 0, cells := [(0, 5000)] }, sharedMaxNow := 1024 }), 0, by decide +kernel⟩,
   ⟨wPort active0, 0, by decide +kernel⟩,
   ⟨wPort (fun x => { active0 x with held := [{ seq := 1, replays := 8 }] }), 0, { seq := 1, replays := 8 }, by decide +kernel, by decide +kernel, by rfl⟩,
   ⟨wPort (fun x => { x with grace := true }), 0, by decide +kernel⟩,
   ⟨wPort (fun x => { x with grace := true, link := .drain }), 0, by decide +kernel⟩,
   ⟨wPort (fun x => { x with link := .drain }), 0, by decide +kernel⟩,
   ⟨wPort (fun x => { x with link := .drain, downSent := true }), 0, by decide +kernel⟩,
   ⟨wPort (fun x => { active0 x with arrived := [(pkt0, 0)] }), 0, 0, pkt0, [], by decide +kernel⟩,
   ⟨wPort (fun x => { active0 x with arrived := [(pkt0, 0)], rxCur := some { pkt := pkt0, got := 64 } }), 0, 0, pkt0, { pkt := pkt0, got := 64 }, by decide +kernel, by decide +kernel, by rfl, by decide +kernel⟩,
   ⟨{ State.reset with eps := { dflt := {}, cells := [(0, { inject := [pkt0] })] } }, 0, pkt0, [], by decide +kernel⟩,
   ⟨{ State.reset with ep := { collTx := { dflt := [], cells := [(1, [(0, pkt0)])] } } }, 1, 0, pkt0, [], by decide +kernel⟩,
   ⟨{ State.reset with grp := { tx := [(none, pkt0)] } }, pkt0, [], by decide +kernel⟩,
   ⟨{ (wPort active0) with grp := { tx := [(some 0, pkt0)] } }, 0, pkt0, [], by decide +kernel⟩⟩

set_option maxRecDepth 1000000 in
/-- The hypotheses on `writeRx` are met. -/
theorem met_writeRx :
    ∃ (s : State) (ep : Nat) (a : Arrival) (v : State) (q : Nat) (y : Qp), (epExists s ep = true) ∧ (admitted s ep 0x01 = some (a, v, q, y)) ∧ (((fun s _ x a => placeRequest s x a id) v q y a).2 = 0) := by
  have k : (admitted (wRx (epWin) (qpT) (reqPkt 1 (.none) [1, 2, 3] 0)) 0 0x01).any (fun ((a, v, q, y) : _) => decide (((fun s _ x a => placeRequest s x a id) v q y a).2 = 0)) = true := by decide +kernel
  obtain ⟨⟨a, v, q, y⟩, ee, hh⟩ := exists_of_any k
  simp only [Bool.and_eq_true, decide_eq_true_eq] at hh
  exact ⟨wRx (epWin) (qpT) (reqPkt 1 (.none) [1, 2, 3] 0), 0, a, v, q, y, by decide +kernel, ee, by simpa [and_assoc] using hh⟩

set_option maxRecDepth 1000000 in
/-- The hypotheses on `writeCountRx` are met. -/
theorem met_writeCountRx :
    ∃ (s : State) (ep : Nat) (a : Arrival) (v : State) (q : Nat) (y : Qp), (epExists s ep = true) ∧ (admitted s ep 0x02 = some (a, v, q, y)) ∧ (((fun s q x a => placeRequest s x a (fun t => countBytes t q x a)) v q y a).2 = 0) := by
  have k : (admitted (wRx (epWin) (qpT) (reqPkt 2 (.atomic 0 3 0) [1, 2, 3] 0)) 0 0x02).any (fun ((a, v, q, y) : _) => decide (((fun s q x a => placeRequest s x a (fun t => countBytes t q x a)) v q y a).2 = 0)) = true := by decide +kernel
  obtain ⟨⟨a, v, q, y⟩, ee, hh⟩ := exists_of_any k
  simp only [Bool.and_eq_true, decide_eq_true_eq] at hh
  exact ⟨wRx (epWin) (qpT) (reqPkt 2 (.atomic 0 3 0) [1, 2, 3] 0), 0, a, v, q, y, by decide +kernel, ee, by simpa [and_assoc] using hh⟩

set_option maxRecDepth 1000000 in
/-- The hypotheses on `readReqRx` are met. -/
theorem met_readReqRx :
    ∃ (s : State) (ep : Nat) (a : Arrival) (v : State) (q : Nat) (y : Qp), (epExists s ep = true) ∧ (admitted s ep 0x03 = some (a, v, q, y)) ∧ ((doRead v q y a).2 = 0) := by
  have k : (admitted (wRx (epWin) (qpT) (reqPkt 3 (.none) [0, 0, 0, 16] 0)) 0 0x03).any (fun ((a, v, q, y) : _) => decide ((doRead v q y a).2 = 0)) = true := by decide +kernel
  obtain ⟨⟨a, v, q, y⟩, ee, hh⟩ := exists_of_any k
  simp only [Bool.and_eq_true, decide_eq_true_eq] at hh
  exact ⟨wRx (epWin) (qpT) (reqPkt 3 (.none) [0, 0, 0, 16] 0), 0, a, v, q, y, by decide +kernel, ee, by simpa [and_assoc] using hh⟩

set_option maxRecDepth 1000000 in
/-- The hypotheses on `sendRx` are met. -/
theorem met_sendRx :
    ∃ (s : State) (ep : Nat) (a : Arrival) (v : State) (q : Nat) (y : Qp), (epExists s ep = true) ∧ (admitted s ep 0x05 = some (a, v, q, y)) ∧ ((doSend v q y a).2 = 0) := by
  have k : (admitted (wRx (epSrq) ({ qpT with srq := some 9, garnet := false }) (reqPkt 5 (.none) [1, 2] 2)) 0 0x05).any (fun ((a, v, q, y) : _) => decide ((doSend v q y a).2 = 0)) = true := by decide +kernel
  obtain ⟨⟨a, v, q, y⟩, ee, hh⟩ := exists_of_any k
  simp only [Bool.and_eq_true, decide_eq_true_eq] at hh
  exact ⟨wRx (epSrq) ({ qpT with srq := some 9, garnet := false }) (reqPkt 5 (.none) [1, 2] 2), 0, a, v, q, y, by decide +kernel, ee, by simpa [and_assoc] using hh⟩

set_option maxRecDepth 1000000 in
/-- The hypotheses on `atomicReqRx` are met. -/
theorem met_atomicReqRx :
    ∃ (s : State) (ep : Nat) (a : Arrival) (v : State) (q : Nat) (y : Qp), (epExists s ep = true) ∧ (admitted s ep 0x06 = some (a, v, q, y)) ∧ ((doAtomic v q y a).2 = 0) := by
  have k : (admitted ({ wRx (epWin) (qpT) (reqPkt 6 (.atomic 1 0 5) [] 0) with fns := { dflt := {}, cells := [(0x100, { bme := true, atomicEn := true, pkeys := { dflt := 0, cells := [(0, 0xFFFF)] } })] } }) 0 0x06).any (fun ((a, v, q, y) : _) => decide ((doAtomic v q y a).2 = 0)) = true := by decide +kernel
  obtain ⟨⟨a, v, q, y⟩, ee, hh⟩ := exists_of_any k
  simp only [Bool.and_eq_true, decide_eq_true_eq] at hh
  exact ⟨{ wRx (epWin) (qpT) (reqPkt 6 (.atomic 1 0 5) [] 0) with fns := { dflt := {}, cells := [(0x100, { bme := true, atomicEn := true, pkeys := { dflt := 0, cells := [(0, 0xFFFF)] } })] } }, 0, a, v, q, y, by decide +kernel, ee, by simpa [and_assoc] using hh⟩

set_option maxRecDepth 1000000 in
/-- The hypotheses on `tagEagerRx` are met. -/
theorem met_tagEagerRx :
    ∃ (s : State) (ep : Nat) (a : Arrival) (v : State) (q : Nat) (y : Qp), (epExists s ep = true) ∧ (admitted s ep 0x10 = some (a, v, q, y)) ∧ ((doEager v q y a).2 = 0) := by
  have k : (admitted (wRx (epGar) ({ qpT with srq := some 9, garnet := true }) (reqPkt 16 (.eager 1 2 3 4) [9, 9, 9, 9] 0)) 0 0x10).any (fun ((a, v, q, y) : _) => decide ((doEager v q y a).2 = 0)) = true := by decide +kernel
  obtain ⟨⟨a, v, q, y⟩, ee, hh⟩ := exists_of_any k
  simp only [Bool.and_eq_true, decide_eq_true_eq] at hh
  exact ⟨wRx (epGar) ({ qpT with srq := some 9, garnet := true }) (reqPkt 16 (.eager 1 2 3 4) [9, 9, 9, 9] 0), 0, a, v, q, y, by decide +kernel, ee, by simpa [and_assoc] using hh⟩

set_option maxRecDepth 1000000 in
/-- The hypotheses on `tagRtsRx` are met. -/
theorem met_tagRtsRx :
    ∃ (s : State) (ep : Nat) (a : Arrival) (v : State) (q : Nat) (y : Qp), (epExists s ep = true) ∧ (admitted s ep 0x11 = some (a, v, q, y)) ∧ ((doRts v q y a).2 = 0) := by
  have k : (admitted (wRx (epGar) ({ qpT with srq := some 9, garnet := true }) (reqPkt 17 (.rts 1 2 3 4 5 6) [] 0)) 0 0x11).any (fun ((a, v, q, y) : _) => decide ((doRts v q y a).2 = 0)) = true := by decide +kernel
  obtain ⟨⟨a, v, q, y⟩, ee, hh⟩ := exists_of_any k
  simp only [Bool.and_eq_true, decide_eq_true_eq] at hh
  exact ⟨wRx (epGar) ({ qpT with srq := some 9, garnet := true }) (reqPkt 17 (.rts 1 2 3 4 5 6) [] 0), 0, a, v, q, y, by decide +kernel, ee, by simpa [and_assoc] using hh⟩

set_option maxRecDepth 1000000 in
/-- The hypotheses on `tagFinRx` are met. -/
theorem met_tagFinRx :
    ∃ (s : State) (ep : Nat) (a : Arrival) (v : State) (q : Nat) (y : Qp), (epExists s ep = true) ∧ (admitted s ep 0x12 = some (a, v, q, y)) ∧ ((doFin v q y a).2 = 0) := by
  have k : (admitted (wRx (epGar) ({ qpT with srq := some 9, garnet := true }) (reqPkt 18 (.fin 1 2 3 4 5) [] 0)) 0 0x12).any (fun ((a, v, q, y) : _) => decide ((doFin v q y a).2 = 0)) = true := by decide +kernel
  obtain ⟨⟨a, v, q, y⟩, ee, hh⟩ := exists_of_any k
  simp only [Bool.and_eq_true, decide_eq_true_eq] at hh
  exact ⟨wRx (epGar) ({ qpT with srq := some 9, garnet := true }) (reqPkt 18 (.fin 1 2 3 4 5) [] 0), 0, a, v, q, y, by decide +kernel, ee, by simpa [and_assoc] using hh⟩

/-- Every hypothesis of `Obligations.RequestsAtTheTargetComplete` is met somewhere. -/
theorem witness_RequestsAtTheTargetComplete :
    (∃ (s : State) (ep : Nat) (a : Arrival) (v : State) (q : Nat) (y : Qp), (epExists s ep = true) ∧ (admitted s ep 0x01 = some (a, v, q, y)) ∧ (((fun s _ x a => placeRequest s x a id) v q y a).2 = 0)) ∧
    (∃ (s : State) (ep : Nat) (a : Arrival) (v : State) (q : Nat) (y : Qp), (epExists s ep = true) ∧ (admitted s ep 0x02 = some (a, v, q, y)) ∧ (((fun s q x a => placeRequest s x a (fun t => countBytes t q x a)) v q y a).2 = 0)) ∧
    (∃ (s : State) (ep : Nat) (a : Arrival) (v : State) (q : Nat) (y : Qp), (epExists s ep = true) ∧ (admitted s ep 0x03 = some (a, v, q, y)) ∧ ((doRead v q y a).2 = 0)) ∧
    (∃ (s : State) (ep : Nat) (a : Arrival) (v : State) (q : Nat) (y : Qp), (epExists s ep = true) ∧ (admitted s ep 0x05 = some (a, v, q, y)) ∧ ((doSend v q y a).2 = 0)) ∧
    (∃ (s : State) (ep : Nat) (a : Arrival) (v : State) (q : Nat) (y : Qp), (epExists s ep = true) ∧ (admitted s ep 0x06 = some (a, v, q, y)) ∧ ((doAtomic v q y a).2 = 0)) ∧
    (∃ (s : State) (ep : Nat) (a : Arrival) (v : State) (q : Nat) (y : Qp), (epExists s ep = true) ∧ (admitted s ep 0x10 = some (a, v, q, y)) ∧ ((doEager v q y a).2 = 0)) ∧
    (∃ (s : State) (ep : Nat) (a : Arrival) (v : State) (q : Nat) (y : Qp), (epExists s ep = true) ∧ (admitted s ep 0x11 = some (a, v, q, y)) ∧ ((doRts v q y a).2 = 0)) ∧
    (∃ (s : State) (ep : Nat) (a : Arrival) (v : State) (q : Nat) (y : Qp), (epExists s ep = true) ∧ (admitted s ep 0x12 = some (a, v, q, y)) ∧ ((doFin v q y a).2 = 0)) :=
  ⟨met_writeRx,
   met_writeCountRx,
   met_readReqRx,
   met_sendRx,
   met_atomicReqRx,
   met_tagEagerRx,
   met_tagRtsRx,
   met_tagFinRx⟩

set_option maxRecDepth 1000000 in
/-- The hypotheses on `readRespRx` are met. -/
theorem met_readRespRx :
    ∃ (s : State) (ep : Nat) (a : Arrival) (v : State) (q : Nat) (y : Qp), (epExists s ep = true) ∧ (answered s ep 0x04 = some (a, v, q, y)) := by
  have k : (answered (wRx (epT) (qpT) (reqPkt 4 (.none) [] 0)) 0 0x04).any (fun ((a, v, q, y) : _) => true) = true := by decide +kernel
  obtain ⟨⟨a, v, q, y⟩, ee, hh⟩ := exists_of_any k
  simp only [Bool.and_eq_true, decide_eq_true_eq] at hh
  exact ⟨wRx (epT) (qpT) (reqPkt 4 (.none) [] 0), 0, a, v, q, y, by decide +kernel, ee⟩

set_option maxRecDepth 1000000 in
/-- The hypotheses on `atomicRespRx` are met. -/
theorem met_atomicRespRx :
    ∃ (s : State) (ep : Nat) (a : Arrival) (v : State) (q : Nat) (y : Qp) (p : Pend) (e : Ent) (idx : BitVec 32) (w : State), (epExists s ep = true) ∧ (answered s ep 0x07 = some (a, v, q, y)) ∧ (y.pend.find? (fun p => p.psn == a.th.psn && p.op == 6) = some p) ∧ (p.owner = .ent idx) ∧ (y.ent idx = some e) ∧ (useWins v y.fn engTransport e.sges = .inr w) ∧ (localChecks w y 1 e.sges = stSUCCESS) ∧ (sgesMiss w e.sges = none) := by
  have k : (answered (wRx (epT) ({ qpT with pend := [pend0 6], ring := { ring0 with ents := [ent0] } }) (reqPkt 7 (.none) [0, 0, 0, 0, 0, 0, 0, 1] 0)) 0 0x07).any (fun ((a, v, q, y) : _) => (let p := pend0 6; (let e := ent0; (let idx := (0 : BitVec 32); (let w := v; decide (y.pend.find? (fun p => p.psn == a.th.psn && p.op == 6) = some p) && decide (p.owner = .ent idx) && decide (y.ent idx = some e) && decide (useWins v y.fn engTransport e.sges = .inr w) && decide (localChecks w y 1 e.sges = stSUCCESS) && decide (sgesMiss w e.sges = none)))))) = true := by decide +kernel
  obtain ⟨⟨a, v, q, y⟩, ee, hh⟩ := exists_of_any k
  simp only [Bool.and_eq_true, decide_eq_true_eq] at hh
  exact ⟨wRx (epT) ({ qpT with pend := [pend0 6], ring := { ring0 with ents := [ent0] } }) (reqPkt 7 (.none) [0, 0, 0, 0, 0, 0, 0, 1] 0), 0, a, v, q, y, pend0 6, ent0, (0 : BitVec 32), v, by decide +kernel, ee, by simpa [and_assoc] using hh⟩

set_option maxRecDepth 1000000 in
/-- The hypotheses on `ackRx` are met. -/
theorem met_ackRx :
    ∃ (s : State) (ep : Nat) (a : Arrival) (v : State) (q : Nat) (y : Qp) (sack : BitVec 256) (code ec ra : Nat) (np : BitVec 32), (epExists s ep = true) ∧ (answered s ep 0x08 = some (a, v, q, y)) ∧ (a.ext = .ack sack code ec ra np) := by
  have k : (answered (wRx (epT) (qpT) (reqPkt 8 (.ack 0 0 0 0 0) [] 0)) 0 0x08).any (fun ((a, v, q, y) : _) => (let sack := (0 : BitVec 256); (let code := 0; (let ec := 0; (let ra := 0; (let np := (0 : BitVec 32); decide (a.ext = .ack sack code ec ra np))))))) = true := by decide +kernel
  obtain ⟨⟨a, v, q, y⟩, ee, hh⟩ := exists_of_any k
  simp only [Bool.and_eq_true, decide_eq_true_eq] at hh
  exact ⟨wRx (epT) (qpT) (reqPkt 8 (.ack 0 0 0 0 0) [] 0), 0, a, v, q, y, (0 : BitVec 256), 0, 0, 0, (0 : BitVec 32), by decide +kernel, ee, by simpa [and_assoc] using hh⟩

/-- Every hypothesis of `Obligations.ResponsesAndTransportTimersComplete` is met somewhere. -/
theorem witness_ResponsesAndTransportTimersComplete :
    (∃ (s : State) (ep : Nat) (a : Arrival) (v : State) (q : Nat) (y : Qp), (epExists s ep = true) ∧ (answered s ep 0x04 = some (a, v, q, y))) ∧
    (∃ (s : State) (ep : Nat) (a : Arrival) (v : State) (q : Nat) (y : Qp) (p : Pend) (e : Ent) (idx : BitVec 32) (w : State), (epExists s ep = true) ∧ (answered s ep 0x07 = some (a, v, q, y)) ∧ (y.pend.find? (fun p => p.psn == a.th.psn && p.op == 6) = some p) ∧ (p.owner = .ent idx) ∧ (y.ent idx = some e) ∧ (useWins v y.fn engTransport e.sges = .inr w) ∧ (localChecks w y 1 e.sges = stSUCCESS) ∧ (sgesMiss w e.sges = none)) ∧
    (∃ (s : State) (ep : Nat) (a : Arrival) (v : State) (q : Nat) (y : Qp) (sack : BitVec 256) (code ec ra : Nat) (np : BitVec 32), (epExists s ep = true) ∧ (answered s ep 0x08 = some (a, v, q, y)) ∧ (a.ext = .ack sack code ec ra np)) ∧
    (∃ (s : State) (q : Nat) (x : Qp), (getQp s q = some x) ∧ (x.st = 1) ∧ (0 < x.ackDue) ∧ (x.ackAt + (s.hostEp (epOfFn s x.fn)).ackDelay ≤ s.clk.now)) ∧
    (∃ (s : State) (q : Nat) (x : Qp) (psn : BitVec 32) (p : Pend), (getQp s q = some x) ∧ (x.st = 1) ∧ (x.pend.find? (fun p => p.psn == psn && (!p.acked || p.op == 3 || p.op == 6)) = some p) ∧ (p.lastAt + rtoOf s x ≤ s.clk.now) ∧ ((s.hostEp (epOfFn s x.fn)).retryLimit < p.timeouts + 1)) ∧
    (∃ (s : State) (q : Nat) (x : Qp) (psn : BitVec 32) (p : Pend), (getQp s q = some x) ∧ (x.st = 1) ∧ (x.pend.find? (fun p => p.psn == psn && (!p.acked || p.op == 3 || p.op == 6)) = some p) ∧ (p.lastAt + rtoOf s x ≤ s.clk.now) ∧ (p.timeouts + 1 ≤ (s.hostEp (epOfFn s x.fn)).retryLimit)) ∧
    (∃ (s : State) (q : Nat) (x : Qp) (n : BitVec 32), (getQp s q = some x) ∧ (x.st = 1) ∧ (x.rnrPsn = some n) ∧ (x.rnrUntil ≤ s.clk.now)) ∧
    (∃ (s : State) (ep : Nat) (d : List Byte) (q : Nat) (psn : BitVec 32) (b : Bool) (l : List DataRead) (x : Qp) (p : Pend) (idx : BitVec 32) (e : Ent), (epExists s ep = true) ∧ (s.ep.reads.get ep = .send q psn b :: l) ∧ (getQp (updHost (updEp s (fun e => { e with reads := e.reads.set ep l })) ep (fun h => { h with outstanding := h.outstanding - 1 })) q = some x) ∧ (x.pend.find? (fun p => p.psn == psn) = some p) ∧ (p.owner = .ent idx) ∧ (x.ent idx = some e)) ∧
    (∃ (s : State) (ep : Nat) (o : BitVec 128) (h : HostAtomic) (x : Qp), (epExists s ep = true) ∧ ((s.hostEp ep).atomics.find? (fun h => !h.cxl) = some h) ∧ (getQp (updHost s ep (fun y => { y with atomics := y.atomics.erase h })) h.qp = some x) ∧ (x.st = 1)) ∧
    (∃ (s : State) (ep : Nat) (h : HostAtomic) (x : Qp), (epExists s ep = true) ∧ ((s.hostEp ep).atomics.find? (fun h => !h.cxl) = some h) ∧ (getQp (updHost s ep (fun y => { y with atomics := y.atomics.erase h })) h.qp = some x) ∧ (x.st = 1)) ∧
    (∃ (s : State) (ep : Nat) (o : BitVec 128) (h : HostAtomic) (x : Qp), (epExists s ep = true) ∧ ((s.hostEp ep).atomics.find? (fun h => h.cxl) = some h) ∧ (getQp (updHost s ep (fun y => { y with atomics := y.atomics.erase h })) h.qp = some x) ∧ (x.st = 1)) ∧
    (∃ (s : State) (fn addr len b : Nat) (w : AtsReq), (fnExists s fn = true) ∧ (s.ep.ats.find? (fun w => w.fn == fn && decide (addr ≤ w.addr) && decide (w.addr < addr + max 1 len)) = some w)) ∧
    (∃ (s : State) (fn addr len : Nat) (w : AtsReq), (fnExists s fn = true) ∧ (s.ep.ats.find? (fun w => w.fn == fn && decide (addr ≤ w.addr) && decide (w.addr < addr + max 1 len)) = some w)) ∧
    (∃ (s : State) (fn start len : Nat), fnExists s fn = true) ∧
    (∃ (s : State) (srq : Nat) (r : Srq) (e : Ent), (getSrq s srq = some r) ∧ (r.ring.next = some e) ∧ (r.garnet = false) ∧ (r.err = false) ∧ (r.quiesced = false) ∧ (e.chainRead = false) ∧ ((e.fence && srqOpen s srq r) = false) ∧ (e.status = stSUCCESS) ∧ (e.chain = none) ∧ (sgeLen e.sges < 2 ^ 32)) ∧
    (∃ (s : State) (srq : Nat) (r : Srq) (e : Ent) (u v : State), (getSrq s srq = some r) ∧ (r.ring.next = some e) ∧ (r.garnet = true) ∧ (r.err = false) ∧ (r.quiesced = false) ∧ ((e.fence && srqOpen s srq r) = false) ∧ ((s.quad r.home).storeUsed < storeSize) ∧ (e.status = stSUCCESS) ∧ (useStores s r.fn srq = .inr u) ∧ (useWins u r.fn engGarnet e.sges = .inr v) ∧ (postCheck v r e = stSUCCESS) ∧ ((postedOf e r.postStamp).wild = false) ∧ ((unexpList v r srq (postedNext v r e)).find? (fun u : Nat × Unexp => u.1 == srq && matches_ (postedNext v r e) u.2.msg) = none)) ∧
    (∃ (s : State) (q : Nat) (x : Qp) (m : Matched), (getQp s q = some x) ∧ (x.st = 1) ∧ (x.matched.find? (fun m => m.msg.rts.isSome && (decide (min m.msg.len m.cap ≤ m.got) && decide (0 < m.asked) && !x.pend.any (fun p => p.owner == .rdv m.msg.msn m.msg.gen))) = some m) ∧ (m.failed = false) ∧ (m.lost = false) ∧ (m.msg.len ≤ m.cap)) :=
  ⟨met_readRespRx,
   met_atomicRespRx,
   met_ackRx,
   ⟨{ (wQp { qp0 with ackDue := 1 }) with clk := { now := 1000000000 } }, 7, { qp0 with ackDue := 1 }, by rfl, by decide +kernel⟩,
   ⟨{ (wQp { qp0 with pend := [{ pend0 1 with timeouts := 100000 }] }) with clk := { now := 1000000000 } }, 7, { qp0 with pend := [{ pend0 1 with timeouts := 100000 }] }, 0, { pend0 1 with timeouts := 100000 }, by rfl, by decide +kernel, by rfl, by decide +kernel⟩,
   ⟨{ (wQp { qp0 with pend := [pend0 1] }) with clk := { now := 1000000000 } }, 7, { qp0 with pend := [pend0 1] }, 0, pend0 1, by rfl, by decide +kernel, by rfl, by decide +kernel⟩,
   ⟨wQp { qp0 with rnrPsn := some 3 }, 7, { qp0 with rnrPsn := some 3 }, 3, by rfl, by decide +kernel, by rfl, by decide +kernel⟩,
   ⟨wSendRead, 0, [1], 7, 0, false, [], qpRead, pend0 1, 0, ent0, by decide +kernel, by decide +kernel, by rfl, by rfl, by decide +kernel, by rfl⟩,
   ⟨{ wQp qp0 with eps := { dflt := {}, cells := [(0, { atomics := [hat0] })] } }, 0, 5, hat0, qp0, by decide +kernel, by rfl, by rfl, by decide +kernel⟩,
   ⟨{ wQp qp0 with eps := { dflt := {}, cells := [(0, { atomics := [hat0] })] } }, 0, hat0, qp0, by decide +kernel, by rfl, by rfl, by decide +kernel⟩,
   ⟨{ wQp qp0 with eps := { dflt := {}, cells := [(0, { atomics := [{ hat0 with cxl := true }] })] } }, 0, 5, { hat0 with cxl := true }, qp0, by decide +kernel, by rfl, by rfl, by decide +kernel⟩,
   ⟨{ State.reset with ep := { ats := [{ fn := 0x100, addr := 4096, pd := 1, what := .queue 7 }] } }, 0x100, 4096, 4096, 9, { fn := 0x100, addr := 4096, pd := 1, what := .queue 7 }, by decide +kernel, by rfl⟩,
   ⟨{ State.reset with ep := { ats := [{ fn := 0x100, addr := 4096, pd := 1, what := .queue 7 }] } }, 0x100, 4096, 4096, { fn := 0x100, addr := 4096, pd := 1, what := .queue 7 }, by decide +kernel, by rfl⟩,
   ⟨State.reset, 0x100, 0, 4096, by decide +kernel⟩,
   ⟨wSrq { srq0 with ring := { ring0 with ents := [ent0] } }, 9, { srq0 with ring := { ring0 with ents := [ent0] } }, ent0, by rfl, by rfl, by decide +kernel⟩,
   ⟨wSrq { srq0 with garnet := true, ring := { ring0 with ents := [ent0] } }, 9, { srq0 with garnet := true, ring := { ring0 with ents := [ent0] } }, ent0, (match useStores (wSrq { srq0 with garnet := true, ring := { ring0 with ents := [ent0] } }) 0x100 9 with | .inl t => t | .inr t => t), (match useStores (wSrq { srq0 with garnet := true, ring := { ring0 with ents := [ent0] } }) 0x100 9 with | .inl t => t | .inr t => t), by rfl, by rfl, by decide +kernel, by decide +kernel, by decide +kernel, by decide +kernel, by decide +kernel, by decide +kernel, by rfl, by rfl, by decide +kernel⟩,
   ⟨wQp { qp0 with matched := [mat0] }, 7, { qp0 with matched := [mat0] }, mat0, by rfl, by decide +kernel, by rfl, by decide +kernel⟩⟩

set_option maxRecDepth 1000000 in
/-- The hypotheses on `upRx` are met. -/
theorem met_upRx :
    ∃ (s : State) (quad : Nat) (u : State) (id : Nat) (tr : Tree) (e : Nat) (p : Pkt) (c : CollHdr) (l : List Byte), (quad < 4) ∧ (treeTaken s quad 1 = some (u, id, tr, e, p, c, l)) ∧ (e ≠ 0) ∧ (mustHold tr c.seq = false) := by
  have k : (treeTaken (wTree ({ tree1 with children := [.port 3], parent := some 2 }) 3 (collPkt { kind := 1, seq := 0 })) 1 1).any (fun ((u, id, tr, e, p, c, l) : _) => decide (e ≠ 0) && decide (mustHold tr c.seq = false)) = true := by decide +kernel
  obtain ⟨⟨u, id, tr, e, p, c, l⟩, ee, hh⟩ := exists_of_any k
  simp only [Bool.and_eq_true, decide_eq_true_eq] at hh
  exact ⟨wTree ({ tree1 with children := [.port 3], parent := some 2 }) 3 (collPkt { kind := 1, seq := 0 }), 1, u, id, tr, e, p, c, l, by decide +kernel, ee, by simpa [and_assoc] using hh⟩

set_option maxRecDepth 1000000 in
/-- The hypotheses on `upRx` are met. -/
theorem met_upRx_again :
    ∃ (s : State) (quad : Nat) (u : State) (id : Nat) (tr : Tree) (e : Nat) (p : Pkt) (c : CollHdr) (l : List Byte), (quad < 4) ∧ (treeTaken s quad 1 = some (u, id, tr, e, p, c, l)) ∧ (e ≠ 0) ∧ (mustHold tr c.seq = true) ∧ (tr.ended.any (fun y => y.1 == c.seq) = false) ∧ (tr.broken = false) := by
  have k : (treeTaken (wTree ({ tree1 with children := [.port 3], parent := some 2, colls := [coll0 1, coll0 2, coll0 3, coll0 4] }) 3 (collPkt { kind := 1, seq := 0 })) 1 1).any (fun ((u, id, tr, e, p, c, l) : _) => decide (e ≠ 0) && decide (mustHold tr c.seq = true) && decide (tr.ended.any (fun y => y.1 == c.seq) = false) && decide (tr.broken = false)) = true := by decide +kernel
  obtain ⟨⟨u, id, tr, e, p, c, l⟩, ee, hh⟩ := exists_of_any k
  simp only [Bool.and_eq_true, decide_eq_true_eq] at hh
  exact ⟨wTree ({ tree1 with children := [.port 3], parent := some 2, colls := [coll0 1, coll0 2, coll0 3, coll0 4] }) 3 (collPkt { kind := 1, seq := 0 }), 1, u, id, tr, e, p, c, l, by decide +kernel, ee, by simpa [and_assoc] using hh⟩

set_option maxRecDepth 1000000 in
/-- The hypotheses on `downRx` are met. -/
theorem met_downRx :
    ∃ (s : State) (quad : Nat) (u : State) (id : Nat) (tr : Tree) (e : Nat) (p : Pkt) (c : CollHdr) (l : List Byte), (quad < 4) ∧ (treeTaken s quad 2 = some (u, id, tr, e, p, c, l)) ∧ (e = 0) ∧ ((getColl u id c.seq).isSome = true) := by
  have k : (treeTaken (wTree ({ tree1 with children := [.port 3], parent := some 2, colls := [coll0 0] }) 2 (collPkt { kind := 2, seq := 0 })) 1 2).any (fun ((u, id, tr, e, p, c, l) : _) => decide (e = 0) && decide ((getColl u id c.seq).isSome = true)) = true := by decide +kernel
  obtain ⟨⟨u, id, tr, e, p, c, l⟩, ee, hh⟩ := exists_of_any k
  simp only [Bool.and_eq_true, decide_eq_true_eq] at hh
  exact ⟨wTree ({ tree1 with children := [.port 3], parent := some 2, colls := [coll0 0] }) 2 (collPkt { kind := 2, seq := 0 }), 1, u, id, tr, e, p, c, l, by decide +kernel, ee, by simpa [and_assoc] using hh⟩

set_option maxRecDepth 1000000 in
/-- The hypotheses on `treeCreditRx` are met. -/
theorem met_treeCreditRx :
    ∃ (s : State) (quad : Nat) (u : State) (id : Nat) (tr : Tree) (e : Nat) (p : Pkt) (c : CollHdr) (l : List Byte), (quad < 4) ∧ (treeTaken s quad 3 = some (u, id, tr, e, p, c, l)) := by
  have k : (treeTaken (wTree ({ tree1 with children := [.port 3], parent := some 2 }) 2 (collPkt { kind := 3, seq := 0 })) 1 3).any (fun ((u, id, tr, e, p, c, l) : _) => true) = true := by decide +kernel
  obtain ⟨⟨u, id, tr, e, p, c, l⟩, ee, hh⟩ := exists_of_any k
  simp only [Bool.and_eq_true, decide_eq_true_eq] at hh
  exact ⟨wTree ({ tree1 with children := [.port 3], parent := some 2 }) 2 (collPkt { kind := 3, seq := 0 }), 1, u, id, tr, e, p, c, l, by decide +kernel, ee⟩

set_option maxRecDepth 1000000 in
/-- The hypotheses on `treeAbortRx` are met. -/
theorem met_treeAbortRx :
    ∃ (s : State) (quad : Nat) (u : State) (id : Nat) (tr : Tree) (e : Nat) (p : Pkt) (c : CollHdr) (l : List Byte), (quad < 4) ∧ (treeTaken s quad 4 = some (u, id, tr, e, p, c, l)) := by
  have k : (treeTaken (wTree ({ tree1 with children := [.port 3], parent := some 2 }) 2 (collPkt { kind := 4, seq := 0 })) 1 4).any (fun ((u, id, tr, e, p, c, l) : _) => true) = true := by decide +kernel
  obtain ⟨⟨u, id, tr, e, p, c, l⟩, ee, hh⟩ := exists_of_any k
  simp only [Bool.and_eq_true, decide_eq_true_eq] at hh
  exact ⟨wTree ({ tree1 with children := [.port 3], parent := some 2 }) 2 (collPkt { kind := 4, seq := 0 }), 1, u, id, tr, e, p, c, l, by decide +kernel, ee⟩

/-- Every hypothesis of `Obligations.CollectiveCommandsComplete` is met somewhere. -/
theorem witness_CollectiveCommandsComplete :
    (∃ (s : State) (quad : Nat) (u : State) (id : Nat) (tr : Tree) (e : Nat) (p : Pkt) (c : CollHdr) (l : List Byte), (quad < 4) ∧ (treeTaken s quad 1 = some (u, id, tr, e, p, c, l)) ∧ (e ≠ 0) ∧ (mustHold tr c.seq = false)) ∧
    (∃ (s : State) (quad : Nat) (u : State) (id : Nat) (tr : Tree) (e : Nat) (p : Pkt) (c : CollHdr) (l : List Byte), (quad < 4) ∧ (treeTaken s quad 1 = some (u, id, tr, e, p, c, l)) ∧ (e ≠ 0) ∧ (mustHold tr c.seq = true) ∧ (tr.ended.any (fun y => y.1 == c.seq) = false) ∧ (tr.broken = false)) ∧
    (∃ (s : State) (quad : Nat) (tree : BitVec 24) (seq : BitVec 32) (block : Nat), (quad < 4) ∧ (treeQuad tree.toNat = quad)) ∧
    (∃ (s : State) (quad : Nat) (u : State) (id : Nat) (tr : Tree) (e : Nat) (p : Pkt) (c : CollHdr) (l : List Byte), (quad < 4) ∧ (treeTaken s quad 2 = some (u, id, tr, e, p, c, l)) ∧ (e = 0) ∧ ((getColl u id c.seq).isSome = true)) ∧
    (∃ (s : State) (quad : Nat) (u : State) (id : Nat) (tr : Tree) (e : Nat) (p : Pkt) (c : CollHdr) (l : List Byte), (quad < 4) ∧ (treeTaken s quad 3 = some (u, id, tr, e, p, c, l))) ∧
    (∃ (s : State) (quad : Nat) (u : State) (id : Nat) (tr : Tree) (e : Nat) (p : Pkt) (c : CollHdr) (l : List Byte), (quad < 4) ∧ (treeTaken s quad 4 = some (u, id, tr, e, p, c, l))) ∧
    (∃ (s : State) (quad : Nat) (tree : BitVec 24) (seq : BitVec 32), (quad < 4) ∧ (treeQuad tree.toNat = quad) ∧ (stalled s tree.toNat seq = true)) :=
  ⟨met_upRx,
   met_upRx_again,
   ⟨State.reset, 1, 5, 0, 0, by decide +kernel⟩,
   met_downRx,
   met_treeCreditRx,
   met_treeAbortRx,
   ⟨{ (wTree { tree1 with colls := [coll0 0] } 2 pkt0) with clk := { now := 100000000 } }, 1, 5, 0, by decide +kernel⟩⟩

/-- Every hypothesis of `Obligations.PagingScrubsAndNumbersComplete` is met somewhere. -/
theorem witness_PagingScrubsAndNumbersComplete :
    (∃ (s : State) (q : Nat) (x : Qp), (getQp s q = some x) ∧ (x.marked = true) ∧ (x.resident = true) ∧ (x.stalled = false)) ∧
    (∃ (s : State) (q : Nat) (x : Qp), (getQp s q = some x) ∧ (x.marked = true) ∧ (x.resident = true) ∧ (x.stalled = true)) ∧
    (∃ (s : State) (q : Nat) (x : Qp) (i : Bool × Nat × Nat × Bool), (getQp s q = some x) ∧ (x.paging = 2) ∧ (slotDenied (count (readBack s (qpPf0 s x)) .quadrant x.home .pageIn) x true = none) ∧ (x.destroy = none) ∧ (almanacImageCheck q x.ring.epoch.toNat i = none) ∧ (x.ring.poll ≠ .none)) ∧
    (∃ (s : State) (q : Nat) (x : Qp), (getQp s q = some x) ∧ (x.paging = 2) ∧ (slotDenied (readBack s (qpPf0 s x)) x true = none) ∧ (x.destroy = none)) ∧
    (∃ (s : State) (stack row : Nat), (stack < 4) ∧ (quadActive s stack = true) ∧ ((s.quad stack).patrolAddr < stackUnits s)) ∧
    (∃ (s : State) (stack : Nat), (stack < 4) ∧ (quadActive s stack = true) ∧ ((s.quad stack).patrolStart + oneDay ≤ s.clk.now)) ∧
    (∃ (s : State) (quad : Nat) (line : LineId), (quad < 4) ∧ (quadActive s quad = true)) ∧
    (∃ (s : State) (quad : Nat) (line : LineId), (quad < 4) ∧ (quadActive s quad = true) ∧ ((getLine s quad line).st ≠ .i) ∧ ((getLine s quad line).dirty = false)) ∧
    (∃ (s : State) (quad : Nat) (line : LineId) (u : State), (quad < 4) ∧ (quadActive s quad = true) ∧ ((getLine s quad line).st ≠ .i) ∧ ((getLine s quad line).dirty = true) ∧ (u = updDir (updLine (count s .quadrant quad .ccUe) quad line (fun _ => {})) line (fun d => d.without quad))) ∧
    (∃ (s : State) (sp num : Nat), sp < 2) :=
  ⟨⟨wQp { qp0 with marked := true }, 7, { qp0 with marked := true }, by rfl, by decide +kernel⟩,
   ⟨wQp { qp0 with marked := true, stalled := true }, 7, { qp0 with marked := true, stalled := true }, by rfl, by decide +kernel⟩,
   ⟨wQp { qp0 with paging := 2, resident := false }, 7, { qp0 with paging := 2, resident := false }, (true, 7, 0, true), by rfl, by decide +kernel⟩,
   ⟨wQp { qp0 with paging := 2, resident := false }, 7, { qp0 with paging := 2, resident := false }, by rfl, by decide +kernel⟩,
   ⟨State.reset, 1, 0, by decide +kernel⟩,
   ⟨{ State.reset with clk := { State.reset.clk with now := 86400000000000 } }, 1, by decide +kernel⟩,
   ⟨State.reset, 1, ln0, by decide +kernel⟩,
   ⟨wLine 1 { st := .s }, 1, ln0, by decide +kernel⟩,
   ⟨wLine 1 { st := .m, dirty := true }, 1, ln0, updDir (updLine (count (wLine 1 { st := .m, dirty := true }) .quadrant 1 .ccUe) 1 ln0 (fun _ => {})) ln0 (fun d => d.without 1), by decide +kernel⟩,
   ⟨State.reset, 1, 5, by decide +kernel⟩⟩

/-- Every hypothesis of `Obligations.CoherenceMessagesComplete` is met somewhere. -/
theorem witness_CoherenceMessagesComplete :
    (∃ (s : State) (quad : Nat) (line : LineId), (quad < 4) ∧ (cacheOk s quad = true) ∧ ((getLine s quad line).st = .m) ∧ ((getLine s quad line).dirty = true) ∧ ((getLine s quad line).phase = 0) ∧ ((getLine s quad line).req = none) ∧ ((getDir s line).busy = false) ∧ ((getLine s quad line).touched + 100000 ≤ s.clk.now)) ∧
    (∃ (s : State) (req : Nat) (line : LineId), (req < 4) ∧ (cacheOk s req = true)) ∧
    (∃ (s : State) (req : Nat) (line : LineId), (req < 4) ∧ (cacheOk s req = true) ∧ (((getLine s req line).st = .s ∨ (getLine s req line).st = .o))) ∧
    (∃ (s : State) (req : Nat) (line : LineId) (home : Nat), (req < 4) ∧ (cacheOk s req = true) ∧ (lineHome s line = some home) ∧ (((getLine s req line).st = .m ∨ (getLine s req line).st = .o)) ∧ ((getLine s req line).phase ≠ 2) ∧ ((getLine s req line).req = none)) ∧
    (∃ (s : State) (req : Nat) (line : LineId) (home : Nat), (req < 4) ∧ (cacheOk s req = true) ∧ (lineHome s line = some home) ∧ (((getLine s req line).st = .s ∨ (getLine s req line).st = .e)) ∧ ((getLine s req line).phase ≠ 2) ∧ ((getLine s req line).req = none)) ∧
    (∃ (s : State) (owner req : Nat) (line : LineId), (owner < 4) ∧ (req < 4) ∧ (fwdToGone s owner line = false) ∧ (((getLine s owner line).st == .i || (getLine s owner line).st == .s) = false)) ∧
    (∃ (s : State) (sharer req : Nat) (line : LineId), (sharer < 4) ∧ (req < 4) ∧ (fwdToGone s sharer line = false) ∧ (((getLine s sharer line).st == .i) = false)) ∧
    (∃ (s : State) (owner req : Nat) (line : LineId), (owner < 4) ∧ (req < 4) ∧ (fwdToGone s owner line = true)) ∧
    (∃ (s : State) (sharer req : Nat) (line : LineId), (sharer < 4) ∧ (req < 4) ∧ (fwdToGone s sharer line = true)) ∧
    (∃ (s : State) (req : Nat) (line : LineId), (req < 4) ∧ ((getLine s req line).req.isSome = true)) ∧
    (∃ (s : State) (req : Nat) (line : LineId), (req < 4) ∧ ((getLine s req line).phase = 2) ∧ ((getLine s req line).req = none)) ∧
    (∃ (s : State) (req : Nat) (line : LineId) (n : Nat), (req < 4) ∧ ((getLine s req line).req.isSome = true) ∧ ((getLine s req line).answered = false) ∧ ((getLine s req line).phase ≠ 2)) ∧
    (∃ (s : State) (req : Nat) (line : LineId) (n st : Nat), (req < 4) ∧ (st < 5) ∧ ((getLine s req line).req.isSome = true) ∧ ((getLine s req line).answered = false) ∧ ((getLine s req line).phase ≠ 2)) ∧
    (∃ (s : State) (quad : Nat) (line : LineId), (quad < 4) ∧ (line.kind = 6) ∧ ((getLine s quad line).st ≠ .i)) :=
  ⟨⟨{ (wLine 1 { st := .m, dirty := true }) with clk := { now := 100000 } }, 1, ln0, by decide +kernel⟩,
   ⟨wLine 1 {}, 1, ln0, by decide +kernel⟩,
   ⟨wLine 1 { st := .s }, 1, ln0, by decide +kernel⟩,
   ⟨wLine 1 { st := .m, dirty := true }, 1, ln0, 2, by decide +kernel⟩,
   ⟨wLine 1 { st := .e }, 1, ln0, 2, by decide +kernel⟩,
   ⟨wLine 1 { st := .m, dirty := true }, 1, 2, ln0, by decide +kernel⟩,
   ⟨wLine 1 { st := .s }, 1, 2, ln0, by decide +kernel⟩,
   ⟨{ wLine 1 {} with ep := { (wLine 1 {}).ep with dir := { dflt := {}, cells := [(lineKey ln0, { busy := true })] } } }, 1, 2, ln0, by decide +kernel⟩,
   ⟨{ wLine 1 {} with ep := { (wLine 1 {}).ep with dir := { dflt := {}, cells := [(lineKey ln0, { busy := true })] } } }, 1, 2, ln0, by decide +kernel⟩,
   ⟨wLine 1 { req := some .getM }, 1, ln0, by decide +kernel⟩,
   ⟨wLine 1 { phase := 2 }, 1, ln0, by decide +kernel⟩,
   ⟨wLine 1 { st := .s, req := some .upgrade }, 1, ln0, 1, by decide +kernel⟩,
   ⟨wLine 1 { req := some .getS }, 1, ln0, 0, 1, by decide +kernel⟩,
   ⟨wHostLine, 1, { kind := 6, num := 0, idx := 0 }, by decide +kernel⟩⟩

/-- Every hypothesis of `Obligations.ChainLocksAndEnumerationComplete` is met somewhere. -/
theorem witness_ChainLocksAndEnumerationComplete :
    (∃ (s : State), (chainAlive s = true) ∧ (s.chain.upLock = false)) ∧
    (∃ (s : State), (chainRuns s = true) ∧ (s.chain.downLock = false)) ∧
    (∃ (s : State), (chainAlive s = true) ∧ (s.chain.upLock = true)) ∧
    (∃ (s : State), (chainRuns s = true) ∧ (s.chain.downLock = true) ∧ (isHead s = false)) ∧
    (∃ (s : State) (p : ChainPort) (f : ChainFrame), (FrameTaken s p f 0x01) ∧ (isHead s = false) ∧ (byteAt f.payload 0 ≠ 255) ∧ (s.chain.addr = 0)) ∧
    (∃ (s : State) (p : ChainPort) (f : ChainFrame), FrameTaken s p f 0x02) ∧
    (∃ (s : State) (p : ChainPort) (f : ChainFrame), FrameTaken s p f 0x03) ∧
    (∃ (s : State), (chainRuns s = true) ∧ (s.chain.enumTmr = true) ∧ (isChainMgr s = false)) ∧
    (∃ (s : State) (p : ChainPort) (f : ChainFrame), (FrameTaken s p f 0x04) ∧ (isHead s = false)) ∧
    (∃ (s : State), (chainRuns s = true) ∧ (isChainMgr s = true) ∧ (s.chain.beating = true) ∧ (s.chain.downLock = true)) ∧
    (∃ (s : State) (p : ChainPort) (f : ChainFrame), FrameTaken s p f 0x05) ∧
    (∃ (s : State), (chainRuns s = true) ∧ (isHead s = false) ∧ (s.chain.addr = 0) ∧ (s.chain.upLock = true)) ∧
    (∃ (s : State) (p : ChainPort) (f : ChainFrame), FrameTaken s p f 0x06) ∧
    (∃ (s : State), (chainRuns s = true) ∧ (isHead s = false) ∧ (s.chain.orphan = false)) :=
  ⟨⟨{ State.reset with boot := { power := .run } }, by decide +kernel⟩,
   ⟨{ State.reset with boot := { power := .run } }, by decide +kernel⟩,
   ⟨{ State.reset with boot := { power := .run }, chain := { upLock := true } }, by decide +kernel⟩,
   ⟨{ State.reset with boot := { power := .run }, chain := { downLock := true } }, by decide +kernel⟩,
   ⟨{ wAcc with boot := { power := .run }, chain := { upLock := true } }, .upstream, { dest := 0, src := 9, type := 1, ftag := 4, payload := [5, 0, 0, 0, 0, 0] }, by decide +kernel⟩,
   ⟨{ wAcc with boot := { power := .run }, chain := { addr := 3, upLock := true, downLock := true } }, .downstream, { dest := 0, src := 9, type := 2, ftag := 4, payload := [] }, by decide +kernel⟩,
   ⟨{ wAcc with boot := { power := .run }, chain := { addr := 3, upLock := true, downLock := true } }, .downstream, { dest := 0, src := 9, type := 3, ftag := 4, payload := [4, 0] }, by decide +kernel⟩,
   ⟨{ State.reset with boot := { power := .run }, chain := { enumTmr := true } }, by decide +kernel⟩,
   ⟨{ wAcc with boot := { power := .run }, chain := { addr := 3, upLock := true, downLock := true } }, .upstream, { dest := 255, src := 9, type := 4, ftag := 4, payload := [4, 0] }, by decide +kernel⟩,
   ⟨wHead, by decide +kernel⟩,
   ⟨{ wAcc with boot := { power := .run }, chain := { addr := 3, upLock := true, downLock := true } }, .downstream, { dest := 0, src := 9, type := 5, ftag := 4, payload := (List.replicate 12 0x30) }, by decide +kernel⟩,
   ⟨{ State.reset with boot := { power := .run }, chain := { upLock := true } }, by decide +kernel⟩,
   ⟨{ wAcc with boot := { power := .run }, chain := { addr := 3, upLock := true, downLock := true } }, .downstream, { dest := 0, src := 9, type := 6, ftag := 4, payload := [] }, by decide +kernel⟩,
   ⟨{ State.reset with boot := { power := .run } }, by decide +kernel⟩⟩

/-- Every hypothesis of `Obligations.ChainRequestsAndAnswersComplete` is met somewhere. -/
theorem witness_ChainRequestsAndAnswersComplete :
    (∃ (s : State) (p : ChainPort) (f : ChainFrame), (FrameTaken s p f 0x10) ∧ (f.dest = s.chain.addr) ∧ (allowed s 0x021 tgtDEVICE false = true)) ∧
    (∃ (s : State) (p : ChainPort) (f : ChainFrame), FrameTaken s p f 0x11) ∧
    (∃ (s : State) (p : ChainPort) (f : ChainFrame), FrameTaken s p f 0x22) ∧
    (∃ (s : State) (p : ChainPort) (f : ChainFrame), FrameTaken s p f 0x31) ∧
    (∃ (s : State) (p : ChainPort) (f : ChainFrame), FrameTaken s p f 0x40) ∧
    (∃ (s : State) (p : ChainPort) (f : ChainFrame), (FrameTaken s p f 0x12) ∧ (f.dest = s.chain.addr) ∧ (f.dest ≠ 255) ∧ (allowed s 0x021 tgtDEVICE true = true)) ∧
    (∃ (s : State), (s.chain.resetKind = some 0) ∧ (s.boot.power = .run) ∧ (s.pins.coreLost = false) ∧ (s.boot.warmRst = false)) ∧
    (∃ (s : State), (s.chain.resetKind = some 1) ∧ (chainRuns s = true)) ∧
    (∃ (s : State) (k : Nat), (s.chain.resetKind = some (k + 2)) ∧ (molzuRuns s = true)) ∧
    (∃ (s : State) (p : ChainPort) (f : ChainFrame), (FrameTaken s p f 0x20) ∧ (f.dest = s.chain.addr)) ∧
    (∃ (s : State) (p : ChainPort) (f : ChainFrame), (FrameTaken s p f 0x21) ∧ (f.dest = s.chain.addr)) ∧
    (∃ (s : State) (p : ChainPort) (f : ChainFrame), (FrameTaken s p f 0x30) ∧ (f.dest = s.chain.addr)) ∧
    (∃ (s : State) (p : ChainPort) (f : ChainFrame), (chainServes s f.type = true) ∧ (chainLocked s p = true) ∧ (chainFrameOk p f = false)) ∧
    (∃ (s : State) (p : ChainPort) (f : ChainFrame), (chainServes s f.type = true) ∧ (chainLocked s p = true) ∧ (f.type = 0x02)) ∧
    (∃ (s : State) (p : ChainPort) (f : ChainFrame), (chainServes s f.type = true) ∧ (chainLocked s p = true) ∧ (f.dest = 255) ∧ (f.type ≠ 0x01) ∧ (f.type ≠ 0x02) ∧ (s.chain.addr ≠ 255)) ∧
    (∃ (s : State) (p : ChainPort) (f : ChainFrame), (chainServes s f.type = true) ∧ (chainLocked s p = true) ∧ (chainForMe s f = false)) :=
  ⟨⟨{ wAcc with boot := { power := .run }, chain := { addr := 3, upLock := true, downLock := true } }, .upstream, { dest := 3, src := 9, type := 0x10, ftag := 4, payload := [] }, by decide +kernel⟩,
   ⟨{ wAcc with boot := { power := .run }, chain := { addr := 3, upLock := true, downLock := true } }, .downstream, { dest := 0, src := 9, type := 0x11, ftag := 4, payload := (List.replicate 16 0) }, by decide +kernel⟩,
   ⟨{ wAcc with boot := { power := .run }, chain := { addr := 3, upLock := true, downLock := true } }, .downstream, { dest := 0, src := 9, type := 0x22, ftag := 4, payload := (List.replicate 6 0) }, by decide +kernel⟩,
   ⟨{ wAcc with boot := { power := .run }, chain := { addr := 3, upLock := true, downLock := true } }, .downstream, { dest := 0, src := 9, type := 0x31, ftag := 4, payload := (List.replicate 8 0) }, by decide +kernel⟩,
   ⟨{ wAcc with boot := { power := .run }, chain := { addr := 3, upLock := true, downLock := true } }, .downstream, { dest := 0, src := 9, type := 0x40, ftag := 4, payload := (List.replicate 32 0) }, by decide +kernel⟩,
   ⟨{ wAcc with boot := { power := .run }, chain := { addr := 3, upLock := true, downLock := true } }, .upstream, { dest := 3, src := 9, type := 0x12, ftag := 4, payload := [0] }, by decide +kernel⟩,
   ⟨{ State.reset with boot := { power := .run }, chain := { resetKind := some 0 } }, by decide +kernel⟩,
   ⟨{ State.reset with boot := { power := .run }, chain := { resetKind := some 1 } }, by decide +kernel⟩,
   ⟨{ State.reset with boot := { power := .run, porst := false, flashGnt := false, fwReady := true, steps := { molzu := true } }, chain := { resetKind := some 2 } }, 0, by decide +kernel⟩,
   ⟨{ wAcc with boot := { power := .run }, chain := { addr := 3, upLock := true, downLock := true } }, .upstream, { dest := 3, src := 9, type := 0x20, ftag := 4, payload := [0, 0, 0, 0] }, by decide +kernel⟩,
   ⟨{ wAcc with boot := { power := .run }, chain := { addr := 3, upLock := true, downLock := true } }, .upstream, { dest := 3, src := 9, type := 0x21, ftag := 4, payload := (List.replicate 8 0) }, by decide +kernel⟩,
   ⟨{ wAcc with boot := { power := .run }, chain := { addr := 3, upLock := true, downLock := true } }, .upstream, { dest := 3, src := 9, type := 0x30, ftag := 4, payload := (List.replicate 32 0) }, by decide +kernel⟩,
   ⟨{ wAcc with boot := { power := .run }, chain := { addr := 3, upLock := true, downLock := true } }, .upstream, { dest := 3, src := 9, type := 0x10, ftag := 4, payload := [1] }, by decide +kernel⟩,
   ⟨{ wAcc with boot := { power := .run }, chain := { addr := 3, upLock := true, downLock := true } }, .downstream, { dest := 0, src := 9, type := 2, ftag := 4, payload := [] }, by decide +kernel⟩,
   ⟨{ wAcc with boot := { power := .run }, chain := { addr := 3, upLock := true, downLock := true } }, .upstream, { dest := 255, src := 9, type := 4, ftag := 4, payload := [4, 0] }, by decide +kernel⟩,
   ⟨{ wAcc with boot := { power := .run }, chain := { addr := 3, upLock := true, downLock := true } }, .upstream, { dest := 9, src := 9, type := 0x10, ftag := 4, payload := [] }, by decide +kernel⟩⟩

set_option maxRecDepth 1000000 in
/-- The hypotheses on `mgmtCmdRx` are met. -/
theorem met_mgmtCmdRx :
    ∃ (s : State) (u : State) (src : ArrSrc) (h : FabHdr) (mh : MgmtHdr) (body : List Byte), agentTaken s 0x10 = some (u, src, h, mh, body) := by
  have k : (agentTaken (wAgent 0x10 [0, 0, 1, 0, 0, 0, 0, 0]) 0x10).any (fun ((u, src, h, mh, body) : _) => true) = true := by decide +kernel
  obtain ⟨⟨u, src, h, mh, body⟩, ee, hh⟩ := exists_of_any k
  simp only [Bool.and_eq_true, decide_eq_true_eq] at hh
  exact ⟨wAgent 0x10 [0, 0, 1, 0, 0, 0, 0, 0], u, src, h, mh, body, ee⟩

set_option maxRecDepth 1000000 in
/-- The hypotheses on `mgmtRespRx` are met. -/
theorem met_mgmtRespRx :
    ∃ (s : State) (u : State) (src : ArrSrc) (h : FabHdr) (mh : MgmtHdr) (body : List Byte) (x : Nat × SentFor), (molzuUp s = true) ∧ (agentTaken s 0x11 = some (u, src, h, mh, body)) ∧ (u.grp.sent.find? (fun x => x.1 == mh.mtag) = some x) := by
  have k : (agentTaken ({ wAgent 0x11 [0, 0, 0, 0, 0, 0, 0, 0] with grp := { (wAgent 0x11 [0, 0, 0, 0, 0, 0, 0, 0]).grp with sent := [(5, .relay 1 2)] } }) 0x11).any (fun ((u, src, h, mh, body) : _) => (let x := ((5, .relay 1 2) : Nat × SentFor); decide (u.grp.sent.find? (fun x => x.1 == mh.mtag) = some x))) = true := by decide +kernel
  obtain ⟨⟨u, src, h, mh, body⟩, ee, hh⟩ := exists_of_any k
  simp only [Bool.and_eq_true, decide_eq_true_eq] at hh
  exact ⟨{ wAgent 0x11 [0, 0, 0, 0, 0, 0, 0, 0] with grp := { (wAgent 0x11 [0, 0, 0, 0, 0, 0, 0, 0]).grp with sent := [(5, .relay 1 2)] } }, u, src, h, mh, body, ((5, .relay 1 2) : Nat × SentFor), by decide +kernel, ee, by simpa [and_assoc] using hh⟩

set_option maxRecDepth 1000000 in
/-- The hypotheses on `mgmtEventRx` are met. -/
theorem met_mgmtEventRx :
    ∃ (s : State) (u : State) (src : ArrSrc) (h : FabHdr) (mh : MgmtHdr) (body : List Byte), (molzuUp s = true) ∧ (agentTaken s 0x12 = some (u, src, h, mh, body)) := by
  have k : (agentTaken (wAgent 0x12 (List.replicate 32 0)) 0x12).any (fun ((u, src, h, mh, body) : _) => true) = true := by decide +kernel
  obtain ⟨⟨u, src, h, mh, body⟩, ee, hh⟩ := exists_of_any k
  simp only [Bool.and_eq_true, decide_eq_true_eq] at hh
  exact ⟨wAgent 0x12 (List.replicate 32 0), u, src, h, mh, body, by decide +kernel, ee⟩

set_option maxRecDepth 1000000 in
/-- The hypotheses on `mgmtDistRx` are met. -/
theorem met_mgmtDistRx :
    ∃ (s : State) (u : State) (src : ArrSrc) (h : FabHdr) (mh : MgmtHdr) (body : List Byte), agentTaken s 0x13 = some (u, src, h, mh, body) := by
  have k : (agentTaken (wAgent 0x13 [0, 0, 1, 0, 0, 1, 1]) 0x13).any (fun ((u, src, h, mh, body) : _) => true) = true := by decide +kernel
  obtain ⟨⟨u, src, h, mh, body⟩, ee, hh⟩ := exists_of_any k
  simp only [Bool.and_eq_true, decide_eq_true_eq] at hh
  exact ⟨wAgent 0x13 [0, 0, 1, 0, 0, 1, 1], u, src, h, mh, body, ee⟩

/-- Every hypothesis of `Obligations.GroupManagementCommandsComplete` is met somewhere. -/
theorem witness_GroupManagementCommandsComplete :
    (∃ (s : State) (u : State) (src : ArrSrc) (h : FabHdr) (mh : MgmtHdr) (body : List Byte), agentTaken s 0x10 = some (u, src, h, mh, body)) ∧
    (∃ (s : State) (u : State) (src : ArrSrc) (h : FabHdr) (mh : MgmtHdr) (body : List Byte) (x : Nat × SentFor), (molzuUp s = true) ∧ (agentTaken s 0x11 = some (u, src, h, mh, body)) ∧ (u.grp.sent.find? (fun x => x.1 == mh.mtag) = some x)) ∧
    (∃ (s : State) (u : State) (src : ArrSrc) (h : FabHdr) (mh : MgmtHdr) (body : List Byte), (molzuUp s = true) ∧ (agentTaken s 0x12 = some (u, src, h, mh, body))) ∧
    (∃ (s : State) (u : State) (src : ArrSrc) (h : FabHdr) (mh : MgmtHdr) (body : List Byte), agentTaken s 0x13 = some (u, src, h, mh, body)) ∧
    (∃ (s : State), (molzuUp s = true) ∧ ((s.grp.manager || s.grp.candidate) = true) ∧ (s.routes.fea.isSome = true)) ∧
    (∃ (s : State) (u : State), (s.grp.manager = false) ∧ ((followed (forget s)).isSome = false) ∧ (s.grp.lostRec = false) ∧ (u = recordEv { (forget s) with grp := { (forget s).grp with lostRec := true } } .groupMgrLost svcDie ((followed s).getD 0).toNat)) ∧
    (∃ (s : State), (s.grp.candidate = true) ∧ ((forget s).grp.heard.any (fun h => decide (h.fea.toNat < (routerFea s 15).toNat)) = false)) ∧
    (∃ (s : State), (molzuUp s = true) ∧ (s.grp.manager = true) ∧ (s.grp.yielded = false) ∧ (s.routes.fea.isSome = true) ∧ (walking s = false)) ∧
    (∃ (s : State) (m ftag tag : Nat), s.grp.sent.find? (fun x => x.1 == m) = some (m, .relay ftag tag)) ∧
    (∃ (s : State), (s.grp.isolated = false) ∧ (s.boot.power = .run) ∧ ((portsOf s).any (fun p => runsLink s p && (s.port p).link == .active) = false)) :=
  ⟨met_mgmtCmdRx,
   met_mgmtRespRx,
   met_mgmtEventRx,
   met_mgmtDistRx,
   ⟨{ State.reset with boot := { fwReady := true }, grp := { manager := true }, routes := { fea := some 1 } }, by decide +kernel⟩,
   ⟨State.reset, recordEv { (forget State.reset) with grp := { (forget State.reset).grp with lostRec := true } } .groupMgrLost svcDie ((followed State.reset).getD 0).toNat, by decide +kernel⟩,
   ⟨{ State.reset with grp := { candidate := true } }, by decide +kernel⟩,
   ⟨{ State.reset with boot := { fwReady := true }, grp := { manager := true }, routes := { fea := some 1 } }, by decide +kernel⟩,
   ⟨{ State.reset with grp := { sent := [(5, .relay 1 2)] } }, 5, 1, 2, by decide +kernel⟩,
   ⟨{ State.reset with boot := { power := .run } }, by decide +kernel⟩⟩

/-- Every hypothesis of `Obligations.BoardInterfaceCommandsComplete` is met somewhere. -/
theorem witness_BoardInterfaceCommandsComplete :
    (∃ (s : State) (off : Nat) (v : Word32) (ok : Bool), (recorderRuns s = true) ∧ ((s.pins.i3c.isNone && !ok) = false)) ∧
    (∃ (s : State) (off : Nat), recorderRuns s = true) ∧
    (∃ (s : State) (a : Nat), recorderRuns s = true) ∧
    (∃ (s : State), (recorderRuns s = true) ∧ (s.pins.i3c = none) ∧ (alertAsserted s = true)) ∧
    (∃ (s : State), s.boot.power ≠ .off) ∧
    (∃ (s : State) (dr : BitVec 59), (jtagRuns s = true) ∧ (dr.getLsbD 56 = false)) ∧
    (∃ (s : State) (dr : BitVec 59), (jtagRuns s = true) ∧ (dr.getLsbD 56 = true)) :=
  ⟨⟨{ wAcc with boot := { power := .run } }, 0, 0, true, by decide +kernel⟩,
   ⟨{ wAcc with boot := { power := .run } }, 0, by decide +kernel⟩,
   ⟨{ wAcc with boot := { power := .run } }, 9, by decide +kernel⟩,
   ⟨{ State.reset with boot := { power := .run }, insts := { dflt := {}, cells := [(0x022, { cause := 1, mask := 0 })] } }, by decide +kernel⟩,
   ⟨State.reset, by decide +kernel⟩,
   ⟨{ wAcc with boot := { power := .run } }, 0, by decide +kernel⟩,
   ⟨{ wAcc with boot := { power := .run } }, 0x100000000000000, by decide +kernel⟩⟩

/-- Every hypothesis of `Obligations.IdleStepLetsOneNanosecondPass` is met somewhere. -/
theorem witness_IdleStepLetsOneNanosecondPass :
    (∃ (s : State), s.pending = []) ∧
    (∃ (s : State), s.pending = [] ∧ portsOf s = [] ∧ s.ep = {} ∧ ∀ (q : Nat), (s.quad q).pageInWait = []) ∧
    (∃ (s : State), s.pending = [] ∧ portsOf s = [] ∧ s.ep = {} ∧ (∀ (q : Nat), (s.quad q).pageInWait = []) ∧ timeRuns s = true ∧ s.tu.rate = 0 ∧ s.clk.sub = 0 ∧ s.tu.st ≠ .source) ∧
    (∃ (s : State) (p : Nat), (s.port p).mapOpen = true ∧ (s.port p).mapAt + roundNs s p ≤ s.clk.now) :=
  ⟨⟨State.reset, rfl⟩,
   ⟨State.reset, rfl, rfl, rfl, fun _ => rfl⟩,
   ⟨wBoot { started := true, pll := true }, rfl, rfl, rfl, fun _ => rfl, rfl, rfl, rfl, by decide⟩,
   ⟨{ (wPort (fun x => { active0 x with mapOpen := true, rxMap := 1 })) with clk := { State.reset.clk with now := 1000000 } }, 0, by decide +kernel, by decide +kernel⟩⟩

/-- Every hypothesis of `Obligations.EveryStepKeepsTheInvariant` is met somewhere. -/
theorem witness_EveryStepKeepsTheInvariant :
    ∃ (s t : State), Inv s ∧ step s = .next t :=
  ⟨State.reset, tick State.reset, by decide +kernel, rfl⟩

/-- Every hypothesis of `Obligations.WornAndVoidedStaysSo` is met somewhere. -/
theorem witness_WornAndVoidedStaysSo :
    ∃ (s t : State), Inv s ∧ step s = .next t ∧ s.life.void = true :=
  ⟨{ State.reset with life := { void := true }, lifePart := { void := true } }, tick { State.reset with life := { void := true }, lifePart := { void := true } }, by decide +kernel, rfl, rfl⟩

/-- Every hypothesis of `Obligations.CommandsTouchNeitherQueueNorElapsedTime` is met somewhere. -/
theorem witness_CommandsTouchNeitherQueueNorElapsedTime :
    (∃ (c : Instr) (s t : State), exec c s = .next t) ∧
    (∃ (s t : State), step s = .next t) :=
  ⟨⟨.flashReqAssert, State.reset, { State.reset with boot := { State.reset.boot with flashReq := true } }, rfl⟩,
   ⟨State.reset, tick State.reset, rfl⟩⟩

/-- Every hypothesis of `Obligations.OnlySettingCommandsChangeSettings` is met somewhere. -/
theorem witness_OnlySettingCommandsChangeSettings :
    ∃ (c : Instr) (s t : State), settingCmd c = false ∧ exec c s = .next t :=
  ⟨.linkGraceExpire 3, State.reset, State.reset, rfl, rfl⟩

/-- Every hypothesis of `Obligations.EndpointEnginesLeaveTheFabricSide` is met somewhere. -/
theorem witness_EndpointEnginesLeaveTheFabricSide :
    ∃ (c : Instr) (s t : State), hostSideCmd c = true ∧ exec c s = .next t :=
  ⟨.doorbellPoll 5, State.reset, State.reset, rfl, rfl⟩

/-- Every hypothesis of `Obligations.LinksLeaveHostsAndControl` is met somewhere. -/
theorem witness_LinksLeaveHostsAndControl :
    (∃ (c : Instr) (s t : State), linkSideCmd c = true ∧ exec c s = .next t) ∧
    (∃ (c : Instr) (s t : State), linkAdoptCmd c = true ∧ exec c s = .next t) :=
  ⟨⟨.linkGraceExpire 3, State.reset, State.reset, rfl, rfl⟩,
   ⟨.routeBankAdopt, State.reset, State.reset, rfl, rfl⟩⟩

/-- Every hypothesis of `Obligations.CommandsCompleteUnlessTheyNameNothing` is met somewhere. -/
theorem witness_CommandsCompleteUnlessTheyNameNothing :
    (∃ (c : Instr) (s : State), c.wf = true ∧ present s c = true) ∧
    (∃ (c : Instr) (s : State), (c.wf && present s c) = false) :=
  ⟨⟨.flr 0x100, State.reset, by decide +kernel, by decide +kernel⟩,
   ⟨.flr 0x500, State.reset, by decide +kernel⟩⟩

/-- Every hypothesis of `Obligations.WaitingCommandsGoInOrder` is met somewhere. -/
theorem witness_WaitingCommandsGoInOrder :
    ∃ (k : Nat) (s t : State), k ≤ s.pending.length ∧ runSteps k s = some t :=
  ⟨1, { State.reset with pending := [.linkGraceExpire 3] }, State.reset, by decide, rfl⟩

/-- Every hypothesis of `Obligations.FramesOfStartsBoardAndChain` is met somewhere: each command completes in the reset state. -/
theorem witness_FramesOfStartsBoardAndChain :
    ∀ c ∈ ([.rootPllLock, .bootRomConfigRead true, .serviceDieSelfTest, .quadrantPowerUp 0,
      .quadrantArraySelfTest, .hbmTraining, .molzuStart true, .hbmClearing,
      .laneCalibration, .quadrantInitialisation, .fwReadySet, .warmRstNAssert,
      .watchdogExpire, .antiRollbackRaise, .configRequest (⟨0x100, none⟩), .flashReqAssert,
      .flashGntAssert, .flashReqDeassert, .fwUpdateIdleTimeout, .chainPortLock .upstream,
      .enumAck .upstream { dest := 0, src := 0, type := 0, ftag := 0, payload := [] }, .heartbeat .upstream { dest := 0, src := 0, type := 0, ftag := 0, payload := [] }, .heartbeatSend, .joinReq .upstream { dest := 0, src := 0, type := 0, ftag := 0, payload := [] },
      .joinReqSend, .statusRsp .upstream { dest := 0, src := 0, type := 0, ftag := 0, payload := [] }, .regRsp .upstream { dest := 0, src := 0, type := 0, ftag := 0, payload := [] }, .mbRsp .upstream { dest := 0, src := 0, type := 0, ftag := 0, payload := [] },
      .event .upstream { dest := 0, src := 0, type := 0, ftag := 0, payload := [] }, .chainBadFrame .upstream { dest := 0, src := 0, type := 0, ftag := 0, payload := [] }, .chainCrcFail .upstream { dest := 0, src := 0, type := 0, ftag := 0, payload := [] }, .lifeHourlyWrite,
      .thermalTrip 0, .i3cAddressAssign 0, .i3cRstdaa, .smbusAlertResponse,
      .trstNAssert, .idcode, .samplePreload, .extest,
      .extestPulse, .extestTrain, .clamp, .highz,
      .bypass, .perstNDeassert 0, .spdmRequest 0 0] : List Instr),
      ∃ t, exec c State.reset = .next t :=
  completes_of_all (by decide +kernel)

/-- Every hypothesis of `Obligations.FramesOfLanesPortsAndPowerSteps` is met somewhere: each command completes in the reset state. -/
theorem witness_FramesOfLanesPortsAndPowerSteps :
    ∀ c ∈ ([.quadUngateTrained 0, .eqxExchangeStart 0, .timeReqRx 0 (⟨{ seq := 0, ackSeq := 0 }, {}⟩), .eqxIntervalEnd 0,
      .ppsInEdge, .octetPllRelock 0, .codewordRx 0 none, .retryWaitExpire 0,
      .idleEnterExpire 0, .idleSequenceSent 0, .partnerIdleRx 0, .eidleRefreshExpire 0,
      .exitBurstDone 0, .startOfStreamRx 0, .adaptationPass 0 0 0 0 0, .calibCoeffWrite 0,
      .prbsCheckerLock 0, .prbsCheckerLoss 0 0 0, .errInjectFire 0, .laneDropEnd 0,
      .ltbBadRx 0 true, .heldIntervalExpire 0 0, .sharedGrantAdjust 0, .drainComplete 0,
      .loadHintSend 0, .packetDeparted 0, .gateWakeLead 0, .holdoverMaxExpire 0,
      .pstepAckRise 0, .noticeLeadExpire 0, .pstepStepDone 0, .ppsOutEdge,
      .signalDetect 0, .pstepAckFall 0] : List Instr),
      ∃ t, exec c State.reset = .next t :=
  completes_of_all (by decide +kernel)

/-- Every hypothesis of `Obligations.FramesOfHostsQueuesAndCoherence` is met somewhere: each command completes in the reset state. -/
theorem witness_FramesOfHostsQueuesAndCoherence :
    ∀ c ∈ ([.perstNAssert 0, .hostLinkDown 0, .hostLinkUp 0 0 0, .busMasterEnableClear 0x100,
      .flr 0x100, .lateCompletion 0x100, .quadPortsDrained 0, .aqCreateQp 0x100 [],
      .aqCreateSrq 0x100 [], .aqCreateCq 0x100 [], .aqDestroyCq 0x100, .aqCreateEq 0x100,
      .aqDestroyEq 0x100, .aqCreatePd 0x100, .aqDestroyPd 0x100, .doorbellPoll 0,
      .emptyPollLimit 0, .headRecordWrite 0, .cqHeadReread 0, .numberQuarantineEnd 0 0,
      .idleWriteback 0 (⟨0, 0, 0⟩), .getS 0 (⟨0, 0, 0⟩), .getM 0 (⟨0, 0, 0⟩), .upgrade 0 (⟨0, 0, 0⟩),
      .put 0 (⟨0, 0, 0⟩), .putClean 0 (⟨0, 0, 0⟩), .fwdS 0 0 (⟨0, 0, 0⟩), .fwdM 0 0 (⟨0, 0, 0⟩),
      .inv 0 0 (⟨0, 0, 0⟩), .cohAck 0 (⟨0, 0, 0⟩), .putAck 0 (⟨0, 0, 0⟩), .grant 0 (⟨0, 0, 0⟩) 0,
      .hostSnoop 0 (⟨0, 0, 0⟩) true, .patrolPassStart 0, .busMasterEnableSet 0x100] : List Instr),
      ∃ t, exec c State.reset = .next t :=
  completes_of_all (by decide +kernel)

/-- Every hypothesis of `Obligations.FramesOfRegistersTimersAndManagement` is met somewhere: each command completes in the reset state. -/
theorem witness_FramesOfRegistersTimersAndManagement :
    ∀ c ∈ ([.flrComplete 0x100, .statusCauseWrite 0x100 0, .statusMaskWrite 0x100 0, .msixUnmask 0x100 none,
      .aqSqTailWrite 0x100 0, .aqCqHeadWrite 0x100 0, .aqEnableSet 0x100 true, .aqEnableClear 0x100 true,
      .aqCommandFetch 0x100 (⟨none, true⟩), .stagingIdleTimeout true, .nonceExpire, .aqInvalidate 0x100,
      .aqSetQuota 0x100, .aqQueryQuota 0x100, .routeBankAdopt, .snapshotTake,
      .counterFoldDone, .interruptHoldoffEnd 0x100 0, .atsInvalidateRequest 0x100 0 0, .mgmtCmdRx,
      .announceSend, .mgrLossTmoExpire] : List Instr),
      ∃ t, exec c State.reset = .next t :=
  completes_of_all (by decide +kernel)

/-- Every hypothesis of `Obligations.AccessTablesDecideByTheLowestMatch` is met somewhere. -/
theorem witness_AccessTablesDecideByTheLowestMatch :
    (∃ (s : State) (c : MbCmd) (rights : List (Nat × Bool)) (k : State → MbAns), s.boot.safe = false ∧ c.payload.length = c.len ∧ c.len ≤ 4088 ∧ c.flags ≤ 1 ∧ lacking s c.m rights ≠ []) ∧
    (∃ (s : State) (c : MbCmd) (rights : List (Nat × Bool)) (k : State → MbAns), s.boot.safe = false ∧ c.payload.length = c.len ∧ c.len ≤ 4088 ∧ c.flags ≤ 1 ∧ lacking s c.m rights = []) :=
  ⟨⟨State.reset, { m := 0x100, op := 0x0101, tag := 0, len := 0, flags := 0, payload := [], at_ := 0 }, [(0, true)], ansOk, rfl, rfl, by decide, by decide, by decide +kernel⟩,
   ⟨State.reset, { m := 0x100, op := 0x0101, tag := 0, len := 0, flags := 0, payload := [], at_ := 0 }, [], ansOk, rfl, rfl, by decide, by decide, rfl⟩⟩

/-- Every hypothesis of `Obligations.CountersWrapAndCountAlone` is met somewhere. -/
theorem witness_CountersWrapAndCountAlone :
    (∃ (sc : Scope) (i k : Nat) (c : Cn), k ≠ ctrKey sc i (placeOf c sc.counters)) ∧
    (∃ (n : Nat), n < 2 ^ 64) :=
  ⟨⟨.port, 3, 0, .ltbRx, by decide +kernel⟩,
   ⟨2 ^ 64 - 1, by decide⟩⟩

/-- Every hypothesis of `Obligations.SnapshotsFreezeAndFoldingRestores` is met somewhere. -/
theorem witness_SnapshotsFreezeAndFoldingRestores :
    (∃ (s : State), s.ctrs.wf = true ∧ s.ctrs.dflt = {}) ∧
    (∃ (s : State), s.ctrs.wf = true ∧ s.ctrs.dflt = {} ∧ s.snap.folded = false) ∧
    (∃ (s : State) (k : Nat), s.ctrs.wf = true ∧ s.ctrs.dflt = {} ∧ isMaxKey k = false) ∧
    (∃ (s : State), s.ctrs.wf = true) :=
  ⟨⟨count State.reset .port 3 .ltbRx, by decide +kernel, by decide +kernel⟩,
   ⟨flipBanks (count State.reset .port 3 .ltbRx), by decide +kernel, by decide +kernel, rfl⟩,
   ⟨count State.reset .port 3 .ltbRx, ctrKey .port 3 (placeOf .ltbRx portCounters), by decide +kernel, by decide +kernel, by decide +kernel⟩,
   ⟨State.reset, by decide +kernel⟩⟩

/-- Every hypothesis of `Obligations.RecordNumbersRunOn` is met somewhere. -/
theorem witness_RecordNumbersRunOn :
    (∃ (s : State), s.recd.buf.length ≤ 2048) ∧
    (∃ (q : Nat), q < 4) :=
  ⟨⟨State.reset, by decide⟩,
   ⟨3, by decide⟩⟩

/-- Every hypothesis of `Obligations.ShapersAndPolicersFollowTheirRules` is met somewhere. -/
theorem witness_ShapersAndPolicersFollowTheirRules :
    (∃ (h : Shaper), h.rate ≠ 0) ∧
    (∃ (c : Policer) (dp : Nat), c.enable = true ∧ dp < 4) ∧
    (∃ (c : Policer), c.enable = false) :=
  ⟨⟨{ rate := 1000, burst := 4096, at_ := 0 }, by decide⟩,
   ⟨{ enable := true, aware := true }, 3, rfl, by decide⟩,
   ⟨{}, rfl⟩⟩

/-- Every hypothesis of `Obligations.LtbsOutOfOrderHaveNoEffect` is met somewhere. -/
theorem witness_LtbsOutOfOrderHaveNoEffect :
    (∃ (s : State) (p : Nat) (h : LtbHdr), LinkOpen s p ∧ Unmarked s p h ∧ h.seq ≠ ((ltbTaken s p h).port p).ackSeq + 1) ∧
    (∃ (s : State) (p : Nat) (h : LtbHdr), LinkOpen s p ∧ ¬ Unmarked s p h) :=
  ⟨⟨{ State.reset with ports := State.reset.ports.set 8 { role := 0, exists_ := true, width := 3, link := .active } }, 8, { seq := 7, ackSeq := 0xFFFF }, by decide +kernel, by decide +kernel⟩,
   ⟨lane0 (fun x => { x with marks := [true] }) (wPort active0), 0, { ltb1 with draws := [0] }, by decide +kernel, by decide +kernel⟩⟩

/-- Every hypothesis of `Obligations.TaggedKeysMatchByTheThreeConditions` is met somewhere. -/
theorem witness_TaggedKeysMatchByTheThreeConditions :
    (∃ (s : State) (r : Srq) (srq : Nat) (m : TagMsg) (p : Posted), s.ep.srqs.wf = true ∧ s.ep.srqs.dflt = none ∧ getSrq s srq = some r ∧ matchPosted s r srq m = some p) ∧
    (∃ (s : State) (r : Srq) (srq : Nat), s.ep.srqs.wf = true ∧ s.ep.srqs.dflt = none ∧ getSrq s srq = some r) :=
  ⟨⟨wSrq srqTag, srqTag, 9, wTag, wPost 7 0, by decide +kernel, rfl, rfl, by decide +kernel⟩,
   ⟨wSrq srqTag, srqTag, 9, by decide +kernel, rfl, rfl⟩⟩

/-- Every hypothesis of `Obligations.MatchingTakesTheEarliestPostedReceive` is met somewhere. -/
theorem witness_MatchingTakesTheEarliestPostedReceive :
    (∃ (s : State) (r : Srq) (srq : Nat), s.ep.srqs.wf = true ∧ s.ep.srqs.dflt = none ∧ getSrq s srq = some r ∧ r.posted.Pairwise (fun a b => stampBefore a.stamp b.stamp = true ∧ a.ord < b.ord)) ∧
    (∃ (s : State) (r : Srq) (srq : Nat) (m : TagMsg) (p x : Posted), s.ep.srqs.wf = true ∧ s.ep.srqs.dflt = none ∧ getSrq s srq = some r ∧ r.posted.Pairwise (fun a b => stampBefore a.stamp b.stamp = true ∧ a.ord < b.ord) ∧ matchPosted s r srq m = some p ∧ x ∈ r.posted ∧ matches_ x m = true) ∧
    (∃ (a b : BitVec 48), stampBefore a b = true) :=
  ⟨⟨wSrq srqTag, srqTag, 9, by decide +kernel, rfl, rfl, by decide +kernel⟩,
   ⟨wSrq srqTag, srqTag, 9, wTag, wPost 7 0, { wPost 7 1 with ord := 1 }, by decide +kernel, rfl, rfl, by decide +kernel, by decide +kernel, by decide +kernel, by decide +kernel⟩,
   ⟨2 ^ 48 - 1, 0, by decide⟩⟩

/-- Every hypothesis of `Obligations.RateCorrectionStaysInRange` is met somewhere. -/
theorem witness_RateCorrectionStaysInRange :
    (∃ (s t : State) (p : Nat), RateOk s ∧ exec (.eqxExchangeStart p) s = .next t) ∧
    (∃ (s t : State) (p : Nat) (m : TimeLtb), RateOk s ∧ exec (.timeReqRx p m) s = .next t) ∧
    (∃ (s t : State) (p : Nat) (m : TimeLtb), RateOk s ∧ exec (.timeRespRx p m) s = .next t) ∧
    (∃ (s t : State) (p : Nat) (m : TimeLtb), RateOk s ∧ exec (.timeReportRx p m) s = .next t) ∧
    (∃ (s t : State) (p : Nat) (m : TimeLtb), RateOk s ∧ exec (.timeAnnounceRx p m) s = .next t) ∧
    (∃ (s t : State), RateOk s ∧ exec .timeLockGained s = .next t) ∧
    (∃ (s t : State) (p : Nat), RateOk s ∧ exec (.eqxIntervalEnd p) s = .next t) ∧
    (∃ (s t : State), RateOk s ∧ exec .timeMissLimit s = .next t) ∧
    (∃ (s t : State), RateOk s ∧ exec .timeStepApply s = .next t) ∧
    (∃ (s t : State), RateOk s ∧ exec .ppsInEdge s = .next t) ∧
    (∃ (s t : State), RateOk s ∧ exec .ppsLossTimeout s = .next t) ∧
    (∃ (s t : State), RateOk s ∧ exec .sourceWaitExpire s = .next t) ∧
    (∃ (s t : State), RateOk s ∧ exec .ppsOutEdge s = .next t) :=
  ⟨⟨State.reset, _, 0, by decide +kernel, rfl⟩,
   ⟨State.reset, _, 0, ⟨{ seq := 0, ackSeq := 0 }, {}⟩, by decide +kernel, rfl⟩,
   ⟨State.reset, _, 0, ⟨{ seq := 0, ackSeq := 0 }, {}⟩, by decide +kernel, rfl⟩,
   ⟨State.reset, _, 0, ⟨{ seq := 0, ackSeq := 0 }, {}⟩, by decide +kernel, rfl⟩,
   ⟨State.reset, _, 0, ⟨{ seq := 0, ackSeq := 0 }, {}⟩, by decide +kernel, rfl⟩,
   ⟨State.reset, _, by decide +kernel, rfl⟩,
   ⟨State.reset, _, 0, by decide +kernel, rfl⟩,
   ⟨State.reset, _, by decide +kernel, rfl⟩,
   ⟨State.reset, _, by decide +kernel, rfl⟩,
   ⟨State.reset, _, by decide +kernel, rfl⟩,
   ⟨State.reset, State.reset, by decide +kernel, by simp only [exec, execPpsLossTimeout]; exact if_pos (by decide +kernel)⟩,
   ⟨State.reset, _, by decide +kernel, rfl⟩,
   ⟨State.reset, _, by decide +kernel, rfl⟩⟩

/-! ### The well-formedness checks refuse what is out of range -/

/-- One ill-formed command for every check of every command, a number just out of its range: part 1 of 4. -/
theorem test_ill_formed_are_refused_1 :
    ([.quadrantPowerUp 4,
      .perstNAssert 8,
      .hostLinkDown 16,
      .hostLinkUp 16 0 0,
      .configRequest ⟨0x500, none⟩,
      .busMasterEnableClear 0x500,
      .flr 0x500,
      .flrComplete 0x500,
      .lateCompletion 0x500,
      .registerWrite 4096 0x034 [],
      .windowRead 4096 0x034 0,
      .statusCauseWrite 4096 0,
      .statusMaskWrite 4096 0,
      .msixUnmask 0x500 none,
      .mailboxDoorbell 4096 0,
      .nudgeWrite 0x500 0,
      .nudgeWrite 0x100 8388608,
      .aqSqTailWrite 0x500 0,
      .aqCqHeadWrite 0x500 0,
      .aqEnableSet 0x500 true,
      .aqEnableClear 0x500 true,
      .aqCommandFetch 0x500 ⟨none, true⟩,
      .timeFtLoRead 4096,
      .snapCtrlArm 4096,
      .snapCtrlCancel 4096,
      .eventData7Read 4096,
      .counterLoRead 4096 0,
      .counterLoRead 0x22 510,
      .laneCfgWrite 4096 0,
      .octetTimersWrite 4096 0,
      .portSharedLimitsWrite 4096 0,
      .hostBackingWrite 4096 0x034 0,
      .hostBackingWrite 0x22 0x030 0,
      .quadPortsDrained 4,
      .quadRehomeDone 4,
      .quadGateDone 4,
      .quadUngateTrained 4,
      .aqCreateQp 0x500 [],
      .aqModifyQp 0x500,
      .aqDestroyQp 0x500,
      .aqCreateSrq 0x500 [],
      .aqDestroySrq 0x500,
      .aqCreateCq 0x500 [],
      .aqDestroyCq 0x500,
      .aqCreateEq 0x500,
      .aqDestroyEq 0x500] : List Instr).all (fun c => !c.wf) = true := by decide +kernel

/-- One ill-formed command for every check of every command, a number just out of its range: part 2 of 4. -/
theorem test_ill_formed_are_refused_2 :
    ([.aqCreatePd 0x500,
      .aqDestroyPd 0x500,
      .aqRegisterWindow 0x500 [],
      .aqRevokeWindow 0x500,
      .aqInvalidate 0x500,
      .aqAbort 0x500,
      .aqSetQuota 0x500,
      .aqQueryQuota 0x500,
      .almanacBankAdopt 512,
      .eqxExchangeStart 512,
      .timeReqRx 512 ⟨{ seq := 0, ackSeq := 0 }, {}⟩,
      .timeRespRx 512 ⟨{ seq := 0, ackSeq := 0 }, {}⟩,
      .timeReportRx 512 ⟨{ seq := 0, ackSeq := 0 }, {}⟩,
      .timeAnnounceRx 512 ⟨{ seq := 0, ackSeq := 0 }, {}⟩,
      .eqxIntervalEnd 512,
      .octetPllUnlock 64,
      .octetPllRelock 64,
      .refclkNetLost 4,
      .codewordRx 512 none,
      .fecLockGained 512 true,
      .fecLockLost 512,
      .lossOfSignal 512,
      .noLockTimerExpire 512,
      .retryWaitExpire 512,
      .retrainTmoExpire 512,
      .idleEnterExpire 512,
      .idleSequenceSent 512,
      .partnerIdleRx 512,
      .eidleRefreshExpire 512,
      .exitBurstDone 512,
      .startOfStreamRx 512,
      .wakeAlignTmoExpire 512,
      .adaptationPass 512 0 0 0 0,
      .calibCoeffWrite 512,
      .prbsCheckerLock 512,
      .prbsCheckerLoss 512 0 0,
      .errInjectFire 512,
      .laneDropEnd 512,
      .ltbLockGained 512,
      .ltbLockLost 512,
      .ltbBadRx 512 true,
      .ltbIdleRx 512 { seq := 0, ackSeq := 0 },
      .ltbDataRx 512 { seq := 0, ackSeq := 0 } [] 0,
      .edgeRunLimit 512 0,
      .ltbCtrlCreditRx 512 { seq := 0, ackSeq := 0 } 0,
      .ltbCtrlLinkDownRx 512 { seq := 0, ackSeq := 0 } 0] : List Instr).all (fun c => !c.wf) = true := by decide +kernel

/-- One ill-formed command for every check of every command, a number just out of its range: part 3 of 4. -/
theorem test_ill_formed_are_refused_3 :
    ([.ltbCtrlReservedRx 512 { seq := 0, ackSeq := 0 },
      .ltbInitRx 512 0 { seq := 0, ackSeq := 0 } {},
      .ltbInitRx 0 8 { seq := 0, ackSeq := 0 } {},
      .ltbLaneMapRx 512 { seq := 0, ackSeq := 0 } 0 0 true,
      .ltbLoadHintRx 512 { seq := 0, ackSeq := 0 } {},
      .trainWaitExpire 512,
      .initTmoExpire 512,
      .initRepeat 512,
      .initPoolRetry 512,
      .heldIntervalExpire 512 0,
      .heldIntervalExpire 0 16,
      .creditTmoExpire 512 0,
      .creditTmoExpire 0 16,
      .sharedGrantAdjust 512,
      .replayTmoExpire 512,
      .replayLimit 512,
      .linkGraceExpire 512,
      .drainComplete 512,
      .linkDownWaitEnd 512,
      .loadHintSend 512,
      .packetArrival ((.net 512)),
      .packetArrival ((.coll 4)),
      .packetArrival ((.host 16)),
      .egressPacketStart 512,
      .packetDeparted 512,
      .almanacEntryChange 512,
      .gateWakeLead 512,
      .holdoverMaxExpire 512,
      .queueServiceTurn 4,
      .interruptHoldoffEnd 0x500 0,
      .writeRx 16,
      .writeCountRx 16,
      .readReqRx 16,
      .readRespRx 16,
      .sendRx 16,
      .atomicReqRx 16,
      .hostAtomicComplete 16 none,
      .atomicRespRx 16,
      .ackRx 16,
      .atsInvalidateRequest 0x500 0 0,
      .numberQuarantineEnd 2 0,
      .tagEagerRx 16,
      .tagRtsRx 16,
      .tagFinRx 16,
      .upRx 4,
      .opalBlockDone 4 0 0 0] : List Instr).all (fun c => !c.wf) = true := by decide +kernel

/-- One ill-formed command for every check of every command, a number just out of its range: part 4 of 4. -/
theorem test_ill_formed_are_refused_4 :
    ([.downRx 4,
      .treeCreditRx 4,
      .treeAbortRx 4,
      .stallTmoExpire 4 0 0,
      .idleWriteback 4 ⟨0, 0, 0⟩,
      .getS 4 ⟨0, 0, 0⟩,
      .getM 4 ⟨0, 0, 0⟩,
      .upgrade 4 ⟨0, 0, 0⟩,
      .put 4 ⟨0, 0, 0⟩,
      .putClean 4 ⟨0, 0, 0⟩,
      .fwdS 4 0 ⟨0, 0, 0⟩,
      .fwdS 0 4 ⟨0, 0, 0⟩,
      .fwdM 4 0 ⟨0, 0, 0⟩,
      .fwdM 0 4 ⟨0, 0, 0⟩,
      .inv 4 0 ⟨0, 0, 0⟩,
      .inv 0 4 ⟨0, 0, 0⟩,
      .cohAck 4 ⟨0, 0, 0⟩,
      .putAck 4 ⟨0, 0, 0⟩,
      .grant 4 ⟨0, 0, 0⟩ 0,
      .cohData 4 ⟨0, 0, 0⟩ 0 0 .ok,
      .cohData 0 ⟨0, 0, 0⟩ 0 5 .ok,
      .hostSnoop 4 ⟨0, 0, 0⟩ true,
      .patrolScrubRead 4 .ok 0,
      .patrolPassStart 4,
      .cacheScrubPass 4 ⟨0, 0, 0⟩ .ok,
      .eventForward 4,
      .mramRemap 6 0,
      .mramRemap 0 2048,
      .telemetrySample 6 [0, 0, 0, 0, 0],
      .telemetrySample 0 [0],
      .thermalTrip 9,
      .railOutOfRange 10 0,
      .railUndervoltage 10 0,
      .pstepAckRise 2,
      .noticeLeadExpire 2,
      .grantHoldExpire 2,
      .pstepStepDone 2,
      .perstNDeassert 8,
      .busMasterEnableSet 0x500,
      .spdmRequest 16 0,
      .signalDetect 512,
      .hostDataReadComplete 16 none,
      .atsTranslationComplete 0x500 0 0 none,
      .cxlCacheOwnershipGranted 16 0,
      .pstepAckFall 2] : List Instr).all (fun c => !c.wf) = true := by decide +kernel

/-- What is refused faults by name and changes nothing. -/
theorem test_ill_formed_fault : exec (.linkGraceExpire 512) State.reset = .fault .noSuchResource := by rfl

/-! ### Small tests; the expected values come from the rules -/

/-- [R186] the check value of CRC-32C over the nine digits. -/
theorem test_crc32c : crc32c ([49, 50, 51, 52, 53, 54, 55, 56, 57].map (BitVec.ofNat 8)) = 0xE3069283 := by decide +kernel
/-- [R218] CRC-16 with polynomial 0x1021 and initial value 0xFFFF over the nine digits. -/
theorem test_crc16 : crc16 ([49, 50, 51, 52, 53, 54, 55, 56, 57].map (BitVec.ofNat 8)) = 0x29B1 := by decide +kernel
/-- [R224] two limited members do not match; a limited and a full one do. -/
theorem test_key_membership : keyMatch 0x1234 0x1234 = false ∧ keyMatch 0x1234 0x9234 = true ∧ keyMatch 0x9234 0x9235 = false := by decide
/-- [R224] the table after reset admits 0x7FFF and 0xFFFF only, and never a key of low bits zero. -/
theorem test_reset_table :
    keyInTable (State.reset.port 0).pkeys 64 0x7FFF = true ∧ keyInTable (State.reset.port 0).pkeys 64 0x8000 = false ∧
      keyInTable (State.reset.port 0).pkeys 64 0xFFFE = false := by decide +kernel
/-- [R114] the lowest matching entry decides, though a later one would grant. -/
theorem test_lowest_entry_denies : granted [accEntry 0x100 0xFFF false false, accEntry 0 0 true true] 0x100 false = false := by decide
/-- [R332] tags agree outside the ignored bits; ANY names every rank. -/
theorem test_wildcard_receive :
    matches_ { wPost 7 0 with rank := 0xFFFFFFFF, ignore := 0xF } { wTag with rank := 9, tag := 0x10 } = true ∧
      matches_ { wPost 7 0 with ignore := 0xF } { wTag with tag := 0x2F } = false := by decide
/-- [R335] stamps compare across the wrap of 48 bits. -/
theorem test_stamp_wraps : stampBefore (BitVec.ofNat 48 (2 ^ 48 - 1)) 0 = true ∧ stampBefore 0 0 = false := by decide
/-- [R250] tokens stop at BURST. -/
theorem test_shaper_burst : ({ rate := 1000, burst := 1000 } : Shaper).tokensAt 100000000 = 8000000 := by decide
/-- [R254] under a policer that is aware, red stays red and takes nothing. -/
theorem test_policer_red :
    (({ enable := true, aware := true, cbs := 9, pbs := 9, tc := 72000, tp := 72000 } : Policer).mark 0 1 3).1 = 2 := by decide
/-- [R474] a counter wraps modulo 2^64. -/
theorem test_counter_wraps :
    counterLive (count (count State.reset .device 0 .eventLost (2 ^ 64 - 1)) .device 0 .eventLost) .device 0 .eventLost = 0 := by decide +kernel
/-- [R89] MASK after reset hides every cause. -/
theorem test_mask_resets : (State.reset.inst 0x100).mask = 0x1FF := by decide
/-- [R92] a select register keeps the width of its field. -/
theorem test_select_width :
    (match exec (.registerWrite 0x22 0x20000 (leBytes 4 0xFFFFFFFF)) State.reset with
     | .next t => (t.master 0x22).portSel
     | _ => 0) = 511 := by decide +kernel
/-- With nothing waiting one nanosecond passes (log 3). -/
theorem test_empty_queue_ticks : (match step State.reset with | .next t => t.clk.now | _ => 0) = 1 := by decide +kernel
/-- The front command is taken and the rest keeps its order. -/
theorem test_queue_order :
    (match step { State.reset with pending := [.linkGraceExpire 3, .linkGraceExpire 4, .linkGraceExpire 5] } with
     | .next t => t.pending
     | _ => []) = [.linkGraceExpire 4, .linkGraceExpire 5] := by decide +kernel
/-- [R186] the fields of an LTB stand at their bytes, most significant first. -/
theorem test_ltb_layout :
    (let l := encLtb { seq := 0x0102, ack := 0x0304, nak := true, credits := [(3, 5)], shared := -2 } .idle
     l.length == 256 && l.take 8 == [1, 2, 3, 4, 0x80, 0xFF, 0x30, 5] && (l.drop 250).take 2 == [0xFF, 0xFE]) = true := by decide +kernel
/-- [R204] a NAK whose ACK_SEQ names no held LTB only acknowledges: nothing is sent again. -/
theorem test_nak_names_nothing :
    (ackIn (wPort (fun x => { active0 x with held := [{ seq := 1 }] })) 0 { ltb1 with ackSeq := 0, nak := true }).out = [] := by decide +kernel
/-- [R167] seven good codewords in a row are no FEC lock. -/
theorem test_fec_lock_needs_eight :
    (match exec (.fecLockGained 0 false) (lane0 (fun x => { x with st := .train, good := 7 }) State.reset) with
     | .next t => (t.lane 0).st
     | _ => .off) = .train := by decide +kernel

end Sys2Proof.Tests
end

section
/-! PROOF. The access tables (R114): which entry decides an access, and when a mailbox command passes the check of its rights. -/

namespace Sys2Proof.Machine

/-! ### The deciding entry of an access table -/

/-- [R114] a valid entry that matches master `m` under its mask. -/
def AccEntry.appliesTo (e : AccEntry) (m : Nat) : Bool := e.valid && (m &&& e.mask) == (e.id &&& e.mask)

/-- [R114] the right an entry carries: WRITE for a write, READ for a read. -/
def AccEntry.carries (e : AccEntry) (w : Bool) : Bool := if w then e.write else e.read

theorem AccEntry.appliesTo_iff (e : AccEntry) (m : Nat) :
    e.appliesTo m = true ↔ e.valid = true ∧ m &&& e.mask = e.id &&& e.mask := by
  simp [AccEntry.appliesTo]

theorem AccEntry.appliesTo_eq_false_iff (e : AccEntry) (m : Nat) :
    e.appliesTo m = false ↔ (e.valid = true → m &&& e.mask ≠ e.id &&& e.mask) := by
  simp [AccEntry.appliesTo]

theorem granted_eq_any_find (es : List AccEntry) (m : Nat) (w : Bool) :
    granted es m w = (es.find? (·.appliesTo m)).any (·.carries w) := by
  unfold granted AccEntry.appliesTo
  split <;> simp [*, AccEntry.carries]

/-- The entry the search stops at is the lowest-numbered one that applies. -/
theorem find_appliesTo_eq_some_iff (es : List AccEntry) (m : Nat) (e : AccEntry) :
    es.find? (·.appliesTo m) = some e ↔
      ∃ i : Nat, es[i]? = some e ∧ e.appliesTo m = true ∧
        ∀ (j : Nat) (d : AccEntry), j < i → es[j]? = some d → d.appliesTo m = false := by
  rw [List.find?_eq_some_iff_getElem]
  constructor
  · rintro ⟨happ, i, hi, rfl, hlow⟩
    refine ⟨i, List.getElem?_eq_getElem hi, happ, fun j d hj hd => ?_⟩
    obtain ⟨_, rfl⟩ := List.getElem?_eq_some_iff.mp hd
    simpa using hlow j hj
  · rintro ⟨i, he, happ, hlow⟩
    obtain ⟨hi, rfl⟩ := List.getElem?_eq_some_iff.mp he
    refine ⟨happ, i, hi, rfl, fun j hj => ?_⟩
    simp [hlow j _ hj (List.getElem?_eq_getElem (hj.trans hi))]

theorem granted_iff_lowest_match (es : List AccEntry) (m : Nat) (w : Bool) :
    granted es m w = true ↔ ∃ (i : Nat) (e : AccEntry), es[i]? = some e ∧ e.valid = true ∧ m &&& e.mask = e.id &&& e.mask ∧
      (if w then e.write else e.read) = true ∧
      ∀ (j : Nat) (d : AccEntry), j < i → es[j]? = some d → d.valid = true → m &&& d.mask ≠ d.id &&& d.mask := by
  simp only [granted_eq_any_find, Option.any_eq_true, find_appliesTo_eq_some_iff, AccEntry.appliesTo_iff,
    AccEntry.appliesTo_eq_false_iff]
  constructor
  · rintro ⟨e, ⟨i, he, ⟨hvalid, hmatch⟩, hlow⟩, hright⟩
    exact ⟨i, e, he, hvalid, hmatch, hright, hlow⟩
  · rintro ⟨i, e, he, hvalid, hmatch, hright, hlow⟩
    exact ⟨e, ⟨i, he, ⟨hvalid, hmatch⟩, hlow⟩, hright⟩

/-! ### The rights of a command -/

theorem lacking_eq_nil_iff (s : State) (m : Nat) (rights : List (Nat × Bool)) :
    lacking s m rights = [] ↔ ∀ r ∈ rights, granted (s.access.get r.1) m r.2 = true := by
  simp [lacking, List.filter_eq_nil_iff, allowed]

section
variable (s : State) (c : MbCmd) (rights : List (Nat × Bool)) (k : State → MbAns)
  (hpay : c.payload.length = c.len) (hlen : c.len ≤ 4088) (hflags : c.flags ≤ 1)
include hpay hlen hflags

/-- [R119] past the checks of LENGTH, FLAGS and fields, the rights come before SAFE mode and the command's own checks. -/
theorem mbChecked_of_wellFormed :
    mbChecked s c true rights k =
      if (lacking s c.m rights).isEmpty then (if s.boot.safe && !safeOpcodes.contains c.op then ansFail s stWRONG_STATE else k s)
      else ansFail ((lacking s c.m rights).foldl (fun s r => denied s c.m r.1) s) stACCESS_DENIED := by
  rw [mbChecked, if_neg (by simp [hpay, hlen, hflags])]

/-- [R114 R118] a command that lacks a right is refused whole: each denial is noted, and its own meaning is not asked. -/
theorem mbChecked_of_lacking (hlack : lacking s c.m rights ≠ []) :
    mbChecked s c true rights k =
      ansFail ((lacking s c.m rights).foldl (fun s r => denied s c.m r.1) s) stACCESS_DENIED := by
  rw [mbChecked_of_wellFormed s c rights k hpay hlen hflags, if_neg (by simpa using hlack)]

theorem mbChecked_of_rights (hsafe : s.boot.safe = false) (hrights : lacking s c.m rights = []) :
    mbChecked s c true rights k = k s := by
  simp [mbChecked_of_wellFormed s c rights k hpay hlen hflags, hsafe, hrights]

end

/-- Settles O51. The entry that decides is the one `find?` stops at; a command's rights are checked before its own meaning is asked. -/
theorem accessTablesDecideByTheLowestMatch : Obligations.AccessTablesDecideByTheLowestMatch := by
  unfold Obligations.AccessTablesDecideByTheLowestMatch
  refine ⟨granted_iff_lowest_match, lacking_eq_nil_iff, ?denied, ?served⟩
  case denied =>
    intro s c rights k _ hpay hlen hflags hlack
    have hans (k') := mbChecked_of_lacking s c rights k' hpay hlen hflags hlack
    exact ⟨by rw [hans k]; rfl, fun k' => (hans k').trans (hans k).symm⟩
  case served =>
    intro s c rights k hsafe hpay hlen hflags hrights
    exact mbChecked_of_rights s c rights k hpay hlen hflags hsafe hrights

end Sys2Proof.Machine
end

section
/-! PROOF. Garnet's matching (R332 to R336): the match rule on keys, what the bin of a message and the wildcard list of its context hold
of an SRQ's receives, and the receive `matchPosted` takes of the two. -/

namespace Sys2Proof.Machine

/-! ### Tables and sorted lists, by membership -/

/-- With keys rising, a value other than the default stands at a key exactly where that cell is listed. -/
theorem cellsGet_eq_iff_mem {α : Type} (d : α) (l : List (Nat × α)) (hl : l.Pairwise (fun a b => a.1 < b.1)) (k : Nat) (v : α)
    (hv : v ≠ d) : cellsGet d l k = v ↔ (k, v) ∈ l := by
  induction l with
  | nil => simp [cellsGet, hv.symm]
  | cons c l ih =>
    obtain ⟨hc, hl⟩ := List.pairwise_cons.mp hl
    by_cases hk : k = c.1
    · have hnot : (k, v) ∉ l := fun hmem => absurd (hc _ hmem) (by simp [hk])
      simp [cellsGet, hk, hk ▸ hnot, Prod.ext_iff, eq_comm]
    · simp [cellsGet, hk, ih hl, Prod.ext_iff]

theorem Tbl.get_eq_iff_mem_cells {α : Type} [DecidableEq α] (t : Tbl α) (hwf : t.wf = true) (k : Nat) (v : α) (hv : v ≠ t.dflt) :
    t.get k = v ↔ (k, v) ∈ t.cells := by
  rw [Tbl.wf, Bool.and_eq_true, keysRising_iff] at hwf
  exact cellsGet_eq_iff_mem t.dflt t.cells hwf.1 k v hv

theorem insertBy_perm {α : Type} (le : α → α → Bool) (a : α) (l : List α) : (insertBy le a l).Perm (a :: l) := by
  induction l with
  | nil => rfl
  | cons b l ih =>
    unfold insertBy
    split
    · rfl
    · exact (ih.cons b).trans (.swap a b l)

theorem sortBy_perm {α : Type} (le : α → α → Bool) (l : List α) : (sortBy le l).Perm l := by
  induction l with
  | nil => rfl
  | cons a l ih => exact (insertBy_perm le a _).trans (ih.cons a)

@[simp] theorem mem_sortBy {α : Type} (le : α → α → Bool) (l : List α) (a : α) : a ∈ sortBy le l ↔ a ∈ l :=
  (sortBy_perm le l).mem_iff

/-! ### The match rule -/

theorem matches_iff (p : Posted) (m : TagMsg) :
    matches_ p m = true ↔
      p.ctx = m.ctx ∧ (p.rank = m.rank ∨ p.rank = 0xFFFFFFFF) ∧ (m.tag ^^^ p.tag) &&& ~~~ p.ignore = 0 := by
  simp [matches_, and_assoc, or_comm]

theorem Posted.wild_eq_false_iff (p : Posted) : p.wild = false ↔ p.rank ≠ 0xFFFFFFFF ∧ p.ignore = 0 := by
  simp [Posted.wild]

theorem ctx_eq_of_matches {p : Posted} {m : TagMsg} (h : matches_ p m = true) : p.ctx = m.ctx :=
  ((matches_iff p m).mp h).1

/-- An exact receive leaves nothing of the key open: it lies in the bin of every message it matches. -/
theorem key_eq_of_exact_matches {p : Posted} {m : TagMsg} (hexact : p.wild = false) (h : matches_ p m = true) :
    p.ctx = m.ctx ∧ p.rank = m.rank ∧ p.tag = m.tag := by
  obtain ⟨hrank, hignore⟩ := p.wild_eq_false_iff.mp hexact
  obtain ⟨hctx, hor, htag⟩ := (matches_iff p m).mp h
  have hmask : ~~~p.ignore = BitVec.allOnes 64 := by simp [hignore]
  rw [hmask, BitVec.and_allOnes] at htag
  exact ⟨hctx, hor.resolve_right hrank, (BitVec.xor_eq_zero_iff.mp htag).symm⟩

/-! ### What the two lists hold of an SRQ's receives -/

section
variable {s : State} {r : Srq} {srq : Nat} (hwf : s.ep.srqs.wf = true) (hdflt : s.ep.srqs.dflt = none)
  (hget : getSrq s srq = some r)
include hwf hdflt

theorem mem_srqsOf_iff (home n : Nat) (x : Srq) : (n, x) ∈ srqsOf s home ↔ getSrq s n = some x ∧ x.home = home := by
  have hcell : getSrq s n = some x ↔ (n, some x) ∈ s.ep.srqs.cells :=
    s.ep.srqs.get_eq_iff_mem_cells hwf n (some x) (by simp [hdflt])
  simp only [hcell, srqsOf, List.mem_filterMap, Option.bind_eq_some_iff, Option.ite_none_right_eq_some, Option.some.injEq,
    Prod.mk.injEq, Prod.exists]
  constructor
  · rintro ⟨_, _, hmem, _, rfl, hhome, rfl, rfl⟩
    exact ⟨hmem, hhome⟩
  · rintro ⟨hmem, hhome⟩
    exact ⟨n, some x, hmem, x, rfl, hhome, rfl, rfl⟩

include hget

/-- [R334] of one SRQ's receives, a bin of its home quadrant holds the exact ones whose key hashes to it. -/
theorem mem_binList_iff (bin : Nat) (p : Posted) :
    (srq, p) ∈ binList s r.home bin ↔ p ∈ r.posted ∧ p.wild = false ∧ binOf srq p.ctx p.rank p.tag = bin := by
  simp only [binList, mem_sortBy, List.mem_flatMap, List.mem_map, List.mem_filter, Bool.and_eq_true, Bool.not_eq_true',
    beq_iff_eq, Prod.mk.injEq, Prod.exists, mem_srqsOf_iff hwf hdflt]
  constructor
  · rintro ⟨_, x, ⟨hx, -⟩, _, hp, rfl, rfl⟩
    obtain rfl : r = x := Option.some.inj (hget.symm.trans hx)
    exact hp
  · intro hp
    exact ⟨srq, r, ⟨hget, rfl⟩, p, hp, rfl, rfl⟩

end

theorem mem_wildList_iff (r : Srq) (m : TagMsg) (p : Posted) :
    p ∈ wildList r m ↔ p ∈ r.posted ∧ p.wild = true ∧ p.ctx = m.ctx := by
  simp [wildList]

/-! ### The receive taken of the two lists -/

/-- [R336] step 1: the first receive of the SRQ that matches, in the message's bin. -/
def binMatch (s : State) (home srq : Nat) (m : TagMsg) : Option Posted :=
  ((binList s home (binOf srq m.ctx m.rank m.tag)).find? (fun e => e.1 == srq && matches_ e.2 m)).map (·.2)

/-- [R336] step 2: the first receive that matches, in the wildcard list of the message's context. -/
def wildMatch (r : Srq) (m : TagMsg) : Option Posted := (wildList r m).find? (fun p => matches_ p m)

/-- [R336] step 3: of the two, the one with the earlier POST_STAMP. -/
def earlierOf : Option Posted → Option Posted → Option Posted
  | some a, some b => if stampBefore b.stamp a.stamp then some b else some a
  | some a, none => some a
  | none, b => b

theorem matchPosted_eq_earlierOf (s : State) (r : Srq) (srq : Nat) (m : TagMsg) :
    matchPosted s r srq m = earlierOf (binMatch s r.home srq m) (wildMatch r m) := rfl

theorem eq_or_eq_of_earlierOf_eq_some {a b : Option Posted} {p : Posted} (h : earlierOf a b = some p) : a = some p ∨ b = some p := by
  cases a with
  | none => exact .inr h
  | some x =>
    cases b with
    | none => exact .inl h
    | some y =>
      simp only [earlierOf] at h
      split at h
      · exact .inr h
      · exact .inl h

theorem earlierOf_eq_none_iff (a b : Option Posted) : earlierOf a b = none ↔ a = none ∧ b = none := by
  cases a with
  | none => simp [earlierOf]
  | some x =>
    cases b with
    | none => simp [earlierOf]
    | some y => simp [earlierOf, ite_eq_iff]

theorem mem_of_wildMatch_eq_some {r : Srq} {m : TagMsg} {p : Posted} (h : wildMatch r m = some p) :
    p ∈ r.posted ∧ matches_ p m = true :=
  ⟨((mem_wildList_iff r m p).mp (List.mem_of_find?_eq_some h)).1, List.find?_some (p := (matches_ · m)) h⟩

/-- A message's wildcard list misses no wildcard receive that matches it. -/
theorem wildMatch_eq_none_iff (r : Srq) (m : TagMsg) :
    wildMatch r m = none ↔ ∀ p ∈ r.posted, p.wild = true → matches_ p m = false := by
  simp only [wildMatch, List.find?_eq_none, mem_wildList_iff, Bool.not_eq_true]
  constructor
  · intro h p hp hwild
    by_contra hmatch
    rw [Bool.not_eq_false] at hmatch
    exact absurd hmatch (by simp [h p ⟨hp, hwild, ctx_eq_of_matches hmatch⟩])
  · rintro h p ⟨hp, hwild, -⟩
    exact h p hp hwild

section
variable {s : State} {r : Srq} {srq : Nat} (hwf : s.ep.srqs.wf = true) (hdflt : s.ep.srqs.dflt = none)
  (hget : getSrq s srq = some r)
include hwf hdflt hget

theorem mem_of_binMatch_eq_some {m : TagMsg} {p : Posted} (h : binMatch s r.home srq m = some p) :
    p ∈ r.posted ∧ matches_ p m = true := by
  obtain ⟨⟨n, q⟩, hfind, rfl⟩ := Option.map_eq_some_iff.mp h
  have hmem := List.mem_of_find?_eq_some hfind
  obtain ⟨rfl, hmatch⟩ : n = srq ∧ matches_ q m = true := by simpa using List.find?_some hfind
  exact ⟨((mem_binList_iff hwf hdflt hget _ q).mp hmem).1, hmatch⟩

/-- A message's bin misses no exact receive of its SRQ that matches it, whatever else the hash puts there. -/
theorem binMatch_eq_none_iff (m : TagMsg) :
    binMatch s r.home srq m = none ↔ ∀ p ∈ r.posted, p.wild = false → matches_ p m = false := by
  simp only [binMatch, Option.map_eq_none_iff, List.find?_eq_none, Bool.and_eq_true, beq_iff_eq, not_and, Bool.not_eq_true,
    Prod.forall]
  constructor
  · intro h p hp hexact
    by_contra hmatch
    rw [Bool.not_eq_false] at hmatch
    obtain ⟨hctx, hrank, htag⟩ := key_eq_of_exact_matches hexact hmatch
    have hmem := (mem_binList_iff hwf hdflt hget _ p).mpr ⟨hp, hexact, by rw [hctx, hrank, htag]⟩
    exact absurd hmatch (by simp [h srq p hmem rfl])
  · rintro h _ p hmem rfl
    obtain ⟨hp, hexact, -⟩ := (mem_binList_iff hwf hdflt hget _ p).mp hmem
    exact h p hp hexact

theorem mem_of_matchPosted_eq_some {m : TagMsg} {p : Posted} (h : matchPosted s r srq m = some p) :
    p ∈ r.posted ∧ matches_ p m = true := by
  rw [matchPosted_eq_earlierOf] at h
  rcases eq_or_eq_of_earlierOf_eq_some h with hbin | hwild
  · exact mem_of_binMatch_eq_some hwf hdflt hget hbin
  · exact mem_of_wildMatch_eq_some hwild

theorem matchPosted_eq_none_iff (m : TagMsg) :
    matchPosted s r srq m = none ↔ ∀ p ∈ r.posted, matches_ p m = false := by
  rw [matchPosted_eq_earlierOf, earlierOf_eq_none_iff, binMatch_eq_none_iff hwf hdflt hget, wildMatch_eq_none_iff]
  constructor
  · rintro ⟨hexact, hwild⟩ p hp
    cases h : p.wild with
    | false => exact hexact p hp h
    | true => exact hwild p hp h
  · intro h
    exact ⟨fun p hp _ => h p hp, fun p hp _ => h p hp⟩

end

/-- Settles O58. The bin holds every exact receive of the SRQ that matches and the wildcard list every other, so the two candidates miss
none of them. -/
theorem taggedKeysMatchByTheThreeConditions : Obligations.TaggedKeysMatchByTheThreeConditions := by
  unfold Obligations.TaggedKeysMatchByTheThreeConditions
  refine ⟨matches_iff, Posted.wild_eq_false_iff, ?given, ?none⟩
  case given =>
    intro s r srq m p hwf hdflt hget h
    exact mem_of_matchPosted_eq_some hwf hdflt hget h
  case none =>
    intro s r srq m hwf hdflt hget
    exact matchPosted_eq_none_iff hwf hdflt hget m

end Sys2Proof.Machine
end

section
/-! PROOF. Frames, field by field. `Fields` names a set of the state's fields and `erase w` blanks the fields of `w`, so that
`erase w t = erase w s` says: from `s` to `t` nothing outside `w` has changed. One lemma for each shared operation names the fields it may
write; they are rewrite rules for every larger set of fields, and a command's frame follows from those of the operations it calls. -/

namespace Sys2Proof.Machine

/-- A set of fields of the state. -/
structure Fields where
  (ident : Bool := false) (clk : Bool := false) (boot : Bool := false) (cfg : Bool := false) (cfgOld : Bool := false)
  (hostMode : Bool := false) (profile : Bool := false) (lanes : Bool := false) (octets : Bool := false) (ports : Bool := false)
  (tu : Bool := false) (routes : Bool := false) (snap : Bool := false) (ctrs : Bool := false) (quads : Bool := false)
  (eps : Bool := false) (fns : Bool := false) (insts : Bool := false) (masters : Bool := false) (access : Bool := false)
  (cmds : Bool := false) (ep : Bool := false) (chain : Bool := false) (grp : Bool := false) (recd : Bool := false)
  (tele : Bool := false) (teleFt : Bool := false) (life : Bool := false) (lifePart : Bool := false) (mram : Bool := false)
  (pstepC : Bool := false) (pstepS : Bool := false) (therm : Bool := false) (pins : Bool := false) (out : Bool := false)
  (free : Bool := false) (pending : Bool := false)

namespace Fields

/-- Every field of `v` is one of `w`. -/
def within (v w : Fields) : Bool :=
  (!v.ident || w.ident) && (!v.clk || w.clk) && (!v.boot || w.boot) && (!v.cfg || w.cfg) && (!v.cfgOld || w.cfgOld) &&
  (!v.hostMode || w.hostMode) && (!v.profile || w.profile) && (!v.lanes || w.lanes) && (!v.octets || w.octets) &&
  (!v.ports || w.ports) && (!v.tu || w.tu) && (!v.routes || w.routes) && (!v.snap || w.snap) && (!v.ctrs || w.ctrs) &&
  (!v.quads || w.quads) && (!v.eps || w.eps) && (!v.fns || w.fns) && (!v.insts || w.insts) && (!v.masters || w.masters) &&
  (!v.access || w.access) && (!v.cmds || w.cmds) && (!v.ep || w.ep) && (!v.chain || w.chain) && (!v.grp || w.grp) &&
  (!v.recd || w.recd) && (!v.tele || w.tele) && (!v.teleFt || w.teleFt) && (!v.life || w.life) && (!v.lifePart || w.lifePart) &&
  (!v.mram || w.mram) && (!v.pstepC || w.pstepC) && (!v.pstepS || w.pstepS) && (!v.therm || w.therm) && (!v.pins || w.pins) &&
  (!v.out || w.out) && (!v.free || w.free) && (!v.pending || w.pending)

end Fields

/-- What stands in an erased field. -/
def blankState : State := {}

/-- The value `a` of the field `f`, or the blank `d` where `w` holds the field. -/
def hide {α : Type} (f : Fields → Bool) (w : Fields) (d a : α) : α := cond (f w) d a

@[simp] theorem hide_held {α : Type} {f : Fields → Bool} {w : Fields} (h : f w = true) (d a : α) : hide f w d a = d := by unfold hide; rw [h]; rfl

/-- The state with the fields of `w` blanked. -/
def erase (w : Fields) (s : State) : State where
  ident := hide Fields.ident w blankState.ident s.ident
  clk := hide Fields.clk w blankState.clk s.clk
  boot := hide Fields.boot w blankState.boot s.boot
  cfg := hide Fields.cfg w blankState.cfg s.cfg
  cfgOld := hide Fields.cfgOld w blankState.cfgOld s.cfgOld
  hostMode := hide Fields.hostMode w blankState.hostMode s.hostMode
  profile := hide Fields.profile w blankState.profile s.profile
  lanes := hide Fields.lanes w blankState.lanes s.lanes
  octets := hide Fields.octets w blankState.octets s.octets
  ports := hide Fields.ports w blankState.ports s.ports
  tu := hide Fields.tu w blankState.tu s.tu
  routes := hide Fields.routes w blankState.routes s.routes
  snap := hide Fields.snap w blankState.snap s.snap
  ctrs := hide Fields.ctrs w blankState.ctrs s.ctrs
  quads := hide Fields.quads w blankState.quads s.quads
  eps := hide Fields.eps w blankState.eps s.eps
  fns := hide Fields.fns w blankState.fns s.fns
  insts := hide Fields.insts w blankState.insts s.insts
  masters := hide Fields.masters w blankState.masters s.masters
  access := hide Fields.access w blankState.access s.access
  cmds := hide Fields.cmds w blankState.cmds s.cmds
  ep := hide Fields.ep w blankState.ep s.ep
  chain := hide Fields.chain w blankState.chain s.chain
  grp := hide Fields.grp w blankState.grp s.grp
  recd := hide Fields.recd w blankState.recd s.recd
  tele := hide Fields.tele w blankState.tele s.tele
  teleFt := hide Fields.teleFt w blankState.teleFt s.teleFt
  life := hide Fields.life w blankState.life s.life
  lifePart := hide Fields.lifePart w blankState.lifePart s.lifePart
  mram := hide Fields.mram w blankState.mram s.mram
  pstepC := hide Fields.pstepC w blankState.pstepC s.pstepC
  pstepS := hide Fields.pstepS w blankState.pstepS s.pstepS
  therm := hide Fields.therm w blankState.therm s.therm
  pins := hide Fields.pins w blankState.pins s.pins
  out := hide Fields.out w blankState.out s.out
  free := hide Fields.free w blankState.free s.free
  pending := hide Fields.pending w blankState.pending s.pending

/-- The state `s` with the fields of `w` taken from `t`. -/
def patch (w : Fields) (s t : State) : State where
  ident := cond w.ident t.ident s.ident
  clk := cond w.clk t.clk s.clk
  boot := cond w.boot t.boot s.boot
  cfg := cond w.cfg t.cfg s.cfg
  cfgOld := cond w.cfgOld t.cfgOld s.cfgOld
  hostMode := cond w.hostMode t.hostMode s.hostMode
  profile := cond w.profile t.profile s.profile
  lanes := cond w.lanes t.lanes s.lanes
  octets := cond w.octets t.octets s.octets
  ports := cond w.ports t.ports s.ports
  tu := cond w.tu t.tu s.tu
  routes := cond w.routes t.routes s.routes
  snap := cond w.snap t.snap s.snap
  ctrs := cond w.ctrs t.ctrs s.ctrs
  quads := cond w.quads t.quads s.quads
  eps := cond w.eps t.eps s.eps
  fns := cond w.fns t.fns s.fns
  insts := cond w.insts t.insts s.insts
  masters := cond w.masters t.masters s.masters
  access := cond w.access t.access s.access
  cmds := cond w.cmds t.cmds s.cmds
  ep := cond w.ep t.ep s.ep
  chain := cond w.chain t.chain s.chain
  grp := cond w.grp t.grp s.grp
  recd := cond w.recd t.recd s.recd
  tele := cond w.tele t.tele s.tele
  teleFt := cond w.teleFt t.teleFt s.teleFt
  life := cond w.life t.life s.life
  lifePart := cond w.lifePart t.lifePart s.lifePart
  mram := cond w.mram t.mram s.mram
  pstepC := cond w.pstepC t.pstepC s.pstepC
  pstepS := cond w.pstepS t.pstepS s.pstepS
  therm := cond w.therm t.therm s.therm
  pins := cond w.pins t.pins s.pins
  out := cond w.out t.out s.out
  free := cond w.free t.free s.free
  pending := cond w.pending t.pending s.pending

/-! ### One field of an erased state -/

@[simp] theorem hide_ident (w : Fields) (s : State) : hide Fields.ident w blankState.ident s.ident = (erase w s).ident := rfl
@[simp] theorem hide_clk (w : Fields) (s : State) : hide Fields.clk w blankState.clk s.clk = (erase w s).clk := rfl
@[simp] theorem hide_boot (w : Fields) (s : State) : hide Fields.boot w blankState.boot s.boot = (erase w s).boot := rfl
@[simp] theorem hide_cfg (w : Fields) (s : State) : hide Fields.cfg w blankState.cfg s.cfg = (erase w s).cfg := rfl
@[simp] theorem hide_cfgOld (w : Fields) (s : State) : hide Fields.cfgOld w blankState.cfgOld s.cfgOld = (erase w s).cfgOld := rfl
@[simp] theorem hide_hostMode (w : Fields) (s : State) : hide Fields.hostMode w blankState.hostMode s.hostMode = (erase w s).hostMode := rfl
@[simp] theorem hide_profile (w : Fields) (s : State) : hide Fields.profile w blankState.profile s.profile = (erase w s).profile := rfl
@[simp] theorem hide_lanes (w : Fields) (s : State) : hide Fields.lanes w blankState.lanes s.lanes = (erase w s).lanes := rfl
@[simp] theorem hide_octets (w : Fields) (s : State) : hide Fields.octets w blankState.octets s.octets = (erase w s).octets := rfl
@[simp] theorem hide_ports (w : Fields) (s : State) : hide Fields.ports w blankState.ports s.ports = (erase w s).ports := rfl
@[simp] theorem hide_tu (w : Fields) (s : State) : hide Fields.tu w blankState.tu s.tu = (erase w s).tu := rfl
@[simp] theorem hide_routes (w : Fields) (s : State) : hide Fields.routes w blankState.routes s.routes = (erase w s).routes := rfl
@[simp] theorem hide_snap (w : Fields) (s : State) : hide Fields.snap w blankState.snap s.snap = (erase w s).snap := rfl
@[simp] theorem hide_ctrs (w : Fields) (s : State) : hide Fields.ctrs w blankState.ctrs s.ctrs = (erase w s).ctrs := rfl
@[simp] theorem hide_quads (w : Fields) (s : State) : hide Fields.quads w blankState.quads s.quads = (erase w s).quads := rfl
@[simp] theorem hide_eps (w : Fields) (s : State) : hide Fields.eps w blankState.eps s.eps = (erase w s).eps := rfl
@[simp] theorem hide_fns (w : Fields) (s : State) : hide Fields.fns w blankState.fns s.fns = (erase w s).fns := rfl
@[simp] theorem hide_insts (w : Fields) (s : State) : hide Fields.insts w blankState.insts s.insts = (erase w s).insts := rfl
@[simp] theorem hide_masters (w : Fields) (s : State) : hide Fields.masters w blankState.masters s.masters = (erase w s).masters := rfl
@[simp] theorem hide_access (w : Fields) (s : State) : hide Fields.access w blankState.access s.access = (erase w s).access := rfl
@[simp] theorem hide_cmds (w : Fields) (s : State) : hide Fields.cmds w blankState.cmds s.cmds = (erase w s).cmds := rfl
@[simp] theorem hide_ep (w : Fields) (s : State) : hide Fields.ep w blankState.ep s.ep = (erase w s).ep := rfl
@[simp] theorem hide_chain (w : Fields) (s : State) : hide Fields.chain w blankState.chain s.chain = (erase w s).chain := rfl
@[simp] theorem hide_grp (w : Fields) (s : State) : hide Fields.grp w blankState.grp s.grp = (erase w s).grp := rfl
@[simp] theorem hide_recd (w : Fields) (s : State) : hide Fields.recd w blankState.recd s.recd = (erase w s).recd := rfl
@[simp] theorem hide_tele (w : Fields) (s : State) : hide Fields.tele w blankState.tele s.tele = (erase w s).tele := rfl
@[simp] theorem hide_teleFt (w : Fields) (s : State) : hide Fields.teleFt w blankState.teleFt s.teleFt = (erase w s).teleFt := rfl
@[simp] theorem hide_life (w : Fields) (s : State) : hide Fields.life w blankState.life s.life = (erase w s).life := rfl
@[simp] theorem hide_lifePart (w : Fields) (s : State) : hide Fields.lifePart w blankState.lifePart s.lifePart = (erase w s).lifePart := rfl
@[simp] theorem hide_mram (w : Fields) (s : State) : hide Fields.mram w blankState.mram s.mram = (erase w s).mram := rfl
@[simp] theorem hide_pstepC (w : Fields) (s : State) : hide Fields.pstepC w blankState.pstepC s.pstepC = (erase w s).pstepC := rfl
@[simp] theorem hide_pstepS (w : Fields) (s : State) : hide Fields.pstepS w blankState.pstepS s.pstepS = (erase w s).pstepS := rfl
@[simp] theorem hide_therm (w : Fields) (s : State) : hide Fields.therm w blankState.therm s.therm = (erase w s).therm := rfl
@[simp] theorem hide_pins (w : Fields) (s : State) : hide Fields.pins w blankState.pins s.pins = (erase w s).pins := rfl
@[simp] theorem hide_out (w : Fields) (s : State) : hide Fields.out w blankState.out s.out = (erase w s).out := rfl
@[simp] theorem hide_free (w : Fields) (s : State) : hide Fields.free w blankState.free s.free = (erase w s).free := rfl
@[simp] theorem hide_pending (w : Fields) (s : State) : hide Fields.pending w blankState.pending s.pending = (erase w s).pending := rfl

/-- To erase a state that is written out is to hide each of its fields. -/
@[simp] theorem erase_mk (w : Fields) (x0 x1 x2 x3 x4 x5 x6 x7 x8 x9 x10 x11 x12 x13 x14 x15 x16 x17 x18 x19 x20 x21 x22 x23 x24 x25 x26 x27 x28 x29 x30 x31 x32 x33 x34 x35 x36) :
    erase w (State.mk x0 x1 x2 x3 x4 x5 x6 x7 x8 x9 x10 x11 x12 x13 x14 x15 x16 x17 x18 x19 x20 x21 x22 x23 x24 x25 x26 x27 x28 x29 x30 x31 x32 x33 x34 x35 x36) =
      State.mk
        (hide Fields.ident w blankState.ident x0) (hide Fields.clk w blankState.clk x1) (hide Fields.boot w blankState.boot x2)
        (hide Fields.cfg w blankState.cfg x3) (hide Fields.cfgOld w blankState.cfgOld x4)
        (hide Fields.hostMode w blankState.hostMode x5) (hide Fields.profile w blankState.profile x6)
        (hide Fields.lanes w blankState.lanes x7) (hide Fields.octets w blankState.octets x8)
        (hide Fields.ports w blankState.ports x9) (hide Fields.tu w blankState.tu x10)
        (hide Fields.routes w blankState.routes x11) (hide Fields.snap w blankState.snap x12)
        (hide Fields.ctrs w blankState.ctrs x13) (hide Fields.quads w blankState.quads x14)
        (hide Fields.eps w blankState.eps x15) (hide Fields.fns w blankState.fns x16) (hide Fields.insts w blankState.insts x17)
        (hide Fields.masters w blankState.masters x18) (hide Fields.access w blankState.access x19)
        (hide Fields.cmds w blankState.cmds x20) (hide Fields.ep w blankState.ep x21) (hide Fields.chain w blankState.chain x22)
        (hide Fields.grp w blankState.grp x23) (hide Fields.recd w blankState.recd x24) (hide Fields.tele w blankState.tele x25)
        (hide Fields.teleFt w blankState.teleFt x26) (hide Fields.life w blankState.life x27)
        (hide Fields.lifePart w blankState.lifePart x28) (hide Fields.mram w blankState.mram x29)
        (hide Fields.pstepC w blankState.pstepC x30) (hide Fields.pstepS w blankState.pstepS x31)
        (hide Fields.therm w blankState.therm x32) (hide Fields.pins w blankState.pins x33)
        (hide Fields.out w blankState.out x34) (hide Fields.free w blankState.free x35)
        (hide Fields.pending w blankState.pending x36) := rfl

/-- A state that is written out is an erased state where it is so field by field. -/
@[simp] theorem mk_eq_erase_iff (w : Fields) (x0 x1 x2 x3 x4 x5 x6 x7 x8 x9 x10 x11 x12 x13 x14 x15 x16 x17 x18 x19 x20 x21 x22 x23 x24 x25 x26 x27 x28 x29 x30 x31 x32 x33 x34 x35 x36 s) :
    State.mk x0 x1 x2 x3 x4 x5 x6 x7 x8 x9 x10 x11 x12 x13 x14 x15 x16 x17 x18 x19 x20 x21 x22 x23 x24 x25 x26 x27 x28 x29 x30 x31 x32 x33 x34 x35 x36 = erase w s ↔
      x0 = hide Fields.ident w blankState.ident s.ident ∧ x1 = hide Fields.clk w blankState.clk s.clk ∧
      x2 = hide Fields.boot w blankState.boot s.boot ∧ x3 = hide Fields.cfg w blankState.cfg s.cfg ∧
      x4 = hide Fields.cfgOld w blankState.cfgOld s.cfgOld ∧ x5 = hide Fields.hostMode w blankState.hostMode s.hostMode ∧
      x6 = hide Fields.profile w blankState.profile s.profile ∧ x7 = hide Fields.lanes w blankState.lanes s.lanes ∧
      x8 = hide Fields.octets w blankState.octets s.octets ∧ x9 = hide Fields.ports w blankState.ports s.ports ∧
      x10 = hide Fields.tu w blankState.tu s.tu ∧ x11 = hide Fields.routes w blankState.routes s.routes ∧
      x12 = hide Fields.snap w blankState.snap s.snap ∧ x13 = hide Fields.ctrs w blankState.ctrs s.ctrs ∧
      x14 = hide Fields.quads w blankState.quads s.quads ∧ x15 = hide Fields.eps w blankState.eps s.eps ∧
      x16 = hide Fields.fns w blankState.fns s.fns ∧ x17 = hide Fields.insts w blankState.insts s.insts ∧
      x18 = hide Fields.masters w blankState.masters s.masters ∧ x19 = hide Fields.access w blankState.access s.access ∧
      x20 = hide Fields.cmds w blankState.cmds s.cmds ∧ x21 = hide Fields.ep w blankState.ep s.ep ∧
      x22 = hide Fields.chain w blankState.chain s.chain ∧ x23 = hide Fields.grp w blankState.grp s.grp ∧
      x24 = hide Fields.recd w blankState.recd s.recd ∧ x25 = hide Fields.tele w blankState.tele s.tele ∧
      x26 = hide Fields.teleFt w blankState.teleFt s.teleFt ∧ x27 = hide Fields.life w blankState.life s.life ∧
      x28 = hide Fields.lifePart w blankState.lifePart s.lifePart ∧ x29 = hide Fields.mram w blankState.mram s.mram ∧
      x30 = hide Fields.pstepC w blankState.pstepC s.pstepC ∧ x31 = hide Fields.pstepS w blankState.pstepS s.pstepS ∧
      x32 = hide Fields.therm w blankState.therm s.therm ∧ x33 = hide Fields.pins w blankState.pins s.pins ∧
      x34 = hide Fields.out w blankState.out s.out ∧ x35 = hide Fields.free w blankState.free s.free ∧
      x36 = hide Fields.pending w blankState.pending s.pending := by
  simp only [erase, State.mk.injEq]

/-! ### Rules of erasing -/

theorem hide_hide {f : Fields → Bool} {v w : Fields} {α : Type} (h : (!f v || f w) = true) (d a : α) :
    hide f w d (hide f v d a) = hide f w d a := by
  unfold hide
  cases hv : f v
  · rfl
  · cases hw : f w
    · rw [hv, hw] at h; cases h
    · rfl

theorem cond_of_hide_eq {f : Fields → Bool} {w : Fields} {α : Type} {d a b : α} (h : hide f w d a = hide f w d b) : cond (f w) a b = a := by
  unfold hide at h
  cases hw : f w
  · rw [hw] at h; exact h.symm
  · rfl

theorem erase_erase {v w : Fields} (h : v.within w = true) (s : State) : erase w (erase v s) = erase w s := by
  simp only [Fields.within, Bool.and_eq_true] at h
  simp only [erase, hide_hide, h]

/-- A smaller set of written fields is a sharper frame. -/
theorem erase_mono {v w : Fields} (h : v.within w = true) {s t : State} (e : erase v t = erase v s) : erase w t = erase w s := by
  rw [← erase_erase h t, e, erase_erase h]

/-- What has not changed outside `w` is the old state with the fields of `w` replaced. -/
theorem eq_patch {w : Fields} {s t : State} (e : erase w t = erase w s) : t = patch w s t := by
  symm
  unfold patch
  simp only [cond_of_hide_eq (congrArg State.ident e), cond_of_hide_eq (congrArg State.clk e), cond_of_hide_eq (congrArg State.boot e),
    cond_of_hide_eq (congrArg State.cfg e), cond_of_hide_eq (congrArg State.cfgOld e),
    cond_of_hide_eq (congrArg State.hostMode e), cond_of_hide_eq (congrArg State.profile e),
    cond_of_hide_eq (congrArg State.lanes e), cond_of_hide_eq (congrArg State.octets e),
    cond_of_hide_eq (congrArg State.ports e), cond_of_hide_eq (congrArg State.tu e), cond_of_hide_eq (congrArg State.routes e),
    cond_of_hide_eq (congrArg State.snap e), cond_of_hide_eq (congrArg State.ctrs e), cond_of_hide_eq (congrArg State.quads e),
    cond_of_hide_eq (congrArg State.eps e), cond_of_hide_eq (congrArg State.fns e), cond_of_hide_eq (congrArg State.insts e),
    cond_of_hide_eq (congrArg State.masters e), cond_of_hide_eq (congrArg State.access e),
    cond_of_hide_eq (congrArg State.cmds e), cond_of_hide_eq (congrArg State.ep e), cond_of_hide_eq (congrArg State.chain e),
    cond_of_hide_eq (congrArg State.grp e), cond_of_hide_eq (congrArg State.recd e), cond_of_hide_eq (congrArg State.tele e),
    cond_of_hide_eq (congrArg State.teleFt e), cond_of_hide_eq (congrArg State.life e),
    cond_of_hide_eq (congrArg State.lifePart e), cond_of_hide_eq (congrArg State.mram e),
    cond_of_hide_eq (congrArg State.pstepC e), cond_of_hide_eq (congrArg State.pstepS e),
    cond_of_hide_eq (congrArg State.therm e), cond_of_hide_eq (congrArg State.pins e), cond_of_hide_eq (congrArg State.out e),
    cond_of_hide_eq (congrArg State.free e), cond_of_hide_eq (congrArg State.pending e)]

@[simp] theorem erase_ite (w : Fields) (c : Prop) [Decidable c] (a b : State) :
    erase w (if c then a else b) = if c then erase w a else erase w b := by split <;> rfl

@[simp] theorem ite_eq_erase (w : Fields) (c : Prop) [Decidable c] (a b s : State) :
    (if c then a else b) = erase w s ↔ (c → a = erase w s) ∧ (¬ c → b = erase w s) := by split <;> simp [*]

@[simp] theorem erase_elim {α : Type} {w : Fields} (o : Option α) (s : State) (f : α → State) (h : ∀ y, erase w (f y) = erase w s) :
    erase w (o.elim s f) = erase w s := by
  cases o with
  | none => rfl
  | some y => exact h y

theorem erase_getD {w : Fields} (o : Option State) (s : State) (h : ∀ y, o = some y → erase w y = erase w s) :
    erase w (o.getD s) = erase w s := by
  cases o with
  | none => rfl
  | some y => exact h y rfl

theorem erase_foldl {α : Type} {w : Fields} (g : State → α → State) (h : ∀ z y, erase w (g z y) = erase w z) (l : List α) (s : State) :
    erase w (l.foldl g s) = erase w s := by
  induction l generalizing s with
  | nil => rfl
  | cons a l ih => rw [List.foldl_cons, ih, h]

/-- A meaning writes no field outside `w`. -/
def Writes (w : Fields) (r : Res) (s : State) : Prop := ∀ t, r = .next t → erase w t = erase w s

@[simp] theorem writes_next (w : Fields) (t s : State) : Writes w (.next t) s ↔ erase w t = erase w s :=
  ⟨fun h => h t rfl, fun h u e => by cases e; exact h⟩
@[simp] theorem writes_fault (w : Fields) (f : Fault) (s : State) : Writes w (.fault f) s := fun _ e => by cases e
@[simp] theorem writes_refused (w : Fields) (f : Refusal) (s : State) : Writes w (.refused f) s := fun _ e => by cases e
@[simp] theorem writes_guardRes {w : Fields} (b : Bool) {t s : State} (h : erase w t = erase w s) : Writes w (guardRes b t) s := by
  unfold guardRes
  split
  · rwa [writes_next]
  · exact writes_fault w _ s

theorem Writes.eq {w : Fields} {r : Res} {s t : State} (h : Writes w r s) (e : r = .next t) : t = patch w s t := eq_patch (h t e)

theorem Writes.mono {v w : Fields} (h : v.within w = true) {r : Res} {s : State} (e : Writes v r s) : Writes w r s :=
  fun t ht => erase_mono h (e t ht)

@[simp] theorem erase_foldS {w : Fields} (l : List Nat) (s : State) (f : State → Nat → State) (hf : ∀ z y, erase w (f z y) = erase w z) :
    erase w (foldS l s f) = erase w s := erase_foldl f hf l s

end Sys2Proof.Machine
end

section
/-! PROOF. The fields each shared operation may write, in the order of the operations that call one another. -/

namespace Sys2Proof.Machine

@[simp] theorem erase_updLane {w : Fields} (hw : Fields.within { lanes := true } w = true) (s : State) (l : Nat) (f : Lane → Lane) :
    erase w (updLane s l f) = erase w s := by
  refine erase_mono hw ?_
  unfold updLane
  simp (decide := true)

@[simp] theorem erase_adoptRoute {w : Fields} (hw : Fields.within { routes := true, cmds := true } w = true) (s : State) :
    erase w (adoptRoute s) = erase w s := by
  refine erase_mono hw ?_
  unfold adoptRoute
  simp (decide := true)

@[simp] theorem erase_routeDue {w : Fields} (hw : Fields.within { routes := true, cmds := true } w = true) (s : State) :
    erase w (routeDue s) = erase w s := by
  refine erase_mono hw ?_
  unfold routeDue
  simp (decide := true)

@[simp] theorem erase_limited {w : Fields} (hw : Fields.within { recd := true } w = true)
    (s : State) (e : Ev) (obj period : Nat) (mk : State → Nat → Bool → State) (hmk : ∀ z y0 y1, erase w (mk z y0 y1) = erase w z) :
    erase w (limited s e obj period mk) = erase w s := by
  have hr : w.recd = true := by simpa [Fields.within] using hw
  unfold limited
  simp [hmk, hr]

@[simp] theorem erase_updFn {w : Fields} (hw : Fields.within { fns := true } w = true) (s : State) (m : Nat) (f : Fn → Fn) :
    erase w (updFn s m f) = erase w s := by
  refine erase_mono hw ?_
  unfold updFn
  simp (decide := true)

@[simp] theorem erase_emit {w : Fields} (hw : Fields.within { out := true } w = true) (s : State) (o : Out) :
    erase w (emit s o) = erase w s := by
  refine erase_mono hw ?_
  unfold emit
  simp (decide := true)

@[simp] theorem erase_sendMsix {w : Fields} (hw : Fields.within { fns := true, out := true } w = true) (s : State) (f vec : Nat) :
    erase w (sendMsix s f vec) = erase w s := by
  refine erase_mono hw ?_
  unfold sendMsix
  simp (decide := true)

@[simp] theorem erase_updInst {w : Fields} (hw : Fields.within { insts := true } w = true) (s : State) (m : Nat) (f : Inst → Inst) :
    erase w (updInst s m f) = erase w s := by
  refine erase_mono hw ?_
  unfold updInst
  simp (decide := true)

@[simp] theorem erase_changeStatus {w : Fields} (hw : Fields.within { fns := true, insts := true, out := true } w = true)
    (s : State) (m : Nat) (f : Inst → Inst) : erase w (changeStatus s m f) = erase w s := by
  refine erase_mono hw ?_
  unfold changeStatus
  simp (decide := true)

@[simp] theorem erase_raiseCause {w : Fields} (hw : Fields.within { fns := true, insts := true, out := true } w = true)
    (s : State) (m : Nat) (bits : BitVec 9) : erase w (raiseCause s m bits) = erase w s := by
  refine erase_mono hw ?_
  unfold raiseCause
  simp (decide := true)

@[simp] theorem erase_raiseAll {w : Fields} (hw : Fields.within { fns := true, insts := true, out := true } w = true)
    (s : State) (bits : BitVec 9) : erase w (raiseAll s bits) = erase w s := by
  refine erase_mono hw ?_
  unfold raiseAll
  simp (decide := true) [erase_foldl]

@[simp] theorem erase_count {w : Fields} (hw : Fields.within { ctrs := true } w = true)
    (s : State) (sc : Scope) (index : Nat) (c : Cn) (n : Nat := 1) : erase w (count s sc index c n) = erase w s := by
  refine erase_mono hw ?_
  unfold count
  simp (decide := true)

@[simp] theorem erase_remoteReport {w : Fields} (hw : Fields.within { ctrs := true, grp := true } w = true)
    (s : State) (r : EvRec) : erase w (remoteReport s r) = erase w s := by
  refine erase_mono hw ?_
  unfold remoteReport
  split
  · rfl
  · dsimp only
    split
    · split <;> simp (decide := true)
    · split <;> simp (decide := true)

@[simp] theorem erase_enterService {w : Fields} (hw : Fields.within { ctrs := true, grp := true, recd := true } w = true)
    (s : State) (r : EvRec) : erase w (enterService s r) = erase w s := by
  refine erase_mono hw ?_
  unfold enterService
  simp (decide := true)

@[simp] theorem erase_updQuad {w : Fields} (hw : Fields.within { quads := true } w = true) (s : State) (q : Nat) (f : Quad → Quad) :
    erase w (updQuad s q f) = erase w s := by
  refine erase_mono hw ?_
  unfold updQuad
  simp (decide := true)

@[simp] theorem erase_place {w : Fields} (hw : Fields.within { ctrs := true, quads := true, grp := true, recd := true } w = true)
    (s : State) (r : EvRec) : erase w (place s r) = erase w s := by
  refine erase_mono hw ?_
  unfold place
  simp (decide := true)

@[simp] theorem erase_recordEv {w : Fields} (hw : Fields.within { ctrs := true, quads := true, fns := true, insts := true, grp := true, recd := true, out := true } w = true)
    (s : State) (e : Ev) (die : Nat) (p0 : Nat := 0) (p1 : Nat := 0) (p2 : Nat := 0) (p3 : Nat := 0) (summary : Bool := false) :
    erase w (recordEv s e die p0 p1 p2 p3 summary) = erase w s := by
  refine erase_mono hw ?_
  unfold recordEv
  simp (decide := true)

@[simp] theorem erase_updPort {w : Fields} (hw : Fields.within { ports := true } w = true) (s : State) (p : Nat) (f : Port → Port) :
    erase w (updPort s p f) = erase w s := by
  refine erase_mono hw ?_
  unfold updPort
  simp (decide := true)

@[simp] theorem erase_laneTx {w : Fields} (hw : Fields.within { out := true } w = true) (s : State) (l what : Nat) :
    erase w (laneTx s l what) = erase w s := by
  refine erase_mono hw ?_
  unfold laneTx
  simp (decide := true)

@[simp] theorem erase_showLane {w : Fields} (hw : Fields.within { out := true } w = true) (s : State) (l : Nat) :
    erase w (showLane s l) = erase w s := by
  refine erase_mono hw ?_
  unfold showLane
  simp (decide := true)

@[simp] theorem erase_requestWake {w : Fields} (hw : Fields.within { ports := true, out := true } w = true)
    (s : State) (p cls : Nat) : erase w (requestWake s p cls) = erase w s := by
  refine erase_mono hw ?_
  unfold requestWake
  simp (decide := true)

@[simp] theorem erase_putLtb {w : Fields} (hw : Fields.within { ports := true, ctrs := true, out := true } w = true)
    (s : State) (p : Nat) (lane : Option Nat) (h : LtbTx) (b : LtbBody) : erase w (putLtb s p lane h b) = erase w s := by
  refine erase_mono hw ?_
  rfl

@[simp] theorem erase_sendLtb {w : Fields} (hw : Fields.within { ports := true, ctrs := true, out := true } w = true)
    (s : State) (p : Nat) (lane : Option Nat) (cls : Nat) (h : LtbTx) (b : LtbBody) :
    erase w (sendLtb s p lane cls h b) = erase w s := by
  refine erase_mono hw ?_
  unfold sendLtb
  simp (decide := true)

@[simp] theorem erase_sendSeq {w : Fields} (hw : Fields.within { ports := true, ctrs := true, out := true } w = true)
    (s : State) (p : Nat) (abortEnd : Bool) (startOff : Nat) (b : LtbBody) : erase w (sendSeq s p abortEnd startOff b) = erase w s := by
  refine erase_mono hw ?_
  unfold sendSeq
  simp (decide := true)

@[simp] theorem erase_sendCtrl {w : Fields} (hw : Fields.within { ports := true, ctrs := true, out := true } w = true)
    (s : State) (p op : Nat) (mask : BitVec 16) : erase w (sendCtrl s p op mask) = erase w s := by
  refine erase_mono hw ?_
  unfold sendCtrl
  simp (decide := true)

@[simp] theorem erase_creditLtbs {w : Fields} (hw : Fields.within { ports := true, ctrs := true, out := true } w = true)
    (s : State) (p : Nat) (x0 : Nat) : erase w (creditLtbs s p x0) = erase w s := by
  refine erase_mono hw ?_
  induction x0 generalizing s with
  | zero => simp (decide := true) [creditLtbs]
  | succ k ih =>
    unfold creditLtbs
    (repeat' split) <;> simp (decide := true) [ih]

@[simp] theorem erase_sendCredits {w : Fields} (hw : Fields.within { ports := true, ctrs := true, out := true } w = true)
    (s : State) (p : Nat) : erase w (sendCredits s p) = erase w s := by
  refine erase_mono hw ?_
  unfold sendCredits
  simp (decide := true)

@[simp] theorem erase_freeOrigin {w : Fields} (hw : Fields.within { ports := true, ctrs := true, quads := true, out := true } w = true)
    (s : State) (o : Origin) : erase w (freeOrigin s o) = erase w s := by
  refine erase_mono hw ?_
  unfold freeOrigin
  (repeat' split) <;> simp (decide := true)

@[simp] theorem erase_dropNofit {w : Fields} (hw : Fields.within { ports := true, ctrs := true, quads := true, fns := true, insts := true, grp := true, recd := true, out := true } w = true)
    (s : State) (p vc : Nat) (qs : List QPkt) : erase w (dropNofit s p vc qs) = erase w s := by
  refine erase_mono hw ?_
  induction qs generalizing s with
  | nil => rfl
  | cons a l ih =>
    unfold dropNofit
    split
    · dsimp only; rw [ih]; simp (decide := true)
    · rfl

@[simp] theorem erase_dropAllNofit {w : Fields} (hw : Fields.within { ports := true, ctrs := true, quads := true, fns := true, insts := true, grp := true, recd := true, out := true } w = true)
    (s : State) (p : Nat) : erase w (dropAllNofit s p) = erase w s := by
  refine erase_mono hw ?_
  unfold dropAllNofit
  simp (decide := true)

@[simp] theorem erase_adoptAlmanac {w : Fields} (hw : Fields.within { ports := true, ctrs := true, quads := true, fns := true, insts := true, grp := true, recd := true, out := true } w = true)
    (s : State) (p : Nat) (base : BitVec 64) : erase w (adoptAlmanac s p base) = erase w s := by
  refine erase_mono hw ?_
  unfold adoptAlmanac
  simp (decide := true)

@[simp] theorem erase_almanacDue {w : Fields} (hw : Fields.within { ports := true, ctrs := true, quads := true, fns := true, insts := true, grp := true, recd := true, out := true } w = true)
    (s : State) (p : Nat) : erase w (almanacDue s p) = erase w s := by
  refine erase_mono hw ?_
  unfold almanacDue
  simp (decide := true)

@[simp] theorem erase_mgmtQueue {w : Fields} (hw : Fields.within { grp := true } w = true)
    (s : State) (port : Option Nat) (p : Pkt) : erase w (mgmtQueue s port p) = erase w s := by
  refine erase_mono hw ?_
  unfold mgmtQueue
  simp (decide := true)

@[simp] theorem erase_sendOut {w : Fields} (hw : Fields.within { ctrs := true, grp := true } w = true)
    (s : State) (port type : Nat) (mh : MgmtHdr) (body : List Byte) : erase w (sendOut s port type mh body) = erase w s := by
  refine erase_mono hw ?_
  unfold sendOut
  simp (decide := true)

@[simp] theorem erase_sendPath {w : Fields} (hw : Fields.within { ctrs := true, grp := true } w = true)
    (s : State) (type : Nat) (mh : MgmtHdr) (body : List Byte) : erase w (sendPath s type mh body) = erase w s := by
  refine erase_mono hw ?_
  unfold sendPath
  simp (decide := true)

@[simp] theorem erase_distOut {w : Fields} (hw : Fields.within { ctrs := true, grp := true } w = true)
    (s : State) (ports : List Nat) (body : List Byte) : erase w (distOut s ports body) = erase w s := by
  refine erase_mono hw ?_
  unfold distOut
  simp (decide := true)

@[simp] theorem erase_dma {w : Fields} (hw : Fields.within { out := true } w = true)
    (s : State) (f addr : Nat) (bytes : List Byte) : erase w (dma s f addr bytes) = erase w s := by
  refine erase_mono hw ?_
  unfold dma
  simp (decide := true)

@[simp] theorem erase_updAq {w : Fields} (hw : Fields.within { fns := true } w = true) (s : State) (f : Nat) (g : AdminQ → AdminQ) :
    erase w (updAq s f g) = erase w s := by
  refine erase_mono hw ?_
  rfl

@[simp] theorem erase_aqSettle {w : Fields} (hw : Fields.within { fns := true } w = true) (s : State) (f : Nat) :
    erase w (aqSettle s f) = erase w s := by
  refine erase_mono hw ?_
  unfold aqSettle
  simp (decide := true)

@[simp] theorem erase_aqComplete {w : Fields} (hw : Fields.within { fns := true, out := true } w = true)
    (s : State) (f tag status r0 r1 : Nat) : erase w (aqComplete s f tag status r0 r1) = erase w s := by
  refine erase_mono hw ?_
  unfold aqComplete
  simp (decide := true)

@[simp] theorem erase_aqFlush {w : Fields} (hw : Fields.within { fns := true, out := true } w = true) (s : State) (f : Nat) :
    erase w (aqFlush s f) = erase w s := by
  refine erase_mono hw ?_
  unfold aqFlush
  simp (decide := true) [erase_foldl]

@[simp] theorem erase_aqError {w : Fields} (hw : Fields.within { fns := true, insts := true, out := true } w = true)
    (s : State) (f status : Nat) : erase w (aqError s f status) = erase w s := by
  refine erase_mono hw ?_
  unfold aqError
  simp (decide := true)

@[simp] theorem erase_aqSweep {w : Fields} (hw : Fields.within { fns := true, out := true } w = true)
    (s : State) (f : Nat) (x0 : Nat) : erase w (aqSweep s f x0) = erase w s := by
  refine erase_mono hw ?_
  induction x0 generalizing s with
  | zero => simp (decide := true) [aqSweep]
  | succ k ih =>
    unfold aqSweep
    (repeat' split) <;> simp (decide := true) [ih]

@[simp] theorem erase_aqSweepAll {w : Fields} (hw : Fields.within { fns := true, out := true } w = true) (s : State) (f : Nat) :
    erase w (aqSweepAll s f) = erase w s := by
  refine erase_mono hw ?_
  unfold aqSweepAll
  simp (decide := true)

@[simp] theorem erase_aqTaken {w : Fields} (hw : Fields.within { fns := true } w = true) (s : State) (f : Nat) (e : List Byte) :
    erase w (aqTaken s f e) = erase w s := by
  refine erase_mono hw ?_
  unfold aqTaken
  simp (decide := true)

@[simp] theorem erase_runAq {w : Fields} (hw : Fields.within { fns := true, out := true } w = true)
    (s : State) (f op : Nat) (act : State → List Byte → State × AqAnswer) (hact : ∀ z y, erase w (act z y).1 = erase w z) :
    erase w (runAq s f op act) = erase w s := by
  have taken := fun e => erase_mono hw (erase_aqTaken (by decide) s f e)
  have completes := fun z tag st r0 r1 => erase_mono hw (erase_aqComplete (by decide) z f tag st r0 r1)
  have sweeps := fun z => erase_mono hw (erase_aqSweepAll (by decide) z f)
  unfold runAq
  split
  · rfl
  · dsimp only
    split <;> (split <;> simp [sweeps, completes, hact, taken])

@[simp] theorem erase_updEp {w : Fields} (hw : Fields.within { ep := true } w = true) (s : State) (f : Endpoint → Endpoint) :
    erase w (updEp s f) = erase w s := by
  refine erase_mono hw ?_
  unfold updEp
  simp (decide := true)

@[simp] theorem erase_createCq {w : Fields} (hw : Fields.within { quads := true, fns := true, ep := true, out := true } w = true)
    (s : State) (f : Nat) (e : List Byte) (head : DbRec) : erase w (createCq s f e head).1 = erase w s := by
  refine erase_mono hw ?_
  unfold createCq
  dsimp only
  (repeat' split) <;> simp_all (decide := true)

@[simp] theorem erase_createEq {w : Fields} (hw : Fields.within { quads := true, ep := true } w = true)
    (s : State) (f : Nat) (e : List Byte) : erase w (createEq s f e).1 = erase w s := by
  refine erase_mono hw ?_
  unfold createEq
  dsimp only
  (repeat' split) <;> simp_all (decide := true)

@[simp] theorem erase_createPd {w : Fields} (hw : Fields.within { quads := true, ep := true } w = true)
    (s : State) (f : Nat) (e : List Byte) : erase w (createPd s f e).1 = erase w s := by
  refine erase_mono hw ?_
  unfold createPd
  dsimp only
  (repeat' split) <;> simp_all (decide := true)

@[simp] theorem erase_drawn {w : Fields} (hw : Fields.within { free := true } w = true) (s : State) :
    erase w (drawn s) = erase w s := by
  refine erase_mono hw ?_
  unfold drawn
  simp (decide := true)

@[simp] theorem erase_updHost {w : Fields} (hw : Fields.within { eps := true } w = true)
    (s : State) (e : Nat) (f : HostEp → HostEp) : erase w (updHost s e f) = erase w s := by
  refine erase_mono hw ?_
  unfold updHost
  simp (decide := true)

@[simp] theorem erase_updQp {w : Fields} (hw : Fields.within { ep := true } w = true) (s : State) (q : Nat) (f : Qp → Qp) :
    erase w (updQp s q f) = erase w s := by
  refine erase_mono hw ?_
  unfold updQp
  simp (decide := true)

@[simp] theorem erase_denied {w : Fields} (hw : Fields.within { ctrs := true, quads := true, fns := true, insts := true, grp := true, recd := true, out := true } w = true)
    (s : State) (m target : Nat) : erase w (denied s m target) = erase w s := by
  refine erase_mono hw ?_
  unfold denied
  simp (decide := true)

@[simp] theorem erase_pageOut {w : Fields} (hw : Fields.within { ctrs := true, quads := true, eps := true, fns := true, insts := true, ep := true, grp := true, recd := true, out := true, free := true } w = true)
    (s : State) (q : Nat) : erase w (pageOut s q) = erase w s := by
  refine erase_mono hw ?_
  unfold pageOut
  (repeat' split) <;> simp (decide := true)

theorem erase_takeSlot {w : Fields} (hw : Fields.within { ctrs := true, quads := true, eps := true, fns := true, insts := true, ep := true, grp := true, recd := true, out := true, free := true } w = true)
    (s : State) (stack : Nat) : ∀ t, takeSlot s stack = some t → erase w t = erase w s := by
  intro t h
  refine erase_mono hw ?_
  unfold takeSlot at h
  dsimp only at h
  split at h
  · cases h; simp (decide := true)
  · split at h
    · cases h
    · split at h
      · cases h; simp (decide := true)
      · cases h

@[simp] theorem erase_createQp {w : Fields} (hw : Fields.within { ctrs := true, quads := true, eps := true, fns := true, insts := true, ep := true, grp := true, recd := true, out := true, free := true } w = true)
    (s : State) (f : Nat) (e : List Byte) (db : DbRec) : erase w (createQp s f e db).1 = erase w s := by
  refine erase_mono hw ?_
  unfold createQp
  dsimp only
  cases hslot : takeSlot s (homeOf f) with
  | none =>
    repeat' split
    any_goals rfl
    all_goals contradiction
  | some t =>
    have k := erase_takeSlot (w := { ctrs := true, quads := true, eps := true, fns := true, insts := true, ep := true, grp := true, recd := true, out := true, free := true }) (by decide) _ _ _ hslot
    repeat' split
    any_goals rfl
    all_goals simp_all (decide := true)

@[simp] theorem erase_createSrq {w : Fields} (hw : Fields.within { quads := true, fns := true, ep := true, out := true } w = true)
    (s : State) (f : Nat) (e : List Byte) (db : DbRec) : erase w (createSrq s f e db).1 = erase w s := by
  refine erase_mono hw ?_
  unfold createSrq
  dsimp only
  (repeat' split) <;> simp_all (decide := true)

@[simp] theorem erase_dropLines {w : Fields} (hw : Fields.within { ep := true } w = true) (s : State) (kind num : Nat) :
    erase w (dropLines s kind num) = erase w s := by
  refine erase_mono hw ?_
  rfl

@[simp] theorem erase_freeNumber {w : Fields} (hw : Fields.within { ep := true } w = true) (s : State) (q : Nat) :
    erase w (freeNumber s q) = erase w s := by
  refine erase_mono hw ?_
  rfl

@[simp] theorem erase_freeCq {w : Fields} (hw : Fields.within { quads := true, fns := true, ep := true } w = true)
    (s : State) (q : Nat) : erase w (freeCq s q) = erase w s := by
  refine erase_mono hw ?_
  unfold freeCq
  (repeat' split) <;> simp (decide := true)

@[simp] theorem erase_destroyCq {w : Fields} (hw : Fields.within { quads := true, fns := true, ep := true } w = true)
    (s : State) (f : Nat) (e : List Byte) : erase w (destroyCq s f e).1 = erase w s := by
  refine erase_mono hw ?_
  unfold destroyCq
  dsimp only
  (repeat' split) <;> simp_all (decide := true)

@[simp] theorem erase_freeEq {w : Fields} (hw : Fields.within { quads := true, ep := true } w = true) (s : State) (q : Nat) :
    erase w (freeEq s q) = erase w s := by
  refine erase_mono hw ?_
  unfold freeEq
  (repeat' split) <;> simp (decide := true)

@[simp] theorem erase_destroyEq {w : Fields} (hw : Fields.within { quads := true, ep := true } w = true)
    (s : State) (f : Nat) (e : List Byte) : erase w (destroyEq s f e).1 = erase w s := by
  refine erase_mono hw ?_
  unfold destroyEq
  dsimp only
  (repeat' split) <;> simp_all (decide := true)

@[simp] theorem erase_freePd {w : Fields} (hw : Fields.within { quads := true, ep := true } w = true) (s : State) (d : Nat) :
    erase w (freePd s d) = erase w s := by
  refine erase_mono hw ?_
  unfold freePd
  (repeat' split) <;> simp (decide := true)

@[simp] theorem erase_destroyPd {w : Fields} (hw : Fields.within { quads := true, ep := true } w = true)
    (s : State) (f : Nat) (e : List Byte) : erase w (destroyPd s f e).1 = erase w s := by
  refine erase_mono hw ?_
  unfold destroyPd
  dsimp only
  (repeat' split) <;> simp_all (decide := true)

@[simp] theorem erase_clearAqEnable {w : Fields} (hw : Fields.within { fns := true, out := true } w = true)
    (s : State) (fn : Nat) (irqEn : Bool) : erase w (clearAqEnable s fn irqEn) = erase w s := by
  refine erase_mono hw ?_
  unfold clearAqEnable
  simp (decide := true)

@[simp] theorem erase_setAqEnable {w : Fields} (hw : Fields.within { fns := true } w = true) (s : State) (fn : Nat) (irqEn : Bool) :
    erase w (setAqEnable s fn irqEn) = erase w s := by
  refine erase_mono hw ?_
  unfold setAqEnable
  simp (decide := true)

@[simp] theorem erase_invalidate {w : Fields} (hw : Fields.within { ctrs := true, fns := true } w = true)
    (s : State) (f : Nat) (e : List Byte) : erase w (invalidate s f e).1 = erase w s := by
  refine erase_mono hw ?_
  unfold invalidate
  dsimp only
  (repeat' split) <;> simp_all (decide := true)

@[simp] theorem erase_stepDone {w : Fields} (hw : Fields.within { boot := true } w = true) (s : State) (f : BootSteps → BootSteps) :
    erase w (stepDone s f) = erase w s := by
  refine erase_mono hw ?_
  unfold stepDone
  simp (decide := true)

@[simp] theorem erase_loadAccess {w : Fields} (hw : Fields.within { access := true } w = true) (s : State) :
    erase w (loadAccess s) = erase w s := by
  refine erase_mono hw ?_
  unfold loadAccess
  simp (decide := true)

@[simp] theorem erase_applyRetired {w : Fields} (hw : Fields.within { quads := true } w = true) (s : State) :
    erase w (applyRetired s) = erase w s := by
  refine erase_mono hw ?_
  unfold applyRetired
  simp (decide := true)

@[simp] theorem erase_applyHostModes {w : Fields} (hw : Fields.within { hostMode := true } w = true) (s : State) :
    erase w (applyHostModes s) = erase w s := by
  refine erase_mono hw ?_
  unfold applyHostModes
  simp (decide := true)

@[simp] theorem erase_sendTree {w : Fields} (hw : Fields.within { ep := true } w = true)
    (s : State) (id : Nat) (t : Tree) (p : Nat) (c : CollHdr) (payload : List Byte) :
    erase w (sendTree s id t p c payload) = erase w s := by
  refine erase_mono hw ?_
  unfold sendTree
  simp (decide := true)

@[simp] theorem erase_updTree {w : Fields} (hw : Fields.within { ep := true } w = true) (s : State) (id : Nat) (f : Tree → Tree) :
    erase w (updTree s id f) = erase w s := by
  refine erase_mono hw ?_
  unfold updTree
  simp (decide := true)

@[simp] theorem erase_countFlags {w : Fields} (hw : Fields.within { ctrs := true } w = true)
    (s : State) (id : Nat) (t : Tree) (c : Coll) : erase w (countFlags s id t c) = erase w s := by
  refine erase_mono hw ?_
  unfold countFlags
  simp (decide := true)

@[simp] theorem erase_collAbortEvent {w : Fields} (hw : Fields.within { ctrs := true, quads := true, fns := true, insts := true, grp := true, recd := true, out := true } w = true)
    (s : State) (id : Nat) (seq : BitVec 32) (st : Nat) : erase w (collAbortEvent s id seq st) = erase w s := by
  refine erase_mono hw ?_
  unfold collAbortEvent
  simp (decide := true)

@[simp] theorem erase_sendTreeCredit {w : Fields} (hw : Fields.within { ep := true } w = true) (s : State) (id e n : Nat) :
    erase w (sendTreeCredit s id e n) = erase w s := by
  refine erase_mono hw ?_
  unfold sendTreeCredit
  (repeat' split) <;> simp (decide := true)

@[simp] theorem erase_countStatus {w : Fields} (hw : Fields.within { ctrs := true } w = true) (s : State) (ep status : Nat) :
    erase w (countStatus s ep status) = erase w s := by
  refine erase_mono hw ?_
  unfold countStatus
  simp (decide := true)

@[simp] theorem erase_setMesh {w : Fields} (hw : Fields.within { quads := true } w = true) (s : State) (a b : Nat) (m : MeshDir) :
    erase w (setMesh s a b m) = erase w s := by
  refine erase_mono hw ?_
  unfold setMesh
  simp (decide := true)

@[simp] theorem erase_cohSend {w : Fields} (hw : Fields.within { quads := true, out := true } w = true)
    (s : State) (msg src dst : Nat) (l : LineId) (acks : Nat) : erase w (cohSend s msg src dst l acks) = erase w s := by
  refine erase_mono hw ?_
  unfold cohSend
  simp (decide := true)

@[simp] theorem erase_sendFwd {w : Fields} (hw : Fields.within { ctrs := true, quads := true, out := true } w = true)
    (s : State) (home msg dst : Nat) (l : LineId) (acks : Nat) : erase w (sendFwd s home msg dst l acks) = erase w s := by
  refine erase_mono hw ?_
  unfold sendFwd
  simp (decide := true)

@[simp] theorem erase_updDir {w : Fields} (hw : Fields.within { ep := true } w = true) (s : State) (l : LineId) (f : Dir → Dir) :
    erase w (updDir s l f) = erase w s := by
  refine erase_mono hw ?_
  rfl

@[simp] theorem erase_homeGetS {w : Fields} (hw : Fields.within { ctrs := true, quads := true, ep := true, out := true } w = true)
    (s : State) (home req : Nat) (l : LineId) : erase w (homeGetS s home req l) = erase w s := by
  refine erase_mono hw ?_
  unfold homeGetS
  dsimp only
  (repeat' split) <;> simp_all (decide := true)

@[simp] theorem erase_lineOut {w : Fields} (hw : Fields.within { out := true } w = true) (s : State) (c : Nat) (l : LineId) :
    erase w (lineOut s c l) = erase w s := by
  refine erase_mono hw ?_
  unfold lineOut
  simp (decide := true)

@[simp] theorem erase_homePut {w : Fields} (hw : Fields.within { quads := true, ep := true, out := true } w = true)
    (s : State) (home req : Nat) (l : LineId) : erase w (homePut s home req l) = erase w s := by
  refine erase_mono hw ?_
  unfold homePut
  simp (decide := true)

@[simp] theorem erase_invSharers {w : Fields} (hw : Fields.within { ctrs := true, quads := true, out := true } w = true)
    (s : State) (home : Nat) (l : LineId) (who : List Nat) : erase w (invSharers s home l who) = erase w s := by
  refine erase_mono hw ?_
  unfold invSharers
  simp (decide := true) [erase_foldl]

@[simp] theorem erase_homeGetM {w : Fields} (hw : Fields.within { ctrs := true, quads := true, ep := true, out := true } w = true)
    (s : State) (home req : Nat) (l : LineId) : erase w (homeGetM s home req l) = erase w s := by
  refine erase_mono hw ?_
  unfold homeGetM
  simp (decide := true)

@[simp] theorem erase_homeUpgrade {w : Fields} (hw : Fields.within { ctrs := true, quads := true, ep := true, out := true } w = true)
    (s : State) (home req : Nat) (l : LineId) : erase w (homeUpgrade s home req l) = erase w s := by
  refine erase_mono hw ?_
  unfold homeUpgrade
  simp (decide := true)

@[simp] theorem erase_homeServe {w : Fields} (hw : Fields.within { ctrs := true, quads := true, ep := true, out := true } w = true)
    (s : State) (home : Nat) (k : CohReq) (req : Nat) (l : LineId) : erase w (homeServe s home k req l) = erase w s := by
  refine erase_mono hw ?_
  unfold homeServe
  (repeat' split) <;> simp (decide := true)

@[simp] theorem erase_sendReq {w : Fields} (hw : Fields.within { ctrs := true, quads := true, ep := true, out := true } w = true)
    (s : State) (home : Nat) (k : CohReq) (c : Nat) (l : LineId) : erase w (sendReq s home k c l) = erase w s := by
  refine erase_mono hw ?_
  unfold sendReq
  simp (decide := true)

@[simp] theorem erase_updLine {w : Fields} (hw : Fields.within { ep := true } w = true)
    (s : State) (c : Nat) (l : LineId) (f : CLine → CLine) : erase w (updLine s c l f) = erase w s := by
  refine erase_mono hw ?_
  rfl

@[simp] theorem erase_lookup {w : Fields} (hw : Fields.within { ctrs := true, quads := true, ep := true, out := true } w = true)
    (s : State) (k : CohReq) (c : Nat) (l : LineId) : erase w (lookup s k c l) = erase w s := by
  refine erase_mono hw ?_
  unfold lookup
  (repeat' split) <;> simp (decide := true)

theorem erase_engineUse {w : Fields} (hw : Fields.within { ctrs := true, quads := true, fns := true, insts := true, ep := true, grp := true, recd := true, out := true } w = true)
    (s : State) (quad eng : Nat) (wr : Bool) (l : LineId) :
    ∀ t, engineUse s quad eng wr l = .inl t ∨ engineUse s quad eng wr l = .inr t → erase w t = erase w s := by
  intro t h
  refine erase_mono hw ?_
  unfold engineUse at h
  split at h
  · rcases h with h | h <;> cases h; rfl
  · split at h <;> rcases h with h | h <;> cases h <;> simp (decide := true)

theorem erase_useLine {w : Fields} (hw : Fields.within { ctrs := true, quads := true, fns := true, insts := true, ep := true, grp := true, recd := true, out := true } w = true)
    (s : State) (f eng : Nat) (wr : Bool) (kind num : Nat) :
    ∀ t, useLine s f eng wr kind num = .inl t ∨ useLine s f eng wr kind num = .inr t → erase w t = erase w s :=
  erase_engineUse hw s _ eng wr _

@[simp] theorem erase_signalVec {w : Fields} (hw : Fields.within { fns := true, out := true } w = true) (s : State) (f vec : Nat) :
    erase w (signalVec s f vec) = erase w s := by
  refine erase_mono hw ?_
  unfold signalVec
  simp (decide := true)

@[simp] theorem erase_updEq {w : Fields} (hw : Fields.within { ep := true } w = true) (s : State) (c : Nat) (f : Eq → Eq) :
    erase w (updEq s c f) = erase w s := by
  refine erase_mono hw ?_
  unfold updEq
  simp (decide := true)

@[simp] theorem erase_writeEq {w : Fields} (hw : Fields.within { ctrs := true, quads := true, fns := true, insts := true, ep := true, grp := true, recd := true, out := true } w = true)
    (s : State) (f kind status qkind num : Nat) (wqe : BitVec 16) : erase w (writeEq s f kind status qkind num wqe) = erase w s := by
  refine erase_mono hw ?_
  unfold writeEq
  split
  · rfl
  · split
    · rfl
    · split <;> rename_i t e
      · exact erase_useLine (by decide) _ _ _ _ _ _ _ (.inl e)
      · have k := erase_useLine (w := { ctrs := true, quads := true, fns := true, insts := true, ep := true, grp := true, recd := true, out := true }) (by decide) _ _ _ _ _ _ _ (.inr e)
        simpa (decide := true) using k

@[simp] theorem erase_updCq {w : Fields} (hw : Fields.within { ep := true } w = true) (s : State) (c : Nat) (f : Cq → Cq) :
    erase w (updCq s c f) = erase w s := by
  refine erase_mono hw ?_
  unfold updCq
  simp (decide := true)

@[simp] theorem erase_putCqe {w : Fields} (hw : Fields.within { fns := true, ep := true, out := true } w = true)
    (s : State) (n : Nat) (c : Cq) (e : CqEnt) (solicit : Bool) : erase w (putCqe s n c e solicit) = erase w s := by
  refine erase_mono hw ?_
  unfold putCqe
  simp (decide := true)

@[simp] theorem erase_cqComplete {w : Fields} (hw : Fields.within { ctrs := true, quads := true, fns := true, insts := true, ep := true, grp := true, recd := true, out := true } w = true)
    (s : State) (n : Nat) (e : CqEnt) (solicit : Bool := false) : erase w (cqComplete s n e solicit) = erase w s := by
  refine erase_mono hw ?_
  unfold cqComplete
  split
  · rfl
  · split
    · rfl
    · split
      · simp (decide := true)
      · split <;> rename_i t e
        · exact erase_useLine (by decide) _ _ _ _ _ _ _ (.inl e)
        · have k := erase_useLine (w := { ctrs := true, quads := true, fns := true, insts := true, ep := true, grp := true, recd := true, out := true }) (by decide) _ _ _ _ _ _ _ (.inr e)
          split <;> simpa (decide := true) using k

@[simp] theorem erase_reportSend {w : Fields} (hw : Fields.within { ctrs := true, quads := true, fns := true, insts := true, ep := true, grp := true, recd := true, out := true } w = true)
    (s : State) (q : Nat) (x : Qp) (wqe : BitVec 16) (signal : Bool) (op status bytes : Nat) (extra : List Byte) :
    erase w (reportSend s q x wqe signal op status bytes extra) = erase w s := by
  refine erase_mono hw ?_
  unfold reportSend
  (repeat' split) <;> simp (decide := true)

@[simp] theorem erase_updSrq {w : Fields} (hw : Fields.within { ep := true } w = true) (s : State) (q : Nat) (f : Srq → Srq) :
    erase w (updSrq s q f) = erase w s := by
  refine erase_mono hw ?_
  unfold updSrq
  simp (decide := true)

@[simp] theorem erase_updRing {w : Fields} (hw : Fields.within { ep := true } w = true) (s : State) (q : Nat) (f : Ring → Ring) :
    erase w (updRing s q f) = erase w s := by
  refine erase_mono hw ?_
  unfold updRing
  simp (decide := true)

@[simp] theorem erase_completeEnt {w : Fields} (hw : Fields.within { ctrs := true, quads := true, fns := true, insts := true, ep := true, grp := true, recd := true, out := true } w = true)
    (s : State) (q : Nat) (idx : BitVec 32) (status bytes : Nat) (extra : List Byte := []) :
    erase w (completeEnt s q idx status bytes extra) = erase w s := by
  refine erase_mono hw ?_
  unfold completeEnt
  (repeat' split) <;> simp (decide := true)

@[simp] theorem erase_endColl {w : Fields} (hw : Fields.within { ctrs := true, quads := true, fns := true, insts := true, ep := true, grp := true, recd := true, out := true } w = true)
    (s : State) (id : Nat) (seq : BitVec 32) (st : Nat) (from_ : Option Nat) : erase w (endColl s id seq st from_) = erase w s := by
  refine erase_mono hw ?_
  unfold endColl
  split
  · rfl
  · next t _ =>
    split
    · rfl
    · dsimp only
      generalize htold : foldS _ s _ = u
      have told : erase { ctrs := true, quads := true, fns := true, insts := true, ep := true, grp := true, recd := true, out := true } u = erase { ctrs := true, quads := true, fns := true, insts := true, ep := true, grp := true, recd := true, out := true } s := by
        rw [← htold]
        exact erase_foldS _ _ _ fun z e => by split <;> simp (decide := true)
      refine (erase_collAbortEvent (by decide) _ _ _ _).trans ?_
      rw [erase_count (by decide), erase_updTree (by decide), erase_foldl _ (fun _ _ => by simp (decide := true))]
      split
      · exact told
      · simp (decide := true) [erase_foldl, told]

@[simp] theorem erase_updStep {w : Fields} (hw : Fields.within { pstepC := true, pstepS := true } w = true)
    (s : State) (g : Nat) (f : PStep → PStep) : erase w (updStep s g f) = erase w s := by
  refine erase_mono hw ?_
  unfold updStep
  simp (decide := true)

@[simp] theorem erase_driveCode {w : Fields} (hw : Fields.within { out := true } w = true) (s : State) (g c : Nat) :
    erase w (driveCode s g c) = erase w s := by
  refine erase_mono hw ?_
  unfold driveCode
  simp (decide := true)

@[simp] theorem erase_sendRise {w : Fields} (hw : Fields.within { ctrs := true, pstepC := true, pstepS := true, out := true } w = true)
    (s : State) (g c : Nat) : erase w (sendRise s g c) = erase w s := by
  refine erase_mono hw ?_
  unfold sendRise
  simp (decide := true)

@[simp] theorem erase_notifyRise {w : Fields} (hw : Fields.within { ctrs := true, pstepC := true, pstepS := true, out := true } w = true)
    (s : State) (g amps : Nat) : erase w (notifyRise s g amps) = erase w s := by
  refine erase_mono hw ?_
  unfold notifyRise
  simp (decide := true)

@[simp] theorem erase_forecast {w : Fields} (hw : Fields.within { ctrs := true, pstepC := true, pstepS := true, out := true, free := true } w = true)
    (s : State) (g amount : Nat) : erase w (forecast s g amount) = erase w s := by
  refine erase_mono hw ?_
  unfold forecast
  simp (decide := true)

@[simp] theorem erase_activate {w : Fields} (hw : Fields.within { ctrs := true, ep := true, pstepC := true, pstepS := true, out := true, free := true } w = true)
    (s : State) (id : Nat) (h : CollHdr) : erase w (activate s id h) = erase w s := by
  refine erase_mono hw ?_
  unfold activate
  simp (decide := true)

@[simp] theorem erase_updColl {w : Fields} (hw : Fields.within { ep := true } w = true)
    (s : State) (id : Nat) (seq : BitVec 32) (f : Coll → Coll) : erase w (updColl s id seq f) = erase w s := by
  refine erase_mono hw ?_
  unfold updColl
  simp (decide := true)

@[simp] theorem erase_addBlocks {w : Fields} (hw : Fields.within { ctrs := true, ep := true } w = true)
    (s : State) (id : Nat) (seq : BitVec 32) (edge : Nat) (x0 : List Contrib) (x1 : Nat) :
    erase w (addBlocks s id seq edge x0 x1) = erase w s := by
  refine erase_mono hw ?_
  induction x0 generalizing s x1 with
  | nil => simp (decide := true) [addBlocks]
  | cons a l ih =>
    unfold addBlocks
    (repeat' split) <;> simp (decide := true) [ih]

@[simp] theorem erase_updEdge {w : Fields} (hw : Fields.within { ep := true } w = true) (s : State) (id e : Nat) (f : Edge → Edge) :
    erase w (updEdge s id e f) = erase w s := by
  refine erase_mono hw ?_
  unfold updEdge
  simp (decide := true)

@[simp] theorem erase_countEnc {w : Fields} (hw : Fields.within { ctrs := true } w = true)
    (s : State) (id : Nat) (payload : List Byte) : erase w (countEnc s id payload) = erase w s := by
  refine erase_mono hw ?_
  unfold countEnc
  (repeat' split) <;> simp (decide := true)

@[simp] theorem erase_pumpUp {w : Fields} (hw : Fields.within { ctrs := true, ep := true } w = true)
    (s : State) (id : Nat) (x0 : Nat) : erase w (pumpUp s id x0) = erase w s := by
  refine erase_mono hw ?_
  induction x0 generalizing s with
  | zero => simp (decide := true) [pumpUp]
  | succ k ih =>
    unfold pumpUp
    (repeat' split) <;> simp (decide := true) [ih]

@[simp] theorem erase_allEmpty {w : Fields} (hw : Fields.within { ctrs := true, quads := true, fns := true, insts := true, ep := true, grp := true, recd := true, out := true } w = true)
    (s : State) (id : Nat) (seq : BitVec 32) : erase w (allEmpty s id seq) = erase w s := by
  refine erase_mono hw ?_
  unfold allEmpty
  (repeat' split) <;> simp (decide := true)

@[simp] theorem erase_finishColl {w : Fields} (hw : Fields.within { ctrs := true, ep := true } w = true)
    (s : State) (id : Nat) (seq : BitVec 32) : erase w (finishColl s id seq) = erase w s := by
  refine erase_mono hw ?_
  unfold finishColl
  (repeat' split) <;> simp (decide := true)

@[simp] theorem erase_pumpDown {w : Fields} (hw : Fields.within { ctrs := true, ep := true } w = true)
    (s : State) (id : Nat) (x0 : Nat) : erase w (pumpDown s id x0) = erase w s := by
  refine erase_mono hw ?_
  induction x0 generalizing s with
  | zero => simp (decide := true) [pumpDown]
  | succ k ih => (unfold pumpDown; simp only; repeat' split) <;> simp_all (decide := true)

@[simp] theorem erase_dmaScatter {w : Fields} (hw : Fields.within { out := true } w = true)
    (s : State) (x0 : List (Nat × Nat × Nat)) (x1 : List Byte) : erase w (dmaScatter s x0 x1) = erase w s := by
  refine erase_mono hw ?_
  induction x0 generalizing s x1 with
  | nil => simp (decide := true) [dmaScatter]
  | cons a l ih =>
    unfold dmaScatter
    (repeat' split) <;> simp (decide := true) [ih]

@[simp] theorem erase_cross {w : Fields} (hw : Fields.within { quads := true, out := true } w = true)
    (s : State) (a b : Nat) (h : FabHdr) : erase w (cross s a b h) = erase w s := by
  refine erase_mono hw ?_
  unfold cross
  simp (decide := true)

@[simp] theorem erase_crossOpal {w : Fields} (hw : Fields.within { quads := true, out := true } w = true)
    (s : State) (f id n : Nat) (up : Bool) : erase w (crossOpal s f id n up) = erase w s := by
  refine erase_mono hw ?_
  unfold crossOpal
  simp (decide := true)

@[simp] theorem erase_placeMember {w : Fields} (hw : Fields.within { ctrs := true, quads := true, fns := true, insts := true, ep := true, grp := true, recd := true, out := true } w = true)
    (s : State) (id : Nat) (seq : BitVec 32) (m : Member) (off : Nat) (bytes : List Byte) (blocks : Nat) :
    erase w (placeMember s id seq m off bytes blocks) = erase w s := by
  refine erase_mono hw ?_
  unfold placeMember
  dsimp only
  (repeat' split) <;> simp_all (decide := true)

@[simp] theorem erase_goDown {w : Fields} (hw : Fields.within { ctrs := true, quads := true, fns := true, insts := true, ep := true, grp := true, recd := true, out := true } w = true)
    (s : State) (id : Nat) (seq : BitVec 32) (first n : Nat) (bytes : List Byte) :
    erase w (goDown s id seq first n bytes) = erase w s := by
  refine erase_mono hw ?_
  unfold goDown
  (repeat' split) <;> simp (decide := true) [erase_foldl]

@[simp] theorem erase_finishBlock {w : Fields} (hw : Fields.within { ctrs := true, quads := true, fns := true, insts := true, ep := true, grp := true, recd := true, out := true } w = true)
    (s : State) (id : Nat) (seq : BitVec 32) (b : Nat) : erase w (finishBlock s id seq b) = erase w s := by
  refine erase_mono hw ?_
  unfold finishBlock
  dsimp only
  (repeat' split) <;> simp_all (decide := true)

@[simp] theorem erase_contribute {w : Fields} (hw : Fields.within { ctrs := true, quads := true, fns := true, insts := true, ep := true, grp := true, recd := true, pstepC := true, pstepS := true, out := true, free := true } w = true)
    (s : State) (id edge : Nat) (h : CollHdr) (xs : List Contrib) (bytes : Nat) :
    erase w (contribute s id edge h xs bytes) = erase w s := by
  refine erase_mono hw ?_
  unfold contribute
  dsimp only
  (repeat' split) <;> simp_all (decide := true)

@[simp] theorem erase_takeUp {w : Fields} (hw : Fields.within { ctrs := true, quads := true, fns := true, insts := true, ep := true, grp := true, recd := true, pstepC := true, pstepS := true, out := true, free := true } w = true)
    (s : State) (id edge : Nat) (h : CollHdr) (payload : List Byte) : erase w (takeUp s id edge h payload) = erase w s := by
  refine erase_mono hw ?_
  unfold takeUp
  (repeat' split) <;> simp (decide := true)

@[simp] theorem erase_releaseHold {w : Fields} (hw : Fields.within { ctrs := true, quads := true, fns := true, insts := true, ep := true, grp := true, recd := true, pstepC := true, pstepS := true, out := true, free := true } w = true)
    (s : State) (id : Nat) (n : Nat) : erase w (releaseHold s id n) = erase w s := by
  refine erase_mono hw ?_
  induction n generalizing s with
  | zero => rfl
  | succ k ih =>
    unfold releaseHold
    split
    · rfl
    · split
      · rfl
      · dsimp only
        split <;> (rw [ih]; simp (decide := true))

@[simp] theorem erase_abortColls {w : Fields} (hw : Fields.within { ctrs := true, quads := true, fns := true, insts := true, ep := true, grp := true, recd := true, pstepC := true, pstepS := true, out := true, free := true } w = true)
    (s : State) (q : Nat) : erase w (abortColls s q) = erase w s := by
  refine erase_mono hw ?_
  unfold abortColls
  refine erase_foldS _ _ _ fun z id => ?_
  split
  · rfl
  · exact erase_foldl _ (fun _ _ => by simp (decide := true)) _ _

@[simp] theorem erase_abortFnColls {w : Fields} (hw : Fields.within { ctrs := true, quads := true, fns := true, insts := true, ep := true, grp := true, recd := true, pstepC := true, pstepS := true, out := true, free := true } w = true)
    (s : State) (f : Nat) : erase w (abortFnColls s f) = erase w s := by
  refine erase_mono hw ?_
  unfold abortFnColls
  simp (decide := true)

@[simp] theorem erase_unmarkFor {w : Fields} (hw : Fields.within { ep := true } w = true) (s : State) (pf0 : Nat) :
    erase w (unmarkFor s pf0) = erase w s := by
  refine erase_mono hw ?_
  unfold unmarkFor
  simp (decide := true)

@[simp] theorem erase_freeChunks {w : Fields} (hw : Fields.within { quads := true, fns := true } w = true)
    (s : State) (home f n : Nat) : erase w (freeChunks s home f n) = erase w s := by
  refine erase_mono hw ?_
  unfold freeChunks
  simp (decide := true)

@[simp] theorem erase_dropWaiting {w : Fields} (hw : Fields.within { quads := true, eps := true, fns := true, ep := true } w = true)
    (s : State) (q : Nat) : erase w (dropWaiting s q) = erase w s := by
  refine erase_mono hw ?_
  unfold dropWaiting
  dsimp only
  (repeat' split) <;> simp_all (decide := true)

@[simp] theorem erase_quiesceQueues {w : Fields} (hw : Fields.within { quads := true, eps := true, fns := true, ep := true } w = true)
    (s : State) (f : Nat) : erase w (quiesceQueues s f) = erase w s := by
  refine erase_mono hw ?_
  unfold quiesceQueues
  simp (decide := true)

@[simp] theorem erase_quiesceFn {w : Fields} (hw : Fields.within { ctrs := true, quads := true, eps := true, fns := true, insts := true, ep := true, grp := true, recd := true, pstepC := true, pstepS := true, out := true, free := true } w = true)
    (s : State) (f : Nat) : erase w (quiesceFn s f) = erase w s := by
  refine erase_mono hw ?_
  unfold quiesceFn
  simp (decide := true)

@[simp] theorem erase_releasePending {w : Fields} (hw : Fields.within { fns := true, out := true } w = true) (s : State) (f : Nat) :
    erase w (releasePending s f) = erase w s := by
  refine erase_mono hw ?_
  unfold releasePending
  simp (decide := true)

@[simp] theorem erase_markQps {w : Fields} (hw : Fields.within { ep := true } w = true) (s : State) (stack : Nat) (x0 : Nat) :
    erase w (markQps s stack x0) = erase w s := by
  refine erase_mono hw ?_
  induction x0 generalizing s with
  | zero => simp (decide := true) [markQps]
  | succ k ih =>
    unfold markQps
    (repeat' split) <;> simp (decide := true) [ih]

@[simp] theorem erase_readOut {w : Fields} (hw : Fields.within { eps := true, out := true } w = true)
    (s : State) (f addr len q : Nat) : erase w (readOut s f addr len q) = erase w s := by
  refine erase_mono hw ?_
  unfold readOut
  simp (decide := true)

@[simp] theorem erase_readImage {w : Fields} (hw : Fields.within { eps := true, ep := true, out := true } w = true)
    (s : State) (q : Nat) : erase w (readImage s q) = erase w s := by
  refine erase_mono hw ?_
  unfold readImage
  (repeat' split) <;> simp (decide := true)

@[simp] theorem erase_servePageIns {w : Fields} (hw : Fields.within { quads := true, eps := true, ep := true, out := true } w = true)
    (s : State) (stack : Nat) (n : Nat) : erase w (servePageIns s stack n) = erase w s := by
  refine erase_mono hw ?_
  induction n generalizing s with
  | zero => rfl
  | succ k ih =>
    unfold servePageIns
    split
    · rfl
    · split
      · dsimp only; rw [ih]; simp (decide := true)
      · simp (decide := true)

@[simp] theorem erase_servePageIn {w : Fields} (hw : Fields.within { quads := true, eps := true, ep := true, out := true } w = true)
    (s : State) (stack : Nat) : erase w (servePageIn s stack) = erase w s := by
  refine erase_mono hw ?_
  unfold servePageIn
  (repeat' split) <;> simp (decide := true)

@[simp] theorem erase_tapSelect {w : Fields} (hw : Fields.within { pins := true } w = true) (s : State) (code : Nat) :
    erase w (tapSelect s code) = erase w s := by
  refine erase_mono hw ?_
  unfold tapSelect
  simp (decide := true)

@[simp] theorem erase_agentWrite {w : Fields} (hw : Fields.within { ctrs := true, quads := true, fns := true, insts := true, grp := true, recd := true, out := true } w = true)
    (s : State) (m part : Nat) (f : State → State) (hf : ∀ z, erase w (f z) = erase w z) :
    erase w (agentWrite s m part f) = erase w s := by
  unfold agentWrite
  simp [hf, hw]

@[simp] theorem erase_storeCoeffs {w : Fields} (hw : Fields.within { lanes := true, ctrs := true, quads := true, fns := true, insts := true, grp := true, recd := true, out := true } w = true)
    (s : State) (l : Nat) : erase w (storeCoeffs s l) = erase w s := by
  refine erase_mono hw ?_
  unfold storeCoeffs
  simp (decide := true)

@[simp] theorem erase_badFrame {w : Fields} (hw : Fields.within { ctrs := true } w = true) (s : State) :
    erase w (badFrame s) = erase w s := by
  refine erase_mono hw ?_
  unfold badFrame
  simp (decide := true)

@[simp] theorem erase_repeatFrame {w : Fields} (hw : Fields.within { ctrs := true, out := true } w = true)
    (s : State) (p : ChainPort) (f : ChainFrame) : erase w (repeatFrame s p f) = erase w s := by
  refine erase_mono hw ?_
  unfold repeatFrame
  simp (decide := true)

@[simp] theorem erase_setLock {w : Fields} (hw : Fields.within { chain := true } w = true) (s : State) (p : ChainPort) (b : Bool) :
    erase w (setLock s p b) = erase w s := by
  refine erase_mono hw ?_
  unfold setLock
  (repeat' split) <;> simp (decide := true)

@[simp] theorem erase_chainSend {w : Fields} (hw : Fields.within { out := true } w = true)
    (s : State) (p : ChainPort) (f : ChainFrame) : erase w (chainSend s p f) = erase w s := by
  refine erase_mono hw ?_
  unfold chainSend
  simp (decide := true)

@[simp] theorem erase_sendEnum {w : Fields} (hw : Fields.within { ctrs := true, chain := true, out := true } w = true)
    (s : State) (src next flags : Nat) (base : BitVec 20) : erase w (sendEnum s src next flags base) = erase w s := by
  refine erase_mono hw ?_
  unfold sendEnum
  simp (decide := true)

@[simp] theorem erase_beginEnum {w : Fields} (hw : Fields.within { ctrs := true, chain := true, out := true } w = true)
    (s : State) : erase w (beginEnum s) = erase w s := by
  refine erase_mono hw ?_
  unfold beginEnum
  simp (decide := true)

@[simp] theorem erase_homeNext {w : Fields} (hw : Fields.within { ctrs := true, quads := true, ep := true, out := true } w = true)
    (s : State) (home : Nat) (l : LineId) (x0 : Nat) : erase w (homeNext s home l x0) = erase w s := by
  refine erase_mono hw ?_
  induction x0 generalizing s with
  | zero => simp (decide := true) [homeNext]
  | succ k ih => (unfold homeNext; simp only; repeat' split) <;> simp_all (decide := true)

@[simp] theorem erase_endBusy {w : Fields} (hw : Fields.within { ctrs := true, quads := true, ep := true, out := true } w = true)
    (s : State) (l : LineId) : erase w (endBusy s l) = erase w s := by
  refine erase_mono hw ?_
  unfold endBusy
  (repeat' split) <;> simp (decide := true)

@[simp] theorem erase_markVictim {w : Fields} (hw : Fields.within { ep := true } w = true) (s : State) (c : Nat) (keep : LineId) :
    erase w (markVictim s c keep) = erase w s := by
  refine erase_mono hw ?_
  unfold markVictim
  dsimp only
  (repeat' split) <;> simp_all (decide := true)

@[simp] theorem erase_finishReq {w : Fields} (hw : Fields.within { ctrs := true, quads := true, ep := true, out := true } w = true)
    (s : State) (c : Nat) (l : LineId) : erase w (finishReq s c l) = erase w s := by
  refine erase_mono hw ?_
  unfold finishReq
  simp (decide := true)

@[simp] theorem erase_unmaskFn {w : Fields} (hw : Fields.within { fns := true, out := true } w = true) (s : State) (f : Nat) :
    erase w (unmaskFn s f) = erase w s := by
  refine erase_mono hw ?_
  unfold unmaskFn
  simp (decide := true)

@[simp] theorem erase_configWrite {w : Fields} (hw : Fields.within { fns := true, out := true } w = true)
    (s : State) (fn : Nat) (x0 : CfgWrite) : erase w (configWrite s fn x0) = erase w s := by
  refine erase_mono hw ?_
  cases x0 with
  | msixMask on => unfold configWrite; split <;> simp (decide := true)
  | _ => simp (decide := true) [configWrite]

@[simp] theorem erase_pollNow {w : Fields} (hw : Fields.within { ctrs := true, eps := true, ep := true, out := true } w = true)
    (s : State) (q : Nat) : erase w (pollNow s q) = erase w s := by
  refine erase_mono hw ?_
  unfold pollNow
  (repeat' split) <;> simp (decide := true)

@[simp] theorem erase_stallUse {w : Fields} (hw : Fields.within { ctrs := true } w = true) (s : State) (q : Nat) :
    erase w (stallUse s q) = erase w s := by
  refine erase_mono hw ?_
  unfold stallUse
  simp (decide := true)

@[simp] theorem erase_touchQp {w : Fields} (hw : Fields.within { ctrs := true, quads := true, eps := true, ep := true, out := true } w = true)
    (s : State) (q : Nat) : erase w (touchQp s q) = erase w s := by
  refine erase_mono hw ?_
  unfold touchQp
  (repeat' split) <;> simp (decide := true)

theorem erase_useQueue {w : Fields} (hw : Fields.within { ctrs := true, quads := true, eps := true, fns := true, insts := true, ep := true, grp := true, recd := true, out := true } w = true)
    (s : State) (f q eng : Nat) : ∀ t, useQueue s f q eng = .inl t ∨ useQueue s f q eng = .inr t → erase w t = erase w s := by
  intro t h
  refine erase_mono hw ?_
  unfold useQueue at h
  split at h
  · rcases h with h | h <;> cases h
    simp (decide := true)
  · split at h <;> rename_i u e <;> rcases h with h | h <;> cases h
    · exact erase_engineUse (by decide) _ _ _ _ _ _ (.inl e)
    · simpa (decide := true) using erase_engineUse (by decide) _ _ _ _ _ _ (.inr e)

@[simp] theorem erase_sendLinkDown {w : Fields} (hw : Fields.within { ports := true, ctrs := true, out := true } w = true)
    (s : State) (p : Nat) : erase w (sendLinkDown s p) = erase w s := by
  refine erase_mono hw ?_
  unfold sendLinkDown
  simp (decide := true)

@[simp] theorem erase_chainRx {w : Fields} (hw : Fields.within { ctrs := true } w = true)
    (s : State) (p : ChainPort) (f : ChainFrame) (type : Nat) (act : State) (hact : erase w act = erase w s) :
    erase w (chainRx s p f type act) = erase w s := by
  unfold chainRx
  simp [hact, hw]

@[simp] theorem erase_sendTimeLtb {w : Fields} (hw : Fields.within { ports := true, ctrs := true, out := true } w = true)
    (s : State) (p msg : Nat) (t : TimeMsg) : erase w (sendTimeLtb s p msg t) = erase w s := by
  refine erase_mono hw ?_
  unfold sendTimeLtb
  simp (decide := true)

@[simp] theorem erase_beginExchange {w : Fields} (hw : Fields.within { ports := true, ctrs := true, out := true, free := true } w = true)
    (s : State) (p : Nat) (out : Bool) : erase w (beginExchange s p out) = erase w s := by
  refine erase_mono hw ?_
  unfold beginExchange
  simp (decide := true)

@[simp] theorem erase_startExchange {w : Fields} (hw : Fields.within { ports := true, ctrs := true, out := true, free := true } w = true)
    (s : State) (p : Nat) (out : Bool) : erase w (startExchange s p out) = erase w s := by
  refine erase_mono hw ?_
  unfold startExchange
  simp (decide := true)

@[simp] theorem erase_answerReq {w : Fields} (hw : Fields.within { ports := true, ctrs := true, out := true, free := true } w = true)
    (s : State) (p : Nat) (seq : BitVec 16) (t2 : Nat) : erase w (answerReq s p seq t2) = erase w s := by
  refine erase_mono hw ?_
  unfold answerReq
  simp (decide := true)

@[simp] theorem erase_wokenPort {w : Fields} (hw : Fields.within { ports := true, ctrs := true, out := true, free := true } w = true)
    (s : State) (p : Nat) : erase w (wokenPort s p) = erase w s := by
  refine erase_mono hw ?_
  unfold wokenPort
  dsimp only
  (repeat' split) <;> simp_all (decide := true) [erase_foldl]

@[simp] theorem erase_flashOp {w : Fields} (hw : Fields.within { boot := true, out := true } w = true)
    (s : State) (op addr len : Nat) : erase w (flashOp s op addr len) = erase w s := by
  refine erase_mono hw ?_
  unfold flashOp
  simp (decide := true)

@[simp] theorem erase_dropMailbox {w : Fields} (hw : Fields.within { cmds := true } w = true) (s : State) (m : Nat) :
    erase w (dropMailbox s m) = erase w s := by
  refine erase_mono hw ?_
  unfold dropMailbox
  simp (decide := true)

@[simp] theorem erase_resetMailbox {w : Fields} (hw : Fields.within { insts := true, cmds := true } w = true)
    (s : State) (m : Nat) : erase w (resetMailbox s m) = erase w s := by
  refine erase_mono hw ?_
  rfl

@[simp] theorem erase_dropShaped {w : Fields} (hw : Fields.within { ep := true } w = true)
    (s : State) (q : Nat) (drop : BitVec 32 → Bool) : erase w (dropShaped s q drop) = erase w s := by
  refine erase_mono hw ?_
  unfold dropShaped
  simp (decide := true)

@[simp] theorem erase_freeQp {w : Fields} (hw : Fields.within { quads := true, eps := true, fns := true, ep := true, out := true } w = true)
    (s : State) (q : Nat) : erase w (freeQp s q) = erase w s := by
  refine erase_mono hw ?_
  unfold freeQp
  (repeat' split) <;> simp (decide := true)

@[simp] theorem erase_revokeWindow {w : Fields} (hw : Fields.within { ctrs := true, quads := true, fns := true, ep := true } w = true)
    (s : State) (i : Nat) : erase w (revokeWindow s i) = erase w s := by
  refine erase_mono hw ?_
  unfold revokeWindow
  (repeat' split) <;> simp (decide := true)

@[simp] theorem erase_updSrqStore {w : Fields} (hw : Fields.within { quads := true, ep := true } w = true)
    (s : State) (q : Nat) (f : Srq → Srq) : erase w (updSrqStore s q f) = erase w s := by
  refine erase_mono hw ?_
  unfold updSrqStore
  (repeat' split) <;> simp (decide := true)

@[simp] theorem erase_freeSrq {w : Fields} (hw : Fields.within { quads := true, eps := true, fns := true, ep := true } w = true)
    (s : State) (q : Nat) : erase w (freeSrq s q) = erase w s := by
  refine erase_mono hw ?_
  unfold freeSrq
  (repeat' split) <;> simp (decide := true)

@[simp] theorem erase_destroyFn {w : Fields} (hw : Fields.within { ctrs := true, quads := true, eps := true, fns := true, ep := true, out := true } w = true)
    (s : State) (f : Nat) : erase w (destroyFn s f) = erase w s := by
  refine erase_mono hw ?_
  unfold destroyFn
  simp (decide := true)

@[simp] theorem erase_updMaster {w : Fields} (hw : Fields.within { masters := true } w = true)
    (s : State) (m : Nat) (f : Master → Master) : erase w (updMaster s m f) = erase w s := by
  refine erase_mono hw ?_
  unfold updMaster
  simp (decide := true)

@[simp] theorem erase_resetOne {w : Fields} (hw : Fields.within { ctrs := true, quads := true, eps := true, fns := true, insts := true, masters := true, cmds := true, ep := true, grp := true, recd := true, pstepC := true, pstepS := true, out := true, free := true } w = true)
    (s : State) (f : Nat) : erase w (resetOne s f) = erase w s := by
  refine erase_mono hw ?_
  unfold resetOne
  simp (decide := true)

@[simp] theorem erase_resetFn {w : Fields} (hw : Fields.within { ctrs := true, quads := true, eps := true, fns := true, insts := true, masters := true, cmds := true, ep := true, grp := true, recd := true, pstepC := true, pstepS := true, out := true, free := true } w = true)
    (s : State) (f : Nat) : erase w (resetFn s f) = erase w s := by
  refine erase_mono hw ?_
  unfold resetFn
  simp (decide := true)

@[simp] theorem erase_crossSvc {w : Fields} (hw : Fields.within { quads := true, out := true } w = true) (s : State) (a b n : Nat) :
    erase w (crossSvc s a b n) = erase w s := by
  refine erase_mono hw ?_
  unfold crossSvc
  simp (decide := true)

@[simp] theorem erase_fromService {w : Fields} (hw : Fields.within { quads := true, out := true } w = true)
    (s : State) (q n : Nat) : erase w (fromService s q n) = erase w s := by
  refine erase_mono hw ?_
  unfold fromService
  simp (decide := true)

@[simp] theorem erase_mbFromService {w : Fields} (hw : Fields.within { quads := true, out := true } w = true)
    (s : State) (m n : Nat) : erase w (mbFromService s m n) = erase w s := by
  refine erase_mono hw ?_
  unfold mbFromService
  simp (decide := true)

@[simp] theorem erase_mgmtAnswer {w : Fields} (hw : Fields.within { ctrs := true, grp := true } w = true)
    (s : State) (src : ArrSrc) (mh : MgmtHdr) (fea : BitVec 24) (type : Nat) (body : List Byte) :
    erase w (mgmtAnswer s src mh fea type body) = erase w s := by
  refine erase_mono hw ?_
  unfold mgmtAnswer
  (repeat' split) <;> simp (decide := true)

@[simp] theorem erase_chainUp {w : Fields} (hw : Fields.within { out := true } w = true)
    (s : State) (type ftag : Nat) (payload : List Byte) : erase w (chainUp s type ftag payload) = erase w s := by
  refine erase_mono hw ?_
  unfold chainUp
  simp (decide := true)

@[simp] theorem erase_chainRespond {w : Fields} (hw : Fields.within { chain := true, out := true } w = true)
    (s : State) (bytes : List Byte) : erase w (chainRespond s bytes) = erase w s := by
  refine erase_mono hw ?_
  unfold chainRespond
  (repeat' split) <;> simp (decide := true)

@[simp] theorem erase_respond {w : Fields} (hw : Fields.within { ctrs := true, quads := true, fns := true, insts := true, chain := true, grp := true, out := true } w = true)
    (s : State) (c : MbCmd) (st : Nat) (payload : List Byte) : erase w (respond s c st payload) = erase w s := by
  refine erase_mono hw ?_
  unfold respond
  (repeat' split) <;> simp (decide := true)

@[simp] theorem erase_answerCut {w : Fields} (hw : Fields.within { ctrs := true, quads := true, fns := true, insts := true, cmds := true, chain := true, grp := true, out := true } w = true)
    (s : State) : erase w (answerCut s) = erase w s := by
  refine erase_mono hw ?_
  unfold answerCut
  simp (decide := true) [erase_foldl]

@[simp] theorem erase_diagLane {w : Fields} (hw : Fields.within { lanes := true, out := true } w = true) (s : State) (l : Nat) :
    erase w (diagLane s l) = erase w s := by
  refine erase_mono hw ?_
  unfold diagLane
  simp (decide := true)

@[simp] theorem erase_agentRead {w : Fields} (hw : Fields.within { ctrs := true, quads := true, fns := true, insts := true, grp := true, recd := true, out := true } w = true)
    (s : State) (m part : Nat) : erase w (agentRead s m part) = erase w s := by
  refine erase_mono hw ?_
  unfold agentRead
  simp (decide := true)

@[simp] theorem erase_trainLane {w : Fields} (hw : Fields.within { lanes := true, ctrs := true, quads := true, fns := true, insts := true, grp := true, recd := true, out := true } w = true)
    (s : State) (l : Nat) : erase w (trainLane s l) = erase w s := by
  refine erase_mono hw ?_
  unfold trainLane
  simp (decide := true)

@[simp] theorem erase_setLink {w : Fields} (hw : Fields.within { ports := true, fns := true, insts := true, out := true } w = true)
    (s : State) (p : Nat) (st : LinkSt) : erase w (setLink s p st) = erase w s := by
  refine erase_mono hw ?_
  unfold setLink
  simp (decide := true)

@[simp] theorem erase_askTraining {w : Fields} (hw : Fields.within { ports := true } w = true) (s : State) (p : Nat) :
    erase w (askTraining s p) = erase w s := by
  refine erase_mono hw ?_
  unfold askTraining
  simp (decide := true)

@[simp] theorem erase_portUp {w : Fields} (hw : Fields.within { lanes := true, ports := true, ctrs := true, quads := true, fns := true, insts := true, grp := true, recd := true, out := true } w = true)
    (s : State) (p : Nat) : erase w (portUp s p) = erase w s := by
  refine erase_mono hw ?_
  unfold portUp
  simp (decide := true)

@[simp] theorem erase_setErased {w : Fields} (hw : Fields.within { boot := true } w = true) (s : State) (slot : Nat) (b : Bool) :
    erase w (setErased s slot b) = erase w s := by
  refine erase_mono hw ?_
  unfold setErased
  simp (decide := true)

@[simp] theorem erase_resolveRunning {w : Fields} (hw : Fields.within { boot := true, cmds := true } w = true) (s : State) :
    erase w (resolveRunning s) = erase w s := by
  refine erase_mono hw ?_
  unfold resolveRunning
  generalize hended : List.foldl _ s _ = u
  have ended : erase { boot := true, cmds := true } u = erase { boot := true, cmds := true } s := by
    rw [← hended]
    exact erase_foldl _ (fun z b => by split <;> simp (decide := true)) _ _
  simp [ended]

@[simp] theorem erase_readiness {w : Fields} (hw : Fields.within { eps := true, out := true } w = true) (s : State) (e : Nat) :
    erase w (readiness s e) = erase w s := by
  refine erase_mono hw ?_
  unfold readiness
  simp (decide := true)

@[simp] theorem erase_becomeCfgReady {w : Fields} (hw : Fields.within { eps := true, out := true } w = true) (s : State) :
    erase w (becomeCfgReady s) = erase w s := by
  refine erase_mono hw ?_
  unfold becomeCfgReady
  simp (decide := true)

@[simp] theorem erase_strapFea {w : Fields} (hw : Fields.within { routes := true, ctrs := true, quads := true, fns := true, insts := true, grp := true, recd := true, out := true } w = true)
    (s : State) : erase w (strapFea s) = erase w s := by
  refine erase_mono hw ?_
  unfold strapFea
  simp (decide := true)

@[simp] theorem erase_takeFea {w : Fields} (hw : Fields.within { routes := true, ctrs := true, quads := true, fns := true, insts := true, grp := true, recd := true, out := true } w = true)
    (s : State) : erase w (takeFea s) = erase w s := by
  refine erase_mono hw ?_
  unfold takeFea
  simp (decide := true)

@[simp] theorem erase_fwdShared {w : Fields} (hw : Fields.within { quads := true, ep := true, out := true } w = true)
    (s : State) (owner req : Nat) (line : LineId) : erase w (fwdShared s owner req line) = erase w s := by
  refine erase_mono hw ?_
  unfold fwdShared
  simp (decide := true)

@[simp] theorem erase_answerReqst {w : Fields} (hw : Fields.within { ctrs := true, quads := true, ep := true, out := true } w = true)
    (s : State) (c : Nat) (l : LineId) (acks : Nat) (target : Moesi) : erase w (answerReqst s c l acks target) = erase w s := by
  refine erase_mono hw ?_
  unfold answerReqst
  simp (decide := true)

@[simp] theorem erase_writeHead {w : Fields} (hw : Fields.within { fns := true, ep := true, out := true } w = true)
    (s : State) (q : Nat) : erase w (writeHead s q) = erase w s := by
  refine erase_mono hw ?_
  unfold writeHead
  (repeat' split) <;> simp (decide := true)

@[simp] theorem erase_issueFetch {w : Fields} (hw : Fields.within { eps := true, ep := true, out := true } w = true)
    (s : State) (q : Nat) : erase w (issueFetch s q) = erase w s := by
  refine erase_mono hw ?_
  unfold issueFetch
  (repeat' split) <;> simp (decide := true) [erase_foldl]

@[simp] theorem erase_abortSend {w : Fields} (hw : Fields.within { ctrs := true, quads := true, eps := true, fns := true, insts := true, ep := true, grp := true, recd := true, out := true } w = true)
    (s : State) (q : Nat) (x : Qp) (wqe : BitVec 16) : erase w (abortSend s q x wqe).1 = erase w s := by
  refine erase_mono hw ?_
  unfold abortSend
  (repeat' split) <;> simp (decide := true)

@[simp] theorem erase_completeRecv {w : Fields} (hw : Fields.within { ctrs := true, quads := true, fns := true, insts := true, ep := true, grp := true, recd := true, out := true } w = true)
    (s : State) (srq : Nat) (wqe : BitVec 16) (qpn op status bytes : Nat) (extra : List Byte) (solicit : Bool := false) (ctag : BitVec 64 := 0) (matched : Bool := false) :
    erase w (completeRecv s srq wqe qpn op status bytes extra solicit ctag matched) = erase w s := by
  refine erase_mono hw ?_
  unfold completeRecv
  (repeat' split) <;> simp (decide := true)

@[simp] theorem erase_abortRecv {w : Fields} (hw : Fields.within { ctrs := true, quads := true, eps := true, fns := true, insts := true, ep := true, grp := true, recd := true, out := true } w = true)
    (s : State) (q : Nat) (r : Srq) (wqe : BitVec 16) (tag : BitVec 64) : erase w (abortRecv s q r wqe tag).1 = erase w s := by
  refine erase_mono hw ?_
  unfold abortRecv
  dsimp only
  (repeat' split) <;> simp_all (decide := true)

@[simp] theorem erase_abortAny {w : Fields} (hw : Fields.within { ctrs := true, quads := true, eps := true, fns := true, insts := true, ep := true, grp := true, recd := true, out := true } w = true)
    (s : State) (f : Nat) (send : Bool) (q : Nat) (wqe : BitVec 16) (tag : BitVec 64) :
    erase w (abortAny s f send q wqe tag).1 = erase w s := by
  refine erase_mono hw ?_
  unfold abortAny
  (repeat' split) <;> simp (decide := true)

@[simp] theorem erase_finishWait {w : Fields} (hw : Fields.within { ctrs := true, quads := true, eps := true, fns := true, insts := true, ep := true, grp := true, recd := true, out := true } w = true)
    (s : State) (x : AqWait) : erase w (finishWait s x) = erase w s := by
  refine erase_mono hw ?_
  unfold finishWait
  dsimp only
  (repeat' split) <;> simp (decide := true)

@[simp] theorem erase_finishDestroy {w : Fields} (hw : Fields.within { quads := true, eps := true, fns := true, ep := true, out := true } w = true)
    (s : State) (q : Nat) : erase w (finishDestroy s q) = erase w s := by
  refine erase_mono hw ?_
  unfold finishDestroy
  (repeat' split) <;> simp (decide := true)

@[simp] theorem erase_finishDestroys {w : Fields} (hw : Fields.within { ctrs := true, quads := true, eps := true, fns := true, insts := true, ep := true, grp := true, recd := true, out := true } w = true)
    (s : State) : erase w (finishDestroys s) = erase w s := by
  refine erase_mono hw ?_
  unfold finishDestroys
  simp (decide := true) [erase_foldl]

@[simp] theorem erase_closeGates {w : Fields} (hw : Fields.within { ports := true, ctrs := true, quads := true, fns := true, insts := true, grp := true, recd := true, out := true } w = true)
    (s : State) (p : Nat) : erase w (closeGates s p) = erase w s := by
  refine erase_mono hw ?_
  unfold closeGates
  simp (decide := true)

@[simp] theorem erase_breakTree {w : Fields} (hw : Fields.within { ctrs := true, quads := true, fns := true, insts := true, ep := true, grp := true, recd := true, out := true } w = true)
    (s : State) (id e st : Nat) : erase w (breakTree s id e st) = erase w s := by
  refine erase_mono hw ?_
  unfold breakTree
  (repeat' split) <;> simp (decide := true) [erase_foldl]

@[simp] theorem erase_edgeLost {w : Fields} (hw : Fields.within { ctrs := true, quads := true, fns := true, insts := true, ep := true, grp := true, recd := true, out := true } w = true)
    (s : State) (dest : EdgeTo) : erase w (edgeLost s dest) = erase w s := by
  refine erase_mono hw ?_
  unfold edgeLost
  refine erase_foldS _ _ _ fun z id => ?_
  split
  · rfl
  · exact erase_foldS _ _ _ fun _ _ => erase_breakTree (by decide) _ _ _ _

@[simp] theorem erase_hostDown {w : Fields} (hw : Fields.within { ports := true, ctrs := true, quads := true, eps := true, fns := true, insts := true, ep := true, grp := true, recd := true, pstepC := true, pstepS := true, out := true, free := true } w = true)
    (s : State) (e : Nat) : erase w (hostDown s e) = erase w s := by
  refine erase_mono hw ?_
  unfold hostDown
  simp (decide := true) [erase_foldl]

@[simp] theorem erase_originate {w : Fields} (hw : Fields.within { chain := true, out := true } w = true)
    (s : State) (type : Nat) (payload : List Byte) : erase w (originate s type payload) = erase w s := by
  refine erase_mono hw ?_
  unfold originate
  simp (decide := true)

@[simp] theorem erase_updOctet {w : Fields} (hw : Fields.within { octets := true } w = true)
    (s : State) (o : Nat) (f : Octet → Octet) : erase w (updOctet s o f) = erase w s := by
  refine erase_mono hw ?_
  unfold updOctet
  simp (decide := true)

@[simp] theorem erase_readBack {w : Fields} (hw : Fields.within { eps := true } w = true) (s : State) (f : Nat) :
    erase w (readBack s f) = erase w s := by
  refine erase_mono hw ?_
  unfold readBack
  simp (decide := true)

@[simp] theorem erase_sendNak {w : Fields} (hw : Fields.within { ports := true, ctrs := true, out := true } w = true)
    (s : State) (p : Nat) : erase w (sendNak s p) = erase w s := by
  refine erase_mono hw ?_
  unfold sendNak
  simp (decide := true)

@[simp] theorem erase_badCrc {w : Fields} (hw : Fields.within { ports := true, ctrs := true, out := true } w = true)
    (s : State) (p : Nat) : erase w (badCrc s p) = erase w s := by
  refine erase_mono hw ?_
  unfold badCrc
  (repeat' split) <;> simp (decide := true)

@[simp] theorem erase_takeCommand {w : Fields} (hw : Fields.within { ctrs := true, cmds := true, grp := true } w = true)
    (s : State) (src : ArrSrc) (h : FabHdr) (mh : MgmtHdr) (body : List Byte) : erase w (takeCommand s src h mh body) = erase w s := by
  refine erase_mono hw ?_
  unfold takeCommand
  (repeat' split) <;> simp (decide := true)

@[simp] theorem erase_passOn {w : Fields} (hw : Fields.within { ctrs := true, grp := true } w = true)
    (s : State) (port : Nat) (p : Pkt) (mh : MgmtHdr) (body : List Byte) : erase w (passOn s port p mh body) = erase w s := by
  refine erase_mono hw ?_
  unfold passOn
  simp (decide := true)

@[simp] theorem erase_agentTake {w : Fields} (hw : Fields.within { ports := true, ctrs := true, quads := true, grp := true, out := true } w = true)
    (s : State) (type : Nat) (act : State → ArrSrc → FabHdr → MgmtHdr → List Byte → State) (hact : ∀ z src h mh body, erase w (act z src h mh body) = erase w z) :
    erase w (agentTake s type act) = erase w s := by
  have taken : ∀ rest o, erase w (freeOrigin { s with grp := { s.grp with rx := rest } } o) = erase w s :=
    fun rest o => erase_mono hw (by simp (maxDischargeDepth := 9) (decide := true))
  have passed := fun z i p mh body => erase_mono hw (erase_passOn (by decide) z i p mh body)
  unfold agentTake
  split
  · rfl
  · dsimp only
    (repeat' split) <;> simp only [hact, passed, taken]

@[simp] theorem erase_forget {w : Fields} (hw : Fields.within { grp := true } w = true) (s : State) :
    erase w (forget s) = erase w s := by
  refine erase_mono hw ?_
  unfold forget
  simp (decide := true)

@[simp] theorem erase_setVecMask {w : Fields} (hw : Fields.within { fns := true, out := true } w = true)
    (s : State) (f v : Nat) (b : Bool) : erase w (setVecMask s f v b) = erase w s := by
  refine erase_mono hw ?_
  unfold setVecMask
  simp (decide := true)

@[simp] theorem erase_useGrant {w : Fields} (hw : Fields.within { ctrs := true, pstepC := true, pstepS := true } w = true)
    (s : State) (g : Nat) : erase w (useGrant s g) = erase w s := by
  refine erase_mono hw ?_
  unfold useGrant
  simp (decide := true)

@[simp] theorem erase_sendData {w : Fields} (hw : Fields.within { ports := true, ctrs := true, out := true } w = true)
    (s : State) (p : Nat) (d : DataLtb) : erase w (sendData s p d) = erase w s := by
  refine erase_mono hw ?_
  unfold sendData
  simp (decide := true)

@[simp] theorem erase_sendQueued {w : Fields} (hw : Fields.within { ports := true, ctrs := true, out := true } w = true)
    (s : State) (p : Nat) (n : Nat) : erase w (sendQueued s p n) = erase w s := by
  refine erase_mono hw ?_
  induction n generalizing s with
  | zero => rfl
  | succ k ih =>
    unfold sendQueued
    split
    · rfl
    · rw [ih]; simp (decide := true)

@[simp] theorem erase_closeLtb {w : Fields} (hw : Fields.within { ports := true, ctrs := true, out := true } w = true)
    (s : State) (p : Nat) : erase w (closeLtb s p) = erase w s := by
  refine erase_mono hw ?_
  unfold closeLtb
  simp (decide := true)

@[simp] theorem erase_sendRest {w : Fields} (hw : Fields.within { ports := true, ctrs := true, out := true } w = true)
    (s : State) (p : Nat) (aborted : Bool) : erase w (sendRest s p aborted) = erase w s := by
  refine erase_mono hw ?_
  unfold sendRest
  simp (decide := true)

@[simp] theorem erase_setFtFix {w : Fields} (hw : Fields.within { clk := true } w = true) (s : State) (v : Int) :
    erase w (setFtFix s v) = erase w s := by
  refine erase_mono hw ?_
  unfold setFtFix
  simp (decide := true)

@[simp] theorem erase_banksDue {w : Fields} (hw : Fields.within { ports := true, routes := true, ctrs := true, quads := true, fns := true, insts := true, cmds := true, grp := true, recd := true, out := true } w = true)
    (s : State) : erase w (banksDue s) = erase w s := by
  refine erase_mono hw ?_
  unfold banksDue
  simp (decide := true)

@[simp] theorem erase_snapMissed {w : Fields} (hw : Fields.within { snap := true, ctrs := true, fns := true, insts := true, cmds := true, out := true } w = true)
    (s : State) : erase w (snapMissed s) = erase w s := by
  refine erase_mono hw ?_
  unfold snapMissed
  simp (decide := true)

@[simp] theorem erase_flipBanks {w : Fields} (hw : Fields.within { snap := true, ctrs := true, cmds := true } w = true)
    (s : State) : erase w (flipBanks s) = erase w s := by
  refine erase_mono hw ?_
  unfold flipBanks
  simp (decide := true)

@[simp] theorem erase_snapDue {w : Fields} (hw : Fields.within { snap := true, ctrs := true, quads := true, fns := true, insts := true, cmds := true, grp := true, recd := true, out := true } w = true)
    (s : State) : erase w (snapDue s) = erase w s := by
  refine erase_mono hw ?_
  unfold snapDue
  simp (decide := true)

@[simp] theorem erase_adoptDue {w : Fields} (hw : Fields.within { ports := true, routes := true, snap := true, ctrs := true, quads := true, fns := true, insts := true, cmds := true, grp := true, recd := true, out := true } w = true)
    (s : State) : erase w (adoptDue s) = erase w s := by
  refine erase_mono hw ?_
  unfold adoptDue
  simp (decide := true)

@[simp] theorem erase_dropExchange {w : Fields} (hw : Fields.within { ports := true } w = true) (s : State) (p : Nat) :
    erase w (dropExchange s p) = erase w s := by
  refine erase_mono hw ?_
  rfl

@[simp] theorem erase_dropExchanges {w : Fields} (hw : Fields.within { ports := true } w = true) (s : State) :
    erase w (dropExchanges s) = erase w s := by
  refine erase_mono hw ?_
  unfold dropExchanges
  simp (decide := true)

@[simp] theorem erase_stepFtBy {w : Fields} (hw : Fields.within { clk := true, ports := true, routes := true, snap := true, ctrs := true, quads := true, fns := true, insts := true, cmds := true, grp := true, recd := true, out := true } w = true)
    (s : State) (d : Int) (seq : Nat) : erase w (stepFtBy s d seq) = erase w s := by
  refine erase_mono hw ?_
  unfold stepFtBy
  simp (decide := true)

@[simp] theorem erase_resumeGates {w : Fields} (hw : Fields.within { ports := true, ctrs := true, quads := true, fns := true, insts := true, grp := true, recd := true, out := true } w = true)
    (s : State) : erase w (resumeGates s) = erase w s := by
  refine erase_mono hw ?_
  unfold resumeGates
  simp (decide := true)

@[simp] theorem erase_holdGates {w : Fields} (hw : Fields.within { ports := true, ctrs := true, quads := true, fns := true, insts := true, grp := true, recd := true, out := true } w = true)
    (s : State) : erase w (holdGates s) = erase w s := by
  refine erase_mono hw ?_
  unfold holdGates
  simp (decide := true)

@[simp] theorem erase_changeTime {w : Fields} (hw : Fields.within { ports := true, tu := true, ctrs := true, quads := true, fns := true, insts := true, grp := true, recd := true, out := true } w = true)
    (s : State) (f : TimeUnit → TimeUnit) : erase w (changeTime s f) = erase w s := by
  refine erase_mono hw ?_
  unfold changeTime
  simp (decide := true)

@[simp] theorem erase_setTime {w : Fields} (hw : Fields.within { clk := true, ports := true, tu := true, routes := true, snap := true, ctrs := true, quads := true, fns := true, insts := true, cmds := true, grp := true, recd := true, out := true } w = true)
    (s : State) (v : Int) : erase w (setTime s v) = erase w s := by
  refine erase_mono hw ?_
  unfold setTime
  simp (decide := true)

@[simp] theorem erase_endStep {w : Fields} (hw : Fields.within { ctrs := true, pstepC := true, pstepS := true, out := true } w = true)
    (s : State) (g : Nat) : erase w (endStep s g) = erase w s := by
  refine erase_mono hw ?_
  unfold endStep
  simp (decide := true)

@[simp] theorem erase_parkLane {w : Fields} (hw : Fields.within { lanes := true, out := true } w = true) (s : State) (l : Nat) :
    erase w (parkLane s l) = erase w s := by
  refine erase_mono hw ?_
  unfold parkLane
  simp (decide := true)

@[simp] theorem erase_offLane {w : Fields} (hw : Fields.within { lanes := true, out := true } w = true) (s : State) (l : Nat) :
    erase w (offLane s l) = erase w s := by
  refine erase_mono hw ?_
  unfold offLane
  simp (decide := true)

@[simp] theorem erase_relane {w : Fields} (hw : Fields.within { lanes := true, out := true } w = true)
    (s : State) (old : List Nat) (p : Nat) : erase w (relane s old p) = erase w s := by
  refine erase_mono hw ?_
  unfold relane
  simp (decide := true)

@[simp] theorem erase_applyAlmanac {w : Fields} (hw : Fields.within { ports := true, ctrs := true, quads := true, fns := true, insts := true, grp := true, recd := true, out := true } w = true)
    (s : State) : erase w (applyAlmanac s) = erase w s := by
  refine erase_mono hw ?_
  unfold applyAlmanac
  simp (decide := true)

@[simp] theorem erase_removePort {w : Fields} (hw : Fields.within { ports := true } w = true) (s : State) (p : Nat) :
    erase w (removePort s p) = erase w s := by
  refine erase_mono hw ?_
  unfold removePort
  simp (decide := true)

@[simp] theorem erase_reshapePort {w : Fields} (hw : Fields.within { ports := true } w = true) (s : State) (p width role : Nat) :
    erase w (reshapePort s p width role) = erase w s := by
  refine erase_mono hw ?_
  unfold reshapePort
  simp (decide := true)

@[simp] theorem erase_applyOctet {w : Fields} (hw : Fields.within { lanes := true, octets := true, ports := true, ctrs := true, quads := true, fns := true, insts := true, grp := true, recd := true, out := true } w = true)
    (s : State) (o : Nat) : erase w (applyOctet s o) = erase w s := by
  refine erase_mono hw ?_
  unfold applyOctet
  simp only
  (repeat' split) <;> simp_all (maxDischargeDepth := 9) (decide := true) [erase_foldl]

@[simp] theorem erase_noteWait {w : Fields} (hw : Fields.within { tu := true } w = true) (s : State) :
    erase w (noteWait s) = erase w s := by
  refine erase_mono hw ?_
  unfold noteWait
  simp (decide := true)

@[simp] theorem erase_selectProfile {w : Fields} (hw : Fields.within { profile := true, ctrs := true, quads := true, fns := true, insts := true, grp := true, recd := true, out := true } w = true)
    (s : State) : erase w (selectProfile s) = erase w s := by
  refine erase_mono hw ?_
  unfold selectProfile
  simp (decide := true)

@[simp] theorem erase_applyConfig {w : Fields} (hw : Fields.within { boot := true, profile := true, lanes := true, octets := true, ports := true, tu := true, routes := true, ctrs := true, quads := true, fns := true, insts := true, access := true, grp := true, recd := true, out := true } w = true)
    (s : State) : erase w (applyConfig s) = erase w s := by
  refine erase_mono hw ?_
  unfold applyConfig
  simp (decide := true)

@[simp] theorem erase_writeCause {w : Fields} (hw : Fields.within { fns := true, insts := true, out := true } w = true)
    (s : State) (m : Nat) (v : Nat) : erase w (writeCause s m v) = erase w s := by
  refine erase_mono hw ?_
  unfold writeCause
  simp (decide := true)

@[simp] theorem erase_writeMask {w : Fields} (hw : Fields.within { fns := true, insts := true, out := true } w = true)
    (s : State) (m : Nat) (v : Nat) : erase w (writeMask s m v) = erase w s := by
  refine erase_mono hw ?_
  unfold writeMask
  simp (decide := true)

theorem erase_held {w : Fields} (hw : Fields.within { boot := true, ports := true, eps := true, fns := true, ep := true } w = true)
    (s : State) (b : Boot) (ps : Tbl Port) (e : Endpoint) (es : Tbl HostEp) (fs : Tbl Fn) :
    erase w { s with boot := b, ports := ps, ep := e, eps := es, fns := fs } = erase w s :=
  erase_mono hw (by simp)

@[simp] theorem erase_holdQuads {w : Fields} (hw : Fields.within { boot := true, lanes := true, ports := true, quads := true, eps := true, fns := true, ep := true, out := true } w = true)
    (s : State) : erase w (holdQuads s) = erase w s := by
  refine erase_mono hw ?_
  have lanesOff : erase { boot := true, lanes := true, ports := true, quads := true, eps := true, fns := true, ep := true, out := true } (foldS (List.range 512) s offLane) = erase { boot := true, lanes := true, ports := true, quads := true, eps := true, fns := true, ep := true, out := true } s :=
    erase_foldS _ _ _ fun _ _ => erase_offLane (by decide) _ _
  unfold holdQuads
  refine (erase_foldS _ _ _ fun _ _ => erase_updQuad (by decide) _ _ _).trans ?_
  exact (erase_held (by decide) _ _ _ _ _ _).trans lanesOff

@[simp] theorem erase_fwStops {w : Fields} (hw : Fields.within { fns := true, insts := true, out := true } w = true)
    (was t : State) (ht : erase w t = erase w was) : erase w (fwStops was t) = erase w was := by
  unfold fwStops
  simp [ht, hw]

@[simp] theorem erase_ringPut {w : Fields} (hw : Fields.within { ctrs := true, grp := true, recd := true } w = true)
    (s : State) (r : EvRec) : erase w (ringPut s r) = erase w s := by
  refine erase_mono hw ?_
  unfold ringPut
  (repeat' split) <;> simp (decide := true)

@[simp] theorem erase_flushSome {w : Fields} (hw : Fields.within { ctrs := true, grp := true, recd := true } w = true)
    (s : State) (n : Nat) : erase w (flushSome s n) = erase w s := by
  refine erase_mono hw ?_
  induction n generalizing s with
  | zero => rfl
  | succ k ih =>
    unfold flushSome
    split
    · rfl
    · rw [ih]; simp (decide := true)

@[simp] theorem erase_toService {w : Fields} (hw : Fields.within { quads := true, out := true } w = true) (s : State) (q n : Nat) :
    erase w (toService s q n) = erase w s := by
  refine erase_mono hw ?_
  unfold toService
  simp (decide := true)

@[simp] theorem erase_writeFast {w : Fields} (hw : Fields.within { ctrs := true, quads := true, grp := true, recd := true, out := true } w = true)
    (s : State) (r : EvRec) : erase w (writeFast s r) = erase w s := by
  refine erase_mono hw ?_
  unfold writeFast
  simp (decide := true)

@[simp] theorem erase_flushRecords {w : Fields} (hw : Fields.within { ctrs := true, quads := true, fns := true, insts := true, grp := true, recd := true, out := true } w = true)
    (s : State) : erase w (flushRecords s) = erase w s := by
  refine erase_mono hw ?_
  unfold flushRecords
  simp (decide := true) [erase_foldl]

@[simp] theorem erase_powerFlush {w : Fields} (hw : Fields.within { ctrs := true, quads := true, fns := true, insts := true, grp := true, recd := true, lifePart := true, out := true } w = true)
    (s : State) : erase w (powerFlush s) = erase w s := by
  refine erase_mono hw ?_
  unfold powerFlush
  simp (maxDischargeDepth := 4) (decide := true)

@[simp] theorem erase_steer {w : Fields} (hw : Fields.within { clk := true, ports := true, tu := true, routes := true, snap := true, ctrs := true, quads := true, fns := true, insts := true, cmds := true, grp := true, recd := true, out := true } w = true)
    (s : State) (o : Int) (interval : Nat) : erase w (steer s o interval) = erase w s := by
  refine erase_mono hw ?_
  unfold steer
  simp (decide := true)

@[simp] theorem erase_applyStep {w : Fields} (hw : Fields.within { clk := true, ports := true, tu := true, routes := true, snap := true, ctrs := true, quads := true, fns := true, insts := true, cmds := true, grp := true, recd := true, out := true } w = true)
    (s : State) (seq : BitVec 8) (ns : Int) : erase w (applyStep s seq ns) = erase w s := by
  refine erase_mono hw ?_
  unfold applyStep
  simp (decide := true)

@[simp] theorem erase_linkToDown {w : Fields} (hw : Fields.within { lanes := true, ports := true, ctrs := true, quads := true, fns := true, insts := true, grp := true, recd := true, out := true } w = true)
    (s : State) (p : Nat) : erase w (linkToDown s p) = erase w s := by
  refine erase_mono hw ?_
  unfold linkToDown
  simp (decide := true)

@[simp] theorem erase_takeQueued {w : Fields} (hw : Fields.within { ports := true } w = true) (s : State) (p : Nat) :
    erase w (takeQueued s p).2 = erase w s := by
  refine erase_mono hw ?_
  unfold takeQueued
  simp (decide := true)

@[simp] theorem erase_flushPort {w : Fields} (hw : Fields.within { ports := true, ctrs := true, quads := true, fns := true, insts := true, grp := true, recd := true, out := true } w = true)
    (s : State) (p : Nat) : erase w (flushPort s p) = erase w s := by
  refine erase_mono hw ?_
  unfold flushPort
  simp (decide := true) [erase_foldl]

@[simp] theorem erase_startGrace {w : Fields} (hw : Fields.within { ports := true, ctrs := true, quads := true, fns := true, insts := true, grp := true, recd := true, out := true } w = true)
    (s : State) (p : Nat) : erase w (startGrace s p) = erase w s := by
  refine erase_mono hw ?_
  unfold startGrace
  simp (decide := true)

@[simp] theorem erase_dropInternal {w : Fields} (hw : Fields.within { ports := true, ctrs := true, quads := true, eps := true, ep := true, grp := true, out := true } w = true)
    (s : State) (p no : Nat) (keep : Bool) : erase w (dropInternal s p no keep) = erase w s := by
  refine erase_mono hw ?_
  unfold dropInternal
  simp (decide := true) [erase_foldl]

@[simp] theorem erase_abortForwarded {w : Fields} (hw : Fields.within { ports := true, ctrs := true, quads := true, eps := true, ep := true, grp := true, out := true } w = true)
    (s : State) (p no got : Nat) (keep : Bool) : erase w (abortForwarded s p no got keep) = erase w s := by
  refine erase_mono hw ?_
  unfold abortForwarded
  simp (maxDischargeDepth := 9) (decide := true) [erase_foldl]

@[simp] theorem erase_abandonRx {w : Fields} (hw : Fields.within { ports := true, ctrs := true, quads := true, eps := true, ep := true, grp := true, out := true } w = true)
    (s : State) (p : Nat) : erase w (abandonRx s p) = erase w s := by
  refine erase_mono hw ?_
  unfold abandonRx
  (repeat' split) <;> simp (decide := true)

@[simp] theorem erase_switchSource {w : Fields} (hw : Fields.within { ports := true, tu := true, ctrs := true, quads := true, fns := true, insts := true, grp := true, recd := true, out := true } w = true)
    (s : State) (p : Nat) (a : Announced) : erase w (switchSource s p a) = erase w s := by
  refine erase_mono hw ?_
  unfold switchSource
  simp (decide := true)

@[simp] theorem erase_timeUnlock {w : Fields} (hw : Fields.within { ports := true, tu := true, ctrs := true, quads := true, fns := true, insts := true, grp := true, recd := true, out := true } w = true)
    (s : State) (cause : Nat) : erase w (timeUnlock s cause) = erase w s := by
  refine erase_mono hw ?_
  unfold timeUnlock
  simp (decide := true)

@[simp] theorem erase_leaveUpstream {w : Fields} (hw : Fields.within { ports := true, tu := true, ctrs := true, quads := true, fns := true, insts := true, grp := true, recd := true, out := true } w = true)
    (s : State) (cause : Nat) : erase w (leaveUpstream s cause) = erase w s := by
  refine erase_mono hw ?_
  unfold leaveUpstream
  (repeat' split) <;> simp (decide := true)

@[simp] theorem erase_chooseSource {w : Fields} (hw : Fields.within { ports := true, tu := true, ctrs := true, quads := true, fns := true, insts := true, grp := true, recd := true, out := true } w = true)
    (s : State) : erase w (chooseSource s) = erase w s := by
  refine erase_mono hw ?_
  unfold chooseSource
  dsimp only
  (repeat' split) <;> simp_all (decide := true)

@[simp] theorem erase_reselect {w : Fields} (hw : Fields.within { ports := true, tu := true, ctrs := true, quads := true, fns := true, insts := true, grp := true, recd := true, out := true } w = true)
    (s : State) : erase w (reselect s) = erase w s := by
  refine erase_mono hw ?_
  unfold reselect
  simp (decide := true)

@[simp] theorem erase_timePortLost {w : Fields} (hw : Fields.within { ports := true, tu := true, ctrs := true, quads := true, fns := true, insts := true, grp := true, recd := true, out := true } w = true)
    (s : State) (p : Nat) : erase w (timePortLost s p) = erase w s := by
  refine erase_mono hw ?_
  unfold timePortLost
  simp (decide := true)

@[simp] theorem erase_dropHints {w : Fields} (hw : Fields.within { ports := true } w = true) (s : State) (p : Nat) :
    erase w (dropHints s p) = erase w s := by
  refine erase_mono hw ?_
  rfl

@[simp] theorem erase_clearLink {w : Fields} (hw : Fields.within { ports := true, tu := true, ctrs := true, quads := true, eps := true, fns := true, insts := true, ep := true, grp := true, recd := true, out := true } w = true)
    (s : State) (p : Nat) : erase w (clearLink s p) = erase w s := by
  refine erase_mono hw ?_
  unfold clearLink
  simp (decide := true) [erase_foldl]

@[simp] theorem erase_toRetrain {w : Fields} (hw : Fields.within { lanes := true, ctrs := true } w = true) (s : State) (l : Nat) :
    erase w (toRetrain s l) = erase w s := by
  refine erase_mono hw ?_
  unfold toRetrain
  simp (decide := true)

@[simp] theorem erase_retrainLane {w : Fields} (hw : Fields.within { lanes := true, ctrs := true, quads := true, fns := true, insts := true, grp := true, recd := true, out := true } w = true)
    (s : State) (l cause : Nat) : erase w (retrainLane s l cause) = erase w s := by
  refine erase_mono hw ?_
  unfold retrainLane
  simp (decide := true)

@[simp] theorem erase_retrainAll {w : Fields} (hw : Fields.within { lanes := true, ports := true, ctrs := true, quads := true, fns := true, insts := true, grp := true, recd := true, out := true } w = true)
    (s : State) (p : Nat) : erase w (retrainAll s p) = erase w s := by
  refine erase_mono hw ?_
  unfold retrainAll
  dsimp only
  rw [erase_askTraining (by decide), erase_updPort (by decide)]
  refine erase_foldS _ _ _ fun z l => ?_
  split <;> simp (decide := true)

@[simp] theorem erase_linkFailure {w : Fields} (hw : Fields.within { lanes := true, ports := true, tu := true, ctrs := true, quads := true, eps := true, fns := true, insts := true, ep := true, grp := true, recd := true, out := true } w = true)
    (s : State) (p cause : Nat) : erase w (linkFailure s p cause) = erase w s := by
  refine erase_mono hw ?_
  unfold linkFailure
  (repeat' split) <;> simp (decide := true)

@[simp] theorem erase_replayOver {w : Fields} (hw : Fields.within { lanes := true, ports := true, tu := true, ctrs := true, quads := true, eps := true, fns := true, insts := true, ep := true, grp := true, recd := true, out := true } w = true)
    (s : State) (p : Nat) : erase w (replayOver s p) = erase w s := by
  refine erase_mono hw ?_
  unfold replayOver
  (repeat' split) <;> simp (decide := true)

@[simp] theorem erase_replay {w : Fields} (hw : Fields.within { lanes := true, ports := true, tu := true, ctrs := true, quads := true, eps := true, fns := true, insts := true, ep := true, grp := true, recd := true, out := true } w = true)
    (s : State) (p : Nat) : erase w (replay s p) = erase w s := by
  refine erase_mono hw ?_
  unfold replay
  dsimp only
  (repeat' split) <;> simp_all (decide := true) [erase_foldl]

@[simp] theorem erase_ackSeen {w : Fields} (hw : Fields.within { ports := true, ctrs := true, out := true } w = true)
    (s : State) (p : Nat) (ack : BitVec 16) : erase w (ackSeen s p ack) = erase w s := by
  refine erase_mono hw ?_
  unfold ackSeen
  simp (decide := true)

@[simp] theorem erase_ackIn {w : Fields} (hw : Fields.within { lanes := true, ports := true, tu := true, ctrs := true, quads := true, eps := true, fns := true, insts := true, ep := true, grp := true, recd := true, out := true } w = true)
    (s : State) (p : Nat) (h : LtbHdr) : erase w (ackIn s p h) = erase w s := by
  refine erase_mono hw ?_
  unfold ackIn
  simp (decide := true)

@[simp] theorem erase_ltbIn {w : Fields} (hw : Fields.within { lanes := true, ports := true, tu := true, ctrs := true, quads := true, eps := true, fns := true, insts := true, ep := true, grp := true, recd := true, out := true } w = true)
    (s : State) (p : Nat) (h : LtbHdr) (k : State → State) (hk : ∀ z, erase w (k z) = erase w z) :
    erase w (ltbIn s p h k) = erase w s := by
  have counted : erase w (count s .port p .ltbRx) = erase w s := erase_mono hw (erase_count (by decide) _ _ _ _ _)
  unfold ltbIn
  split
  · split <;> simp [hk, hw, counted]
  · split <;> simp [hk, hw, counted]
  · rfl
  · exact counted

@[simp] theorem erase_unmarked {w : Fields} (hw : Fields.within { ports := true, ctrs := true, out := true } w = true)
    (s : State) (p : Nat) (h : LtbHdr) (k : State → State) (hk : ∀ z, erase w (k z) = erase w z) :
    erase w (unmarked s p h k) = erase w s := by
  unfold unmarked
  simp [hk, hw]

@[simp] theorem erase_noteFlags {w : Fields} (hw : Fields.within { ports := true, tu := true, ctrs := true, quads := true, fns := true, insts := true, grp := true, recd := true, out := true } w = true)
    (s : State) (p : Nat) (t : TimeMsg) : erase w (noteFlags s p t) = erase w s := by
  refine erase_mono hw ?_
  unfold noteFlags
  simp (decide := true)

@[simp] theorem erase_timeRx {w : Fields} (hw : Fields.within { lanes := true, ports := true, tu := true, ctrs := true, quads := true, eps := true, fns := true, insts := true, ep := true, grp := true, recd := true, out := true } w = true)
    (s : State) (p : Nat) (h : LtbHdr) (t : TimeMsg) (k : State → State) (hk : ∀ z, erase w (k z) = erase w z) :
    erase w (timeRx s p h t k) = erase w s := by
  have counted := fun z (c : Cn) => erase_mono hw (erase_count (by decide) z .port p c)
  have noted := fun z => erase_mono hw (erase_noteFlags (by decide) z p t)
  unfold timeRx
  refine erase_unmarked (by simp only [Fields.within] at hw ⊢; simp_all) _ _ _ _ fun z => ?_
  split
  · simp [counted]
  · refine erase_ltbIn hw _ _ _ _ fun z => ?_
    split
    · simp [hk, noted]
    · rfl

@[simp] theorem erase_sendAnnounce {w : Fields} (hw : Fields.within { ports := true, ctrs := true, out := true } w = true)
    (s : State) (p : Nat) : erase w (sendAnnounce s p) = erase w s := by
  refine erase_mono hw ?_
  unfold sendAnnounce
  simp (decide := true)

@[simp] theorem erase_respAnswered {w : Fields} (hw : Fields.within { ports := true, ctrs := true, out := true } w = true)
    (s : State) (p : Nat) (seq : BitVec 16) (t1 t4 : Nat) (out : Bool) : erase w (respAnswered s p seq t1 t4 out) = erase w s := by
  refine erase_mono hw ?_
  unfold respAnswered
  simp (decide := true)

@[simp] theorem erase_measured {w : Fields} (hw : Fields.within { clk := true, ports := true, tu := true, routes := true, snap := true, ctrs := true, quads := true, fns := true, insts := true, cmds := true, grp := true, recd := true, out := true } w = true)
    (s : State) (p : Nat) (o : Int) : erase w (measured s p o) = erase w s := by
  refine erase_mono hw ?_
  unfold measured
  dsimp only
  (repeat' split) <;> simp_all (decide := true)

@[simp] theorem erase_countMax {w : Fields} (hw : Fields.within { ctrs := true } w = true)
    (s : State) (sc : Scope) (index : Nat) (c : Cn) (n : Nat) : erase w (countMax s sc index c n) = erase w s := by
  refine erase_mono hw ?_
  unfold countMax
  simp (decide := true)

@[simp] theorem erase_respAccepted {w : Fields} (hw : Fields.within { ports := true, ctrs := true } w = true)
    (s : State) (p : Nat) (o d : Int) : erase w (respAccepted s p o d) = erase w s := by
  refine erase_mono hw ?_
  unfold respAccepted
  simp (decide := true)

@[simp] theorem erase_reportLost {w : Fields} (hw : Fields.within { ctrs := true, quads := true, fns := true, insts := true, grp := true, recd := true, out := true } w = true)
    (s : State) : erase w (reportLost s) = erase w s := by
  refine erase_mono hw ?_
  unfold reportLost
  simp (decide := true)

@[simp] theorem erase_flushEvents {w : Fields} (hw : Fields.within { ctrs := true, quads := true, fns := true, insts := true, grp := true, recd := true, out := true } w = true)
    (s : State) : erase w (flushEvents s) = erase w s := by
  refine erase_mono hw ?_
  unfold flushEvents
  simp (decide := true)

@[simp] theorem erase_forwardOne {w : Fields} (hw : Fields.within { ctrs := true, quads := true, fns := true, insts := true, grp := true, recd := true, out := true } w = true)
    (s : State) (q : Nat) : erase w (forwardOne s q) = erase w s := by
  refine erase_mono hw ?_
  unfold forwardOne
  (repeat' split) <;> simp (decide := true)

@[simp] theorem erase_flushAll {w : Fields} (hw : Fields.within { ctrs := true, quads := true, fns := true, insts := true, grp := true, recd := true, out := true } w = true)
    (s : State) : erase w (flushAll s) = erase w s := by
  refine erase_mono hw ?_
  unfold flushAll
  simp (maxDischargeDepth := 9) (decide := true) [erase_foldl]

@[simp] theorem erase_endUpdate {w : Fields} (hw : Fields.within { boot := true } w = true) (s : State) :
    erase w (endUpdate s) = erase w s := by
  refine erase_mono hw ?_
  unfold endUpdate
  simp (decide := true)

@[simp] theorem erase_molzuRestart {w : Fields} (hw : Fields.within { boot := true, routes := true, ctrs := true, quads := true, fns := true, insts := true, cmds := true, grp := true, recd := true, out := true } w = true)
    (s : State) (cause slot : Nat) : erase w (molzuRestart s cause slot) = erase w s := by
  refine erase_mono hw ?_
  unfold molzuRestart
  simp (decide := true)

@[simp] theorem erase_cutHead {w : Fields} (hw : Fields.within { cmds := true, free := true } w = true) (s : State) :
    erase w (cutHead s) = erase w s := by
  refine erase_mono hw ?_
  unfold cutHead
  simp (decide := true)

end Sys2Proof.Machine
end

section
/-! PROOF. The fields each command may write, from those of the operations it calls, and the statements about frames (O47 to O50). -/

namespace Sys2Proof.Machine

theorem writes_execAdaptationPass (l : Nat) (rxEq snr eye ber : Word32) (s : State) :
    Writes { lanes := true } (execAdaptationPass l rxEq snr eye ber s) s := by
  unfold execAdaptationPass
  simp (decide := true)

theorem writes_execAlmanacBankAdopt (p : Nat) (s : State) :
    Writes { ports := true, routes := true, ctrs := true, quads := true, fns := true, insts := true, cmds := true, grp := true, recd := true, out := true } (execAlmanacBankAdopt p s) s := by
  unfold execAlmanacBankAdopt
  simp (decide := true)

theorem writes_execAnnounceSend (s : State) : Writes { ctrs := true, grp := true } (execAnnounceSend s) s := by
  unfold execAnnounceSend
  simp (decide := true)

theorem writes_execAntiRollbackRaise (s : State) : Writes { boot := true } (execAntiRollbackRaise s) s := by
  unfold execAntiRollbackRaise
  simp (decide := true)

theorem writes_execAqCommandFetch (fn : Nat) (r : AqFetch) (s : State) :
    Writes { fns := true, insts := true, out := true } (execAqCommandFetch fn r s) s := by
  unfold execAqCommandFetch
  (repeat' split) <;> simp (decide := true)

theorem writes_execAqCqHeadWrite (fn : Nat) (val : Word32) (s : State) : Writes { fns := true } (execAqCqHeadWrite fn val s) s := by
  unfold execAqCqHeadWrite
  simp (decide := true)

theorem writes_execAqCreateCq (fn : Nat) (head : List Byte) (s : State) :
    Writes { quads := true, fns := true, ep := true, out := true } (execAqCreateCq fn head s) s := by
  unfold execAqCreateCq
  simp (maxDischargeDepth := 9) (decide := true)

theorem writes_execAqCreateEq (fn : Nat) (s : State) :
    Writes { quads := true, fns := true, ep := true, out := true } (execAqCreateEq fn s) s := by
  unfold execAqCreateEq
  simp (maxDischargeDepth := 9) (decide := true)

theorem writes_execAqCreatePd (fn : Nat) (s : State) :
    Writes { quads := true, fns := true, ep := true, out := true } (execAqCreatePd fn s) s := by
  unfold execAqCreatePd
  simp (maxDischargeDepth := 9) (decide := true)

theorem writes_execAqCreateQp (fn : Nat) (db : List Byte) (s : State) :
    Writes { ctrs := true, quads := true, eps := true, fns := true, insts := true, ep := true, grp := true, recd := true, out := true, free := true } (execAqCreateQp fn db s) s := by
  unfold execAqCreateQp
  exact writes_guardRes _ (erase_runAq (by decide) _ _ _ _ fun z e => erase_createQp (by decide) _ _ _ _)

theorem writes_execAqCreateSrq (fn : Nat) (db : List Byte) (s : State) :
    Writes { quads := true, fns := true, ep := true, out := true } (execAqCreateSrq fn db s) s := by
  unfold execAqCreateSrq
  simp (maxDischargeDepth := 9) (decide := true)

theorem writes_execAqDestroyCq (fn : Nat) (s : State) :
    Writes { quads := true, fns := true, ep := true, out := true } (execAqDestroyCq fn s) s := by
  unfold execAqDestroyCq
  simp (maxDischargeDepth := 9) (decide := true)

theorem writes_execAqDestroyEq (fn : Nat) (s : State) :
    Writes { quads := true, fns := true, ep := true, out := true } (execAqDestroyEq fn s) s := by
  unfold execAqDestroyEq
  simp (maxDischargeDepth := 9) (decide := true)

theorem writes_execAqDestroyPd (fn : Nat) (s : State) :
    Writes { quads := true, fns := true, ep := true, out := true } (execAqDestroyPd fn s) s := by
  unfold execAqDestroyPd
  simp (maxDischargeDepth := 9) (decide := true)

theorem writes_execAqEnableClear (fn : Nat) (irqEn : Bool) (s : State) :
    Writes { fns := true, out := true } (execAqEnableClear fn irqEn s) s := by
  unfold execAqEnableClear
  simp (decide := true)

theorem writes_execAqEnableSet (fn : Nat) (irqEn : Bool) (s : State) : Writes { fns := true } (execAqEnableSet fn irqEn s) s := by
  unfold execAqEnableSet
  simp (decide := true)

theorem writes_execAqInvalidate (fn : Nat) (s : State) :
    Writes { ctrs := true, fns := true, out := true } (execAqInvalidate fn s) s := by
  unfold execAqInvalidate
  exact writes_guardRes _ (erase_runAq (by decide) _ _ _ _ fun z e => erase_invalidate (by decide) _ _ _)

theorem writes_execAqQueryQuota (fn : Nat) (s : State) : Writes { fns := true, out := true } (execAqQueryQuota fn s) s := by
  unfold execAqQueryQuota
  refine writes_guardRes _ (erase_runAq (by decide) _ _ _ _ fun z e => ?_)
  split <;> rfl

theorem writes_execAqSetQuota (fn : Nat) (s : State) : Writes { fns := true, out := true } (execAqSetQuota fn s) s := by
  unfold execAqSetQuota
  refine writes_guardRes _ (erase_runAq (by decide) _ _ _ _ fun z e => ?_)
  (repeat' split) <;> simp (maxDischargeDepth := 9) (decide := true)

theorem writes_execAqSqTailWrite (fn : Nat) (val : Word32) (s : State) : Writes { fns := true } (execAqSqTailWrite fn val s) s := by
  unfold execAqSqTailWrite
  simp (decide := true)

theorem writes_execAtsInvalidateRequest (fn : Nat) (start len : Nat) (s : State) :
    Writes { ctrs := true, fns := true } (execAtsInvalidateRequest fn start len s) s := by
  unfold execAtsInvalidateRequest
  simp (decide := true)

theorem writes_execBootRomConfigRead (newerCopyOk : Bool) (s : State) :
    Writes { boot := true, cfg := true, hostMode := true, quads := true, access := true } (execBootRomConfigRead newerCopyOk s) s := by
  unfold execBootRomConfigRead
  (repeat' split) <;> simp (decide := true)

theorem writes_execBusMasterEnableClear (fn : Nat) (s : State) :
    Writes { ctrs := true, quads := true, eps := true, fns := true, insts := true, ep := true, grp := true, recd := true, pstepC := true, pstepS := true, out := true, free := true } (execBusMasterEnableClear fn s) s := by
  unfold execBusMasterEnableClear
  simp (decide := true)

theorem writes_execBusMasterEnableSet (fn : Nat) (s : State) :
    Writes { quads := true, eps := true, fns := true, ep := true, out := true } (execBusMasterEnableSet fn s) s := by
  unfold execBusMasterEnableSet
  simp (maxDischargeDepth := 9) (decide := true)

theorem writes_execBypass (s : State) : Writes { pins := true } (execBypass s) s := by
  unfold execBypass
  simp (decide := true)

theorem writes_execCalibCoeffWrite (l : Nat) (s : State) :
    Writes { lanes := true, ctrs := true, quads := true, fns := true, insts := true, grp := true, recd := true, out := true } (execCalibCoeffWrite l s) s := by
  unfold execCalibCoeffWrite
  simp (decide := true)

theorem writes_execChainBadFrame (port : ChainPort) (f : ChainFrame) (s : State) :
    Writes { ctrs := true } (execChainBadFrame port f s) s := by
  unfold execChainBadFrame
  simp (decide := true)

theorem writes_execChainCrcFail (port : ChainPort) (f : ChainFrame) (s : State) :
    Writes { ctrs := true, out := true } (execChainCrcFail port f s) s := by
  unfold execChainCrcFail
  simp (decide := true)

theorem writes_execChainPortLock (port : ChainPort) (s : State) :
    Writes { ctrs := true, chain := true, out := true } (execChainPortLock port s) s := by
  unfold execChainPortLock
  simp (decide := true)

theorem writes_execClamp (s : State) : Writes { pins := true } (execClamp s) s := by
  unfold execClamp
  simp (decide := true)

theorem writes_execCodewordRx (l : Nat) (corrected : Option Nat) (s : State) :
    Writes { lanes := true, ctrs := true } (execCodewordRx l corrected s) s := by
  unfold execCodewordRx
  (repeat' split) <;> simp (decide := true)

theorem writes_execCohAck (req : CacheId) (line : LineId) (s : State) :
    Writes { ctrs := true, quads := true, ep := true, out := true } (execCohAck req line s) s := by
  unfold execCohAck
  simp (decide := true)

theorem writes_execConfigRequest (r : CfgRequest) (s : State) : Writes { fns := true, out := true } (execConfigRequest r s) s := by
  unfold execConfigRequest
  (repeat' split) <;> simp (decide := true)

theorem writes_execCounterFoldDone (s : State) : Writes { snap := true, ctrs := true } (execCounterFoldDone s) s := by
  unfold execCounterFoldDone
  simp (decide := true)

theorem writes_execCqHeadReread (cq : Nat) (s : State) :
    Writes { ctrs := true, quads := true, eps := true, fns := true, insts := true, ep := true, grp := true, recd := true, out := true } (execCqHeadReread cq s) s := by
  unfold execCqHeadReread
  rw [writes_next]
  split
  · rfl
  · split
    · split <;> rename_i t e
      · exact erase_useLine (by decide) _ _ _ _ _ _ _ (.inl e)
      · have k := erase_useLine (w := { ctrs := true, quads := true, eps := true, fns := true, insts := true, ep := true, grp := true, recd := true, out := true }) (by decide) _ _ _ _ _ _ _ (.inr e)
        simpa (decide := true) using k
    · rfl

theorem writes_execDoorbellPoll (q : Nat) (s : State) :
    Writes { ctrs := true, quads := true, eps := true, fns := true, insts := true, ep := true, grp := true, recd := true, out := true } (execDoorbellPoll q s) s := by
  unfold execDoorbellPoll
  rw [writes_next]
  split
  · rfl
  · split
    · split <;> rename_i t e
      · exact erase_useQueue (by decide) _ _ _ _ _ (.inl e)
      · have k := erase_useQueue (w := { ctrs := true, quads := true, eps := true, fns := true, insts := true, ep := true, grp := true, recd := true, out := true }) (by decide) _ _ _ _ _ (.inr e)
        simpa (decide := true) using k
    · rfl

theorem writes_execDrainComplete (p : Nat) (s : State) :
    Writes { ports := true, ctrs := true, out := true } (execDrainComplete p s) s := by
  unfold execDrainComplete
  simp (decide := true)

theorem writes_execEidleRefreshExpire (p : Nat) (s : State) : Writes { ports := true } (execEidleRefreshExpire p s) s := by
  unfold execEidleRefreshExpire
  simp (decide := true)

theorem writes_execEmptyPollLimit (q : Nat) (s : State) : Writes { ep := true } (execEmptyPollLimit q s) s := by
  unfold execEmptyPollLimit
  (repeat' split) <;> simp (decide := true)

theorem writes_execEnumAck (port : ChainPort) (f : ChainFrame) (s : State) :
    Writes { ctrs := true, chain := true } (execEnumAck port f s) s := by
  unfold execEnumAck
  simp (decide := true)

theorem writes_execEqxExchangeStart (p : Nat) (s : State) :
    Writes { ports := true, ctrs := true, out := true, free := true } (execEqxExchangeStart p s) s := by
  unfold execEqxExchangeStart
  simp (decide := true)

theorem writes_execEqxIntervalEnd (p : Nat) (s : State) :
    Writes { ports := true, tu := true, ctrs := true } (execEqxIntervalEnd p s) s := by
  unfold execEqxIntervalEnd
  simp (decide := true)

theorem writes_execErrInjectFire (l : Nat) (s : State) : Writes { lanes := true, out := true } (execErrInjectFire l s) s := by
  unfold execErrInjectFire
  simp (decide := true)

theorem writes_execEvent (port : ChainPort) (f : ChainFrame) (s : State) :
    Writes { ctrs := true, out := true } (execEvent port f s) s := by
  unfold execEvent
  simp (decide := true)

theorem writes_execExitBurstDone (l : Nat) (s : State) :
    Writes { lanes := true, ports := true, ctrs := true, out := true, free := true } (execExitBurstDone l s) s := by
  unfold execExitBurstDone
  simp only
  (repeat' split) <;> simp_all (maxDischargeDepth := 9) (decide := true)

theorem writes_execExtest (s : State) : Writes { pins := true } (execExtest s) s := by
  unfold execExtest
  simp (decide := true)

theorem writes_execExtestPulse (s : State) : Writes { pins := true } (execExtestPulse s) s := by
  unfold execExtestPulse
  simp (decide := true)

theorem writes_execExtestTrain (s : State) : Writes { pins := true } (execExtestTrain s) s := by
  unfold execExtestTrain
  simp (decide := true)

theorem writes_execFlashGntAssert (s : State) : Writes { boot := true, out := true } (execFlashGntAssert s) s := by
  unfold execFlashGntAssert
  (repeat' split) <;> simp (decide := true)

theorem writes_execFlashReqAssert (s : State) : Writes { boot := true } (execFlashReqAssert s) s := by
  unfold execFlashReqAssert
  simp (decide := true)

theorem writes_execFlashReqDeassert (s : State) : Writes { boot := true, out := true } (execFlashReqDeassert s) s := by
  unfold execFlashReqDeassert
  (repeat' split) <;> simp (decide := true) [erase_foldl]

theorem writes_execFlr (fn : Nat) (s : State) :
    Writes { ctrs := true, quads := true, eps := true, fns := true, insts := true, masters := true, cmds := true, ep := true, grp := true, recd := true, pstepC := true, pstepS := true, out := true, free := true } (execFlr fn s) s := by
  unfold execFlr
  simp (decide := true)

theorem writes_execFlrComplete (fn : Nat) (s : State) : Writes { ctrs := true, fns := true } (execFlrComplete fn s) s := by
  unfold execFlrComplete
  simp (decide := true)

theorem writes_execFwReadySet (s : State) :
    Writes { boot := true, lanes := true, ports := true, routes := true, ctrs := true, quads := true, eps := true, fns := true, insts := true, cmds := true, chain := true, grp := true, recd := true, out := true } (execFwReadySet s) s := by
  unfold execFwReadySet
  (repeat' split) <;> simp (decide := true)

theorem writes_execFwUpdateIdleTimeout (s : State) : Writes { boot := true } (execFwUpdateIdleTimeout s) s := by
  unfold execFwUpdateIdleTimeout
  simp (decide := true)

theorem writes_execFwdM (owner req : CacheId) (line : LineId) (s : State) :
    Writes { quads := true, ep := true, out := true } (execFwdM owner req line s) s := by
  unfold execFwdM
  simp (decide := true)

theorem writes_execFwdS (owner req : CacheId) (line : LineId) (s : State) :
    Writes { quads := true, ep := true, out := true } (execFwdS owner req line s) s := by
  unfold execFwdS
  simp (decide := true)

theorem writes_execGateWakeLead (p : Nat) (s : State) : Writes { ports := true, out := true } (execGateWakeLead p s) s := by
  unfold execGateWakeLead
  simp (maxDischargeDepth := 9) (decide := true) [erase_foldl]

theorem writes_execGetM (req : CacheId) (line : LineId) (s : State) :
    Writes { ctrs := true, quads := true, ep := true, out := true } (execGetM req line s) s := by
  unfold execGetM
  simp (decide := true)

theorem writes_execGetS (req : CacheId) (line : LineId) (s : State) :
    Writes { ctrs := true, quads := true, ep := true, out := true } (execGetS req line s) s := by
  unfold execGetS
  simp (decide := true)

theorem writes_execGrant (req : CacheId) (line : LineId) (acks : Nat) (s : State) :
    Writes { ctrs := true, quads := true, ep := true, out := true } (execGrant req line acks s) s := by
  unfold execGrant
  simp (decide := true)

theorem writes_execHbmClearing (s : State) : Writes { boot := true } (execHbmClearing s) s := by
  unfold execHbmClearing
  (repeat' split) <;> simp (decide := true)

theorem writes_execHbmTraining (s : State) :
    Writes { boot := true, ctrs := true, quads := true, fns := true, insts := true, grp := true, recd := true, out := true } (execHbmTraining s) s := by
  unfold execHbmTraining
  split <;> simp (maxDischargeDepth := 9) (decide := true)

theorem writes_execHeadRecordWrite (q : Nat) (s : State) :
    Writes { ctrs := true, quads := true, eps := true, fns := true, insts := true, ep := true, grp := true, recd := true, out := true } (execHeadRecordWrite q s) s := by
  unfold execHeadRecordWrite
  (repeat' split) <;> simp (decide := true)

theorem writes_execHeartbeat (port : ChainPort) (f : ChainFrame) (s : State) :
    Writes { ctrs := true, chain := true, out := true } (execHeartbeat port f s) s := by
  unfold execHeartbeat
  simp (decide := true)

theorem writes_execHeartbeatSend (s : State) : Writes { chain := true, out := true } (execHeartbeatSend s) s := by
  unfold execHeartbeatSend
  simp (decide := true)

theorem writes_execHeldIntervalExpire (p vc : Nat) (s : State) :
    Writes { ports := true, ctrs := true, out := true } (execHeldIntervalExpire p vc s) s := by
  unfold execHeldIntervalExpire
  simp (decide := true)

theorem writes_execHighz (s : State) : Writes { pins := true } (execHighz s) s := by
  unfold execHighz
  simp (decide := true)

theorem writes_execHoldoverMaxExpire (p : Nat) (s : State) :
    Writes { ports := true, ctrs := true, quads := true, fns := true, insts := true, grp := true, recd := true, out := true } (execHoldoverMaxExpire p s) s := by
  unfold execHoldoverMaxExpire
  simp (decide := true)

theorem writes_execHostLinkDown (ep : Nat) (s : State) :
    Writes { ports := true, ctrs := true, quads := true, eps := true, fns := true, insts := true, cmds := true, ep := true, grp := true, recd := true, pstepC := true, pstepS := true, out := true, free := true } (execHostLinkDown ep s) s := by
  unfold execHostLinkDown
  simp (maxDischargeDepth := 9) (decide := true)

theorem writes_execHostLinkUp (ep speed width : Nat) (s : State) :
    Writes { ctrs := true, quads := true, eps := true, fns := true, insts := true, masters := true, cmds := true, ep := true, grp := true, recd := true, pstepC := true, pstepS := true, out := true, free := true } (execHostLinkUp ep speed width s) s := by
  unfold execHostLinkUp
  simp (maxDischargeDepth := 9) (decide := true)

theorem writes_execHostSnoop (quad : Nat) (line : LineId) (invalidate : Bool) (s : State) :
    Writes { quads := true, ep := true, out := true } (execHostSnoop quad line invalidate s) s := by
  unfold execHostSnoop
  simp (decide := true)

theorem writes_execI3cAddressAssign (addr : Nat) (s : State) :
    Writes { pins := true, out := true } (execI3cAddressAssign addr s) s := by
  unfold execI3cAddressAssign
  simp (decide := true)

theorem writes_execI3cRstdaa (s : State) : Writes { pins := true } (execI3cRstdaa s) s := by
  unfold execI3cRstdaa
  simp (decide := true)

theorem writes_execIdcode (s : State) : Writes { pins := true, out := true } (execIdcode s) s := by
  unfold execIdcode
  simp (decide := true)

theorem writes_execIdleEnterExpire (p : Nat) (s : State) : Writes { ports := true, out := true } (execIdleEnterExpire p s) s := by
  unfold execIdleEnterExpire
  simp (maxDischargeDepth := 9) (decide := true)

theorem writes_execIdleSequenceSent (p : Nat) (s : State) :
    Writes { lanes := true, ports := true, ctrs := true, out := true } (execIdleSequenceSent p s) s := by
  unfold execIdleSequenceSent
  simp (maxDischargeDepth := 9) (decide := true)

theorem writes_execIdleWriteback (quad : Nat) (line : LineId) (s : State) :
    Writes { ctrs := true, ep := true } (execIdleWriteback quad line s) s := by
  unfold execIdleWriteback
  simp (decide := true)

theorem writes_execInterruptHoldoffEnd (fn vec : Nat) (s : State) :
    Writes { fns := true, out := true } (execInterruptHoldoffEnd fn vec s) s := by
  unfold execInterruptHoldoffEnd
  (repeat' split) <;> simp (decide := true)

theorem writes_execInv (sharer req : CacheId) (line : LineId) (s : State) :
    Writes { quads := true, ep := true, out := true } (execInv sharer req line s) s := by
  unfold execInv
  simp (decide := true)

theorem writes_execJoinReq (port : ChainPort) (f : ChainFrame) (s : State) :
    Writes { ctrs := true, chain := true, out := true } (execJoinReq port f s) s := by
  unfold execJoinReq
  simp (decide := true)

theorem writes_execJoinReqSend (s : State) : Writes { chain := true, out := true } (execJoinReqSend s) s := by
  unfold execJoinReqSend
  simp (decide := true)

theorem writes_execLaneCalibration (s : State) :
    Writes { boot := true, lanes := true, octets := true, ctrs := true, quads := true, fns := true, insts := true, grp := true, recd := true, out := true } (execLaneCalibration s) s := by
  unfold execLaneCalibration
  (repeat' split) <;> simp (maxDischargeDepth := 9) (decide := true)

theorem writes_execLaneDropEnd (l : Nat) (s : State) : Writes { lanes := true, out := true } (execLaneDropEnd l s) s := by
  unfold execLaneDropEnd
  simp (decide := true)

theorem writes_execLateCompletion (fn : Nat) (s : State) : Writes { ctrs := true, eps := true } (execLateCompletion fn s) s := by
  unfold execLateCompletion
  simp (decide := true)

theorem writes_execLifeHourlyWrite (s : State) :
    Writes { ctrs := true, quads := true, fns := true, insts := true, grp := true, recd := true, lifePart := true, out := true } (execLifeHourlyWrite s) s := by
  unfold execLifeHourlyWrite
  simp (decide := true)

theorem writes_execLoadHintSend (p : Nat) (s : State) :
    Writes { ports := true, ctrs := true, out := true } (execLoadHintSend p s) s := by
  unfold execLoadHintSend
  simp (decide := true)

theorem writes_execLtbBadRx (p : Nat) (badType : Bool) (s : State) :
    Writes { ports := true, ctrs := true, out := true } (execLtbBadRx p badType s) s := by
  unfold execLtbBadRx
  (repeat' split) <;> simp (decide := true)

theorem writes_execMbRsp (port : ChainPort) (f : ChainFrame) (s : State) :
    Writes { ctrs := true, out := true } (execMbRsp port f s) s := by
  unfold execMbRsp
  simp (decide := true)

theorem writes_execMgmtCmdRx (s : State) :
    Writes { ports := true, ctrs := true, quads := true, cmds := true, grp := true, out := true } (execMgmtCmdRx s) s := by
  unfold execMgmtCmdRx
  simp (decide := true)

theorem writes_execMgrLossTmoExpire (s : State) :
    Writes { ctrs := true, quads := true, fns := true, insts := true, grp := true, recd := true, out := true } (execMgrLossTmoExpire s) s := by
  unfold execMgrLossTmoExpire
  rw [writes_next]
  dsimp only
  (repeat' split) <;> simp (maxDischargeDepth := 9) (decide := true)

theorem writes_execMolzuStart (vkeepLost : Bool) (s : State) :
    Writes { clk := true, boot := true, ctrs := true, quads := true, fns := true, insts := true, grp := true, recd := true, life := true, lifePart := true, pstepC := true, pstepS := true, out := true, free := true } (execMolzuStart vkeepLost s) s := by
  unfold execMolzuStart
  (repeat' split) <;> simp (decide := true)

theorem writes_execMsixUnmask (fn : Nat) (vec : Option Nat) (s : State) :
    Writes { fns := true, out := true } (execMsixUnmask fn vec s) s := by
  unfold execMsixUnmask
  (repeat' split) <;> simp (decide := true)

theorem writes_execNonceExpire (s : State) : Writes { cmds := true } (execNonceExpire s) s := by
  unfold execNonceExpire
  simp (decide := true)

theorem writes_execNoticeLeadExpire (g : Nat) (s : State) :
    Writes { ctrs := true, pstepC := true, pstepS := true } (execNoticeLeadExpire g s) s := by
  unfold execNoticeLeadExpire
  simp (decide := true)

theorem writes_execNumberQuarantineEnd (space num : Nat) (s : State) :
    Writes { ep := true } (execNumberQuarantineEnd space num s) s := by
  unfold execNumberQuarantineEnd
  simp (decide := true)

theorem writes_execOctetPllRelock (o : Nat) (s : State) :
    Writes { lanes := true, octets := true, ports := true, ctrs := true, quads := true, fns := true, insts := true, grp := true, recd := true, out := true } (execOctetPllRelock o s) s := by
  unfold execOctetPllRelock
  refine writes_guardRes _ ?_
  split
  · refine (erase_foldS _ _ _ ?_).trans (by simp (decide := true))
    intro z l
    split <;> simp (decide := true)
  · rfl

theorem writes_execPacketDeparted (p : Nat) (s : State) :
    Writes { ports := true, ctrs := true, quads := true, out := true } (execPacketDeparted p s) s := by
  unfold execPacketDeparted
  dsimp only
  (repeat' split) <;> simp_all (decide := true)

theorem writes_execPartnerIdleRx (l : Nat) (s : State) : Writes { lanes := true } (execPartnerIdleRx l s) s := by
  unfold execPartnerIdleRx
  simp (decide := true)

theorem writes_execPatrolPassStart (stack : Nat) (s : State) : Writes { quads := true } (execPatrolPassStart stack s) s := by
  unfold execPatrolPassStart
  simp (decide := true)

theorem writes_execPerstNAssert (h : Nat) (s : State) :
    Writes { ports := true, ctrs := true, quads := true, eps := true, fns := true, insts := true, masters := true, cmds := true, ep := true, grp := true, recd := true, pstepC := true, pstepS := true, pins := true, out := true, free := true } (execPerstNAssert h s) s := by
  unfold execPerstNAssert
  simp (maxDischargeDepth := 9) (decide := true)

theorem writes_execPerstNDeassert (h : Nat) (s : State) : Writes { pins := true } (execPerstNDeassert h s) s := by
  unfold execPerstNDeassert
  exact writes_guardRes _ (by simp)

theorem writes_execPpsInEdge (s : State) :
    Writes { clk := true, ports := true, tu := true, routes := true, snap := true, ctrs := true, quads := true, fns := true, insts := true, cmds := true, grp := true, recd := true, out := true, free := true } (execPpsInEdge s) s := by
  unfold execPpsInEdge
  (repeat' split) <;> simp (decide := true)

theorem writes_execPpsOutEdge (s : State) : Writes { tu := true, out := true } (execPpsOutEdge s) s := by
  unfold execPpsOutEdge
  dsimp only
  (repeat' split) <;> simp_all (decide := true)

theorem writes_execPrbsCheckerLock (l : Nat) (s : State) : Writes { lanes := true } (execPrbsCheckerLock l s) s := by
  unfold execPrbsCheckerLock
  simp (decide := true)

theorem writes_execPrbsCheckerLoss (l bits errs : Nat) (s : State) :
    Writes { lanes := true } (execPrbsCheckerLoss l bits errs s) s := by
  unfold execPrbsCheckerLoss
  simp (decide := true)

theorem writes_execPstepAckFall (g : Nat) (s : State) : Writes { pstepC := true, pstepS := true } (execPstepAckFall g s) s := by
  unfold execPstepAckFall
  simp (decide := true)

theorem writes_execPstepAckRise (g : Nat) (s : State) :
    Writes { ctrs := true, pstepC := true, pstepS := true } (execPstepAckRise g s) s := by
  unfold execPstepAckRise
  simp (decide := true)

theorem writes_execPstepStepDone (g : Nat) (s : State) :
    Writes { ctrs := true, pstepC := true, pstepS := true, out := true } (execPstepStepDone g s) s := by
  unfold execPstepStepDone
  simp (decide := true)

theorem writes_execPut (req : CacheId) (line : LineId) (s : State) :
    Writes { ctrs := true, quads := true, ep := true, out := true } (execPut req line s) s := by
  unfold execPut
  (repeat' split) <;> simp (decide := true)

theorem writes_execPutAck (req : CacheId) (line : LineId) (s : State) :
    Writes { ctrs := true, quads := true, ep := true, out := true } (execPutAck req line s) s := by
  unfold execPutAck
  dsimp only
  (repeat' split) <;> simp_all (decide := true)

theorem writes_execPutClean (req : CacheId) (line : LineId) (s : State) :
    Writes { ctrs := true, quads := true, ep := true, out := true } (execPutClean req line s) s := by
  unfold execPutClean
  (repeat' split) <;> simp (decide := true)

theorem writes_execQuadPortsDrained (q : Nat) (s : State) : Writes { quads := true } (execQuadPortsDrained q s) s := by
  unfold execQuadPortsDrained
  simp (decide := true)

theorem writes_execQuadUngateTrained (q : Nat) (s : State) :
    Writes { lanes := true, octets := true, ctrs := true, quads := true, pstepC := true, pstepS := true, out := true } (execQuadUngateTrained q s) s := by
  unfold execQuadUngateTrained
  simp (maxDischargeDepth := 9) (decide := true)

theorem writes_execQuadrantArraySelfTest (s : State) : Writes { boot := true } (execQuadrantArraySelfTest s) s := by
  unfold execQuadrantArraySelfTest
  (repeat' split) <;> simp (decide := true)

theorem writes_execQuadrantInitialisation (s : State) :
    Writes { boot := true, profile := true, lanes := true, octets := true, ports := true, tu := true, routes := true, ctrs := true, quads := true, fns := true, insts := true, access := true, grp := true, recd := true, out := true } (execQuadrantInitialisation s) s := by
  unfold execQuadrantInitialisation
  (repeat' split) <;> simp (decide := true)

theorem writes_execQuadrantPowerUp (q : Nat) (s : State) : Writes { boot := true, quads := true } (execQuadrantPowerUp q s) s := by
  unfold execQuadrantPowerUp
  simp (decide := true)

theorem writes_execRegRsp (port : ChainPort) (f : ChainFrame) (s : State) :
    Writes { ctrs := true, out := true } (execRegRsp port f s) s := by
  unfold execRegRsp
  simp (decide := true)

theorem writes_execRetryWaitExpire (l : Nat) (s : State) :
    Writes { lanes := true, ports := true, ctrs := true, quads := true, fns := true, insts := true, grp := true, recd := true, out := true } (execRetryWaitExpire l s) s := by
  unfold execRetryWaitExpire
  (repeat' split) <;> simp (decide := true)

theorem writes_execRootPllLock (s : State) :
    Writes { boot := true, ctrs := true, quads := true, chain := true, out := true } (execRootPllLock s) s := by
  unfold execRootPllLock
  (repeat' split) <;> simp (decide := true)

theorem writes_execRouteBankAdopt (s : State) : Writes { routes := true, cmds := true } (execRouteBankAdopt s) s := by
  unfold execRouteBankAdopt
  simp (decide := true)

theorem writes_execSamplePreload (s : State) : Writes { pins := true } (execSamplePreload s) s := by
  unfold execSamplePreload
  simp (decide := true)

theorem writes_execServiceDieSelfTest (s : State) : Writes { boot := true } (execServiceDieSelfTest s) s := by
  unfold execServiceDieSelfTest
  (repeat' split) <;> simp (decide := true)

theorem writes_execSharedGrantAdjust (p : Nat) (s : State) :
    Writes { ports := true, ctrs := true, quads := true, out := true } (execSharedGrantAdjust p s) s := by
  unfold execSharedGrantAdjust
  simp (decide := true)

theorem writes_execSignalDetect (l : Nat) (s : State) : Writes { lanes := true } (execSignalDetect l s) s := by
  unfold execSignalDetect
  simp (decide := true)

theorem writes_execSmbusAlertResponse (s : State) : Writes { out := true } (execSmbusAlertResponse s) s := by
  unfold execSmbusAlertResponse
  simp (decide := true)

theorem writes_execSnapshotTake (s : State) :
    Writes { ports := true, routes := true, snap := true, ctrs := true, quads := true, fns := true, insts := true, cmds := true, grp := true, recd := true, out := true } (execSnapshotTake s) s := by
  unfold execSnapshotTake
  simp (decide := true)

theorem writes_execSpdmRequest (ep code : Nat) (s : State) : Writes { out := true } (execSpdmRequest ep code s) s := by
  unfold execSpdmRequest
  simp (decide := true)

theorem writes_execStagingIdleTimeout (importBuf : Bool) (s : State) :
    Writes { cmds := true } (execStagingIdleTimeout importBuf s) s := by
  unfold execStagingIdleTimeout
  simp (decide := true)

theorem writes_execStartOfStreamRx (l : Nat) (s : State) : Writes { lanes := true } (execStartOfStreamRx l s) s := by
  unfold execStartOfStreamRx
  simp (decide := true)

theorem writes_execStatusCauseWrite (m : Nat) (val : Word32) (s : State) :
    Writes { fns := true, insts := true, out := true } (execStatusCauseWrite m val s) s := by
  unfold execStatusCauseWrite
  simp (decide := true)

theorem writes_execStatusMaskWrite (m : Nat) (val : Word32) (s : State) :
    Writes { fns := true, insts := true, out := true } (execStatusMaskWrite m val s) s := by
  unfold execStatusMaskWrite
  simp (decide := true)

theorem writes_execStatusRsp (port : ChainPort) (f : ChainFrame) (s : State) :
    Writes { ctrs := true, out := true } (execStatusRsp port f s) s := by
  unfold execStatusRsp
  simp (decide := true)

theorem writes_execThermalTrip (die : Nat) (s : State) :
    Writes { boot := true, lanes := true, ports := true, ctrs := true, quads := true, eps := true, fns := true, insts := true, ep := true, grp := true, recd := true, lifePart := true, pins := true, out := true } (execThermalTrip die s) s := by
  unfold execThermalTrip
  simp (maxDischargeDepth := 9) (decide := true)

theorem writes_execTimeAnnounceRx (p : Nat) (t : TimeLtb) (s : State) :
    Writes { clk := true, lanes := true, ports := true, tu := true, routes := true, snap := true, ctrs := true, quads := true, eps := true, fns := true, insts := true, cmds := true, ep := true, grp := true, recd := true, out := true } (execTimeAnnounceRx p t s) s := by
  unfold execTimeAnnounceRx
  simp (maxDischargeDepth := 9) (decide := true)

theorem writes_execTimeReqRx (p : Nat) (t : TimeLtb) (s : State) :
    Writes { lanes := true, ports := true, tu := true, ctrs := true, quads := true, eps := true, fns := true, insts := true, ep := true, grp := true, recd := true, out := true, free := true } (execTimeReqRx p t s) s := by
  unfold execTimeReqRx
  simp (maxDischargeDepth := 9) (decide := true)

theorem writes_execTimeRespRx (p : Nat) (t : TimeLtb) (s : State) :
    Writes { clk := true, lanes := true, ports := true, tu := true, routes := true, snap := true, ctrs := true, quads := true, eps := true, fns := true, insts := true, cmds := true, ep := true, grp := true, recd := true, out := true } (execTimeRespRx p t s) s := by
  unfold execTimeRespRx
  refine writes_guardRes _ (erase_timeRx (by decide) _ _ _ _ _ fun z => ?_)
  dsimp only
  repeat' split
  all_goals simp (decide := true)

theorem writes_execTimeStepApply (s : State) :
    Writes { clk := true, ports := true, tu := true, routes := true, snap := true, ctrs := true, quads := true, fns := true, insts := true, cmds := true, grp := true, recd := true, out := true } (execTimeStepApply s) s := by
  unfold execTimeStepApply
  (repeat' split) <;> simp (decide := true)

theorem writes_execTrstNAssert (s : State) : Writes { pins := true } (execTrstNAssert s) s := by
  unfold execTrstNAssert
  simp (decide := true)

theorem writes_execUpgrade (req : CacheId) (line : LineId) (s : State) :
    Writes { ctrs := true, quads := true, ep := true, out := true } (execUpgrade req line s) s := by
  unfold execUpgrade
  simp (decide := true)

theorem writes_execWarmRstNAssert (s : State) :
    Writes { boot := true, ctrs := true, quads := true, fns := true, insts := true, grp := true, recd := true, out := true } (execWarmRstNAssert s) s := by
  unfold execWarmRstNAssert
  (repeat' split) <;> simp (decide := true)

theorem writes_execWatchdogExpire (s : State) :
    Writes { boot := true, routes := true, ctrs := true, quads := true, fns := true, insts := true, cmds := true, grp := true, recd := true, out := true, free := true } (execWatchdogExpire s) s := by
  unfold execWatchdogExpire
  simp (decide := true)

/-! ### The statements -/

/-- Settles O47: the frame of each of these commands is the union of the frames of the operations it calls. -/
theorem framesOfStartsBoardAndChain : Obligations.FramesOfStartsBoardAndChain := by
  unfold Obligations.FramesOfStartsBoardAndChain
  exact ⟨fun _ _ h => (writes_execRootPllLock _).eq h,
    fun _ _ _ h => (writes_execBootRomConfigRead _ _).eq h,
    fun _ _ h => (writes_execServiceDieSelfTest _).eq h,
    fun _ _ _ h => (writes_execQuadrantPowerUp _ _).eq h,
    fun _ _ h => (writes_execQuadrantArraySelfTest _).eq h,
    fun _ _ h => (writes_execHbmTraining _).eq h,
    fun _ _ _ h => (writes_execMolzuStart _ _).eq h,
    fun _ _ h => (writes_execHbmClearing _).eq h,
    fun _ _ h => (writes_execLaneCalibration _).eq h,
    fun _ _ h => ((writes_execQuadrantInitialisation _).mono (w := { boot := true, cfg := true, profile := true, lanes := true, octets := true, ports := true, tu := true, routes := true, ctrs := true, quads := true, fns := true, insts := true, access := true, grp := true, recd := true, out := true }) (by decide)).eq h,
    fun _ _ h => (writes_execFwReadySet _).eq h,
    fun _ _ h => (writes_execWarmRstNAssert _).eq h,
    fun _ _ h => (writes_execWatchdogExpire _).eq h,
    fun _ _ h => (writes_execAntiRollbackRaise _).eq h,
    fun _ _ _ h => (writes_execConfigRequest _ _).eq h,
    fun _ _ h => (writes_execFlashReqAssert _).eq h,
    fun _ _ h => (writes_execFlashGntAssert _).eq h,
    fun _ _ h => (writes_execFlashReqDeassert _).eq h,
    fun _ _ h => (writes_execFwUpdateIdleTimeout _).eq h,
    fun _ _ _ h => (writes_execChainPortLock _ _).eq h,
    fun _ _ _ _ h => (writes_execEnumAck _ _ _).eq h,
    fun _ _ _ _ h => (writes_execHeartbeat _ _ _).eq h,
    fun _ _ h => (writes_execHeartbeatSend _).eq h,
    fun _ _ _ _ h => (writes_execJoinReq _ _ _).eq h,
    fun _ _ h => (writes_execJoinReqSend _).eq h,
    fun _ _ _ _ h => (writes_execStatusRsp _ _ _).eq h,
    fun _ _ _ _ h => (writes_execRegRsp _ _ _).eq h,
    fun _ _ _ _ h => (writes_execMbRsp _ _ _).eq h,
    fun _ _ _ _ h => (writes_execEvent _ _ _).eq h,
    fun _ _ _ _ h => (writes_execChainBadFrame _ _ _).eq h,
    fun _ _ _ _ h => (writes_execChainCrcFail _ _ _).eq h,
    fun _ _ h => (writes_execLifeHourlyWrite _).eq h,
    fun _ _ _ h => (writes_execThermalTrip _ _).eq h,
    fun _ _ _ h => (writes_execI3cAddressAssign _ _).eq h,
    fun _ _ h => (writes_execI3cRstdaa _).eq h,
    fun _ _ h => (writes_execSmbusAlertResponse _).eq h,
    fun _ _ h => (writes_execTrstNAssert _).eq h,
    fun _ _ h => (writes_execIdcode _).eq h,
    fun _ _ h => (writes_execSamplePreload _).eq h,
    fun _ _ h => (writes_execExtest _).eq h,
    fun _ _ h => (writes_execExtestPulse _).eq h,
    fun _ _ h => (writes_execExtestTrain _).eq h,
    fun _ _ h => (writes_execClamp _).eq h,
    fun _ _ h => (writes_execHighz _).eq h,
    fun _ _ h => (writes_execBypass _).eq h,
    fun _ _ _ h => (writes_execPerstNDeassert _ _).eq h,
    fun _ _ _ _ h => (writes_execSpdmRequest _ _ _).eq h⟩

/-- Settles O48, as O47: no command of a lane, port or power step writes a field that none of its operations writes. -/
theorem framesOfLanesPortsAndPowerSteps : Obligations.FramesOfLanesPortsAndPowerSteps := by
  unfold Obligations.FramesOfLanesPortsAndPowerSteps
  exact ⟨fun _ _ _ h => (writes_execQuadUngateTrained _ _).eq h,
    fun _ _ _ h => (writes_execEqxExchangeStart _ _).eq h,
    fun _ _ _ _ h => (writes_execTimeReqRx _ _ _).eq h,
    fun _ _ _ h => (writes_execEqxIntervalEnd _ _).eq h,
    fun _ _ h => (writes_execPpsInEdge _).eq h,
    fun _ _ _ h => (writes_execOctetPllRelock _ _).eq h,
    fun _ _ _ _ h => (writes_execCodewordRx _ _ _).eq h,
    fun _ _ _ h => (writes_execRetryWaitExpire _ _).eq h,
    fun _ _ _ h => (writes_execIdleEnterExpire _ _).eq h,
    fun _ _ _ h => (writes_execIdleSequenceSent _ _).eq h,
    fun _ _ _ h => (writes_execPartnerIdleRx _ _).eq h,
    fun _ _ _ h => (writes_execEidleRefreshExpire _ _).eq h,
    fun _ _ _ h => (writes_execExitBurstDone _ _).eq h,
    fun _ _ _ h => (writes_execStartOfStreamRx _ _).eq h,
    fun _ _ _ _ _ _ _ h => (writes_execAdaptationPass _ _ _ _ _ _).eq h,
    fun _ _ _ h => (writes_execCalibCoeffWrite _ _).eq h,
    fun _ _ _ h => (writes_execPrbsCheckerLock _ _).eq h,
    fun _ _ _ _ _ h => (writes_execPrbsCheckerLoss _ _ _ _).eq h,
    fun _ _ _ h => (writes_execErrInjectFire _ _).eq h,
    fun _ _ _ h => (writes_execLaneDropEnd _ _).eq h,
    fun _ _ _ _ h => (writes_execLtbBadRx _ _ _).eq h,
    fun _ _ _ _ h => (writes_execHeldIntervalExpire _ _ _).eq h,
    fun _ _ _ h => (writes_execSharedGrantAdjust _ _).eq h,
    fun _ _ _ h => (writes_execDrainComplete _ _).eq h,
    fun _ _ _ h => (writes_execLoadHintSend _ _).eq h,
    fun _ _ _ h => (writes_execPacketDeparted _ _).eq h,
    fun _ _ _ h => (writes_execGateWakeLead _ _).eq h,
    fun _ _ _ h => (writes_execHoldoverMaxExpire _ _).eq h,
    fun _ _ _ h => (writes_execPstepAckRise _ _).eq h,
    fun _ _ _ h => (writes_execNoticeLeadExpire _ _).eq h,
    fun _ _ _ h => (writes_execPstepStepDone _ _).eq h,
    fun _ _ h => (writes_execPpsOutEdge _).eq h,
    fun _ _ _ h => (writes_execSignalDetect _ _).eq h,
    fun _ _ _ h => (writes_execPstepAckFall _ _).eq h⟩

/-- Settles O49, as O47, for the commands of host links, queues, paging and coherence. -/
theorem framesOfHostsQueuesAndCoherence : Obligations.FramesOfHostsQueuesAndCoherence := by
  unfold Obligations.FramesOfHostsQueuesAndCoherence
  exact ⟨fun _ _ _ h => (writes_execPerstNAssert _ _).eq h,
    fun _ _ _ h => (writes_execHostLinkDown _ _).eq h,
    fun _ _ _ _ _ h => (writes_execHostLinkUp _ _ _ _).eq h,
    fun _ _ _ h => (writes_execBusMasterEnableClear _ _).eq h,
    fun _ _ _ h => (writes_execFlr _ _).eq h,
    fun _ _ _ h => (writes_execLateCompletion _ _).eq h,
    fun _ _ _ h => (writes_execQuadPortsDrained _ _).eq h,
    fun _ _ _ _ h => (writes_execAqCreateQp _ _ _).eq h,
    fun _ _ _ _ h => (writes_execAqCreateSrq _ _ _).eq h,
    fun _ _ _ _ h => (writes_execAqCreateCq _ _ _).eq h,
    fun _ _ _ h => (writes_execAqDestroyCq _ _).eq h,
    fun _ _ _ h => (writes_execAqCreateEq _ _).eq h,
    fun _ _ _ h => (writes_execAqDestroyEq _ _).eq h,
    fun _ _ _ h => (writes_execAqCreatePd _ _).eq h,
    fun _ _ _ h => (writes_execAqDestroyPd _ _).eq h,
    fun _ _ _ h => (writes_execDoorbellPoll _ _).eq h,
    fun _ _ _ h => (writes_execEmptyPollLimit _ _).eq h,
    fun _ _ _ h => (writes_execHeadRecordWrite _ _).eq h,
    fun _ _ _ h => (writes_execCqHeadReread _ _).eq h,
    fun _ _ _ _ h => (writes_execNumberQuarantineEnd _ _ _).eq h,
    fun _ _ _ _ h => (writes_execIdleWriteback _ _ _).eq h,
    fun _ _ _ _ h => (writes_execGetS _ _ _).eq h,
    fun _ _ _ _ h => (writes_execGetM _ _ _).eq h,
    fun _ _ _ _ h => (writes_execUpgrade _ _ _).eq h,
    fun _ _ _ _ h => (writes_execPut _ _ _).eq h,
    fun _ _ _ _ h => (writes_execPutClean _ _ _).eq h,
    fun _ _ _ _ _ h => (writes_execFwdS _ _ _ _).eq h,
    fun _ _ _ _ _ h => (writes_execFwdM _ _ _ _).eq h,
    fun _ _ _ _ _ h => (writes_execInv _ _ _ _).eq h,
    fun _ _ _ _ h => (writes_execCohAck _ _ _).eq h,
    fun _ _ _ _ h => (writes_execPutAck _ _ _).eq h,
    fun _ _ _ _ _ h => (writes_execGrant _ _ _ _).eq h,
    fun _ _ _ _ _ h => ((writes_execHostSnoop _ _ _ _).mono (w := { ctrs := true, quads := true, fns := true, ep := true, out := true }) (by decide)).eq h,
    fun _ _ _ h => (writes_execPatrolPassStart _ _).eq h,
    fun _ _ _ h => (writes_execBusMasterEnableSet _ _).eq h⟩

/-- Settles O50, as O47, for the commands of registers, timers and management. -/
theorem framesOfRegistersTimersAndManagement : Obligations.FramesOfRegistersTimersAndManagement := by
  unfold Obligations.FramesOfRegistersTimersAndManagement
  exact ⟨fun _ _ _ h => (writes_execFlrComplete _ _).eq h,
    fun _ _ _ _ h => (writes_execStatusCauseWrite _ _ _).eq h,
    fun _ _ _ _ h => (writes_execStatusMaskWrite _ _ _).eq h,
    fun _ _ _ _ h => (writes_execMsixUnmask _ _ _).eq h,
    fun _ _ _ _ h => (writes_execAqSqTailWrite _ _ _).eq h,
    fun _ _ _ _ h => (writes_execAqCqHeadWrite _ _ _).eq h,
    fun _ _ _ _ h => (writes_execAqEnableSet _ _ _).eq h,
    fun _ _ _ _ h => (writes_execAqEnableClear _ _ _).eq h,
    fun _ _ _ _ h => (writes_execAqCommandFetch _ _ _).eq h,
    fun _ _ _ h => (writes_execStagingIdleTimeout _ _).eq h,
    fun _ _ h => (writes_execNonceExpire _).eq h,
    fun _ _ _ h => (writes_execAqInvalidate _ _).eq h,
    fun _ _ _ h => (writes_execAqSetQuota _ _).eq h,
    fun _ _ _ h => (writes_execAqQueryQuota _ _).eq h,
    fun _ _ h => (writes_execRouteBankAdopt _).eq h,
    fun _ _ h => (writes_execSnapshotTake _).eq h,
    fun _ _ h => (writes_execCounterFoldDone _).eq h,
    fun _ _ _ _ h => (writes_execInterruptHoldoffEnd _ _ _).eq h,
    fun _ _ _ _ _ h => (writes_execAtsInvalidateRequest _ _ _ _).eq h,
    fun _ _ h => (writes_execMgmtCmdRx _).eq h,
    fun _ _ h => (writes_execAnnounceSend _).eq h,
    fun _ _ h => (writes_execMgrLossTmoExpire _).eq h⟩

end Sys2Proof.Machine
end

section
/-! PROOF. What each kind of command leaves unchanged: every command is found among the kinds, with the part of the state its meaning keeps
(the lemmas of Laws/Keep), and the statements about identity, settings, fabric side and links are read off the parts. -/

namespace Sys2Proof.Machine

/-! ### From a stronger part to a weaker one -/

theorem resHostSide_of_cored {r : Res} {s : State} (h : resCore r s) : resHostSide r s := fun t e => hostSided_of_cored (h t e)
theorem resEngine_of_portFreed {r : Res} {s : State} (h : resPortFree r s) : resEngine r s := fun t e => engined_of_portFreed (h t e)
theorem resLinkSide_of_portFreed {r : Res} {s : State} (h : resPortFree r s) : resLinkSide r s := fun t e => linkSided_of_portFreed (h t e)
theorem resSettled_of_cored {r : Res} {s : State} (h : resCore r s) : resSettled r s := fun t e => settled_of_cored (h t e)
theorem resSettled_of_hostSided {r : Res} {s : State} (h : resHostSide r s) : resSettled r s := fun t e => settled_of_hostSided (h t e)
theorem resSettled_of_controlled {r : Res} {s : State} (h : resControl r s) : resSettled r s := fun t e => settled_of_controlled (h t e)
theorem resSettled_of_linkSided {r : Res} {s : State} (h : resLinkSide r s) : resSettled r s := fun t e => settled_of_linkSided (h t e)
theorem resSettled_of_engined {r : Res} {s : State} (h : resEngine r s) : resSettled r s := fun t e => settled_of_engined (h t e)
theorem resSettled_of_portFreed {r : Res} {s : State} (h : resPortFree r s) : resSettled r s := fun t e => settled_of_portFreed (h t e)
theorem resBoot_of_settled {r : Res} {s : State} (h : resSettled r s) : resBoot r s := fun t e => booted_of_settled (h t e)
theorem resFixed_of_settled {r : Res} {s : State} (h : resSettled r s) : resFixed r s := fun t e => fixed_of_settled (h t e)
theorem resFixed_of_booted {r : Res} {s : State} (h : resBoot r s) : resFixed r s := fun t e => fixed_of_booted (h t e)
theorem resEngine_of_hostSided {r : Res} {s : State} (h : resHostSide r s) : resEngine r s := fun t e => engined_of_hostSided (h t e)
theorem resControl_of_linkSided {r : Res} {s : State} (h : resLinkSide r s) : resControl r s := fun t e => controlled_of_linkSided (h t e)

/-! ### The kinds of commands -/

/-- The endpoint engines that take no packet from an internal port leave the ports and the fabric side as they were. -/
theorem hostSided_exec {c : Instr} (hc : hostSideCmd c = true) (hn : hostTakeCmd c = false) (s : State) : resHostSide (exec c s) s := by
  cases c with
  | nudgeWrite fn idx => exact hostSided_execNudgeWrite fn idx s
  | aqSqTailWrite fn val => exact resHostSide_of_cored (cored_execAqSqTailWrite fn val s)
  | aqCqHeadWrite fn val => exact resHostSide_of_cored (cored_execAqCqHeadWrite fn val s)
  | aqEnableSet fn irqEn => exact resHostSide_of_cored (cored_execAqEnableSet fn irqEn s)
  | aqEnableClear fn irqEn => exact resHostSide_of_cored (cored_execAqEnableClear fn irqEn s)
  | aqCommandFetch fn r => exact resHostSide_of_cored (cored_execAqCommandFetch fn r s)
  | aqCreateQp fn db => exact hostSided_execAqCreateQp fn db s
  | aqModifyQp fn => exact hostSided_execAqModifyQp fn s
  | aqDestroyQp fn => exact hostSided_execAqDestroyQp fn s
  | aqCreateSrq fn db => exact resHostSide_of_cored (cored_execAqCreateSrq fn db s)
  | aqDestroySrq fn => exact hostSided_execAqDestroySrq fn s
  | aqCreateCq fn head => exact resHostSide_of_cored (cored_execAqCreateCq fn head s)
  | aqDestroyCq fn => exact resHostSide_of_cored (cored_execAqDestroyCq fn s)
  | aqCreateEq fn => exact resHostSide_of_cored (cored_execAqCreateEq fn s)
  | aqDestroyEq fn => exact resHostSide_of_cored (cored_execAqDestroyEq fn s)
  | aqCreatePd fn => exact resHostSide_of_cored (cored_execAqCreatePd fn s)
  | aqDestroyPd fn => exact resHostSide_of_cored (cored_execAqDestroyPd fn s)
  | aqRegisterWindow fn extents => exact resHostSide_of_cored (cored_execAqRegisterWindow fn extents s)
  | aqRevokeWindow fn => exact resHostSide_of_cored (cored_execAqRevokeWindow fn s)
  | aqInvalidate fn => exact resHostSide_of_cored (cored_execAqInvalidate fn s)
  | aqAbort fn => exact hostSided_execAqAbort fn s
  | aqSetQuota fn => exact resHostSide_of_cored (cored_execAqSetQuota fn s)
  | aqQueryQuota fn => exact resHostSide_of_cored (cored_execAqQueryQuota fn s)
  | doorbellPoll q => exact hostSided_execDoorbellPoll q s
  | doorbellReadComplete q db => exact hostSided_execDoorbellReadComplete q db s
  | emptyPollLimit q => exact resHostSide_of_cored (cored_execEmptyPollLimit q s)
  | slotReadComplete q slots => exact hostSided_execSlotReadComplete q slots s
  | slotReread q slot => exact hostSided_execSlotReread q slot s
  | slotWaitExpire q => exact hostSided_execSlotWaitExpire q s
  | chainListReadComplete q elems => exact hostSided_execChainListReadComplete q elems s
  | hostReadError q why => exact hostSided_execHostReadError q why s
  | parkIdleExpire q => exact hostSided_execParkIdleExpire q s
  | queueServiceTurn quad => exact hostSided_execQueueServiceTurn quad s
  | headRecordWrite q => exact hostSided_execHeadRecordWrite q s
  | cqHeadReread cq => exact hostSided_execCqHeadReread cq s
  | cqHeadReadComplete cq head => exact hostSided_execCqHeadReadComplete cq head s
  | cqFullTimeout cq => exact hostSided_execCqFullTimeout cq s
  | interruptHoldoffEnd fn vec => exact resHostSide_of_cored (cored_execInterruptHoldoffEnd fn vec s)
  | write q => exact hostSided_execWrite q s
  | writeWithCount q => exact hostSided_execWriteWithCount q s
  | read q => exact hostSided_execRead q s
  | send q => exact hostSided_execSend q s
  | fetchAdd q => exact hostSided_execFetchAdd q s
  | cswap64 q => exact hostSided_execCswap64 q s
  | cswap128 q => exact hostSided_execCswap128 q s
  | bindWindow q extents => exact hostSided_execBindWindow q extents s
  | counterFetch q => exact hostSided_execCounterFetch q s
  | recv srq => exact hostSided_execRecv srq s
  | tsend q => exact hostSided_execTsend q s
  | trecv srq => exact hostSided_execTrecv srq s
  | collective q => exact hostSided_execCollective q s
  | hostAtomicComplete ep orig => exact hostSided_execHostAtomicComplete ep orig s
  | ackDelayExpire q => exact hostSided_execAckDelayExpire q s
  | rtoExpire q psn => exact hostSided_execRtoExpire q psn s
  | rnrRetryAfterExpire q => exact hostSided_execRnrRetryAfterExpire q s
  | atsInvalidateRequest fn start len => exact resHostSide_of_cored (cored_execAtsInvalidateRequest fn start len s)
  | numberQuarantineEnd space num => exact resHostSide_of_cored (cored_execNumberQuarantineEnd space num s)
  | rdvReadComplete q status => exact hostSided_execRdvReadComplete q status s
  | opalBlockDone quad tree seq block => exact resHostSide_of_cored (cored_execOpalBlockDone quad tree seq block s)
  | stallTmoExpire quad tree seq => exact resHostSide_of_cored (cored_execStallTmoExpire quad tree seq s)
  | evictionComplete q => exact hostSided_execEvictionComplete q s
  | pageInReadComplete q img => exact hostSided_execPageInReadComplete q img s
  | idleWriteback quad line => exact resHostSide_of_cored (cored_execIdleWriteback quad line s)
  | getS req line => exact resHostSide_of_cored (cored_execGetS req line s)
  | getM req line => exact resHostSide_of_cored (cored_execGetM req line s)
  | upgrade req line => exact resHostSide_of_cored (cored_execUpgrade req line s)
  | put req line => exact resHostSide_of_cored (cored_execPut req line s)
  | putClean req line => exact resHostSide_of_cored (cored_execPutClean req line s)
  | fwdS owner req line => exact resHostSide_of_cored (cored_execFwdS owner req line s)
  | fwdM owner req line => exact resHostSide_of_cored (cored_execFwdM owner req line s)
  | inv sharer req line => exact resHostSide_of_cored (cored_execInv sharer req line s)
  | cohAck req line => exact resHostSide_of_cored (cored_execCohAck req line s)
  | putAck req line => exact resHostSide_of_cored (cored_execPutAck req line s)
  | grant req line acks => exact resHostSide_of_cored (cored_execGrant req line acks s)
  | cohData req line acks state ecc => exact hostSided_execCohData req line acks state ecc s
  | hostSnoop quad line invalidate => exact resHostSide_of_cored (cored_execHostSnoop quad line invalidate s)
  | patrolScrubRead stack ecc row => exact hostSided_execPatrolScrubRead stack ecc row s
  | patrolPassStart stack => exact resHostSide_of_cored (cored_execPatrolPassStart stack s)
  | cacheScrubPass quad line ecc => exact hostSided_execCacheScrubPass quad line ecc s
  | hostDataReadComplete ep data => exact hostSided_execHostDataReadComplete ep data s
  | atsTranslationComplete fn addr len bus => exact hostSided_execAtsTranslationComplete fn addr len bus s
  | cxlCacheOwnershipGranted ep orig => exact hostSided_execCxlCacheOwnershipGranted ep orig s
  | _ => cases hc <;> cases hn

/-- Taking a packet from an internal port changes nothing of the fabric side but the port it came by. -/
theorem engined_exec_of_take {c : Instr} (hc : hostTakeCmd c = true) (s : State) : resEngine (exec c s) s := by
  cases c with
  | writeRx ep => exact engined_execWriteRx ep s
  | writeCountRx ep => exact engined_execWriteCountRx ep s
  | readReqRx ep => exact engined_execReadReqRx ep s
  | readRespRx ep => exact engined_execReadRespRx ep s
  | sendRx ep => exact engined_execSendRx ep s
  | atomicReqRx ep => exact engined_execAtomicReqRx ep s
  | atomicRespRx ep => exact engined_execAtomicRespRx ep s
  | ackRx ep => exact engined_execAckRx ep s
  | tagEagerRx ep => exact engined_execTagEagerRx ep s
  | tagRtsRx ep => exact engined_execTagRtsRx ep s
  | tagFinRx ep => exact engined_execTagFinRx ep s
  | upRx quad => exact resEngine_of_portFreed (portFreed_execUpRx quad s)
  | downRx quad => exact resEngine_of_portFreed (portFreed_execDownRx quad s)
  | treeCreditRx quad => exact resEngine_of_portFreed (portFreed_execTreeCreditRx quad s)
  | treeAbortRx quad => exact resEngine_of_portFreed (portFreed_execTreeAbortRx quad s)
  | _ => cases hc

/-- What happens on a link and ends no packet leaves the control side and the host endpoints as they were. -/
theorem linkSided_exec {c : Instr} (hc : linkSideCmd c = true) (hn : linkCutCmd c = false) (s : State) : resLinkSide (exec c s) s := by
  cases c with
  | eqxExchangeStart p => exact resLinkSide_of_portFreed (portFreed_execEqxExchangeStart p s)
  | timeLockGained => exact linkSided_execTimeLockGained s
  | eqxIntervalEnd p => exact linkSided_execEqxIntervalEnd p s
  | timeMissLimit => exact linkSided_execTimeMissLimit s
  | ppsLossTimeout => exact linkSided_execPpsLossTimeout s
  | sourceWaitExpire => exact linkSided_execSourceWaitExpire s
  | octetPllRelock o => exact linkSided_execOctetPllRelock o s
  | codewordRx l corrected => exact linkSided_execCodewordRx l corrected s
  | fecLockGained l rxInv => exact linkSided_execFecLockGained l rxInv s
  | noLockTimerExpire l => exact linkSided_execNoLockTimerExpire l s
  | retryWaitExpire l => exact linkSided_execRetryWaitExpire l s
  | retrainTmoExpire l => exact linkSided_execRetrainTmoExpire l s
  | idleEnterExpire p => exact resLinkSide_of_portFreed (portFreed_execIdleEnterExpire p s)
  | idleSequenceSent p => exact linkSided_execIdleSequenceSent p s
  | partnerIdleRx l => exact linkSided_execPartnerIdleRx l s
  | eidleRefreshExpire p => exact resLinkSide_of_portFreed (portFreed_execEidleRefreshExpire p s)
  | exitBurstDone l => exact linkSided_execExitBurstDone l s
  | startOfStreamRx l => exact linkSided_execStartOfStreamRx l s
  | adaptationPass l rxEq snr eye ber => exact linkSided_execAdaptationPass l rxEq snr eye ber s
  | calibCoeffWrite l => exact linkSided_execCalibCoeffWrite l s
  | prbsCheckerLock l => exact linkSided_execPrbsCheckerLock l s
  | prbsCheckerLoss l bits errs => exact linkSided_execPrbsCheckerLoss l bits errs s
  | errInjectFire l => exact linkSided_execErrInjectFire l s
  | laneDropEnd l => exact linkSided_execLaneDropEnd l s
  | ltbLockGained l => exact linkSided_execLtbLockGained l s
  | ltbBadRx p badType => exact resLinkSide_of_portFreed (portFreed_execLtbBadRx p badType s)
  | edgeRunLimit p err => exact resLinkSide_of_portFreed (portFreed_execEdgeRunLimit p err s)
  | trainWaitExpire p => exact resLinkSide_of_portFreed (portFreed_execTrainWaitExpire p s)
  | initTmoExpire p => exact linkSided_execInitTmoExpire p s
  | initRepeat p => exact resLinkSide_of_portFreed (portFreed_execInitRepeat p s)
  | initPoolRetry p => exact resLinkSide_of_portFreed (portFreed_execInitPoolRetry p s)
  | heldIntervalExpire p vc => exact resLinkSide_of_portFreed (portFreed_execHeldIntervalExpire p vc s)
  | sharedGrantAdjust p => exact resLinkSide_of_portFreed (portFreed_execSharedGrantAdjust p s)
  | linkGraceExpire p => exact resLinkSide_of_portFreed (portFreed_execLinkGraceExpire p s)
  | drainComplete p => exact resLinkSide_of_portFreed (portFreed_execDrainComplete p s)
  | loadHintSend p => exact resLinkSide_of_portFreed (portFreed_execLoadHintSend p s)
  | egressPacketStart p => exact resLinkSide_of_portFreed (portFreed_execEgressPacketStart p s)
  | packetDeparted p => exact resLinkSide_of_portFreed (portFreed_execPacketDeparted p s)
  | almanacEntryChange p => exact resLinkSide_of_portFreed (portFreed_execAlmanacEntryChange p s)
  | gateWakeLead p => exact resLinkSide_of_portFreed (portFreed_execGateWakeLead p s)
  | holdoverMaxExpire p => exact resLinkSide_of_portFreed (portFreed_execHoldoverMaxExpire p s)
  | ppsOutEdge => exact linkSided_execPpsOutEdge s
  | signalDetect l => exact linkSided_execSignalDetect l s
  | _ => cases hc <;> cases hn

/-- What may end a packet on a link leaves the control side as it was. -/
theorem controlled_exec_of_cut {c : Instr} (hc : linkCutCmd c = true) (s : State) : resControl (exec c s) s := by
  cases c with
  | timeReqRx p t => exact controlled_execTimeReqRx p t s
  | timeReportRx p t => exact controlled_execTimeReportRx p t s
  | octetPllUnlock o => exact controlled_execOctetPllUnlock o s
  | refclkNetLost q => exact controlled_execRefclkNetLost q s
  | fecLockLost l => exact controlled_execFecLockLost l s
  | lossOfSignal l => exact controlled_execLossOfSignal l s
  | wakeAlignTmoExpire l => exact controlled_execWakeAlignTmoExpire l s
  | ltbLockLost l => exact controlled_execLtbLockLost l s
  | ltbIdleRx p h => exact controlled_execLtbIdleRx p h s
  | ltbDataRx p h frags since => exact controlled_execLtbDataRx p h frags since s
  | ltbCtrlCreditRx p h heldMask => exact controlled_execLtbCtrlCreditRx p h heldMask s
  | ltbCtrlLinkDownRx p h heldMask => exact controlled_execLtbCtrlLinkDownRx p h heldMask s
  | ltbCtrlReservedRx p h => exact controlled_execLtbCtrlReservedRx p h s
  | ltbInitRx p lane h msg => exact controlled_execLtbInitRx p lane h msg s
  | ltbLaneMapRx p h mapSeq rxMap echo => exact controlled_execLtbLaneMapRx p h mapSeq rxMap echo s
  | ltbLoadHintRx p h m => exact controlled_execLtbLoadHintRx p h m s
  | creditTmoExpire p vc => exact controlled_execCreditTmoExpire p vc s
  | replayTmoExpire p => exact controlled_execReplayTmoExpire p s
  | replayLimit p => exact controlled_execReplayLimit p s
  | linkDownWaitEnd p => exact controlled_execLinkDownWaitEnd p s
  | _ => cases hc

/-- The commands that are neither of the endpoint engines nor of a link, and set nothing, keep the settings. -/
theorem settled_exec_rest {c : Instr} (hc : settingCmd c = false) (hh : hostSideCmd c = false) (hl : linkSideCmd c = false) (s : State) : resSettled (exec c s) s := by
  cases c with
  | hostLinkDown ep => exact settled_execHostLinkDown ep s
  | configRequest r => exact resSettled_of_cored (cored_execConfigRequest r s)
  | busMasterEnableClear fn => exact resSettled_of_hostSided (hostSided_execBusMasterEnableClear fn s)
  | flrComplete fn => exact resSettled_of_cored (cored_execFlrComplete fn s)
  | lateCompletion fn => exact resSettled_of_hostSided (hostSided_execLateCompletion fn s)
  | statusCauseWrite m val => exact resSettled_of_cored (cored_execStatusCauseWrite m val s)
  | statusMaskWrite m val => exact resSettled_of_cored (cored_execStatusMaskWrite m val s)
  | msixUnmask fn vec => exact resSettled_of_cored (cored_execMsixUnmask fn vec s)
  | mbIdentGet => exact settled_execMbIdentGet s
  | mbCapsGet => exact settled_execMbCapsGet s
  | mbPortGet => exact settled_execMbPortGet s
  | mbPartitionSet => exact settled_execMbPartitionSet s
  | mbRouteWrite => exact settled_execMbRouteWrite s
  | mbRouteCommit => exact settled_execMbRouteCommit s
  | mbRouteStatus => exact settled_execMbRouteStatus s
  | mbRouteAbandon => exact settled_execMbRouteAbandon s
  | mbTimeSet => exact settled_execMbTimeSet s
  | mbTimeStatus => exact settled_execMbTimeStatus s
  | mbSnapArm => exact settled_execMbSnapArm s
  | mbSnapCancel => exact settled_execMbSnapCancel s
  | mbEqxSet => exact settled_execMbEqxSet s
  | mbAlmanacLoad => exact settled_execMbAlmanacLoad s
  | mbAlmanacGet => exact settled_execMbAlmanacGet s
  | mbShaperSet => exact settled_execMbShaperSet s
  | mbPolicerSet => exact settled_execMbPolicerSet s
  | mbSlWeightsSet => exact settled_execMbSlWeightsSet s
  | mbTreeSetup => exact settled_execMbTreeSetup s
  | mbTreeTeardown => exact settled_execMbTreeTeardown s
  | mbTreeGet => exact settled_execMbTreeGet s
  | mbEventClearNonce => exact settled_execMbEventClearNonce s
  | mbEventClear sigOk => exact settled_execMbEventClear sigOk s
  | mbTelemetryGet => exact settled_execMbTelemetryGet s
  | mbLifeGet => exact settled_execMbLifeGet s
  | mbMeasureGet => exact settled_execMbMeasureGet s
  | mbAccessGet => exact settled_execMbAccessGet s
  | mbConfigRead => exact settled_execMbConfigRead s
  | mbConfigExport => exact settled_execMbConfigExport s
  | mbConfigExportRead => exact settled_execMbConfigExportRead s
  | mbConfigImportWrite => exact settled_execMbConfigImportWrite s
  | mbGroupRoleSet => exact settled_execMbGroupRoleSet s
  | mbQuadGate => exact settled_execMbQuadGate s
  | mbChainStatus => exact settled_execMbChainStatus s
  | mbPrbsSet => exact settled_execMbPrbsSet s
  | mbPrbsGet bits errs => exact settled_execMbPrbsGet bits errs s
  | mbLoopbackSet => exact settled_execMbLoopbackSet s
  | mbErrInject => exact settled_execMbErrInject s
  | mbInvalidOpcode => exact settled_execMbInvalidOpcode s
  | cmdDone m tag => exact settled_execCmdDone m tag s
  | stagingIdleTimeout importBuf => exact settled_execStagingIdleTimeout importBuf s
  | nonceExpire => exact settled_execNonceExpire s
  | quadPortsDrained q => exact resSettled_of_cored (cored_execQuadPortsDrained q s)
  | quadRehomeDone q => exact resSettled_of_hostSided (hostSided_execQuadRehomeDone q s)
  | quadGateDone q => exact resSettled_of_controlled (controlled_execQuadGateDone q s)
  | quadUngateTrained q => exact resSettled_of_linkSided (linkSided_execQuadUngateTrained q s)
  | routeBankAdopt => exact settled_execRouteBankAdopt s
  | almanacBankAdopt p => exact settled_execAlmanacBankAdopt p s
  | snapshotTake => exact settled_execSnapshotTake s
  | counterFoldDone => exact settled_execCounterFoldDone s
  | timeRespRx p t => exact settled_execTimeRespRx p t s
  | timeAnnounceRx p t => exact settled_execTimeAnnounceRx p t s
  | timeStepApply => exact settled_execTimeStepApply s
  | ppsInEdge => exact settled_execPpsInEdge s
  | wakeBatch => exact resSettled_of_linkSided (linkSided_execWakeBatch s)
  | packetArrival src => exact resSettled_of_engined (engined_execPacketArrival src s)
  | chainPortLock port => exact settled_execChainPortLock port s
  | chainPortLockLost port => exact settled_execChainPortLockLost port s
  | enum port f => exact settled_execEnum port f s
  | enumAck port f => exact settled_execEnumAck port f s
  | enumDone port f => exact settled_execEnumDone port f s
  | enumTmoExpire => exact settled_execEnumTmoExpire s
  | heartbeat port f => exact settled_execHeartbeat port f s
  | heartbeatSend => exact settled_execHeartbeatSend s
  | joinReq port f => exact settled_execJoinReq port f s
  | joinReqSend => exact settled_execJoinReqSend s
  | chainBreak port f => exact resSettled_of_cored (cored_execChainBreak port f s)
  | orphanTmoExpire => exact settled_execOrphanTmoExpire s
  | statusReq port f => exact resSettled_of_cored (cored_execStatusReq port f s)
  | statusRsp port f => exact resSettled_of_cored (cored_execStatusRsp port f s)
  | reset port f => exact settled_execReset port f s
  | regRsp port f => exact resSettled_of_cored (cored_execRegRsp port f s)
  | mbCmd port f => exact settled_execMbCmd port f s
  | mbRsp port f => exact resSettled_of_cored (cored_execMbRsp port f s)
  | event port f => exact resSettled_of_cored (cored_execEvent port f s)
  | chainBadFrame port f => exact resSettled_of_cored (cored_execChainBadFrame port f s)
  | chainCrcFail port f => exact resSettled_of_cored (cored_execChainCrcFail port f s)
  | relayTmoExpire mtag => exact resSettled_of_cored (cored_execRelayTmoExpire mtag s)
  | mgmtCmdRx => exact settled_execMgmtCmdRx s
  | mgmtRespRx => exact resSettled_of_portFreed (portFreed_execMgmtRespRx s)
  | mgmtEventRx => exact resSettled_of_portFreed (portFreed_execMgmtEventRx s)
  | mgmtDistRx => exact resSettled_of_linkSided (linkSided_execMgmtDistRx s)
  | announceSend => exact resSettled_of_cored (cored_execAnnounceSend s)
  | mgrLossTmoExpire => exact resSettled_of_cored (cored_execMgrLossTmoExpire s)
  | electTmoExpire => exact resSettled_of_linkSided (linkSided_execElectTmoExpire s)
  | groupWalk => exact resSettled_of_cored (cored_execGroupWalk s)
  | isolateTmoExpire => exact resSettled_of_cored (cored_execIsolateTmoExpire s)
  | eventForward quad => exact resSettled_of_cored (cored_execEventForward quad s)
  | eventFlush => exact resSettled_of_cored (cored_execEventFlush s)
  | railOutOfRange rail mv => exact resSettled_of_cored (cored_execRailOutOfRange rail mv s)
  | pstepAckRise g => exact resSettled_of_cored (cored_execPstepAckRise g s)
  | noticeLeadExpire g => exact resSettled_of_cored (cored_execNoticeLeadExpire g s)
  | grantHoldExpire g => exact resSettled_of_cored (cored_execGrantHoldExpire g s)
  | pstepStepDone g => exact resSettled_of_cored (cored_execPstepStepDone g s)
  | smbusAlertResponse => exact resSettled_of_cored (cored_execSmbusAlertResponse s)
  | busMasterEnableSet fn => exact resSettled_of_hostSided (hostSided_execBusMasterEnableSet fn s)
  | spdmRequest ep code => exact resSettled_of_cored (cored_execSpdmRequest ep code s)
  | pstepAckFall g => exact resSettled_of_cored (cored_execPstepAckFall g s)
  | _ => cases hc <;> cases hh <;> cases hl

/-- The setting commands that change what a start, the firmware and the life record hold. -/
def bootCmd : Instr → Bool
  | .porstNAssert | .coldStart _ | .rootPllLock | .bootRomConfigRead _ | .serviceDieSelfTest | .quadrantPowerUp _
  | .quadrantArraySelfTest | .hbmTraining | .imageSelection _ _ _ | .molzuStart _ | .hbmClearing | .laneCalibration
  | .quadrantInitialisation | .fwReadySet | .warmRstNAssert | .warmStart | .bootTmoExpire | .watchdogExpire
  | .antiRollbackRaise | .flashReqAssert | .flashGntAssert | .flashReqDeassert | .mbFwUpdateBegin | .mbFwUpdateWrite _
  | .mbFwUpdateEnd _ | .mbFwActivate _ | .mbConfigImportCommit | .fwUpdateIdleTimeout | .chainResetAction
  | .mramRemap _ _ | .pwrfailAssert | .lifeSecondCheck _ | .lifeHourlyWrite | .lifeMonthBoundary | .thermalTrip _
  | .railUndervoltage _ _ | .refclkCoreLost | .vaonLoss => true
  | _ => false

/-- The other setting commands leave all of that as it was. -/
theorem booted_exec_of_setting {c : Instr} (hc : settingCmd c = true) (hn : bootCmd c = false) (s : State) : resBoot (exec c s) s := by
  cases c with
  | perstNAssert h => exact booted_execPerstNAssert h s
  | hostLinkUp ep speed width => exact booted_execHostLinkUp ep speed width s
  | flr fn => exact booted_execFlr fn s
  | registerWrite m off bytes => exact booted_execRegisterWrite m off bytes s
  | windowRead m off width => exact booted_execWindowRead m off width s
  | mailboxDoorbell m val => exact booted_execMailboxDoorbell m val s
  | timeFtLoRead m => exact booted_execTimeFtLoRead m s
  | snapCtrlArm m => exact booted_execSnapCtrlArm m s
  | snapCtrlCancel m => exact booted_execSnapCtrlCancel m s
  | eventData7Read m => exact booted_execEventData7Read m s
  | counterLoRead m k => exact booted_execCounterLoRead m k s
  | laneCfgWrite m val => exact booted_execLaneCfgWrite m val s
  | octetTimersWrite m val => exact booted_execOctetTimersWrite m val s
  | portSharedLimitsWrite m val => exact booted_execPortSharedLimitsWrite m val s
  | hostBackingWrite m off val => exact booted_execHostBackingWrite m off val s
  | mbOctetSet => exact booted_execMbOctetSet s
  | mbPortSet => exact booted_execMbPortSet s
  | mbHostModeStore => exact booted_execMbHostModeStore s
  | mbAccessSet => exact booted_execMbAccessSet s
  | mbFeaSet => exact booted_execMbFeaSet s
  | mbQuadRetire => exact booted_execMbQuadRetire s
  | regRead port f => exact booted_execRegRead port f s
  | regWrite port f => exact booted_execRegWrite port f s
  | pwrfailDeassert => exact booted_execPwrfailDeassert s
  | telemetrySample group readings => exact booted_execTelemetrySample group readings s
  | bmcRegWrite off val pecOk => exact booted_execBmcRegWrite off val pecOk s
  | bmcRegRead off => exact booted_execBmcRegRead off s
  | i3cAddressAssign addr => exact booted_execI3cAddressAssign addr s
  | i3cRstdaa => exact booted_execI3cRstdaa s
  | trstNAssert => exact booted_execTrstNAssert s
  | idcode => exact booted_execIdcode s
  | samplePreload => exact booted_execSamplePreload s
  | extest => exact booted_execExtest s
  | extestPulse => exact booted_execExtestPulse s
  | extestTrain => exact booted_execExtestTrain s
  | clamp => exact booted_execClamp s
  | highz => exact booted_execHighz s
  | regAccess dr => exact booted_execRegAccess dr s
  | bypass => exact booted_execBypass s
  | perstNDeassert h => exact booted_execPerstNDeassert h s
  | _ => cases hc <;> cases hn

/-- And what changes it leaves the fixed part as it was. -/
theorem fixed_exec_of_boot {c : Instr} (hc : bootCmd c = true) (s : State) : resFixed (exec c s) s := by
  cases c with
  | porstNAssert => exact fixed_execPorstNAssert s
  | coldStart straps => exact fixed_execColdStart straps s
  | rootPllLock => exact fixed_execRootPllLock s
  | bootRomConfigRead newerCopyOk => exact fixed_execBootRomConfigRead newerCopyOk s
  | serviceDieSelfTest => exact fixed_execServiceDieSelfTest s
  | quadrantPowerUp q => exact fixed_execQuadrantPowerUp q s
  | quadrantArraySelfTest => exact fixed_execQuadrantArraySelfTest s
  | hbmTraining => exact fixed_execHbmTraining s
  | imageSelection a b golden => exact fixed_execImageSelection a b golden s
  | molzuStart vkeepLost => exact fixed_execMolzuStart vkeepLost s
  | hbmClearing => exact fixed_execHbmClearing s
  | laneCalibration => exact fixed_execLaneCalibration s
  | quadrantInitialisation => exact fixed_execQuadrantInitialisation s
  | fwReadySet => exact fixed_execFwReadySet s
  | warmRstNAssert => exact fixed_execWarmRstNAssert s
  | warmStart => exact fixed_execWarmStart s
  | bootTmoExpire => exact fixed_execBootTmoExpire s
  | watchdogExpire => exact fixed_execWatchdogExpire s
  | antiRollbackRaise => exact fixed_execAntiRollbackRaise s
  | flashReqAssert => exact fixed_execFlashReqAssert s
  | flashGntAssert => exact fixed_execFlashGntAssert s
  | flashReqDeassert => exact fixed_execFlashReqDeassert s
  | mbFwUpdateBegin => exact fixed_execMbFwUpdateBegin s
  | mbFwUpdateWrite queueFull => exact fixed_execMbFwUpdateWrite queueFull s
  | mbFwUpdateEnd img => exact fixed_execMbFwUpdateEnd img s
  | mbFwActivate img => exact fixed_execMbFwActivate img s
  | mbConfigImportCommit => exact fixed_execMbConfigImportCommit s
  | fwUpdateIdleTimeout => exact fixed_execFwUpdateIdleTimeout s
  | chainResetAction => exact fixed_execChainResetAction s
  | mramRemap part sector => exact fixed_execMramRemap part sector s
  | pwrfailAssert => exact fixed_execPwrfailAssert s
  | lifeSecondCheck meanTemp => exact fixed_execLifeSecondCheck meanTemp s
  | lifeHourlyWrite => exact fixed_execLifeHourlyWrite s
  | lifeMonthBoundary => exact fixed_execLifeMonthBoundary s
  | thermalTrip die => exact fixed_execThermalTrip die s
  | railUndervoltage rail mv => exact fixed_execRailUndervoltage rail mv s
  | refclkCoreLost => exact fixed_execRefclkCoreLost s
  | vaonLoss => exact fixed_execVaonLoss s
  | _ => cases hc

/-- The commands that set nothing keep the settings. -/
theorem settled_exec {c : Instr} (hc : settingCmd c = false) (s : State) : resSettled (exec c s) s := by
  cases ht : hostTakeCmd c with
  | true => exact resSettled_of_engined (engined_exec_of_take ht s)
  | false =>
    cases hh : hostSideCmd c with
    | true => exact resSettled_of_hostSided (hostSided_exec hh ht s)
    | false =>
      cases hl : linkSideCmd c with
      | false => exact settled_exec_rest hc hh hl s
      | true =>
        cases hx : linkCutCmd c with
        | true => exact resSettled_of_controlled (controlled_exec_of_cut hx s)
        | false => exact resSettled_of_linkSided (linkSided_exec hl hx s)

/-- Outside `bootCmd`, what a start, the firmware and the life record hold stays. -/
theorem booted_exec {c : Instr} (hc : bootCmd c = false) (s : State) : resBoot (exec c s) s := by
  cases hs : settingCmd c with
  | true => exact booted_exec_of_setting hs hc s
  | false => exact resBoot_of_settled (settled_exec hs s)

/-- No command changes the fused identity, the commands waiting behind it, or the elapsed time. -/
theorem fixed_exec (c : Instr) (s : State) : resFixed (exec c s) s := by
  cases hc : bootCmd c with
  | true => exact fixed_exec_of_boot hc s
  | false => exact resFixed_of_booted (booted_exec hc s)

/-- The endpoint engines leave all but the ports as the fabric side had it. -/
theorem engined_exec {c : Instr} (hc : hostSideCmd c = true) (s : State) : resEngine (exec c s) s := by
  cases ht : hostTakeCmd c with
  | true => exact engined_exec_of_take ht s
  | false => exact resEngine_of_hostSided (hostSided_exec hc ht s)

/-- What happens on a link leaves the control side as it was. -/
theorem controlled_exec {c : Instr} (hc : linkSideCmd c = true) (s : State) : resControl (exec c s) s := by
  cases hx : linkCutCmd c with
  | true => exact controlled_exec_of_cut hx s
  | false => exact resControl_of_linkSided (linkSided_exec hc hx s)

/-- The adoption of a bank or a snapshot writes neither octets nor the chain. -/
theorem writes_exec_of_adopt {c : Instr} (hc : linkAdoptCmd c = true) (s : State) :
    Writes { clk := true, lanes := true, ports := true, tu := true, routes := true, snap := true, ctrs := true, quads := true, eps := true,
             fns := true, insts := true, cmds := true, ep := true, grp := true, recd := true, out := true, free := true } (exec c s) s := by
  cases c with
  | routeBankAdopt => exact (writes_execRouteBankAdopt s).mono (by decide)
  | almanacBankAdopt p => exact (writes_execAlmanacBankAdopt p s).mono (by decide)
  | timeRespRx p m => exact (writes_execTimeRespRx p m s).mono (by decide)
  | timeAnnounceRx p m => exact (writes_execTimeAnnounceRx p m s).mono (by decide)
  | timeStepApply => exact (writes_execTimeStepApply s).mono (by decide)
  | ppsInEdge => exact (writes_execPpsInEdge s).mono (by decide)
  | _ => cases hc

/-! ### Reading the parts -/

theorem sameSettings_of_settled {s t : State} (h : settledPart t = settledPart s) : SameSettings s t := by
  simp only [settledPart, Prod.mk.injEq] at h
  obtain ⟨ident, pending, now, boot, cfg, cfgOld, mode, profile, masters, access, tele, teleFt, life, lifePart, mram, therm, pins⟩ := h
  exact ⟨ident, pending, now, boot, cfg, cfgOld, mode, profile, masters, access, life, lifePart, mram, therm, pins, tele, teleFt⟩

theorem fixed_iff {s t : State} : fixedPart t = fixedPart s ↔ t.ident = s.ident ∧ t.pending = s.pending ∧ t.clk.now = s.clk.now := by
  simp only [fixedPart, Prod.mk.injEq]

/-- A step takes the front command and leaves the others waiting. -/
theorem step_pending {s t : State} (h : step s = .next t) : t.pending = s.pending.tail := by
  unfold step at h
  split at h
  · next hq =>
    have hp : (tick s).pending = s.pending := (fixed_iff.mp (fixed_of_controlled (controlled_tick s))).2.1
    have ht : tick s = t := Host.Outcome.next.inj h
    rw [← ht, hp, hq]
    rfl
  · next c rest hq =>
    rw [hq]
    exact (fixed_iff.mp (fixed_exec c _ t h)).2.1

/-! ### The statements -/

/-- Settles O41: every command keeps the fixed part, whichever its kind. -/
theorem commandsTouchNeitherQueueNorElapsedTime : Obligations.CommandsTouchNeitherQueueNorElapsedTime := by
  unfold Obligations.CommandsTouchNeitherQueueNorElapsedTime
  exact ⟨fun c s t h => fixed_iff.mp (fixed_exec c s t h), fun s t h => step_pending h⟩

/-- Settles O42: the kinds outside `settingCmd` keep the settled part. -/
theorem onlySettingCommandsChangeSettings : Obligations.OnlySettingCommandsChangeSettings := by
  unfold Obligations.OnlySettingCommandsChangeSettings
  exact fun c s t hc h => sameSettings_of_settled (settled_exec hc s t h)

/-- Settles O43: the engines keep the engine part, and the ports too unless they take a packet. -/
theorem endpointEnginesLeaveTheFabricSide : Obligations.EndpointEnginesLeaveTheFabricSide := by
  unfold Obligations.EndpointEnginesLeaveTheFabricSide
  intro c s t hc h
  have he := engined_exec hc s t h
  have hset := sameSettings_of_settled (settled_of_engined he)
  have hports : hostTakeCmd c = false → t.ports = s.ports := fun ht => by
    have hh := hostSided_exec hc ht s t h
    simp only [hostSidePart, Prod.mk.injEq] at hh
    tauto
  simp only [enginePart, Prod.mk.injEq] at he
  tauto

/-- Settles O44: what happens on a link keeps the control part, and the host endpoints unless a packet may be cut; an adoption writes no
setting, octet or chain. -/
theorem linksLeaveHostsAndControl : Obligations.LinksLeaveHostsAndControl := by
  unfold Obligations.LinksLeaveHostsAndControl
  refine ⟨?links, ?adopt⟩
  case links =>
    intro c s t hc h
    have hk := controlled_exec hc s t h
    have hset := sameSettings_of_settled (settled_of_controlled hk)
    have heps : linkCutCmd c = false → t.eps = s.eps := fun hx => by
      have hl := linkSided_exec hc hx s t h
      simp only [linkSidePart, Prod.mk.injEq] at hl
      tauto
    simp only [controlPart, Prod.mk.injEq] at hk
    tauto
  case adopt =>
    intro c s t hc h
    have hset : settingCmd c = false := by cases c <;> cases hc <;> rfl
    have ht := (writes_exec_of_adopt hc s).eq h
    exact ⟨sameSettings_of_settled (settled_exec hset s t h), (congrArg State.octets ht).trans rfl, (congrArg State.chain ht).trans rfl⟩

end Sys2Proof.Machine
end

section
/-! PROOF. The waiting queue, partition keys, counters and their banks, records, shapers and policers, and LTBs out of order. -/

namespace Sys2Proof.Machine

/-! ### The waiting queue (O46) -/

/-- Where a command waits, no model time passes in the step that takes it. -/
theorem step_now_of_pending {s t : State} (hq : s.pending ≠ []) (h : step s = .next t) : t.clk.now = s.clk.now := by
  unfold step at h
  split at h
  · next hn => exact absurd hn hq
  · next c rest hn => exact (fixed_iff.mp (fixed_exec c _ t h)).2.2

/-- Settles O46, by induction on the number of steps. -/
theorem waitingCommandsGoInOrder : Obligations.WaitingCommandsGoInOrder := by
  unfold Obligations.WaitingCommandsGoInOrder
  intro k
  induction k with
  | zero =>
    intro s t _ h
    have ht : s = t := Option.some.inj h
    subst ht
    exact ⟨rfl, rfl⟩
  | succ k ih =>
    intro s t hk h
    have hq : s.pending ≠ [] := fun hn => by simp [hn] at hk
    unfold runSteps at h
    split at h
    · next u hu =>
      have hp := step_pending hu
      obtain ⟨ih1, ih2⟩ := ih u t (by rw [hp, List.length_tail]; omega) h
      exact ⟨by rw [ih1, hp, List.drop_tail], by rw [ih2, step_now_of_pending hq hu]⟩
    · cases h

/-! ### Partition keys (O52) -/

theorem low15_eq_iff (p k : BitVec 16) : p &&& 0x7FFF = k &&& 0x7FFF ↔ p.extractLsb' 0 15 = k.extractLsb' 0 15 := by
  have mask : ∀ x : BitVec 16, (x &&& 0x7FFF).toNat = (x.extractLsb' 0 15).toNat := fun x => by
    simpa using Nat.and_two_pow_sub_one_eq_mod x.toNat 15
  rw [← BitVec.toNat_inj, ← BitVec.toNat_inj, mask, mask]

theorem keyMatch_iff (p k : BitVec 16) :
    keyMatch p k = true ↔ p.extractLsb' 0 15 = k.extractLsb' 0 15 ∧ (p.getLsbD 15 = true ∨ k.getLsbD 15 = true) := by
  rw [keyMatch, Bool.and_eq_true, beq_iff_eq, low15_eq_iff, Bool.or_eq_true, BitVec.msb_eq_getLsbD_last, BitVec.msb_eq_getLsbD_last]

/-- Settles O52: both sides read off the definitions, bit 15 being the top bit. -/
theorem partitionKeysMatchByMembership : Obligations.PartitionKeysMatchByMembership := by
  unfold Obligations.PartitionKeysMatchByMembership
  refine ⟨keyMatch_iff, fun t n p => ?_⟩
  have hzero : p &&& 0x7FFF = 0 ↔ p.extractLsb' 0 15 = 0 := (low15_eq_iff p 0).trans (by simp)
  rw [keyInTable, Bool.and_eq_true, bne_iff_ne, ne_eq, hzero]
  simp

/-! ### Counters and their banks (O53, O54) -/

theorem count_ctrs_self (s : State) (sc : Scope) (i n : Nat) (c : Cn) :
    (count s sc i c n).ctrs.get (ctrKey sc i (placeOf c sc.counters)) =
      { s.ctrs.get (ctrKey sc i (placeOf c sc.counters)) with
        live := (s.ctrs.get (ctrKey sc i (placeOf c sc.counters))).live + BitVec.ofNat 64 n } := Tbl.get_upd_self _ _ _

theorem countMax_live_toNat (s : State) (sc : Scope) (i n : Nat) (c : Cn) (hn : n < 2 ^ 64) :
    ((countMax s sc i c n).ctrs.get (ctrKey sc i (placeOf c sc.counters))).live.toNat =
      max (s.ctrs.get (ctrKey sc i (placeOf c sc.counters))).live.toNat n := by
  simp only [countMax, Tbl.get_upd_self]
  split
  · next hlt => rw [BitVec.toNat_ofNat, Nat.mod_eq_of_lt hn, Nat.max_eq_right (Nat.le_of_lt hlt)]
  · next hge => exact (Nat.max_eq_left (Nat.le_of_not_lt hge)).symm

/-- Settles O53: a count is one update of the counter table at the counter's key. -/
theorem countersWrapAndCountAlone : Obligations.CountersWrapAndCountAlone := by
  unfold Obligations.CountersWrapAndCountAlone
  refine ⟨fun s sc i n c => ?_, fun s sc i n k c hk => ⟨Tbl.get_upd_ne _ _ _ _ hk, Tbl.get_upd_ne _ _ _ _ hk⟩,
    fun s sc i n c => ⟨rfl, rfl⟩, fun s sc i n c hn => countMax_live_toNat s sc i n c hn⟩
  rw [count_ctrs_self]
  exact ⟨by simp [BitVec.toNat_add], rfl⟩

theorem flipBanks_ctrs (s : State) (k : Nat) (hwf : s.ctrs.wf = true) (hd : s.ctrs.dflt = {}) :
    (flipBanks s).ctrs.get k = { live := 0, frozen := (s.ctrs.get k).live } :=
  Tbl.get_mapCells _ _ hwf _ (by rw [hd])

/-- [R477] the counters after the frozen bank has been folded back. -/
theorem counterFoldDone_ctrs (s : State) (k : Nat) (hwf : s.ctrs.wf = true) (hd : s.ctrs.dflt = {}) (hf : s.snap.folded = false) :
    ∃ t, exec .counterFoldDone s = .next t ∧ t.snap.folded = true ∧
      t.ctrs.get k = (if isMaxKey k then s.ctrs.get k
        else { live := (s.ctrs.get k).live + (s.ctrs.get k).frozen, frozen := (s.ctrs.get k).frozen }) := by
  refine ⟨_, congrArg Host.Outcome.next (if_neg (by simp [hf])), rfl, Tbl.get_mapCells _ _ hwf _ ?_⟩
  rw [hd]
  split <;> rfl

/-- Settles O54: both banks change cell by cell, and an unlisted counter is zero before and after. -/
theorem snapshotsFreezeAndFoldingRestores : Obligations.SnapshotsFreezeAndFoldingRestores := by
  unfold Obligations.SnapshotsFreezeAndFoldingRestores
  refine ⟨flipBanks_ctrs, counterFoldDone_ctrs, fun s k hwf hd hk => ?_, fun s sc i n c h => Tbl.wf_upd _ _ _ h⟩
  have hdflt : (flipBanks s).ctrs.dflt = {} := (Tbl.foldl_set_dflt _ _ _ _).trans hd
  obtain ⟨t, ht, -, hget⟩ := counterFoldDone_ctrs (flipBanks s) k (Tbl.wf_mapCells _ _) hdflt rfl
  refine ⟨t, ht, ?_⟩
  rw [hget, hk, flipBanks_ctrs s k hwf hd]
  exact BitVec.zero_add _

/-! ### Record numbers (O55) -/

@[simp] theorem count_recd (s : State) (sc : Scope) (i n : Nat) (c : Cn) : (count s sc i c n).recd = s.recd := rfl

/-- What is not written is as before: the recorder. -/
theorem recd_of_erase {w : Fields} {s t : State} (hw : w.recd = false) (h : erase w t = erase w s) : t.recd = s.recd := by
  have hr := congrArg State.recd h
  simpa only [erase, hide, hw, cond_false] using hr

@[simp] theorem remoteReport_recd (s : State) (r : EvRec) : (remoteReport s r).recd = s.recd :=
  recd_of_erase rfl (erase_remoteReport (w := { ctrs := true, grp := true }) rfl s r)

@[simp] theorem raiseAll_recd (s : State) (bits : BitVec 9) : (raiseAll s bits).recd = s.recd :=
  recd_of_erase rfl (erase_raiseAll (w := { fns := true, insts := true, out := true }) rfl s bits)

theorem enterService_next (s : State) (r : EvRec) : (enterService s r).recd.next = s.recd.next + 1 := by
  unfold enterService
  dsimp only
  split <;> simp

/-- [R473] the buffer after a record has entered: the oldest goes where it would hold more than 2,048. -/
theorem enterService_buf (s : State) (r : EvRec) :
    (enterService s r).recd.buf = (s.recd.buf ++ [{ r with seq := s.recd.next }]).drop (if 2048 ≤ s.recd.buf.length then 1 else 0) := by
  unfold enterService
  by_cases hl : 2048 ≤ s.recd.buf.length
  · simp [hl, show 2048 < s.recd.buf.length + 1 by omega]
  · simp [hl, show ¬ 2048 < s.recd.buf.length + 1 by omega]

theorem enterService_last (s : State) (r : EvRec) : (enterService s r).recd.buf.getLast? = some { r with seq := s.recd.next } := by
  rw [enterService_buf]
  split
  · next hl => rw [List.drop_append_of_le_length (by omega), List.getLast?_append]; rfl
  · simp

theorem recordEv_next (s : State) (e : Ev) (die p0 p1 p2 p3 : Nat) (b : Bool) :
    (recordEv s e die p0 p1 p2 p3 b).recd.next = (place s (mkRecord s e die p0 p1 p2 p3 b)).recd.next := by
  unfold recordEv
  dsimp only
  split
  · rw [raiseAll_recd]
  · rfl

theorem place_of_quadrant (s : State) (r : EvRec) (hq : r.die < 4) : (place s r).recd = s.recd := by
  unfold place
  rw [if_pos hq]
  split <;> rfl

theorem place_of_service (s : State) (r : EvRec) (hq : ¬ r.die < 4) : place s r = enterService s r := if_neg hq

/-- Settles O55. -/
theorem recordNumbersRunOn : Obligations.RecordNumbersRunOn := by
  unfold Obligations.RecordNumbersRunOn
  refine ⟨fun s r => ⟨enterService_next s r, enterService_last s r⟩, fun s r hl => ?_, fun s e p0 p1 p2 p3 b => ?_, fun s e q p0 p1 p2 p3 b hq => ?_⟩
  · refine ⟨?_, fun he => ?_⟩
    · rw [enterService_buf, List.length_drop, List.length_append, List.length_singleton]
      split <;> omega
    · rw [enterService_buf, he, if_pos (Nat.le_refl _), List.drop_append_of_le_length (by omega)]
  · rw [recordEv_next, place_of_service _ _ (Nat.lt_irrefl 4), enterService_next]
  · rw [recordEv_next, place_of_quadrant _ _ hq]

/-! ### Shapers and policers (O56) -/

theorem Shaper.tokensAt_succ (h : Shaper) (now : Nat) :
    h.tokensAt now ≤ h.tokensAt (now + 1) ∧ h.tokensAt (now + 1) ≤ h.tokensAt now + h.rate := by
  have lower : h.rate * (now - h.at_) ≤ h.rate * (now + 1 - h.at_) := Nat.mul_le_mul_left _ (by omega)
  have upper : h.rate * (now + 1 - h.at_) ≤ h.rate * (now - h.at_) + h.rate :=
    calc h.rate * (now + 1 - h.at_) ≤ h.rate * (now - h.at_ + 1) := Nat.mul_le_mul_left _ (by omega)
      _ = h.rate * (now - h.at_) + h.rate := Nat.mul_succ _ _
  unfold Shaper.tokensAt
  omega

theorem Shaper.take_tokensAt (h : Shaper) (now len : Nat) (hr : h.rate ≠ 0) :
    (h.take now len).tokensAt now = min ((h.burst * 8000 : Nat) : Int) (max (-134217728000) (h.tokensAt now - ((len * 8000 : Nat) : Int))) ∧
      -134217728000 ≤ (h.take now len).tok := by
  rw [Shaper.take, if_neg hr]
  exact ⟨by simp [Shaper.tokensAt], Int.le_max_left _ _⟩

/-- [R254] the buckets read at the time they were left are what was left, within their caps. -/
theorem Policer.mark_buckets (c : Policer) (now b dp : Nat) (he : c.enable = true) :
    (c.mark now b dp).2.tpAt now = (if (c.mark now b dp).1 = 2 then c.tpAt now else c.tpAt now - b * 8000) ∧
      (c.mark now b dp).2.tcAt now = (if (c.mark now b dp).1 = 0 then c.tcAt now - b * 8000 else c.tcAt now) := by
  have capP : c.tpAt now ≤ c.pbs * 8000 := Nat.min_le_left _ _
  have capC : c.tcAt now ≤ c.cbs * 8000 := Nat.min_le_left _ _
  unfold Policer.mark
  simp only [he, Bool.not_true, Bool.false_eq_true, if_false]
  generalize c.tpAt now = tp at *
  generalize c.tcAt now = tc at *
  split
  · simp [Policer.tpAt, Policer.tcAt]; omega
  · split
    · simp [Policer.tpAt, Policer.tcAt]; omega
    · split <;> simp [Policer.tpAt, Policer.tcAt] <;> omega

/-- Settles O56. -/
theorem shapersAndPolicersFollowTheirRules : Obligations.ShapersAndPolicersFollowTheirRules := by
  unfold Obligations.ShapersAndPolicersFollowTheirRules
  refine ⟨fun h now => ⟨Int.min_le_left _ _, h.tokensAt_succ now⟩, fun h now len => ?allows, fun h now len hr => h.take_tokensAt now len hr,
    fun c now b dp he hdp => ⟨?colour, c.mark_buckets now b dp he⟩, fun c now b dp he => ?disabled⟩
  case allows => simp [Shaper.allows]
  case colour =>
    unfold Policer.mark
    simp only [he, Bool.not_true, Bool.false_eq_true, if_false, Bool.and_eq_true, Bool.or_eq_true, decide_eq_true_eq, beq_iff_eq]
    split <;> [rfl; split <;> [rfl; split <;> rfl]]
  case disabled => simp [Policer.mark, he]

/-! ### LTBs out of order (O57) -/

/-- [R203] what an LTB that is not the next one leaves behind: the highest number seen, and a NAK where it lies ahead. -/
theorem seqIn_outOfOrder {s : State} {p : Nat} {h : LtbHdr} (ho : LinkOpen s p) (hu : Unmarked s p h)
    (hn : h.seq ≠ ((ltbTaken s p h).port p).ackSeq + 1) (k : State → State) :
    seqIn s p h k = if seqAhead h.seq ((ltbTaken s p h).port p).ackSeq then sendNak (noteSeq (ltbTaken s p h) p h) p
      else noteSeq (ltbTaken s p h) p h := by
  unfold seqIn
  rw [unmarked_clean hu, ltbIn_open ho, if_neg hn]

/-- [R212] an LTB with an error mark on an open link is one whose CRC failed. -/
theorem unmarked_marked {s : State} {p : Nat} {h : LtbHdr} (ho : LinkOpen s p) (hu : ¬ Unmarked s p h) (k : State → State) :
    unmarked s p h k = sendNak (count (count (updPort s p (fun x => { x with crcAt := some s.clk.now })) .port p .ltbRx) .port p .ltbCrcErr) p := by
  obtain ⟨_, hl, hm⟩ := ho
  unfold unmarked
  rw [if_pos (Bool.eq_true_of_not_eq_false hu)]
  unfold badCrc
  rcases hl with hl | hl <;> simp only [hl, hm, Bool.false_eq_true, if_false]

theorem guardRes_port {p : Nat} (hp : p < 512) (t : State) : guardRes (portOk p) t = .next t :=
  if_pos (decide_eq_true hp)

/-- Settles O57: the four commands are one sequenced arrival with four effects. -/
theorem ltbsOutOfOrderHaveNoEffect : Obligations.LtbsOutOfOrderHaveNoEffect := by
  unfold Obligations.LtbsOutOfOrderHaveNoEffect
  have dropped : ∀ {s : State} {p : Nat} {h : LtbHdr} (k : State → State), LinkOpen s p → Unmarked s p h →
      h.seq ≠ ((ltbTaken s p h).port p).ackSeq + 1 → guardRes (portOk p) (seqIn s p h k) =
        .next (if seqAhead h.seq ((ltbTaken s p h).port p).ackSeq then sendNak (noteSeq (ltbTaken s p h) p h) p
          else noteSeq (ltbTaken s p h) p h) :=
    fun k ho hu hn => (guardRes_port ho.1 _).trans (congrArg _ (seqIn_outOfOrder ho hu hn k))
  have marked : ∀ {s : State} {p : Nat} {h : LtbHdr} (k : State → State), LinkOpen s p → ¬ Unmarked s p h →
      guardRes (portOk p) (seqIn s p h k) =
        .next (sendNak (count (count (updPort s p (fun x => { x with crcAt := some s.clk.now })) .port p .ltbRx) .port p .ltbCrcErr) p) :=
    fun k ho hu => (guardRes_port ho.1 _).trans (congrArg _ (unmarked_marked ho hu _))
  exact ⟨fun s p h fr d => dropped _, fun s p h v => dropped _, fun s p h v => dropped _, fun s p h => dropped _,
    fun s p h fr d => marked _, fun s p h v => marked _, fun s p h v => marked _, fun s p h => marked _⟩

end Sys2Proof.Machine
end

section
/-! PROOF. The order of matching (R334, R336): of the receives that match, the bin and the wildcard list together give the one whose place
comes first. -/

namespace Sys2Proof.Machine

/-! ### First members of ordered lists -/

theorem insertBy_pairwise {α : Type} {le : α → α → Bool} (htrans : ∀ a b c, le a b = true → le b c = true → le a c = true)
    (htotal : ∀ a b, le a b = false → le b a = true) (a : α) {l : List α} (hl : l.Pairwise (fun x y => le x y = true)) :
    (insertBy le a l).Pairwise (fun x y => le x y = true) := by
  induction l with
  | nil => simp [insertBy]
  | cons b l ih =>
    obtain ⟨hb, hl'⟩ := List.pairwise_cons.mp hl
    unfold insertBy
    split
    · next hab =>
      refine List.pairwise_cons.mpr ⟨fun c hc => ?_, hl⟩
      rcases List.mem_cons.mp hc with rfl | hc
      · exact hab
      · exact htrans _ _ _ hab (hb c hc)
    · next hab =>
      refine List.pairwise_cons.mpr ⟨fun c hc => ?_, ih hl'⟩
      rcases List.mem_cons.mp ((insertBy_perm le a l).mem_iff.mp hc) with rfl | hc
      · exact htotal _ _ (Bool.eq_false_iff.mpr hab)
      · exact hb c hc

theorem sortBy_pairwise {α : Type} {le : α → α → Bool} (htrans : ∀ a b c, le a b = true → le b c = true → le a c = true)
    (htotal : ∀ a b, le a b = false → le b a = true) (l : List α) : (sortBy le l).Pairwise (fun x y => le x y = true) := by
  induction l with
  | nil => exact .nil
  | cons a l ih => exact insertBy_pairwise htrans htotal a ih

/-- What a search finds stands before everything else that it would take. -/
theorem rel_of_find?_eq_some {α : Type} {R : α → α → Prop} {q : α → Bool} {l : List α} {a : α} (hl : l.Pairwise R)
    (ha : l.find? q = some a) {x : α} (hx : x ∈ l) (hq : q x = true) : x = a ∨ R a x := by
  obtain ⟨-, front, back, rfl, hfront⟩ := List.find?_eq_some_iff_append.mp ha
  have hback := (List.pairwise_append.mp hl).2.1
  rcases List.mem_append.mp hx with hx | hx
  · exact absurd (hfront x hx) (by simp [hq])
  · rcases List.mem_cons.mp hx with rfl | hx
    · exact .inl rfl
    · exact .inr ((List.pairwise_cons.mp hback).1 x hx)

/-! ### POST_STAMP order -/

/-- [R335] half of the 2^48 stamps follow a stamp and the other half precede it. -/
theorem stampBefore_asymm (a b : BitVec 48) (h : stampBefore a b = true) : stampBefore b a = false := by
  simp only [stampBefore, Bool.and_eq_true, decide_eq_true_eq, Bool.and_eq_false_iff, decide_eq_false_iff_not,
    BitVec.toNat_sub] at h ⊢
  omega

/-- One receive was posted before the other: its stamp says so, and its place. -/
def postedBefore (a b : Posted) : Prop := stampBefore a.stamp b.stamp = true ∧ a.ord < b.ord

theorem postedBefore_total {l : List Posted} (hl : l.Pairwise postedBefore) {a b : Posted} (ha : a ∈ l) (hb : b ∈ l) :
    a = b ∨ postedBefore a b ∨ postedBefore b a := by
  induction l with
  | nil => cases ha
  | cons c l ih =>
    obtain ⟨hc, hl'⟩ := List.pairwise_cons.mp hl
    rcases List.mem_cons.mp ha with rfl | hal
    · rcases List.mem_cons.mp hb with rfl | hbl
      · exact .inl rfl
      · exact .inr (.inl (hc b hbl))
    · rcases List.mem_cons.mp hb with rfl | hbl
      · exact .inr (.inr (hc a hal))
      · exact ih hl' hal hbl

/-- Of two receives, the one with the lower place is the earlier. -/
theorem postedBefore_of_ord_le {l : List Posted} (hl : l.Pairwise postedBefore) {a b : Posted} (ha : a ∈ l) (hb : b ∈ l)
    (hab : a.ord ≤ b.ord) : b = a ∨ postedBefore a b := by
  rcases postedBefore_total hl ha hb with rfl | h | ⟨-, h⟩
  · exact .inl rfl
  · exact .inr h
  · omega

/-- The receive that [R336] step 3 keeps has the lower place of the two. -/
theorem ord_le_of_not_stampBefore {l : List Posted} (hl : l.Pairwise postedBefore) {a b : Posted} (ha : a ∈ l) (hb : b ∈ l)
    (hn : ¬ stampBefore b.stamp a.stamp = true) : a.ord ≤ b.ord := by
  rcases postedBefore_total hl ha hb with rfl | ⟨-, h⟩ | ⟨h, -⟩
  · exact Nat.le_refl _
  · exact Nat.le_of_lt h
  · exact absurd h hn

theorem ord_le_of_stampBefore {l : List Posted} (hl : l.Pairwise postedBefore) {a b : Posted} (ha : a ∈ l) (hb : b ∈ l)
    (hs : stampBefore b.stamp a.stamp = true) : b.ord ≤ a.ord :=
  ord_le_of_not_stampBefore hl hb ha (by rw [stampBefore_asymm _ _ hs]; exact Bool.false_ne_true)

/-! ### The first of each list, and of both -/

theorem binList_pairwise (s : State) (home bin : Nat) : (binList s home bin).Pairwise (fun a b => a.2.ord ≤ b.2.ord) := by
  refine (sortBy_pairwise (fun a b c hab hbc => ?_) (fun a b hab => ?_) _).imp fun h => of_decide_eq_true h
  · rw [decide_eq_true_eq] at *
    exact Nat.le_trans hab hbc
  · rw [decide_eq_true_eq]
    rw [decide_eq_false_iff_not] at hab
    omega

/-- The wildcard list keeps the order of the SRQ's receives. -/
theorem wildMatch_ord_le {r : Srq} {m : TagMsg} {p x : Posted} (hord : r.posted.Pairwise postedBefore) (h : wildMatch r m = some p)
    (hx : x ∈ r.posted) (hwild : x.wild = true) (hmatch : matches_ x m = true) : p.ord ≤ x.ord := by
  have hmem : x ∈ wildList r m := (mem_wildList_iff r m x).mpr ⟨hx, hwild, ctx_eq_of_matches hmatch⟩
  rcases rel_of_find?_eq_some (hord.filter _) h hmem hmatch with rfl | ⟨-, hlt⟩
  · exact Nat.le_refl _
  · exact Nat.le_of_lt hlt

section
variable {s : State} {r : Srq} {srq : Nat} (hwf : s.ep.srqs.wf = true) (hdflt : s.ep.srqs.dflt = none)
  (hget : getSrq s srq = some r)
include hwf hdflt hget

/-- The bin keeps the order of the places, whatever other SRQs have in it. -/
theorem binMatch_ord_le {m : TagMsg} {p x : Posted} (h : binMatch s r.home srq m = some p) (hx : x ∈ r.posted)
    (hexact : x.wild = false) (hmatch : matches_ x m = true) : p.ord ≤ x.ord := by
  obtain ⟨e, hfind, rfl⟩ := Option.map_eq_some_iff.mp h
  obtain ⟨hctx, hrank, htag⟩ := key_eq_of_exact_matches hexact hmatch
  have hmem : (srq, x) ∈ binList s r.home (binOf srq m.ctx m.rank m.tag) :=
    (mem_binList_iff hwf hdflt hget _ x).mpr ⟨hx, hexact, by rw [hctx, hrank, htag]⟩
  rcases rel_of_find?_eq_some (binList_pairwise _ _ _) hfind hmem (by simp [hmatch]) with he | hle
  · exact Nat.le_of_eq (congrArg (fun y => y.2.ord) he.symm)
  · exact hle

variable (hord : r.posted.Pairwise postedBefore)
include hord

/-- The receive taken has the lowest place of all that match. -/
theorem matchPosted_ord_le {m : TagMsg} {p x : Posted} (h : matchPosted s r srq m = some p) (hx : x ∈ r.posted)
    (hmatch : matches_ x m = true) : p.ord ≤ x.ord := by
  rw [matchPosted_eq_earlierOf] at h
  have hbin : ∀ a, binMatch s r.home srq m = some a → x.wild = false → a.ord ≤ x.ord := fun a ha he =>
    binMatch_ord_le hwf hdflt hget ha hx he hmatch
  have hwild : ∀ b, wildMatch r m = some b → x.wild = true → b.ord ≤ x.ord := fun b hb he =>
    wildMatch_ord_le hord hb hx he hmatch
  cases ha : binMatch s r.home srq m with
  | none =>
    rw [ha] at h
    refine hwild p h (Bool.eq_true_of_not_eq_false fun he => ?_)
    exact absurd hmatch (by simp [(binMatch_eq_none_iff hwf hdflt hget m).mp ha x hx he])
  | some a =>
    cases hb : wildMatch r m with
    | none =>
      rw [ha, hb] at h
      obtain rfl : a = p := Option.some.inj h
      refine hbin a ha (Bool.eq_false_iff.mpr fun he => ?_)
      exact absurd hmatch (by simp [(wildMatch_eq_none_iff r m).mp hb x hx he])
    | some b =>
      have haMem := (mem_of_binMatch_eq_some hwf hdflt hget ha).1
      have hbMem := (mem_of_wildMatch_eq_some hb).1
      have hleast : p.ord ≤ a.ord ∧ p.ord ≤ b.ord := by
        rw [ha, hb] at h
        simp only [earlierOf] at h
        split at h
        · next hs =>
          obtain rfl : b = p := Option.some.inj h
          exact ⟨ord_le_of_stampBefore hord haMem hbMem hs, Nat.le_refl _⟩
        · next hs =>
          obtain rfl : a = p := Option.some.inj h
          exact ⟨Nat.le_refl _, ord_le_of_not_stampBefore hord haMem hbMem hs⟩
      cases he : x.wild with
      | false => exact Nat.le_trans hleast.1 (hbin a ha he)
      | true => exact Nat.le_trans hleast.2 (hwild b hb he)

theorem matchPosted_first {m : TagMsg} {p x : Posted} (h : matchPosted s r srq m = some p) (hx : x ∈ r.posted)
    (hmatch : matches_ x m = true) : x = p ∨ postedBefore p x :=
  postedBefore_of_ord_le hord (mem_of_matchPosted_eq_some hwf hdflt hget h).1 hx (matchPosted_ord_le hwf hdflt hget hord h hx hmatch)

theorem matchPosted_eq_find? (m : TagMsg) : matchPosted s r srq m = r.posted.find? (fun p => matches_ p m) := by
  cases h : matchPosted s r srq m with
  | none =>
    have hnone := (matchPosted_eq_none_iff hwf hdflt hget m).mp h
    exact (List.find?_eq_none.mpr fun p hp => by simp [hnone p hp]).symm
  | some p =>
    obtain ⟨hp, hmatch⟩ := mem_of_matchPosted_eq_some hwf hdflt hget h
    cases hf : r.posted.find? (fun p => matches_ p m) with
    | none => exact absurd hmatch (List.find?_eq_none.mp hf p hp)
    | some x =>
      have hx := List.mem_of_find?_eq_some hf
      have hxMatch : matches_ x m = true := List.find?_some (p := (matches_ · m)) hf
      rcases matchPosted_first hwf hdflt hget hord h hx hxMatch with rfl | ⟨-, hpx⟩
      · rfl
      · rcases rel_of_find?_eq_some hord hf hp hmatch with rfl | ⟨-, hxp⟩
        · rfl
        · omega

end

/-- Settles O59. Each list keeps the order of the places, so of its two candidates the earlier has the lowest place of all that match. -/
theorem matchingTakesTheEarliestPostedReceive : Obligations.MatchingTakesTheEarliestPostedReceive := by
  unfold Obligations.MatchingTakesTheEarliestPostedReceive
  exact ⟨fun s r srq m hwf hdflt hget hord => matchPosted_eq_find? hwf hdflt hget hord m,
    fun s r srq m p x hwf hdflt hget hord h hx hmatch => (matchPosted_first hwf hdflt hget hord h hx hmatch).imp_right And.left,
    stampBefore_asymm⟩

end Sys2Proof.Machine
end

section
/-! PROOF. The rate correction (R149, R153): every operation of the time unit keeps the rate and its integral part within 500 ppm. -/

namespace Sys2Proof.Machine

/-! ### What does not write the time unit -/

/-- Every field but the time unit. -/
def allButTu : Fields :=
  { ident := true, clk := true, boot := true, cfg := true, cfgOld := true, hostMode := true, profile := true, lanes := true,
    octets := true, ports := true, routes := true, snap := true, ctrs := true, quads := true, eps := true, fns := true, insts := true,
    masters := true, access := true, cmds := true, ep := true, chain := true, grp := true, recd := true, tele := true, teleFt := true,
    life := true, lifePart := true, mram := true, pstepC := true, pstepS := true, therm := true, pins := true, out := true,
    free := true, pending := true }

theorem tu_of_erase {s t : State} (h : erase allButTu t = erase allButTu s) : t.tu = s.tu := by
  simpa only [erase, hide, allButTu, cond_false] using congrArg State.tu h

theorem rateOk_of_erase {s t : State} (h : erase allButTu t = erase allButTu s) (hs : RateOk s) : RateOk t := by
  unfold RateOk
  rw [tu_of_erase h]
  exact hs

/-! ### Sources and their changes -/

theorem rateOk_changeTime {s : State} {f : TimeUnit → TimeUnit} (hf : RateOk { s with tu := f s.tu }) : RateOk (changeTime s f) := by
  have held : RateOk { s with tu := { f s.tu with rate := (f s.tu).integ, lockCount := 0, slew := 0 } } := by
    simp only [RateOk] at hf ⊢
    omega
  unfold changeTime
  dsimp only
  refine rateOk_of_erase (s := if (f s.tu).st = .holdover ∧ s.tu.st ≠ .holdover then
    { s with tu := { f s.tu with rate := (f s.tu).integ, lockCount := 0, slew := 0 } } else { s with tu := f s.tu }) ?_ ?_
  · simp (decide := true) [erase_ite]
  · split
    · exact held
    · exact hf

theorem rateOk_congr {s t : State} (hs : RateOk s) (hrate : t.tu.rate = s.tu.rate) (hinteg : t.tu.integ = s.tu.integ) : RateOk t := by
  unfold RateOk
  rw [hrate, hinteg]
  exact hs

@[simp] theorem followOf_rate (p : Nat) (a : Announced) (u : TimeUnit) : (followOf p a u).rate = u.rate := by
  unfold followOf
  dsimp only
  split <;> rfl

@[simp] theorem followOf_integ (p : Nat) (a : Announced) (u : TimeUnit) : (followOf p a u).integ = u.integ := by
  unfold followOf
  dsimp only
  split <;> rfl

/-- A change that leaves the rate and its integral, or that starts holdover, keeps the bounds. -/
theorem rateOk_changeTime_of_same {s : State} {f : TimeUnit → TimeUnit} (hs : RateOk s) (hrate : (f s.tu).rate = s.tu.rate)
    (hinteg : (f s.tu).integ = s.tu.integ) : RateOk (changeTime s f) :=
  rateOk_changeTime (rateOk_congr hs hrate hinteg)

theorem rateOk_recordEv {s : State} (hs : RateOk s) (e : Ev) (die p0 p1 p2 p3 : Nat) (b : Bool) :
    RateOk (recordEv s e die p0 p1 p2 p3 b) := rateOk_of_erase (by simp (decide := true)) hs

theorem rateOk_updPort {s : State} (hs : RateOk s) (p : Nat) (f : Port → Port) : RateOk (updPort s p f) := hs

theorem rateOk_count {s : State} (hs : RateOk s) (sc : Scope) (i : Nat) (c : Cn) (n : Nat) : RateOk (count s sc i c n) := hs

theorem rateOk_switchSource {s : State} (hs : RateOk s) (p : Nat) (a : Announced) : RateOk (switchSource s p a) :=
  rateOk_recordEv (rateOk_changeTime_of_same hs (followOf_rate _ _ _) (followOf_integ _ _ _)) _ _ _ _ _ _ _

theorem rateOk_leaveUpstream {s : State} (hs : RateOk s) (cause : Nat) : RateOk (leaveUpstream s cause) := by
  unfold leaveUpstream
  split
  · exact rateOk_switchSource hs _ _
  · exact rateOk_recordEv (rateOk_changeTime_of_same hs rfl rfl) _ _ _ _ _ _ _

theorem rateOk_chooseSource {s : State} (hs : RateOk s) : RateOk (chooseSource s) := by
  have follow : ∀ p a, RateOk (changeTime s (followOf p a)) := fun p a =>
    rateOk_changeTime_of_same hs (followOf_rate _ _ _) (followOf_integ _ _ _)
  have afresh : ∀ p a st, RateOk (changeTime s (fun u => { followOf p a u with st := st, lockCount := 0 })) := fun p a st =>
    rateOk_changeTime_of_same hs (followOf_rate p a s.tu) (followOf_integ p a s.tu)
  have recounted : ∀ p a, RateOk (changeTime s (fun u => { followOf p a u with lockCount := 0 })) := fun p a =>
    rateOk_changeTime_of_same hs (followOf_rate p a s.tu) (followOf_integ p a s.tu)
  unfold chooseSource
  split
  case h_1 =>
    split
    · split
      · split
        · exact rateOk_recordEv (afresh _ _ _) _ _ _ _ _ _ _
        · exact hs
      · exact hs
    · exact hs
  case h_2 =>
    split
    · exact rateOk_leaveUpstream hs 2
    · dsimp only
      split
      · split
        · exact follow _ _
        · exact rateOk_switchSource hs _ _
      · exact hs
  case h_3 =>
    split
    · split
      · exact follow _ _
      · exact recounted _ _
    · exact rateOk_changeTime_of_same hs rfl rfl
  case h_4 =>
    split
    · exact follow _ _
    · exact rateOk_changeTime_of_same hs rfl rfl

theorem rateOk_reselect {s : State} (hs : RateOk s) : RateOk (reselect s) := rateOk_chooseSource hs

/-! ### Links, whose loss may take the source away -/

theorem rateOk_clearLink {s : State} (hs : RateOk s) (p : Nat) : RateOk (clearLink s p) := by
  unfold clearLink
  refine rateOk_reselect (rateOk_updPort (rateOk_of_erase ?_ hs) _ _)
  simp (decide := true) [erase_foldl]

theorem rateOk_linkFailure {s : State} (hs : RateOk s) (p cause : Nat) : RateOk (linkFailure s p cause) := by
  have cleared : ∀ u, erase allButTu u = erase allButTu s → RateOk (clearLink u p) := fun u hu => rateOk_clearLink (rateOk_of_erase hu hs) p
  unfold linkFailure
  split
  · exact rateOk_of_erase (s := clearLink (updPort (setLink s p (if cause = 4 then .train else .retrain)) p
      (fun x => { x with lost := true, trainWait := false })) p) (by simp (decide := true) [ite_eq_erase])
      (cleared _ (by simp (decide := true)))
  · exact rateOk_of_erase (s := clearLink (setLink s p .down) p) (by simp (decide := true)) (cleared _ (by simp (decide := true)))
  · exact hs

theorem rateOk_ackIn {s : State} (hs : RateOk s) (p : Nat) (h : LtbHdr) : RateOk (ackIn s p h) := by
  have seen : RateOk (ackSeen s p h.ackSeq) := rateOk_of_erase (by simp (decide := true)) hs
  have again : ∀ {u : State}, RateOk u → RateOk (replay u p) := fun {u} hu => by
    unfold replay
    dsimp only
    split
    · exact hu
    · split
      · unfold replayOver
        split
        · exact hu
        · exact rateOk_linkFailure (rateOk_recordEv (rateOk_count hu _ _ _ _) _ _ _ _ _ _ _) _ _
      · exact rateOk_of_erase (by simp (decide := true) [erase_foldl]) hu
  unfold ackIn
  dsimp only
  split
  · split
    · exact again seen
    · exact seen
  · exact seen

theorem rateOk_noteFlags {s : State} (hs : RateOk s) (p : Nat) (m : TimeMsg) : RateOk (noteFlags s p m) :=
  rateOk_reselect (rateOk_updPort hs _ _)

theorem rateOk_ltbIn {s : State} (hs : RateOk s) (p : Nat) (h : LtbHdr) {k : State → State} (hk : ∀ u, RateOk u → RateOk (k u)) :
    RateOk (ltbIn s p h k) := by
  have taken : RateOk (if (s.port p).mapOpen then count s .port p .ltbRx else k (ackIn (count s .port p .ltbRx) p h)) := by
    split
    · exact hs
    · exact hk _ (rateOk_ackIn (rateOk_count hs _ _ _ _) p h)
  unfold ltbIn
  split
  · exact taken
  · exact taken
  · exact hs
  · exact hs

/-- [R146] what every TIME LTB passes before its own effect `k`. -/
theorem rateOk_timeRx {s : State} (hs : RateOk s) (p : Nat) (h : LtbHdr) (m : TimeMsg) {k : State → State}
    (hk : ∀ u, RateOk u → RateOk (k u)) : RateOk (timeRx s p h m k) := by
  unfold timeRx unmarked
  split
  · exact rateOk_of_erase (by simp (decide := true)) hs
  · dsimp only
    split
    · exact hs
    · refine rateOk_ltbIn hs p h fun u hu => ?_
      split
      · exact hk _ (rateOk_noteFlags hu p m)
      · exact hu

/-! ### Measurements and steps -/

theorem clampRate_bounds (r : Int) : -50000000 ≤ clampRate r ∧ clampRate r ≤ 50000000 := by
  unfold clampRate
  omega

/-- [R149] the rate and its integral are clamped, or the rate is the integral, or the fastest slowing. -/
theorem rateOk_steer {s : State} (hs : RateOk s) (o : Int) (interval : Nat) : RateOk (steer s o interval) := by
  have hinteg := hs.2.2
  unfold steer
  split
  · exact ⟨(clampRate_bounds _).1, (clampRate_bounds _).2, (clampRate_bounds _).1, (clampRate_bounds _).2⟩
  · split
    · exact rateOk_of_erase (s := { s with tu := { s.tu with slew := 0, rate := s.tu.integ } }) (by simp (decide := true))
        ⟨hinteg.1, hinteg.2, hinteg⟩
    · have slowed : RateOk { s with tu := { s.tu with rate := -50000000, slew := o } } :=
        ⟨Int.le_refl (-50000000), Int.le_trans hinteg.1 hinteg.2, hinteg⟩
      dsimp only
      split
      · exact slowed
      · exact rateOk_recordEv slowed _ _ _ _ _ _ _

theorem rateOk_applyStep {s : State} (hs : RateOk s) (seq : BitVec 8) (ns : Int) : RateOk (applyStep s seq ns) := by
  have now : RateOk { s with tu := { s.tu with stepWait := none } } := hs
  unfold applyStep
  dsimp only
  split
  · exact rateOk_of_erase (by simp (decide := true)) now
  · exact rateOk_steer now _ _

theorem rateOk_measured {s : State} (hs : RateOk s) (p : Nat) (o : Int) : RateOk (measured s p o) := by
  have noted : RateOk { s with tu := { s.tu with offset := o } } := hs
  have begun : RateOk (dropExchanges (setFtFix { s with tu := { s.tu with offset := o } } ((ftFix { s with tu := { s.tu with offset := o } } : Int) + o))) :=
    rateOk_of_erase (by simp (decide := true)) noted
  unfold measured
  dsimp only
  split
  · exact rateOk_changeTime begun
  · exact rateOk_changeTime begun
  · refine rateOk_steer ?_ _ _
    exact hs
  · split
    · exact rateOk_leaveUpstream noted 0
    · exact rateOk_steer noted _ _
  · exact rateOk_steer (rateOk_changeTime noted) _ _
  · exact noted

theorem rateOk_setTime {s : State} (hs : RateOk s) (v : Int) : RateOk (setTime s v) := by
  unfold setTime
  split
  · have moved : RateOk (dropExchanges (setFtFix s v)) := rateOk_of_erase (by simp (decide := true)) hs
    exact rateOk_of_erase (s := changeTime (dropExchanges (setFtFix s v)) (fun u => { u with valid := true, slew := 0 }))
      (by simp (decide := true)) (rateOk_changeTime moved)
  · dsimp only
    split
    · exact hs
    · split
      · exact rateOk_of_erase (s := { s with tu := { s.tu with slew := 0, stepSeq := s.tu.stepSeq + 1, stepFt := BitVec.ofInt 64 (v / 65536), stepNs := (v - (ftFix s : Int)) / 65536 } })
          (by simp (decide := true)) hs
      · exact rateOk_recordEv (s := { s with tu := { s.tu with slew := v - (ftFix s : Int) } }) hs _ _ _ _ _ _ _

/-! ### The commands (O60) -/

/-- A command that completes on a numbered thing has what its own effect keeps. -/
theorem rateOk_of_guardRes {ok : Bool} {u t : State} (hu : RateOk u) (h : guardRes ok u = .next t) : RateOk t := by
  unfold guardRes at h
  split at h
  · exact Host.Outcome.next.inj h ▸ hu
  · cases h

theorem rateOk_timeReqRx {s t : State} {p : Nat} {m : TimeLtb} (hs : RateOk s) (h : exec (.timeReqRx p m) s = .next t) : RateOk t := by
  refine rateOk_of_guardRes (rateOk_timeRx hs p m.hdr m.msg fun u hu => ?_) h
  dsimp only
  split
  · exact rateOk_of_erase (by simp (decide := true)) hu
  · exact rateOk_of_erase (by simp (decide := true)) hu

theorem rateOk_timeRespRx {s t : State} {p : Nat} {m : TimeLtb} (hs : RateOk s) (h : exec (.timeRespRx p m) s = .next t) : RateOk t := by
  refine rateOk_of_guardRes (rateOk_timeRx hs p m.hdr m.msg fun u hu => ?_) h
  have chosen : ∀ {v : State}, RateOk v → RateOk (if v.tu.upstream = some p then v else reselect v) := fun hv => by
    split
    · exact hv
    · exact rateOk_reselect hv
  dsimp only
  split
  · split <;> exact hu
  · split
    · exact hu
    · split
      · exact rateOk_of_erase (by simp (decide := true)) hu
      · generalize hv : respAccepted (respAnswered u p _ _ _ _) p _ _ = v
        have taken : RateOk v := rateOk_of_erase (by rw [← hv]; simp (decide := true)) hu
        have picked := chosen taken
        generalize (if v.tu.upstream = some p then v else reselect v) = w at picked ⊢
        split
        · exact rateOk_measured picked _ _
        · exact picked

theorem rateOk_timeAnnounceRx {s t : State} {p : Nat} {m : TimeLtb} (hs : RateOk s) (h : exec (.timeAnnounceRx p m) s = .next t) :
    RateOk t := by
  refine rateOk_of_guardRes (rateOk_timeRx hs p m.hdr m.msg fun u hu => ?_) h
  have heard := rateOk_reselect (rateOk_updPort hu p (fun x => { x with eqx := { x.eqx with ann := some (announcedBy m.msg) } }))
  dsimp only
  generalize reselect (updPort u p _) = v at heard ⊢
  have noted : RateOk { v with tu := { v.tu with stepSeq := m.msg.stepSeq, stepFt := m.msg.stepFt, stepNs := m.msg.stepNs.toInt } } := heard
  split
  · split
    · exact noted
    · split
      · exact rateOk_applyStep noted _ _
      · exact noted
  · exact heard

theorem rateOk_timeMissLimit {s t : State} (hs : RateOk s) (h : exec .timeMissLimit s = .next t) : RateOk t := by
  change execTimeMissLimit s = .next t at h
  unfold execTimeMissLimit at h
  split at h
  · exact Host.Outcome.next.inj h ▸ hs
  · split at h
    · exact Host.Outcome.next.inj h ▸ hs
    · split at h
      · exact Host.Outcome.next.inj h ▸ rateOk_leaveUpstream hs 1
      · split at h
        · next q a _ =>
          exact Host.Outcome.next.inj h ▸ rateOk_changeTime_of_same hs (followOf_rate q a s.tu) (followOf_integ q a s.tu)
        · exact Host.Outcome.next.inj h ▸ rateOk_changeTime_of_same hs rfl rfl
      · exact Host.Outcome.next.inj h ▸ hs

theorem rateOk_timeStepApply {s t : State} (hs : RateOk s) (h : exec .timeStepApply s = .next t) : RateOk t := by
  change execTimeStepApply s = .next t at h
  unfold execTimeStepApply at h
  split at h
  · rw [← Host.Outcome.next.inj h]
    split
    · exact rateOk_applyStep hs _ _
    · exact hs
  · exact Host.Outcome.next.inj h ▸ hs

/-- [R153] an edge either sets the time or drives the servo, whose two values are clamped. -/
theorem rateOk_ppsInEdge {s t : State} (hs : RateOk s) (h : exec .ppsInEdge s = .next t) : RateOk t := by
  change execPpsInEdge s = .next t at h
  unfold execPpsInEdge at h
  split at h
  · exact Host.Outcome.next.inj h ▸ hs
  · dsimp only at h
    split at h
    · rw [← Host.Outcome.next.inj h]
      generalize hu : setTime _ _ = u
      have set : RateOk u := by
        rw [← hu]
        refine rateOk_setTime ?_ _
        exact hs
      exact set
    · rw [← Host.Outcome.next.inj h]
      split
      · exact ⟨(clampRate_bounds _).1, (clampRate_bounds _).2, (clampRate_bounds _).1, (clampRate_bounds _).2⟩
      · exact hs

theorem rateOk_ppsLossTimeout {s t : State} (hs : RateOk s) (h : exec .ppsLossTimeout s = .next t) : RateOk t := by
  have lost := rateOk_recordEv hs .ppsLost (timeDie s) s.tu.lastPps.toNat 0 0 0 false
  change execPpsLossTimeout s = .next t at h
  unfold execPpsLossTimeout at h
  dsimp only at h
  generalize (if s.tu.tod.isSome = true then s.tu.todAt else s.tu.ppsAt.getD 0) = from_ at h
  split at h
  · exact Host.Outcome.next.inj h ▸ hs
  · split at h
    · exact Host.Outcome.next.inj h ▸ rateOk_changeTime_of_same lost rfl rfl
    · split at h
      · exact Host.Outcome.next.inj h ▸ rateOk_changeTime_of_same lost rfl rfl
      · exact Host.Outcome.next.inj h ▸ hs

theorem rateOk_timeLockGained {s t : State} (hs : RateOk s) (h : exec .timeLockGained s = .next t) : RateOk t := by
  change execTimeLockGained s = .next t at h
  unfold execTimeLockGained at h
  split at h
  · exact Host.Outcome.next.inj h ▸ hs
  · rw [← Host.Outcome.next.inj h]
    split
    · exact rateOk_recordEv (rateOk_changeTime_of_same hs rfl rfl) _ _ _ _ _ _ _
    · exact hs

theorem rateOk_unmeasured {s : State} (hs : RateOk s) : RateOk { s with tu := unmeasured s.tu } := by
  unfold unmeasured
  split <;> exact hs

theorem rateOk_eqxIntervalEnd {s t : State} {p : Nat} (hs : RateOk s) (h : exec (.eqxIntervalEnd p) s = .next t) : RateOk t := by
  refine rateOk_of_guardRes ?_ h
  have counted : RateOk (if (s.port p).eqx.responded then s else count s .port p .eqxMissed) := by split <;> exact hs
  split
  · exact hs
  · split
    · exact rateOk_unmeasured (rateOk_updPort counted p _)
    · exact rateOk_updPort counted p _

theorem rateOk_sourceWaitExpire {s t : State} (hs : RateOk s) (h : exec .sourceWaitExpire s = .next t) : RateOk t := by
  change execSourceWaitExpire s = .next t at h
  unfold execSourceWaitExpire at h
  split at h
  · exact Host.Outcome.next.inj h ▸ rateOk_changeTime_of_same hs rfl rfl
  · exact Host.Outcome.next.inj h ▸ hs

theorem rateOk_ppsOutEdge {s t : State} (hs : RateOk s) (h : exec .ppsOutEdge s = .next t) : RateOk t := by
  change execPpsOutEdge s = .next t at h
  unfold execPpsOutEdge at h
  dsimp only at h
  split at h
  · exact Host.Outcome.next.inj h ▸ hs
  · exact Host.Outcome.next.inj h ▸ hs

theorem rateOk_eqxExchangeStart {s t : State} {p : Nat} (hs : RateOk s) (h : exec (.eqxExchangeStart p) s = .next t) : RateOk t :=
  rateOk_of_guardRes (rateOk_of_erase (by simp (decide := true)) hs) h

theorem rateOk_timeReportRx {s t : State} {p : Nat} {m : TimeLtb} (hs : RateOk s) (h : exec (.timeReportRx p m) s = .next t) : RateOk t := by
  refine rateOk_of_guardRes (rateOk_timeRx hs p m.hdr m.msg fun u hu => ?_) h
  exact rateOk_updPort hu p _

/-- Settles O60: one lemma for each command of the time unit. -/
theorem rateCorrectionStaysInRange : Obligations.RateCorrectionStaysInRange := by
  unfold Obligations.RateCorrectionStaysInRange
  exact ⟨fun _ _ _ => rateOk_eqxExchangeStart, fun _ _ _ _ => rateOk_timeReqRx, fun _ _ _ _ => rateOk_timeRespRx,
    fun _ _ _ _ => rateOk_timeReportRx, fun _ _ _ _ => rateOk_timeAnnounceRx, fun _ _ => rateOk_timeLockGained,
    fun _ _ _ => rateOk_eqxIntervalEnd, fun _ _ => rateOk_timeMissLimit, fun _ _ => rateOk_timeStepApply, fun _ _ => rateOk_ppsInEdge,
    fun _ _ => rateOk_ppsLossTimeout, fun _ _ => rateOk_sourceWaitExpire, fun _ _ => rateOk_ppsOutEdge⟩

end Sys2Proof.Machine
end

section
/-! PROOF. Which commands complete (log 2): a command answers a next state exactly where every number it names is in range and what it
names exists. -/

namespace Sys2Proof.Machine

/-! ### Answers -/

/-- The command's answer `r` is a next state where `ok` holds, and the fault of a missing resource where not. -/
def Answers (ok : Bool) (r : Res) : Prop := ∃ t, r = guardRes ok t

theorem Answers.next (t : State) : Answers true (.next t) := ⟨t, rfl⟩

theorem Answers.of_ite {ok : Bool} {c : Prop} [Decidable c] {a b : Res} (ha : Answers ok a) (hb : Answers ok b) :
    Answers ok (if c then a else b) := by
  split
  · exact ha
  · exact hb

theorem Answers.congr {ok ok' : Bool} {r : Res} (h : Answers ok r) (he : ok = ok') : Answers ok' r := he ▸ h

theorem Answers.completes {r : Res} (h : Answers true r) : ∃ t, r = .next t := h

theorem Answers.faults {r : Res} (h : Answers false r) : r = .fault .noSuchResource := by
  obtain ⟨t, rfl⟩ := h
  rfl

theorem Answers.not_refused {ok : Bool} {r : Res} (h : Answers ok r) (e : Refusal) : r ≠ .refused e := by
  obtain ⟨t, rfl⟩ := h
  cases ok <;> simp [guardRes]

/-! ### What exists is numbered in its range -/

/-- Where everything that exists has a number in range, the range adds nothing. -/
theorem inRange_and {ok exists_ : Bool} (h : exists_ = true → ok = true) : (ok && exists_) = exists_ := by
  cases exists_
  · exact Bool.and_false _
  · rw [h rfl]; rfl

theorem epNo_and (s : State) (e : Nat) : (epNo e && epExists s e) = epExists s e :=
  inRange_and fun h => by
    simp only [epExists, Bool.and_eq_true] at h
    exact h.1.1

theorem fnNo_of_fnExists {s : State} {m : Nat} (h : fnExists s m = true) : fnNo m = true := by
  simp only [fnExists, Bool.and_eq_true] at h ⊢
  exact h.1.1

theorem fnNo_and (s : State) (m : Nat) : (fnNo m && fnExists s m) = fnExists s m := inRange_and fnNo_of_fnExists

theorem masterNo_of_hasInst {s : State} {m : Nat} (h : hasInst s m = true) : masterNo m = true := by
  simp only [hasInst, Bool.or_eq_true] at h
  rcases h with h | h
  · simp only [isBoard, Bool.or_eq_true, beq_iff_eq, decide_eq_true_eq] at h ⊢
    omega
  · have hfn := fnNo_of_fnExists h
    simp only [Bool.and_eq_true, decide_eq_true_eq] at hfn ⊢
    omega

theorem masterNo_of_masterOk {s : State} {m : Nat} (h : masterOk s m = true) : masterNo m = true := by
  simp only [masterOk, Bool.or_assoc, Bool.or_eq_true] at h
  rcases h with h | h
  · simp only [decide_eq_true_eq] at h ⊢
    omega
  · exact masterNo_of_hasInst (s := s) (by simpa only [hasInst, Bool.or_eq_true] using h)

/-! ### The kinds of command -/

/-- A command whose numbers alone decide. -/
theorem answers_named (ok : Bool) (t : State) : Answers (ok && true) (guardRes ok t) := ⟨t, by rw [Bool.and_true]⟩

theorem answers_ep (s : State) (e : Nat) (t : State) : Answers (epNo e && epExists s e) (guardRes (epExists s e) t) :=
  ⟨t, by rw [epNo_and]⟩

theorem answers_fn (s : State) (m : Nat) (t : State) : Answers (fnNo m && fnExists s m) (guardRes (fnExists s m) t) :=
  ⟨t, by rw [fnNo_and]⟩

theorem answers_inst (s : State) (m : Nat) (t : State) : Answers (masterNo m && hasInst s m) (guardRes (hasInst s m) t) :=
  ⟨t, by rw [inRange_and masterNo_of_hasInst]⟩

theorem answers_master (s : State) (m : Nat) (t : State) : Answers (masterNo m && masterOk s m) (guardRes (masterOk s m) t) :=
  ⟨t, by rw [inRange_and masterNo_of_masterOk]⟩

/-- A further number `k` that the command names stands beside the one whose owner has to exist. -/
theorem answers_numbered {ok exists_ k : Bool} (h : exists_ = true → ok = true) (t : State) :
    Answers (ok && k && exists_) (guardRes (exists_ && k) t) := by
  refine ⟨t, ?_⟩
  rw [Bool.and_right_comm, inRange_and h]

theorem answers_packetArrival (src : ArrSrc) (s : State) :
    Answers ((Instr.packetArrival src).wf && present s (.packetArrival src)) (execPacketArrival src s) := by
  cases src with
  | net p => exact answers_named _ _
  | host e => exact answers_ep _ _ _
  | coll q => exact answers_named _ _
  | service => exact .next _

theorem answers_mbFwActivate (img : Image) (s : State) : Answers true (execMbFwActivate img s) := by
  unfold execMbFwActivate
  refine .of_ite (.next _) ?_
  split <;> exact .next _

theorem answers_timeLockGained (s : State) : Answers true (execTimeLockGained s) := by
  unfold execTimeLockGained
  split <;> exact .next _

theorem answers_timeMissLimit (s : State) : Answers true (execTimeMissLimit s) := by
  unfold execTimeMissLimit
  split
  · exact .next _
  · refine .of_ite (.next _) ?_
    split <;> exact .next _

theorem answers_timeStepApply (s : State) : Answers true (execTimeStepApply s) := by
  unfold execTimeStepApply
  split <;> exact .next _

theorem answers_ppsInEdge (s : State) : Answers true (execPpsInEdge s) := by
  unfold execPpsInEdge
  refine .of_ite (.next _) ?_
  dsimp only
  split <;> exact .next _

/-! ### The statement (O45) -/

theorem answers_exec (c : Instr) (s : State) : Answers (c.wf && present s c) (exec c s) := by
  cases c
  case nudgeWrite => exact answers_numbered fnNo_of_fnExists _
  case counterLoRead | hostBackingWrite => exact answers_numbered masterNo_of_masterOk _
  case packetArrival => exact answers_packetArrival _ _
  case mbFwActivate => exact answers_mbFwActivate _ _
  case timeLockGained => exact answers_timeLockGained _
  case timeMissLimit => exact answers_timeMissLimit _
  case timeStepApply => exact answers_timeStepApply _
  case ppsInEdge => exact answers_ppsInEdge _
  case coldStart | rootPllLock | bootRomConfigRead | serviceDieSelfTest | quadrantArraySelfTest | hbmTraining | hbmClearing | laneCalibration |
    quadrantInitialisation | warmRstNAssert | warmStart | flashGntAssert | flashReqDeassert | sourceWaitExpire | ppsOutEdge =>
    exact .of_ite (.next _) (.next _)
  case molzuStart | fwReadySet => exact .of_ite (.of_ite (.next _) (.next _)) (.next _)
  case imageSelection => exact .of_ite (.of_ite (.of_ite (.next _) (.next _)) (.next _)) (.next _)
  case bootTmoExpire =>
    exact .of_ite (.next _) (.of_ite (.of_ite (.next _) (.of_ite (.next _) (.next _))) (.of_ite (.next _) (.next _)))
  case ppsLossTimeout => exact .of_ite (.next _) (.of_ite (.next _) (.of_ite (.next _) (.next _)))
  case porstNAssert | watchdogExpire | antiRollbackRaise | flashReqAssert | mbIdentGet | mbCapsGet | mbOctetSet | mbPortSet | mbPortGet |
    mbHostModeStore | mbPartitionSet | mbRouteWrite | mbRouteCommit | mbRouteStatus | mbRouteAbandon | mbTimeSet | mbTimeStatus |
    mbSnapArm | mbSnapCancel | mbEqxSet | mbAlmanacLoad | mbAlmanacGet | mbShaperSet | mbPolicerSet | mbSlWeightsSet | mbTreeSetup |
    mbTreeTeardown | mbTreeGet | mbEventClearNonce | mbEventClear | mbTelemetryGet | mbLifeGet | mbFwUpdateBegin | mbFwUpdateWrite |
    mbFwUpdateEnd | mbMeasureGet | mbAccessSet | mbAccessGet | mbConfigRead | mbConfigExport | mbConfigExportRead | mbConfigImportWrite |
    mbConfigImportCommit | mbGroupRoleSet | mbFeaSet | mbQuadGate | mbQuadRetire | mbChainStatus | mbPrbsSet | mbPrbsGet | mbLoopbackSet |
    mbErrInject | mbInvalidOpcode | cmdDone | stagingIdleTimeout | nonceExpire | fwUpdateIdleTimeout | routeBankAdopt | snapshotTake |
    counterFoldDone | wakeBatch | doorbellPoll | doorbellReadComplete | emptyPollLimit | slotReadComplete | slotReread | slotWaitExpire |
    chainListReadComplete | hostReadError | parkIdleExpire | headRecordWrite | cqHeadReread | cqHeadReadComplete | cqFullTimeout | write |
    writeWithCount | read | send | fetchAdd | cswap64 | cswap128 | bindWindow | counterFetch | recv | tsend | trecv | collective |
    ackDelayExpire | rtoExpire | rnrRetryAfterExpire | rdvReadComplete | evictionComplete | pageInReadComplete | chainPortLock |
    chainPortLockLost | enum | enumAck | enumDone | enumTmoExpire | heartbeat | heartbeatSend | joinReq | joinReqSend | chainBreak |
    orphanTmoExpire | statusReq | statusRsp | reset | chainResetAction | regRead | regWrite | regRsp | mbCmd | mbRsp | event |
    chainBadFrame | chainCrcFail | relayTmoExpire | mgmtCmdRx | mgmtRespRx | mgmtEventRx | mgmtDistRx | announceSend | mgrLossTmoExpire |
    electTmoExpire | groupWalk | isolateTmoExpire | eventFlush | pwrfailAssert | pwrfailDeassert | lifeSecondCheck | lifeHourlyWrite |
    lifeMonthBoundary | refclkCoreLost | bmcRegWrite | bmcRegRead | i3cAddressAssign | i3cRstdaa | smbusAlertResponse | trstNAssert |
    idcode | samplePreload | extest | extestPulse | extestTrain | clamp | highz | regAccess | bypass | vaonLoss =>
    exact ⟨_, rfl⟩
  case quadrantPowerUp | quadPortsDrained | quadRehomeDone | quadGateDone | quadUngateTrained | refclkNetLost | perstNAssert |
    perstNDeassert | almanacBankAdopt | eqxExchangeStart | timeReqRx | timeRespRx | timeReportRx | timeAnnounceRx | eqxIntervalEnd |
    ltbBadRx | ltbIdleRx | ltbDataRx | edgeRunLimit | ltbCtrlCreditRx | ltbCtrlLinkDownRx | ltbCtrlReservedRx | ltbLaneMapRx |
    ltbLoadHintRx | trainWaitExpire | initTmoExpire | initRepeat | initPoolRetry | sharedGrantAdjust | replayTmoExpire | replayLimit |
    linkGraceExpire | drainComplete | linkDownWaitEnd | loadHintSend | egressPacketStart | packetDeparted | almanacEntryChange |
    gateWakeLead | holdoverMaxExpire | octetPllUnlock | octetPllRelock | codewordRx | fecLockGained | fecLockLost | lossOfSignal |
    noLockTimerExpire | retryWaitExpire | retrainTmoExpire | partnerIdleRx | exitBurstDone | startOfStreamRx | wakeAlignTmoExpire |
    adaptationPass | calibCoeffWrite | prbsCheckerLock | prbsCheckerLoss | errInjectFire | laneDropEnd | ltbLockGained | ltbLockLost |
    signalDetect | idleEnterExpire | idleSequenceSent | eidleRefreshExpire | ltbInitRx | heldIntervalExpire | creditTmoExpire |
    queueServiceTurn | upRx | opalBlockDone | downRx | treeCreditRx | treeAbortRx | stallTmoExpire | idleWriteback | hostSnoop |
    cacheScrubPass | eventForward | numberQuarantineEnd | getS | getM | upgrade | put | putClean | cohAck | putAck | grant | fwdS | fwdM |
    inv | cohData | patrolScrubRead | patrolPassStart | mramRemap | telemetrySample | thermalTrip | railOutOfRange | railUndervoltage |
    pstepAckRise | noticeLeadExpire | grantHoldExpire | pstepStepDone | pstepAckFall =>
    exact answers_named _ _
  case hostLinkDown | hostLinkUp | writeRx | writeCountRx | readReqRx | readRespRx | sendRx | atomicReqRx | hostAtomicComplete |
    atomicRespRx | ackRx | tagEagerRx | tagRtsRx | tagFinRx | spdmRequest | hostDataReadComplete | cxlCacheOwnershipGranted =>
    exact answers_ep _ _ _
  case configRequest | busMasterEnableClear | flr | flrComplete | lateCompletion | msixUnmask | aqSqTailWrite | aqCqHeadWrite |
    aqEnableSet | aqEnableClear | aqCommandFetch | aqCreateQp | aqModifyQp | aqDestroyQp | aqCreateSrq | aqDestroySrq | aqCreateCq |
    aqDestroyCq | aqCreateEq | aqDestroyEq | aqCreatePd | aqDestroyPd | aqRegisterWindow | aqRevokeWindow | aqInvalidate | aqAbort |
    aqSetQuota | aqQueryQuota | interruptHoldoffEnd | atsInvalidateRequest | busMasterEnableSet | atsTranslationComplete =>
    exact answers_fn _ _ _
  case registerWrite | windowRead | timeFtLoRead | snapCtrlArm | snapCtrlCancel | eventData7Read | laneCfgWrite | octetTimersWrite |
    portSharedLimitsWrite =>
    exact answers_master _ _ _
  case statusCauseWrite | statusMaskWrite | mailboxDoorbell =>
    exact answers_inst _ _ _

/-- Settles O45: each command's answer is a guard of its number and its name. -/
theorem commandsCompleteUnlessTheyNameNothing : Obligations.CommandsCompleteUnlessTheyNameNothing := by
  unfold Obligations.CommandsCompleteUnlessTheyNameNothing
  refine ⟨fun c s hwf hp => ?_, fun c s h => ?_, fun c s r => (answers_exec c s).not_refused r⟩
  · exact Answers.completes ((answers_exec c s).congr (by rw [hwf, hp]; rfl))
  · exact Answers.faults ((answers_exec c s).congr h)

end Sys2Proof.Machine
end

section
/-! PROOF. RATING_VOID (R481) and the invariant. The recorder writes LIFE through its access right and the partition's state, so a LIFE
partition that has failed (R475) takes no more writes, while the running record goes on: O39 fails there. -/

namespace Sys2Proof.Machine

/-! ### The life record -/

/-- Every field but the two life records. -/
def allButLife : Fields :=
  { ident := true, clk := true, boot := true, cfg := true, cfgOld := true, hostMode := true, profile := true, lanes := true,
    octets := true, ports := true, tu := true, routes := true, snap := true, ctrs := true, quads := true, eps := true, fns := true,
    insts := true, masters := true, access := true, cmds := true, ep := true, chain := true, grp := true, recd := true, tele := true,
    teleFt := true, mram := true, pstepC := true, pstepS := true, therm := true, pins := true, out := true, free := true,
    pending := true }

theorem life_of_erase {s t : State} (h : erase allButLife t = erase allButLife s) : t.life = s.life ∧ t.lifePart = s.lifePart := by
  constructor
  · simpa only [erase, hide, allButLife, cond_false] using congrArg State.life h
  · simpa only [erase, hide, allButLife, cond_false] using congrArg State.lifePart h

/-- A failed LIFE partition keeps what it held when RATING_VOID is to be set in it. -/
theorem voidRating_of_failed {s : State} (hp : partOk s 4 = false) :
    (voidRating s).life = s.life ∧ (voidRating s).lifePart = s.lifePart := by
  refine life_of_erase ?_
  unfold voidRating agentWrite
  split
  · simp (decide := true)
  · rw [if_neg (by rw [hp]; exact Bool.false_ne_true)]

/-- [R481] a second below 0 degrees voids the rating in the running record, and nothing is written to a failed LIFE partition. -/
theorem lifeSecondCheck_of_failed {s : State} (hr : recorderRuns s = true) (hp : partOk s 4 = false) {m : Int} (hm : m < 0) :
    ∃ t, exec (.lifeSecondCheck m) s = .next t ∧ t.life.void = true ∧ t.lifePart = s.lifePart := by
  refine ⟨_, rfl, ?_⟩
  have hout : (decide (rangeTop s < m) || decide (m < 0)) = true := by simp [hm]
  simp only [hr, hout, Bool.or_true, Bool.true_and, Bool.not_true, Bool.false_eq_true, if_false, if_true]
  generalize hu : ({ s with life := _ } : State) = u
  have hvoid : u.life.void = true := by rw [← hu]
  have hpart : u.lifePart = s.lifePart := by rw [← hu]
  have hfailed : partOk u 4 = false := by rw [← hu]; exact hp
  obtain ⟨hlife, hsame⟩ := voidRating_of_failed hfailed
  split
  · obtain ⟨hl, hlp⟩ := life_of_erase (s := voidRating u) (t := recordEv (voidRating u) .lifeTempExceeded svcDie 1 (s32 m)) (by simp (decide := true))
    exact ⟨by rw [hl, hlife, hvoid], by rw [hlp, hsame, hpart]⟩
  · exact ⟨by rw [hlife, hvoid], by rw [hsame, hpart]⟩

/-- Refutes O39: with the LIFE partition failed and a device that runs, the check of a second at -1 degree sets RATING_VOID in the running
record alone, and the two no longer agree. -/
theorem not_everyStepKeepsTheInvariant : ¬ Obligations.EveryStepKeepsTheInvariant := by
  unfold Obligations.EveryStepKeepsTheInvariant
  intro h
  obtain ⟨t, ht, hvoid, hpart⟩ := lifeSecondCheck_of_failed
    (s := { State.reset with
      boot := { State.reset.boot with power := .run, porst := false }
      mram := { State.reset.mram with spares := 0, failed := 0x10 } })
    (by decide) (by decide) (m := -16) (by decide)
  have hinv : Inv t := h { State.reset with
      boot := { State.reset.boot with power := .run, porst := false }
      mram := { State.reset.mram with spares := 0, failed := 0x10 }
      pending := [.lifeSecondCheck (-16)] } t (by decide) ht
  obtain ⟨-, -, -, hagree⟩ := hinv
  rw [hvoid, hpart] at hagree
  exact Bool.noConfusion hagree

end Sys2Proof.Machine
end

section
/-! PROOF. What wears out or is voided stays so (R454, R475, R481): no operation lowers the anti-rollback counter, brings back a spare
sector or clears RATING_VOID where both life records hold it. -/

namespace Sys2Proof.Machine

/-- From `r` to `s` the anti-rollback counter has not fallen, no spare sector has come back, and RATING_VOID stands in both life records
where it did. -/
structure Wears (r s : State) : Prop where
  counter : r.boot.antiRollback ≤ s.boot.antiRollback
  spares : s.mram.spares ≤ r.mram.spares
  void : r.life.void = true ∧ r.lifePart.void = true → s.life.void = true ∧ s.lifePart.void = true

theorem Wears.refl (s : State) : Wears s s := ⟨Nat.le_refl _, Nat.le_refl _, id⟩

theorem Wears.ite {r a b : State} {c : Prop} [Decidable c] (ha : c → Wears r a) (hb : ¬ c → Wears r b) : Wears r (if c then a else b) := by
  split
  · next hc => exact ha hc
  · next hc => exact hb hc

/-- Every field but the four that hold what wears. -/
def allButWorn : Fields :=
  { ident := true, clk := true, cfg := true, cfgOld := true, hostMode := true, profile := true, lanes := true, octets := true,
    ports := true, tu := true, routes := true, snap := true, ctrs := true, quads := true, eps := true, fns := true, insts := true,
    masters := true, access := true, cmds := true, ep := true, chain := true, grp := true, recd := true, tele := true, teleFt := true,
    pstepC := true, pstepS := true, therm := true, pins := true, out := true, free := true, pending := true }

section
variable {r s t : State} (h : Wears r s)
include h

theorem Wears.of_worn (hb : t.boot.antiRollback = s.boot.antiRollback) (hm : t.mram.spares = s.mram.spares)
    (hl : t.life.void = s.life.void) (hp : t.lifePart.void = s.lifePart.void) : Wears r t := by
  exact ⟨hb ▸ h.counter, hm ▸ h.spares, hl ▸ hp ▸ h.void⟩

/-- The state of a start may change, but not the anti-rollback counter. -/
theorem Wears.with_boot {b : Boot} (hb : b.antiRollback = s.boot.antiRollback) : Wears r { s with boot := b } := h.of_worn hb rfl rfl rfl

theorem Wears.of_erase (he : erase allButWorn t = erase allButWorn s) : Wears r t := by
  have hb : t.boot = s.boot := by simpa only [erase, hide, allButWorn, cond_false] using congrArg State.boot he
  have hm : t.mram = s.mram := by simpa only [erase, hide, allButWorn, cond_false] using congrArg State.mram he
  have hl : t.life = s.life := by simpa only [erase, hide, allButWorn, cond_false] using congrArg State.life he
  have hp : t.lifePart = s.lifePart := by simpa only [erase, hide, allButWorn, cond_false] using congrArg State.lifePart he
  exact h.of_worn (by rw [hb]) (by rw [hm]) (by rw [hl]) (by rw [hp])

theorem Wears.of_boot (he : bootPart t = bootPart s) : Wears r t := by
  simp only [bootPart, Prod.mk.injEq] at he
  obtain ⟨-, -, -, hb, hl, hp, hm⟩ := he
  exact h.of_worn (by rw [hb]) (by rw [hm]) (by rw [hl]) (by rw [hp])

end

/-! ### Starts -/

section
variable {r s : State} (h : Wears r s)
include h

theorem wears_recordEv (e : Ev) (die p0 p1 p2 p3 : Nat) (b : Bool) : Wears r (recordEv s e die p0 p1 p2 p3 b) :=
  h.of_erase (by simp (decide := true))

theorem wears_coldClear : Wears r (coldClear s) := ⟨h.counter, h.spares, fun hv => ⟨(h.void hv).2, (h.void hv).2⟩⟩

theorem wears_tellPowerFail : Wears r (tellPowerFail s) := h.of_boot (booted_of_cored (cored_tellPowerFail s))

theorem wears_beginCold : Wears r (beginCold s) := by
  have cleared := wears_coldClear h
  unfold beginCold
  dsimp only
  generalize coldClear s = c at cleared ⊢
  have begun : Wears r (tellPowerFail (count { c with boot := { c.boot with power := .run, steps := { started := true } } } .device 0 .coldStart)) :=
    wears_tellPowerFail (cleared.of_worn rfl rfl rfl rfl)
  generalize tellPowerFail _ = u at begun ⊢
  refine .ite (fun _ => wears_recordEv ?_ _ _ _ _ _ _ _) (fun _ => ?_)
  all_goals
    split
    · exact begun.of_erase (by simp (decide := true))
    · exact begun

theorem wears_warmClear : Wears r (warmClear s) := by
  have held : Wears r (holdTime (destroyAll s)) :=
    (h.of_boot (booted_of_hostSided (hostSided_destroyAll s))).of_erase (by unfold holdTime; simp (decide := true))
  unfold warmClear
  generalize holdTime (destroyAll s) = t at held ⊢
  exact ⟨held.counter, held.spares, fun hv => ⟨(held.void hv).2, (held.void hv).2⟩⟩

theorem wears_beginWarm : Wears r (beginWarm s) := by
  unfold beginWarm
  split
  · exact wears_recordEv (wears_beginCold h) _ _ _ _ _ _ _
  · exact wears_tellPowerFail ((wears_warmClear h).of_worn rfl rfl rfl rfl)

theorem wears_enterSafe : Wears r (enterSafe s) := by
  refine Wears.of_erase (s := { s with boot := { s.boot with
    safe := true, slot := 3, power := .safe, fwReady := false, fwRestarting := false, versionShown := false } }) (h.with_boot rfl) ?_
  unfold enterSafe
  simp (decide := true)

theorem wears_startFailed (golden : Bool) (cause : Nat) : Wears r (startFailed s golden cause) := by
  have told : Wears r (recordEv (count s .device 0 .bootFailed) .bootFailed svcDie s.boot.attempts cause) :=
    h.of_erase (by simp (decide := true))
  unfold startFailed
  exact .ite (fun _ => wears_enterSafe told) (fun _ => wears_beginCold (told.of_erase (by simp (decide := true))))

theorem wears_stepDone (f : BootSteps → BootSteps) : Wears r (stepDone s f) := h.with_boot rfl

theorem wears_loadImage (slot : Nat) (i : Image) : Wears r (loadImage s slot i) := h.with_boot rfl

theorem wears_rejectImage (slot st : Nat) : Wears r (rejectImage s slot st) := wears_recordEv h _ _ _ _ _ _ _

theorem wears_selectCold (a b golden : Image) : Wears r (selectCold s a b golden) := by
  unfold selectCold
  refine .ite (fun _ => wears_enterSafe h) (fun _ => .ite (fun _ => .ite (fun _ => ?_) (fun _ => ?_)) (fun _ => .ite (fun _ => ?_)
    (fun _ => .ite (fun _ => ?_) (fun _ => ?_))))
  · exact wears_loadImage h _ _
  · exact wears_startFailed (wears_rejectImage h _ _) _ _
  · exact wears_loadImage h _ _
  · exact wears_loadImage (wears_rejectImage h _ _) _ _
  · exact wears_startFailed (wears_rejectImage (wears_rejectImage h _ _) _ _) _ _

theorem wears_applyConfig : Wears r (applyConfig s) := by
  unfold applyConfig
  extract_lets octets modes prof grp named routes routed gates boot
  have hmodes : Wears r prof := h.of_erase (by simp (decide := true) [prof, modes, octets])
  clear_value prof
  have hnamed : Wears r named := hmodes.of_worn rfl rfl rfl rfl
  clear_value named
  have hrouted : Wears r routed := .ite (fun _ => hnamed) (fun _ => hnamed.of_worn rfl rfl rfl rfl)
  clear_value routed
  have hgates : Wears r gates := .ite (fun _ => hrouted.of_erase (by simp (decide := true))) (fun _ => hrouted)
  exact hgates.with_boot rfl

/-! ### Molzu, its images and the flash -/

theorem wears_flashOp (op addr len : Nat) : Wears r (flashOp s op addr len) := by
  unfold flashOp
  exact .ite (fun _ => h.with_boot rfl) (fun _ => h.of_worn rfl rfl rfl rfl)

theorem wears_setErased (slot : Nat) (b : Bool) : Wears r (setErased s slot b) := h.with_boot rfl

theorem wears_molzuRestart (cause slot : Nat) : Wears r (molzuRestart s cause slot) := by
  unfold molzuRestart
  extract_lets k b noted wd was b' steps routes cmds begun told
  have hb : Wears r begun := h.of_worn rfl rfl rfl rfl
  have ht : Wears r told := .ite (fun _ => hb.of_erase (erase_raiseAll (by decide) _ _)) (fun _ => hb)
  exact wears_recordEv (s := count (endUpdate told) .device 0 .fwRestart) (ht.of_worn rfl rfl rfl rfl) _ _ _ _ _ _ _

theorem wears_activateRestart (slot : Nat) : Wears r (activateRestart s slot) := .ite (fun _ => wears_beginCold h) (fun _ => wears_molzuRestart h _ _)

theorem wears_resolveRunning : Wears r (resolveRunning s) := by
  unfold resolveRunning
  dsimp only
  have erased : ∀ (l : List BgCmd) (g : State → BgCmd → State), (∀ u b, Wears r u → Wears r (g u b)) → ∀ u, Wears r u →
      Wears r (l.foldl g u) := by
    intro l g hg
    induction l with
    | nil => exact fun u hu => hu
    | cons b l ih => exact fun u hu => ih _ (hg u b hu)
  refine Wears.of_worn (erased s.cmds.running _ (fun u b hu => ?_) s h) rfl rfl rfl rfl
  split
  · exact wears_setErased hu _ _
  · exact hu

/-! ### The recorder -/

theorem wears_agentWrite (m part : Nat) {f : State → State} (hf : ∀ u, Wears r u → Wears r (f u)) : Wears r (agentWrite s m part f) :=
  .ite (fun _ => h.of_erase (by simp (decide := true))) (fun _ => .ite (fun _ => hf s h) (fun _ => h))

theorem wears_powerFlush : Wears r (powerFlush s) := by
  have flushed : Wears r (flushRecords s) := h.of_erase (by simp (decide := true))
  unfold powerFlush
  dsimp only
  have saved := wears_agentWrite flushed recorderMaster 4 (f := fun t => { t with lifePart := t.life })
    (fun u hu => ⟨hu.counter, hu.spares, fun hv => ⟨(hu.void hv).1, (hu.void hv).1⟩⟩)
  generalize agentWrite (flushRecords s) recorderMaster 4 _ = u at saved ⊢
  exact .ite (fun _ => saved.of_worn rfl rfl rfl rfl) (fun _ => saved.of_worn rfl rfl rfl rfl)

theorem wears_powerFails : Wears r (powerFails s) := by
  unfold powerFails
  have latched := fun pins recd => h.of_worn (t := { s with pins := pins, recd := recd }) rfl rfl rfl rfl
  exact .ite (fun _ => wears_powerFlush (latched _ _)) (fun _ => latched _ _)

theorem wears_voidRating : Wears r (voidRating s) :=
  wears_agentWrite h _ _ fun _ hu => ⟨hu.counter, hu.spares, fun hv => ⟨(hu.void hv).1, rfl⟩⟩

/-- [R517] what holding the quadrants writes, the lanes being off. -/
theorem wears_of_quadsHeld : Wears r (foldS (List.range 4) { s with
    boot := { s.boot with fwReady := false, fwRestarting := false, safe := false }
    ports := s.ports.mapCells (fun _ x => warmPort x)
    ep := {}
    eps := s.eps.mapCells (fun _ h => { seenLink := h.seenLink, drsSent := h.drsSent })
    fns := s.fns.mapCells (fun _ x => { x with bme := false }) }
    (fun s q => updQuad s q (fun x => { warmQuad x with inReset := true }))) := by
  refine Wears.of_erase ?_ (erase_foldS _ _ _ fun _ _ => erase_updQuad rfl _ _ _)
  exact h.of_worn rfl rfl rfl rfl

theorem wears_holdQuads : Wears r (holdQuads s) := by
  have hoff : Wears r (foldS (List.range 512) s offLane) :=
    h.of_erase (erase_foldS _ _ _ fun _ _ => erase_offLane (by decide) _ _)
  exact wears_of_quadsHeld hoff

end

/-! ### The commands -/

/-- A meaning wears nothing back. -/
def WearsRes (r : Res) (s : State) : Prop := ∀ t, r = .next t → Wears s t

theorem wearsRes_next {s t : State} (h : Wears s t) : WearsRes (.next t) s := fun _ e => Host.Outcome.next.inj e ▸ h

theorem wearsRes_guardRes {s t : State} {ok : Bool} (h : Wears s t) : WearsRes (guardRes ok t) s := by
  unfold guardRes
  split
  · exact wearsRes_next h
  · intro _ e
    cases e

theorem wearsRes_ite {s : State} {c : Prop} [Decidable c] {a b : Res} (ha : c → WearsRes a s) (hb : ¬ c → WearsRes b s) :
    WearsRes (if c then a else b) s := by
  split
  · next hc => exact ha hc
  · next hc => exact hb hc

theorem wears_mbChecked {r s : State} (h : Wears r s) (c : MbCmd) (ok : Bool) (rights : List (Nat × Bool)) {k : State → MbAns}
    (hk : Wears r (k s).2.2) : Wears r (mbChecked s c ok rights k).2.2 := by
  unfold mbChecked
  split
  · exact h
  · split
    · split
      · exact h
      · exact hk
    · exact h.of_erase (erase_foldl _ (fun _ _ => erase_denied (by decide) _ _ _) _ _)

/-- A mailbox command wears no more than its own meaning does. -/
theorem wears_mbRun {r s : State} (h : Wears r s) (op : Nat) (fields : List Byte → Bool) (rights : List (Nat × Bool))
    {k : State → MbCmd → MbAns} (hk : ∀ u c, Wears r u → Wears r (k u c).2.2) : Wears r (mbRun s op fields rights k) := by
  have taken : ∀ q, Wears r { s with cmds := { s.cmds with queue := q } } := fun q => h.of_worn rfl rfl rfl rfl
  unfold mbRun runMb
  split
  · exact h
  · split
    · refine Wears.of_erase ?_ (erase_respond (by decide) _ _ _ _)
      exact wears_mbChecked (taken _) _ _ _ (hk _ _ (taken _))
    · exact h

theorem wears_doFwUpdateBegin {r s : State} (h : Wears r s) (c : MbCmd) : Wears r (doFwUpdateBegin s c).2.2 := by
  unfold doFwUpdateBegin
  dsimp only
  split
  · exact h
  · split
    · exact h
    · exact (wears_flashOp (wears_setErased h _ _) _ _ _).with_boot rfl

theorem wears_doFwUpdateWrite {r s : State} (h : Wears r s) (full : Bool) (c : MbCmd) : Wears r (doFwUpdateWrite full s c).2.2 := by
  have erased : ∀ (l : List Nat) (g : Nat → Nat) u, Wears r u → Wears r (foldS l u (fun s a => flashOp s 0 (g a) 65536)) := by
    intro l g
    induction l with
    | nil => exact fun u hu => hu
    | cons a l ih => exact fun u hu => ih _ (wears_flashOp hu _ _ _)
  unfold doFwUpdateWrite
  dsimp only
  split
  · exact h
  · split
    · exact h
    · split
      · exact h
      · split
        · exact h
        · exact (wears_flashOp (erased _ _ _ h) _ _ _).with_boot rfl

theorem wears_doFwUpdateEnd {r s : State} (h : Wears r s) (img : Image) (c : MbCmd) : Wears r (doFwUpdateEnd img s c).2.2 := by
  unfold doFwUpdateEnd
  split
  · exact h
  · dsimp only
    split
    · exact h
    · exact (wears_flashOp ((wears_setErased h _ _).with_boot (b := { (setErased s _ _).boot with update := none }) rfl) _ _ _).of_worn rfl rfl rfl rfl

theorem wears_doFwActivate {r s : State} (h : Wears r s) (img : Image) (c : MbCmd) : Wears r (doFwActivate img s c).2.2 := by
  have read := wears_flashOp h 2 (slotBase (byteAt c.payload 0)) img.imageLen
  unfold doFwActivate
  dsimp only
  split
  · exact read
  · split
    · exact read
    · exact read.with_boot rfl

theorem wears_doConfigImportCommit {r s : State} (h : Wears r s) (c : MbCmd) : Wears r (doConfigImportCommit s c).2.2 := by
  unfold doConfigImportCommit withConfig
  extract_lets b l stored boot life part cmds committed told
  have htold : Wears r told := wears_recordEv (s := committed) (h.of_worn rfl rfl rfl rfl) _ _ _ _ _ _ _
  clear_value told
  split
  · exact h
  · split
    · exact h
    · split
      · exact h
      · split
        · exact .ite (fun _ => htold) (fun _ => wears_recordEv htold _ _ _ _ _ _ _)
        · exact h

/-! ### Each command that writes what wears -/

theorem wearsRes_porstNAssert (s : State) : WearsRes (exec .porstNAssert s) s := by
  have released : Wears s (releaseTrip { s with boot := { s.boot with porst := true } }) := by
    unfold releaseTrip
    exact .ite (fun _ => ((Wears.refl s).with_boot rfl).of_worn rfl rfl rfl rfl) (fun _ => (Wears.refl s).with_boot rfl)
  refine wearsRes_next ?_
  have cleared := (wears_coldClear released).with_boot (b := { (coldClear _).boot with power := .held, porst := true, warmRst := false, flashGnt := true }) rfl
  exact .ite (fun _ => cleared) (fun _ => cleared.of_worn rfl rfl rfl rfl)

theorem wearsRes_coldStart (straps : Straps) (s : State) : WearsRes (exec (.coldStart straps) s) s := by
  refine wearsRes_ite (fun _ => wearsRes_next ?_) (fun _ => wearsRes_next (.refl s))
  have begun := wears_beginCold ((Wears.refl s).with_boot (b := { s.boot with straps := straps, porst := false }) rfl)
  generalize beginCold _ = u at begun ⊢
  have granted := begun.with_boot (b := { u.boot with flashGnt := u.boot.flashReq }) rfl
  exact .ite (fun _ => granted.of_worn rfl rfl rfl rfl) (fun _ => granted)

/-- A step of a start that marks itself done after work `u` that wears nothing back. -/
theorem wearsRes_stepDone {s u : State} {c : Prop} [Decidable c] (h : Wears s u) (f : BootSteps → BootSteps) :
    WearsRes (if c then .next (stepDone u f) else .next s) s :=
  wearsRes_ite (fun _ => wearsRes_next (wears_stepDone h f)) (fun _ => wearsRes_next (.refl s))

theorem wearsRes_rootPllLock (s : State) : WearsRes (exec .rootPllLock s) s := by
  have locked := wears_stepDone (.refl s) (fun b => { b with pll := true })
  refine wearsRes_ite (fun _ => wearsRes_next ?_) (fun _ => wearsRes_next (.refl s))
  exact locked.of_erase (by simp (decide := true))

theorem wearsRes_bootRomConfigRead (newer : Bool) (s : State) : WearsRes (exec (.bootRomConfigRead newer) s) s := by
  change WearsRes (execBootRomConfigRead newer s) s
  unfold execBootRomConfigRead
  refine wearsRes_ite (fun _ => ?_) (fun _ => wearsRes_next (.refl s))
  extract_lets boot older read attempts
  have hread : Wears s read := by
    refine Wears.of_erase (wears_stepDone ?_ _) (erase_loadAccess (by decide) _)
    exact .ite (fun _ => .refl s) (fun _ => ((Wears.refl s).with_boot rfl).of_worn rfl rfl rfl rfl)
  clear_value read
  refine wearsRes_next (.ite (fun _ => hread) (fun _ => ?_))
  refine Wears.of_erase (Wears.of_erase ?_ (erase_applyRetired rfl _)) (erase_applyHostModes rfl _)
  exact hread.with_boot rfl

theorem wearsRes_quadrantPowerUp (q : Nat) (s : State) : WearsRes (exec (.quadrantPowerUp q) s) s := by
  have powered : ∀ f, Wears s (stepDone (updQuad s q (fun x => { x with refOk := true })) f) := fun f =>
    wears_stepDone (s := updQuad s q _) ((Wears.refl s).of_worn rfl rfl rfl rfl) f
  exact wearsRes_guardRes (.ite (fun _ => wears_stepDone (powered _) _) (fun _ => .refl s))

theorem wearsRes_hbmTraining (s : State) : WearsRes (exec .hbmTraining s) s := by
  change WearsRes (execHbmTraining s) s
  unfold execHbmTraining
  have repaired : ∀ l, Wears s (foldS l s (fun s q =>
      let u := foldS (s.quad q).repairRows s (fun s r => recordEv s .hbmRowRepair q q r)
      updQuad u q (fun x => { x with repairRows := [], patrolStart := s.clk.now }))) :=
    fun l => (Wears.refl s).of_erase (erase_foldS _ _ _ fun _ _ => by simp (decide := true))
  refine wearsRes_ite (fun _ => wearsRes_next (wears_stepDone (wears_agentWrite (repaired _) _ _ fun u hu => ?_) _)) (fun _ => wearsRes_next (.refl s))
  exact hu.with_boot rfl

theorem wearsRes_imageSelection (a b golden : Image) (s : State) : WearsRes (exec (.imageSelection a b golden) s) s := by
  have h := Wears.refl s
  refine wearsRes_ite (fun _ => wearsRes_ite (fun _ => wearsRes_ite (fun _ => ?_) (fun _ => ?_)) (fun _ => ?_)) (fun _ => ?_)
  · exact wearsRes_next (wears_loadImage h _ _)
  · refine wearsRes_next (.ite (fun _ => wears_rejectImage h _ _) (fun _ => wears_selectCold ?_ _ _ _))
    exact (wears_rejectImage h _ _).with_boot rfl
  · exact wearsRes_next (wears_selectCold h _ _ _)
  · exact wearsRes_next h

theorem wearsRes_molzuStart (lost : Bool) (s : State) : WearsRes (exec (.molzuStart lost) s) s := by
  change WearsRes (execMolzuStart lost s) s
  unfold execMolzuStart
  refine wearsRes_ite (fun _ => ?_) (fun _ => wearsRes_next (.refl s))
  extract_lets up quads wiped clk gone
  have hup : Wears s up := wears_stepDone (.refl s) _
  clear_value up
  have hquads : Wears s quads := .ite (fun _ => hup.of_erase (by simp (decide := true))) (fun _ => hup)
  clear_value quads
  refine wearsRes_ite (fun _ => wearsRes_next (wears_recordEv (s := gone) ?_ _ _ _ _ _ _ _)) (fun _ => wearsRes_next hquads)
  exact hquads.of_worn rfl rfl rfl rfl

theorem wearsRes_laneCalibration (s : State) : WearsRes (exec .laneCalibration s) s := by
  have calibrated : ∀ l, Wears s (foldS l s (fun s o => updOctet s o (fun x => { x with calSrc := 1, pll := (s.quad (o / 16)).refOk }))) :=
    fun l => (Wears.refl s).of_erase (by simp (decide := true))
  exact wearsRes_stepDone (wears_agentWrite (calibrated _) _ _ fun _ hu => hu.of_erase (by simp (decide := true))) _

theorem wearsRes_fwReadySet (s : State) : WearsRes (exec .fwReadySet s) s := by
  change WearsRes (execFwReadySet s) s
  unfold execFwReadySet
  refine wearsRes_ite (fun _ => ?_) (fun _ => wearsRes_next (.refl s))
  extract_lets boot set told ready taken
  have hset : Wears s set := (Wears.refl s).of_worn rfl rfl rfl rfl
  clear_value set
  have htold : Wears s told := hset.of_erase (by simp (decide := true) [told])
  clear_value told
  refine wearsRes_ite (fun _ => wearsRes_next (wears_resolveRunning (htold.of_erase (by simp (decide := true))))) (fun _ => wearsRes_next ?_)
  have htaken : Wears s taken := htold.of_erase (by simp (decide := true) [taken, ready])
  exact htaken.of_erase (by simp (decide := true))

theorem wearsRes_warmRstNAssert (s : State) : WearsRes (exec .warmRstNAssert s) s := by
  change WearsRes (execWarmRstNAssert s) s
  unfold execWarmRstNAssert
  refine wearsRes_ite (fun _ => wearsRes_next (.refl s)) (fun _ => ?_)
  extract_lets flushed held boot
  have hflushed : Wears s flushed := (Wears.refl s).of_erase (by simp (decide := true) [flushed])
  clear_value flushed
  have hheld : Wears s held := hflushed.of_erase (by simp (decide := true) [held])
  clear_value held
  exact wearsRes_next (hheld.with_boot rfl)

theorem wearsRes_warmStart (s : State) : WearsRes (exec .warmStart s) s :=
  wearsRes_ite (fun _ => wearsRes_next (wears_beginWarm ((Wears.refl s).with_boot rfl))) (fun _ => wearsRes_next ((Wears.refl s).with_boot rfl))

theorem wearsRes_bootTmoExpire (s : State) : WearsRes (exec .bootTmoExpire s) s := by
  have h := Wears.refl s
  refine wearsRes_ite (fun _ => wearsRes_next h) (fun _ => wearsRes_ite (fun _ => wearsRes_ite (fun _ => wearsRes_next h) (fun _ =>
    wearsRes_ite (fun _ => wearsRes_next ?_) (fun _ => wearsRes_next (h.with_boot rfl)))) (fun _ => wearsRes_ite (fun _ => wearsRes_next ?_)
    (fun _ => wearsRes_next h)))
  · refine wears_recordEv ?_ _ _ _ _ _ _ _
    exact h.with_boot rfl
  · exact wears_startFailed h _ _

theorem wears_cutHead {r s : State} (h : Wears r s) : Wears r (cutHead s) := h.of_erase (by simp (decide := true))

theorem wearsRes_watchdogExpire (s : State) : WearsRes (exec .watchdogExpire s) s :=
  wearsRes_next (.ite (fun _ => wears_molzuRestart (wears_cutHead (.refl s)) _ _) (fun _ => .refl s))

/-- [R454] the counter is only ever raised. -/
theorem wearsRes_antiRollbackRaise (s : State) : WearsRes (exec .antiRollbackRaise s) s :=
  wearsRes_next (.ite (fun _ => ⟨Nat.le_max_left _ _, Nat.le_refl _, id⟩) (fun _ => .refl s))

theorem wearsRes_flashGntAssert (s : State) : WearsRes (exec .flashGntAssert s) s :=
  wearsRes_ite (fun _ => wearsRes_next ((Wears.refl s).of_worn rfl rfl rfl rfl)) (fun _ => wearsRes_next (.refl s))

theorem wearsRes_flashReqDeassert (s : State) : WearsRes (exec .flashReqDeassert s) s := by
  have worked : ∀ (l : List (Nat × Nat × Nat)) u, Wears s u → Wears s (l.foldl (fun s w => flashOp s w.1 w.2.1 w.2.2) u) := by
    intro l
    induction l with
    | nil => exact fun u hu => hu
    | cons w l ih => exact fun u hu => ih _ (wears_flashOp hu _ _ _)
  have dropped : Wears s { s with boot := { s.boot with flashReq := false } } := (Wears.refl s).with_boot rfl
  refine wearsRes_ite (fun _ => wearsRes_next dropped) (fun _ => wearsRes_next (worked _ _ (Wears.with_boot ?_ rfl)))
  exact .ite (fun _ => dropped.of_worn rfl rfl rfl rfl) (fun _ => dropped)

theorem wearsRes_mbFwUpdateEnd (img : Image) (s : State) : WearsRes (exec (.mbFwUpdateEnd img) s) s :=
  wearsRes_next (.ite (fun _ => .refl s) (fun _ => wears_mbRun (.refl s) _ _ _ fun _ _ hu => wears_doFwUpdateEnd hu _ _))

theorem wearsRes_mbFwActivate (img : Image) (s : State) : WearsRes (exec (.mbFwActivate img) s) s := by
  have ran := wears_mbRun (.refl s) 0x0703 activateFields [(tgtDEVICE, true)] fun u c (hu : Wears s u) => wears_doFwActivate hu img c
  refine wearsRes_ite (fun _ => wearsRes_next (.refl s)) (fun _ => ?_)
  dsimp only
  split
  · exact wearsRes_next ran
  · exact wearsRes_next (.ite (fun _ => wears_activateRestart ran _) (fun _ => ran))

theorem wearsRes_chainResetAction (s : State) : WearsRes (exec .chainResetAction s) s := by
  have cleared : Wears s { s with chain := { s.chain with resetKind := none } } := (Wears.refl s).of_worn rfl rfl rfl rfl
  refine wearsRes_next ?_
  dsimp only
  split
  · exact .refl s
  · exact .ite (fun _ => wears_beginWarm (cleared.of_erase (by simp (decide := true)))) (fun _ => cleared)
  · exact .ite (fun _ => wears_beginCold cleared) (fun _ => cleared)
  · exact .ite (fun _ => wears_molzuRestart (wears_cutHead cleared) _ _) (fun _ => cleared)

theorem wears_spareLow {r s : State} (h : Wears r s) : Wears r (spareLow s) := by
  unfold spareLow
  refine .ite (fun _ => wears_recordEv ?_ _ _ _ _ _ _ _) (fun _ => h)
  exact h.of_worn rfl rfl rfl rfl

/-- [R475] a remap takes a spare sector, or finds none. -/
theorem wearsRes_mramRemap (part sector : Nat) (s : State) : WearsRes (exec (.mramRemap part sector) s) s := by
  change WearsRes (execMramRemap part sector s) s
  unfold execMramRemap
  extract_lets again retried mram remapped
  have h : Wears s retried := .ite (fun _ => .refl s) (fun _ => (Wears.refl s).of_worn rfl rfl rfl rfl)
  clear_value retried
  refine wearsRes_guardRes (.ite (fun _ => .refl s) (fun _ => .ite (fun _ => .ite (fun _ => .refl s) (fun _ => ?_)) (fun _ => .ite (fun _ => ?_)
    (fun _ => .ite (fun _ => .ite (fun _ => ?_) (fun _ => ?_)) (fun _ => ?_)))))
  · exact h.of_worn rfl rfl rfl rfl
  · exact h.of_erase (by simp (decide := true))
  · exact h.of_worn rfl rfl rfl rfl
  · exact h.of_worn rfl rfl rfl rfl
  · refine wears_spareLow (wears_recordEv (s := count remapped .device 0 .mramRemap) ?_ _ _ _ _ _ _ _)
    exact ⟨h.counter, Nat.le_trans (Nat.sub_le _ _) h.spares, h.void⟩

/-- [R481] the running record keeps RATING_VOID, and LIFE takes it where it can be written. -/
theorem wears_life {s : State} (f : Life) (hf : s.life.void = true → f.void = true) : Wears s { s with life := f } :=
  ⟨Nat.le_refl _, Nat.le_refl _, fun hv => ⟨hf hv.1, hv.2⟩⟩

theorem wearsRes_lifeSecondCheck (m : Int) (s : State) : WearsRes (exec (.lifeSecondCheck m) s) s := by
  change WearsRes (execLifeSecondCheck m s) s
  unfold execLifeSecondCheck
  extract_lets above out life due now voided
  have hnow : Wears s now := wears_life _ fun hv => by simp [life, hv]
  clear_value now
  have hvoided : Wears s voided := .ite (fun _ => wears_voidRating hnow) (fun _ => hnow)
  exact wearsRes_next (.ite (fun _ => .refl s) (fun _ => .ite (fun _ => wears_recordEv hvoided _ _ _ _ _ _ _) (fun _ => hvoided)))

theorem wearsRes_lifeMonthBoundary (s : State) : WearsRes (exec .lifeMonthBoundary s) s := by
  change WearsRes (execLifeMonthBoundary s) s
  unfold execLifeMonthBoundary
  extract_lets life months avg full out due now voided
  have hnow : Wears s now := wears_life _ fun hv => by simp [life, hv]
  clear_value now
  have hvoided : Wears s voided := .ite (fun _ => wears_voidRating hnow) (fun _ => hnow)
  exact wearsRes_next (.ite (fun _ => .refl s) (fun _ => .ite (fun _ => wears_recordEv hvoided _ _ _ _ _ _ _) (fun _ => hvoided)))

theorem wearsRes_lifeHourlyWrite (s : State) : WearsRes (exec .lifeHourlyWrite s) s :=
  wearsRes_next (.ite (fun _ => wears_agentWrite (.refl s) _ _ fun _ hu => ⟨hu.counter, hu.spares, fun hv => ⟨(hu.void hv).1, (hu.void hv).1⟩⟩)
    (fun _ => .refl s))

theorem wears_fwStops {r t : State} (h : Wears r t) (was : State) : Wears r (fwStops was t) :=
  .ite (fun _ => h.of_erase (erase_raiseAll (by decide) _ _)) (fun _ => h)

theorem wearsRes_thermalTrip (die : Nat) (s : State) : WearsRes (exec (.thermalTrip die) s) s := by
  refine wearsRes_guardRes (.ite (fun _ => wears_fwStops (wears_holdQuads (wears_powerFlush ?_)) _) (fun _ => .refl s))
  exact (Wears.refl s).of_worn rfl rfl rfl rfl

theorem wearsRes_refclkCoreLost (s : State) : WearsRes (exec .refclkCoreLost s) s := by
  refine wearsRes_next (.ite (fun _ => wears_fwStops (Wears.of_erase (wears_holdQuads (wears_recordEv ?_ _ _ _ _ _ _ _))
    (erase_foldS _ _ _ fun _ _ => erase_updQuad rfl _ _ _)) _) (fun _ => .refl s))
  exact (Wears.refl s).of_worn rfl rfl rfl rfl

/-- The commands that write what a start, the firmware or the life record hold. -/
theorem wearsRes_of_boot {c : Instr} (hc : bootCmd c = true) (s : State) : WearsRes (exec c s) s := by
  have h := Wears.refl s
  cases c
  case porstNAssert => exact wearsRes_porstNAssert s
  case coldStart straps => exact wearsRes_coldStart straps s
  case rootPllLock => exact wearsRes_rootPllLock s
  case bootRomConfigRead newer => exact wearsRes_bootRomConfigRead newer s
  case serviceDieSelfTest | quadrantArraySelfTest | hbmClearing => exact wearsRes_stepDone h _
  case quadrantPowerUp q => exact wearsRes_quadrantPowerUp q s
  case hbmTraining => exact wearsRes_hbmTraining s
  case imageSelection a b golden => exact wearsRes_imageSelection a b golden s
  case molzuStart lost => exact wearsRes_molzuStart lost s
  case laneCalibration => exact wearsRes_laneCalibration s
  case quadrantInitialisation => exact wearsRes_stepDone (wears_applyConfig h) _
  case fwReadySet => exact wearsRes_fwReadySet s
  case warmRstNAssert => exact wearsRes_warmRstNAssert s
  case warmStart => exact wearsRes_warmStart s
  case bootTmoExpire => exact wearsRes_bootTmoExpire s
  case watchdogExpire => exact wearsRes_watchdogExpire s
  case antiRollbackRaise => exact wearsRes_antiRollbackRaise s
  case flashReqAssert => exact wearsRes_next (h.with_boot rfl)
  case flashGntAssert => exact wearsRes_flashGntAssert s
  case flashReqDeassert => exact wearsRes_flashReqDeassert s
  case mbFwUpdateBegin => exact wearsRes_next (wears_mbRun h _ _ _ fun _ _ hu => wears_doFwUpdateBegin hu _)
  case mbFwUpdateWrite full => exact wearsRes_next (wears_mbRun h _ _ _ fun _ _ hu => wears_doFwUpdateWrite hu full _)
  case mbFwUpdateEnd img => exact wearsRes_mbFwUpdateEnd img s
  case mbFwActivate img => exact wearsRes_mbFwActivate img s
  case mbConfigImportCommit => exact wearsRes_next (wears_mbRun h _ _ _ fun _ _ hu => wears_doConfigImportCommit hu _)
  case fwUpdateIdleTimeout => exact wearsRes_next (.ite (fun _ => h.with_boot rfl) (fun _ => h))
  case chainResetAction => exact wearsRes_chainResetAction s
  case mramRemap part sector => exact wearsRes_mramRemap part sector s
  case pwrfailAssert => exact wearsRes_next (.ite (fun _ => h) (fun _ => wears_powerFails h))
  case lifeSecondCheck m => exact wearsRes_lifeSecondCheck m s
  case lifeHourlyWrite => exact wearsRes_lifeHourlyWrite s
  case lifeMonthBoundary => exact wearsRes_lifeMonthBoundary s
  case thermalTrip die => exact wearsRes_thermalTrip die s
  case railUndervoltage => exact wearsRes_guardRes (.ite (fun _ => wears_powerFails h) (fun _ => h))
  case refclkCoreLost => exact wearsRes_refclkCoreLost s
  case vaonLoss => exact wearsRes_next ((wears_coldClear h).of_worn rfl rfl rfl rfl)
  all_goals cases hc

theorem wearsRes_exec (c : Instr) (s : State) : WearsRes (exec c s) s := by
  cases hc : bootCmd c with
  | true => exact wearsRes_of_boot hc s
  | false => exact fun t ht => (Wears.refl s).of_boot (booted_exec hc s t ht)

theorem bootPart_tick (s : State) : bootPart (tick s) = bootPart { s with clk := { s.clk with now := s.clk.now + 1 } } :=
  booted_of_controlled (controlled_tick s)

theorem wears_step {s t : State} (h : step s = .next t) : Wears s t := by
  unfold step at h
  split at h
  · have later : Wears s { s with clk := { s.clk with now := s.clk.now + 1 } } := (Wears.refl s).of_worn rfl rfl rfl rfl
    exact Host.Outcome.next.inj h ▸ later.of_boot (bootPart_tick s)
  · next c rest hq =>
    have hw := wearsRes_exec c { s with pending := rest } t h
    exact ⟨hw.counter, hw.spares, hw.void⟩

theorem step_ident {s t : State} (h : step s = .next t) : t.ident = s.ident := by
  unfold step at h
  split at h
  · have hident : (tick s).ident = s.ident := (fixed_iff.mp (fixed_of_controlled (controlled_tick s))).1
    rw [← Host.Outcome.next.inj h, hident]
  · next c rest hq => exact (fixed_iff.mp (fixed_exec c { s with pending := rest } t h)).1

/-- Settles O40: where the two life records agree on RATING_VOID, no step takes it back, nor the counter, nor a spare. -/
theorem wornAndVoidedStaysSo : Obligations.WornAndVoidedStaysSo := by
  unfold Obligations.WornAndVoidedStaysSo
  intro s t hinv h
  obtain ⟨-, -, -, hagree⟩ := hinv
  have hw := wears_step h
  exact ⟨hw.counter, hw.spares, fun hv => (hw.void ⟨hv, hagree ▸ hv⟩).1, step_ident h⟩

end Sys2Proof.Machine
end

section
/-! PROOF. The reset state, the front command, and the idle step (logs 1, 3 and 6). -/

namespace Sys2Proof.Machine

/-! ### The queue and the reset state (O35, O37, O38) -/

/-- Settles O35: the front command is what `step` takes. -/
theorem stepRunsTheFrontCommand : Obligations.StepRunsTheFrontCommand := by
  unfold Obligations.StepRunsTheFrontCommand
  exact fun c rest s => rfl

/-- Settles O38: the flags are down, the queue is empty, and neither life record holds RATING_VOID. -/
theorem invariantHoldsAtReset : Obligations.InvariantHoldsAtReset := by
  unfold Obligations.InvariantHoldsAtReset
  decide

/-- A table that lists nothing holds its default at every key. -/
theorem Tbl.get_of_cells_nil {α : Type} {t : Tbl α} (h : t.cells = []) (k : Nat) : t.get k = t.dflt := by
  unfold Tbl.get
  rw [h]
  rfl

theorem pkeys_default (k : Nat) : ({ dflt := 0, cells := [(0, 0xFFFF)] } : Tbl (BitVec 16)).get k = if k = 0 then 0xFFFF else 0 := rfl

/-- Settles O37: the reset state lists no register block of a master, no master, no counter, no port and no function, so each reads its default. -/
theorem resetLeavesTheStatedValues : Obligations.ResetLeavesTheStatedValues := by
  unfold Obligations.ResetLeavesTheStatedValues
  refine ⟨by decide, fun m => ?inst, fun m => ?master, by decide, fun k => ?ctr, fun p i => ?pkeys⟩
  case inst =>
    have hm : State.reset.inst m = {} := Tbl.get_of_cells_nil rfl m
    rw [hm]
    decide
  case master =>
    have hm : State.reset.master m = {} := Tbl.get_of_cells_nil rfl m
    rw [hm]
    decide
  case ctr => exact Tbl.get_of_cells_nil rfl k
  case pkeys =>
    have hp : State.reset.port p = {} := Tbl.get_of_cells_nil rfl p
    have hf : State.reset.fn p = {} := Tbl.get_of_cells_nil rfl p
    rw [hp, hf]
    exact ⟨rfl, rfl⟩

/-! ### The idle step (O36) -/

theorem hostSided_engineTick (s : State) : hostSidePart (engineTick s) = hostSidePart s := by
  unfold engineTick
  simp

theorem clockTick_lanes (s : State) : (if timeRuns s then endPps (advanceFt s) else s).lanes = s.lanes ∧
    (if timeRuns s then endPps (advanceFt s) else s).octets = s.octets := by
  split
  · rw [endPps_frame, advanceFt_frame]
    exact ⟨rfl, rfl⟩
  · exact ⟨rfl, rfl⟩

theorem tick_lanes (s : State) : (tick s).lanes = s.lanes ∧ (tick s).octets = s.octets := by
  unfold tick
  dsimp only
  generalize hu : advanceVigil { s with clk := { s.clk with now := s.clk.now + 1 } } = u
  have hs : u.lanes = s.lanes ∧ u.octets = s.octets := by
    rw [← hu, advanceVigil_frame]
    exact ⟨rfl, rfl⟩
  obtain ⟨hl, ho⟩ := clockTick_lanes u
  generalize (if timeRuns u = true then endPps (advanceFt u) else u) = v at hl ho ⊢
  have he := hostSided_engineTick (foldS (portsOf u) v portTick)
  have hp := portFreed_foldS (portsOf u) v _ portFreed_portTick
  simp only [hostSidePart, portFreePart, Prod.mk.injEq] at he hp
  obtain ⟨-, -, -, -, -, -, -, -, hel, heo, -⟩ := he
  obtain ⟨-, -, -, -, -, -, -, -, hpl, hpo, -⟩ := hp
  exact ⟨by rw [hel, hpl, hl, hs.1], by rw [heo, hpo, ho, hs.2]⟩

/-- With no endpoint object and no page-in that waits, the engines have nothing to do. -/
theorem engineTick_of_empty {s : State} (he : s.ep = {}) (hq : ∀ q, (s.quad q).pageInWait = []) : engineTick s = s := by
  have hwb : beginWritebacks s = s := by
    unfold beginWritebacks
    rw [he]
    rfl
  have hin : ∀ k, servePageIn s k = s := fun k => by
    unfold servePageIn
    rw [hq]
    rfl
  have hserve : ∀ l : List Nat, foldS l s servePageIn = s := by
    intro l
    induction l with
    | nil => rfl
    | cons k l ih => exact (congrArg (fun t => foldS l t servePageIn) (hin k)).trans ih
  have hpump : pumpShapers s = s := by
    unfold pumpShapers
    rw [he]
    rfl
  have hretry : retryWaiting s = s := by
    unfold retryWaiting
    rw [he]
    rfl
  unfold engineTick
  rw [hwb, hserve, hpump, hretry]

/-- The part of a tick that the clocks and the time unit take. -/
def clockTick (s : State) : State :=
  let t := advanceVigil { s with clk := { s.clk with now := s.clk.now + 1 } }
  if timeRuns t then endPps (advanceFt t) else t

theorem clockTick_frame (s : State) :
    clockTick s = { s with clk := (clockTick s).clk, tu := (clockTick s).tu, out := (clockTick s).out } := by
  unfold clockTick
  dsimp only
  rw [advanceVigil_frame]
  split
  · rw [endPps_frame, advanceFt_frame]
  · rfl

theorem tick_of_empty {s : State} (hp : portsOf s = []) (he : s.ep = {}) (hq : ∀ q, (s.quad q).pageInWait = []) : tick s = clockTick s := by
  have hports : portsOf (advanceVigil { s with clk := { s.clk with now := s.clk.now + 1 } }) = [] := by
    rw [advanceVigil_frame]
    exact hp
  have htick : tick s = engineTick (foldS (portsOf (advanceVigil { s with clk := { s.clk with now := s.clk.now + 1 } })) (clockTick s) portTick) := rfl
  have hframe := clockTick_frame s
  rw [htick, hports]
  refine engineTick_of_empty (s := clockTick s) ?_ fun q => ?_
  · rw [hframe]
    exact he
  · rw [hframe]
    exact hq q

theorem endPps_clk (s : State) : (endPps s).clk = s.clk := by rw [endPps_frame]

theorem advanceFt_ft {s : State} (hr : s.tu.rate = 0) (hs : s.clk.sub = 0) (ht : s.tu.st ≠ .source) :
    (advanceFt s).clk.ft = s.clk.ft + 1 ∧ (advanceFt s).clk.frac = s.clk.frac := by
  have hslew : slewPart s = (0, 0) := if_neg fun hc => ht hc.1
  have hft := s.clk.ft.isLt
  have hfrac := s.clk.frac.isLt
  simp only [advanceFt, hslew, hr, hs]
  constructor
  · apply BitVec.eq_of_toNat_eq
    simp only [BitVec.toNat_ofInt, BitVec.toNat_add]
    simp
    omega
  · apply BitVec.eq_of_toNat_eq
    simp only [BitVec.toNat_ofInt]
    simp
    omega

theorem clockTick_ft {s : State} (hruns : timeRuns s = true) (hr : s.tu.rate = 0) (hs : s.clk.sub = 0) (ht : s.tu.st ≠ .source) :
    (clockTick s).clk.ft = s.clk.ft + 1 ∧ (clockTick s).clk.frac = s.clk.frac := by
  unfold clockTick
  dsimp only
  generalize hu : advanceVigil { s with clk := { s.clk with now := s.clk.now + 1 } } = u
  have hfields : timeRuns u = true ∧ u.tu = s.tu ∧ u.clk.sub = s.clk.sub ∧ u.clk.ft = s.clk.ft ∧ u.clk.frac = s.clk.frac := by
    rw [← hu]
    unfold advanceVigil
    split <;> exact ⟨hruns, rfl, rfl, rfl, rfl⟩
  obtain ⟨hur, htu, hsub, hft, hfrac⟩ := hfields
  rw [if_pos hur, endPps_clk, ← hft, ← hfrac]
  exact advanceFt_ft (by rw [htu, hr]) (by rw [hsub, hs]) (by rw [htu]; exact ht)

theorem step_of_idle {s : State} (hq : s.pending = []) : step s = .next (tick s) := by
  unfold step
  rw [hq]

/-- Settles O36. -/
theorem idleStepLetsOneNanosecondPass : Obligations.IdleStepLetsOneNanosecondPass := by
  unfold Obligations.IdleStepLetsOneNanosecondPass
  refine ⟨fun s hq => ?kept, fun s hq hp he hw => ?frame, fun s hq hp he hw hruns hr hs ht => ?time, fun s p hm ht => ?map⟩
  case kept =>
    have hc := controlled_tick s
    have hset := sameSettings_of_settled (settled_of_controlled hc)
    simp only [controlPart, Prod.mk.injEq] at hc
    obtain ⟨-, hpend, -, -, -, -, -, -, hroutes, hsnap, -, -, hcmds, hchain, -⟩ := hc
    exact ⟨_, step_of_idle hq, hpend.trans hq, hset, hroutes, hsnap, hchain, hcmds, tick_lanes s⟩
  case frame =>
    refine ⟨_, (step_of_idle hq).trans (congrArg _ (tick_of_empty hp he hw)), clockTick_frame s⟩
  case time =>
    refine ⟨_, (step_of_idle hq).trans (congrArg _ (tick_of_empty hp he hw)), clockTick_ft hruns hr hs ht⟩
  case map =>
    unfold repeatMap
    rw [if_pos (by simp [hm, ht])]

end Sys2Proof.Machine
end

section
/-! PROOF. What the mailbox commands do when they are served (O10 to O15): the shared checks pass, and the command's own meaning answers SUCCESS. -/

namespace Sys2Proof.Machine

/-- [R98 R100 R119] a command at the head of Molzu's queue is answered with what its own meaning `k` gives. -/
theorem mbRun_served {s : State} {c : MbCmd} {rest : List MbCmd} {op : Nat} {rights : List (Nat × Bool)} {fields : List Byte → Bool}
    {k : State → MbCmd → MbAns} {st : Nat} {l : List Byte} {t : State} (h : AtHead s c rest op rights) (hf : fields c.payload = true)
    (hk : k (served s rest) c = (st, l, t)) : (.next (mbRun s op fields rights k) : Res) = .next (respond t c st l) := by
  rw [mbRun_atHead s c rest op fields rights k h hf, hk]

/-- [R116] a change of CONFIG is made where its partition takes writes. -/
theorem withConfig_ok {s : State} (h : partOk s 1 = true) (k : MbAns) : withConfig s k = k := if_pos h

/-- [R50] a port that is configured, of a quadrant that runs, is answered. -/
theorem portNamed_ok {s : State} {p : Nat} (ho : quadOut s (quadOfLane p) = false) (hb : portBusy s p = false)
    (he : (s.port p).exists_ = true) (k : MbAns) : portNamed s p k = k := by
  simp [portNamed, ho, hb, he]

/-- Settles O10. -/
theorem interfaceMailboxCommandsComplete : Obligations.InterfaceMailboxCommandsComplete := by
  unfold Obligations.InterfaceMailboxCommandsComplete
  refine ⟨?ident, ?caps, ?octet, ?portNew, ?portUp, ?portGet, ?hostMode, ?partition⟩
  case ident =>
    intro s c rest h hf
    exact mbRun_served h hf rfl
  case caps =>
    intro s c rest h hf
    exact mbRun_served h hf rfl
  case octet =>
    intro s c rest h hf hout hbusy hports hup hrate hp
    refine mbRun_served h hf ?_
    simp [doOctetSet, hout, hbusy, hports, hup, Nat.not_lt.mpr hrate, withConfig_ok hp, ansOk]
  case portNew =>
    intro s c rest h hf hout hbusy hnew halign hclaim hrole hdown hlink hp
    refine mbRun_served h hf ?_
    simp [doPortSet, movePort, hout, hbusy, hnew, halign, hclaim, hrole, hdown, hlink, withConfig_ok hp, ansOk]
  case portUp =>
    intro s c rest h hf hout hbusy halign hclaim hold hwidth hrole hdown hfabric hup hp
    refine mbRun_served h hf ?_
    simp [doPortSet, movePort, hout, hbusy, halign, hclaim, hold, hwidth, hrole, hdown, hfabric, hup, withConfig_ok hp, ansOk]
  case portGet =>
    intro s c rest h hf hout hbusy hold
    exact mbRun_served h hf (portNamed_ok hout hbusy hold _)
  case hostMode =>
    intro s c rest h hf hlimit hp
    refine mbRun_served h hf ?_
    simp [doHostModeStore, hlimit, withConfig_ok hp, ansOk]
  case partition =>
    intro s c rest h hf hkind
    refine mbRun_served h hf ?_
    simp [doPartitionSet, hkind, ansOk]

/-- Settles O11. -/
theorem fabricMailboxCommandsComplete : Obligations.FabricMailboxCommandsComplete := by
  unfold Obligations.FabricMailboxCommandsComplete
  refine ⟨?routeWrite, ?routeCommit, ?routeStatus, ?routeAbandon, ?timeSet, ?timeStatus, ?snapArm, ?snapCancel, ?eqxSet⟩
  case routeWrite =>
    intro s c rest h hf hstage hlost
    refine mbRun_served h hf ?_
    simp [doRouteWrite, hstage, hlost, ansOk]
  case routeCommit =>
    intro s c rest h hf hstage hnew hnear hmode hft hfault
    refine mbRun_served h hf ?_
    have hne : (BitVec.ofNat 16 (leAt c.payload 0 2) - (served s rest).routes.epoch).toNat ≠ 0 := fun h0 => hnew (BitVec.eq_of_toNat_eq h0)
    simp only [doRouteCommit, hstage, reduceCtorEq, false_and, if_false]
    rw [if_neg (by omega), if_neg hmode, hfault, if_neg (by decide), if_neg hft]
    rfl
  case routeStatus =>
    intro s c rest h hf hstage
    refine mbRun_served h hf ?_
    simp [doRouteStatus, hstage, ansData]
  case routeAbandon =>
    intro s c rest h hf hstage
    exact mbRun_served h hf (if_pos hstage)
  case timeSet =>
    intro s c rest h hf hmgr hpps
    refine mbRun_served h hf ?_
    simp [doTimeSet, hmgr, hpps, ansOk]
  case timeStatus =>
    intro s c rest h hf
    exact mbRun_served h hf rfl
  case snapArm =>
    intro s c rest h hf hgrp hst hvalid hft
    refine mbRun_served h hf ?_
    simp [doSnapArm, hgrp, hst, hvalid, Nat.not_le.mpr hft, ansOk]
  case snapCancel =>
    intro s c rest h hf hst
    exact mbRun_served h hf (if_pos hst)
  case eqxSet =>
    intro s c rest h hf hout hold hbusy
    exact mbRun_served h hf (portNamed_ok hout hbusy hold _)

/-- Settles O12. -/
theorem schedulingMailboxCommandsComplete : Obligations.SchedulingMailboxCommandsComplete := by
  unfold Obligations.SchedulingMailboxCommandsComplete
  refine ⟨?almanacLoad, ?almanacGet, ?shaper, ?policer, ?weights, ?treeSetup, ?treeTeardown, ?treeGet⟩
  case almanacLoad =>
    intro s c rest h hf hout hold hbusy hpend hopen hft hfault
    refine mbRun_served h hf ((portNamed_ok hout hbusy hold _).trans ?_)
    simp [hpend, hopen, hft, hfault, ansOk]
  case almanacGet =>
    intro s c rest h hf hout hbusy hold
    exact mbRun_served h hf (portNamed_ok hout hbusy hold _)
  case shaper =>
    intro s c rest h hf hport hout hold hbusy
    exact mbRun_served h hf ((if_pos hport).trans (portNamed_ok hout hbusy hold _))
  case policer =>
    intro s c rest h hf hport hout hold hbusy hcolour
    refine mbRun_served h hf ((if_pos hport).trans ((portNamed_ok hout hbusy hold _).trans ?_))
    rw [hcolour]
    rfl
  case weights =>
    intro s c rest h hf hout hold hbusy
    exact mbRun_served h hf (portNamed_ok hout hbusy hold _)
  case treeSetup =>
    intro s c rest h hf hst
    exact mbRun_served h hf (Prod.ext hst rfl)
  case treeTeardown =>
    intro s c rest d h hf hd hcolls
    refine mbRun_served h hf ?_
    simp [doTreeTeardown, hd, hcolls, ansOk]
  case treeGet =>
    intro s c rest d h hf hd
    refine mbRun_served h hf ?_
    simp [doTreeGet, hd, ansData]

end Sys2Proof.Machine
end

section
/-! PROOF. The mailbox commands of the event log, the life record, firmware, configuration, roles, quadrants and lane tests (O13 to O15). -/

namespace Sys2Proof.Machine

/-- A command whose numbers are in range and that has its effect answers it. -/
theorem guardRes_next {ok : Bool} {u t : State} (hok : ok = true) (hu : u = t) : guardRes ok u = .next t := by
  rw [guardRes, if_pos hok, hu]

/-- [R456] a command of the flash is not held back while no other user has asked for it. -/
theorem waitsFlash_free {s : State} (hgnt : s.boot.flashGnt = false) (hreq : s.boot.flashReq = false) (op : Nat) (fields : List Byte → Bool)
    (rights : List (Nat × Bool)) : waitsFlash s op fields rights = false := by
  simp [waitsFlash, hgnt, hreq]

/-- Settles O13. -/
theorem logAndFirmwareMailboxCommandsComplete : Obligations.LogAndFirmwareMailboxCommandsComplete := by
  unfold Obligations.LogAndFirmwareMailboxCommandsComplete
  refine ⟨?nonce, ?clear, ?telemetry, ?life, ?updBegin, ?updWrite, ?updEnd, ?activate, ?measure, ?nonceEnds, ?updIdle⟩
  case nonce =>
    intro s c rest h hf
    exact mbRun_served h hf rfl
  case clear =>
    intro s c rest h hf hkey hserial hnonce
    refine mbRun_served h hf ?_
    simp [doEventClear, List.contains_iff_mem.mp hkey, hserial, hnonce, ansOk]
  case telemetry =>
    intro s c rest h hf
    exact mbRun_served h hf rfl
  case life =>
    intro s c rest h hf
    exact mbRun_served h hf rfl
  case updBegin =>
    intro s c rest h hf hslot hupd
    refine mbRun_served h hf ?_
    simp [doFwUpdateBegin, hslot, hupd, ansOk]
  case updWrite =>
    intro s c rest d h hf hupd howner hoff hlen
    refine mbRun_served h hf ?_
    rw [doFwUpdateWrite, hupd]
    simp [howner, hoff, Nat.not_lt.mpr (hoff ▸ hlen), ansOk]
  case updEnd =>
    intro s c rest img d h hf hgnt hreq hupd howner
    change Host.Outcome.next (if _ then _ else _) = _
    rw [if_neg (by simp [waitsFlash_free hgnt hreq])]
    refine mbRun_served h hf ?_
    have hu : (served s rest).boot.update = some d := hupd
    simp [doFwUpdateEnd, hu, howner, accept]
  case activate =>
    intro s c rest img h hf hgnt hreq hbyte himg hpart
    have hrun : (Host.Outcome.next (mbRun s 0x0703 activateFields [(tgtDEVICE, true)] (doFwActivate img)) : Res) = .next (respond { flashOp (served s rest) 2 (slotBase (byteAt c.payload 0)) img.imageLen with boot := { (flashOp (served s rest) 2 (slotBase (byteAt c.payload 0)) img.imageLen).boot with preferred := byteAt c.payload 0, attempts := 0 } } c stSUCCESS []) := by
      refine mbRun_served h hf ?_
      simp [doFwActivate, himg, hpart, ansOk]
    have hq : s.cmds.queue = c :: rest := h.1
    change execMbFwActivate img s = _
    simpa [execMbFwActivate, waitsFlash_free hgnt hreq, hq, hbyte] using hrun
  case measure =>
    intro s c rest h hf
    exact mbRun_served h hf rfl
  case nonceEnds =>
    intro s
    rfl
  case updIdle =>
    intro s u hupd hidle
    have hany : s.boot.update.any (fun u => decide (u.lastUse + 60 * oneSec ≤ s.clk.now)) = true := by
      rw [hupd, Option.any_some, decide_eq_true_iff]
      exact hidle
    exact congrArg Host.Outcome.next (if_pos hany)

/-- [R434] no port is retrained where no FABRIC port is ACTIVE. -/
theorem retrainFabric_idle {s : State} (h : (portsOf s).any (fun p => isFabric s p && (s.port p).link == .active) = false) :
    retrainFabric s = s := by
  have hnone : (portsOf s).filter (fun p => isFabric s p && (s.port p).link == .active) = [] := by
    simpa [List.filter_eq_nil_iff] using h
  rw [retrainFabric, hnone]
  rfl

/-- Settles O14. -/
theorem configurationMailboxCommandsComplete : Obligations.ConfigurationMailboxCommandsComplete := by
  unfold Obligations.ConfigurationMailboxCommandsComplete
  refine ⟨?accessSet, ?accessGet, ?configRead, ?configExport, ?exportRead, ?importWrite, ?importCommit, ?stagingIdle, ?roleSet, ?feaStored, ?feaTaken,
    ?gate, ?ungate, ?retire, ?chainStatus⟩
  case accessSet =>
    intro s c rest h hf hkey hsecure hdevice hread hwrite hp
    refine mbRun_served h hf ?_
    simp [doAccessSet, hkey, hsecure, hdevice, hread, hwrite, withConfig_ok hp, ansOk]
  case accessGet =>
    intro s c rest h hf
    exact mbRun_served h hf rfl
  case configRead =>
    intro s c rest v h hf hout hbusy hv
    refine mbRun_served h hf ?_
    simp [doConfigRead, hout, hbusy, hv, ansData]
  case configExport =>
    intro s c rest h hf hfree
    refine mbRun_served h hf ?_
    simp [doConfigExport, hfree, ansData]
  case exportRead =>
    intro s c rest h hf howner hoff hmore
    refine mbRun_served h hf ?_
    have hfree : stagingBusy (served s rest).cmds.exportBuf c.m = false := by simp [stagingBusy, howner]
    simp only [doConfigExportRead]
    rw [if_neg (by simp [hfree]), if_neg (by simp [howner, hoff]), if_neg (Nat.not_le.mpr hmore)]
    rfl
  case importWrite =>
    intro s c rest h hf hfree hoff hroom
    refine mbRun_served h hf ?_
    simp only [doConfigImportWrite]
    rw [if_neg (by simp [hfree]), if_neg (by simp [hoff]), if_neg (Nat.not_lt.mpr hroom)]
    rfl
  case importCommit =>
    intro s c rest h hf hfree hlen hcrc hmin hmagic hversion hvariant hgrade hp
    refine mbRun_served h hf ?_
    simp only [doConfigImportCommit]
    rw [if_neg (by simp [hfree]), if_neg (by simp [hlen, hcrc, hmin, hmagic, hversion]), if_neg (by simp [hvariant]), withConfig_ok hp, if_pos hgrade]
    rfl
  case stagingIdle =>
    intro s b hb
    subst hb
    rfl
  case roleSet =>
    intro s c rest h hf hrole
    exact mbRun_served h hf (if_pos hrole)
  case feaStored =>
    intro s c rest h hf hstrap hp hfea
    refine mbRun_served h hf ?_
    simp [doFeaSet, hstrap, withConfig_ok hp, hfea, ansOk]
  case feaTaken =>
    intro s c rest t u h hf hstrap hp ht hfea hu hquiet
    refine mbRun_served h hf ?_
    have hnone : (served s rest).routes.fea = none := by rw [ht] at hfea; exact hfea
    simp only [doFeaSet]
    rw [if_neg (by simp [hstrap]), withConfig_ok hp, ← ht, hnone, ← hu]
    exact congrArg ansOk (retrainFabric_idle hquiet)
  case gate =>
    intro s c rest h hf hbusy hon hst hkept hbme htrees hroom
    refine mbRun_served h hf ?_
    simp only [doQuadGate]
    rw [if_neg (by simp [hbusy]), if_neg (by simp [hst]), if_neg (by simp [hst, hon]), if_pos (by simp [hon]), if_neg (by simp [hkept]),
      if_neg (by simp [hbme]), if_neg (by simp [htrees]), if_neg (by simp [hroom])]
    rfl
  case ungate =>
    intro s c rest h hf hbusy hoff hst
    refine mbRun_served h hf ?_
    simp [doQuadGate, hbusy, hoff, hst, accept]
  case retire =>
    intro s c rest h hf hbusy hoff hp
    refine mbRun_served h hf ?_
    simp [doQuadRetire, hbusy, hoff, withConfig_ok hp, ansOk]
  case chainStatus =>
    intro s c rest h hf
    exact mbRun_served h hf rfl

/-- [R178 R181] a lane of a quadrant that runs is answered. -/
theorem laneNamed_ok {s : State} {l : Nat} (ho : quadOut s (quadOfLane l) = false) (hb : quadBusy s (quadOfLane l) = false) (k : MbAns) :
    laneNamed s l k = k := by
  simp [laneNamed, ho, hb]

/-- What is not written is as before: a quadrant. -/
theorem quad_of_erase {w : Fields} {s t : State} (hw : w.quads = false) (h : erase w t = erase w s) (q : Nat) : t.quad q = s.quad q := by
  have hr := congrArg State.quads h
  simp only [erase, hide, hw, cond_false] at hr
  rw [State.quad, hr, State.quad]

theorem quad_endStep (s : State) (g q : Nat) : (endStep s g).quad q = s.quad q :=
  quad_of_erase rfl (erase_endStep (w := { ctrs := true, pstepC := true, pstepS := true, out := true }) rfl s g) q

theorem quad_relanes (s : State) (l : List Nat) (q : Nat) : (foldS l s (fun s p => relane s [] p)).quad q = s.quad q :=
  quad_of_erase (w := { lanes := true, octets := true, ports := true, ctrs := true, out := true }) rfl
    (erase_foldS _ _ _ fun z p => erase_relane rfl z [] p) q

/-- Settles O15. -/
theorem laneTestAndClassLCommandsComplete : Obligations.LaneTestAndClassLCommandsComplete := by
  unfold Obligations.LaneTestAndClassLCommandsComplete
  refine ⟨?prbsSet, ?prbsGet, ?loopback, ?inject, ?invalid, ?done, ?drained, ?rehomed, ?gated, ?ungated⟩
  case prbsSet =>
    intro s c rest h hf hout hbusy hdiag hpat hgen hchk
    refine mbRun_served h hf ((laneNamed_ok hout hbusy _).trans ?_)
    simp [hdiag, hpat, hgen, hchk, ansOk]
  case prbsGet =>
    intro s c rest bits errs h hf hout hbusy
    refine mbRun_served h hf ?_
    simp [doPrbsGet, hout, hbusy, ansData]
  case loopback =>
    intro s c rest h hf hout hbusy hdiag hlane
    refine mbRun_served h hf ((laneNamed_ok hout hbusy _).trans ?_)
    simp [hdiag, hlane, ansOk]
  case inject =>
    intro s c rest h hf hout hbusy hinj
    refine mbRun_served h hf ((laneNamed_ok hout hbusy _).trans ?_)
    simp [hinj, ansOk]
  case invalid =>
    intro s c rest hq hop hup
    change Host.Outcome.next (runMb _ _ _) = _
    simp only [runMb, hq, hop, hup]
    rfl
  case done =>
    intro s m tag b hup hb
    change execCmdDone m tag s = _
    rw [execCmdDone, if_pos hup, hb]
  case drained =>
    intro s q hq hst hdown
    refine ⟨_, guardRes_next (decide_eq_true hq) (if_pos (by rw [hst, hdown]; rfl)), ?_⟩
    simp [updQuad, State.quad]
  case rehomed =>
    intro s q hq hst
    exact guardRes_next (decide_eq_true hq) (if_pos (by rw [hst]; rfl))
  case gated =>
    intro s q hq hst
    exact guardRes_next (decide_eq_true hq) (if_pos (by rw [hst]; rfl))
  case ungated =>
    intro s q hq hst
    refine ⟨_, guardRes_next (decide_eq_true hq) (if_pos (by rw [hst]; rfl)), ?_⟩
    rw [quad_endStep, quad_relanes]
    split <;> simp [updQuad, State.quad, count]

end Sys2Proof.Machine
end

section
/-! PROOF. Polling and fetching (O5): a nudge of a number that a QUIESCED SRQ holds too. -/

namespace Sys2Proof.Machine

/-- The ring of a queue in back-off. -/
def backoffRing : Ring := { log2 := 0, base := 0, db := 0, epoch := 0, nudge := 0, poll := .backoff }

/-- A queue pair that is not resident, in back-off. -/
def backoffQp : Qp :=
  { fn := 0x100, pd := 0, sendCq := 0, recvCq := 0, srq := none, garnet := false, kernel := false, sl := 0, pkIdx := 0, headAddr := 0,
    ring := backoffRing, resident := false }

/-- A QUIESCED SRQ. -/
def quiescedSrq : Srq := { fn := 0x100, pd := 0, cq := 0, garnet := false, ring := backoffRing, quiesced := true }

/-- A state where number 1 is a queue pair and a QUIESCED SRQ at once, and nudge slot 0 of function 0x100 belongs to it. -/
def sharedNumber : State :=
  { State.reset with ep := { State.reset.ep with
      qps := State.reset.ep.qps.set 1 (some backoffQp)
      srqs := State.reset.ep.srqs.set 1 (some quiescedSrq)
      nudges := State.reset.ep.nudges.set (0x100 * 2 ^ 23) (some 1) } }

/-- The polling state of queue pair 1 in the state that is answered. -/
def pollOfOne (r : Res) : Option PollSt :=
  match r with
  | .next t => (getQp t 1).map (fun x => x.ring.poll)
  | _ => none

/-- Refutes O5: the number of the nudged queue pair is also that of a QUIESCED SRQ, so the nudge leaves the queue in back-off, where the clause
of R282 for a queue pair in back-off polls it at once. -/
theorem not_pollingAndFetchingCompletes : ¬ Obligations.PollingAndFetchingCompletes := by
  unfold Obligations.PollingAndFetchingCompletes
  rintro ⟨-, -, hnudge, -⟩
  have heq := hnudge sharedNumber 0x100 0 1 backoffQp (count sharedNumber .host (epOfFn sharedNumber 0x100) .nudge)
    (by decide) (by decide) rfl rfl rfl (by decide) rfl rfl
  have hpoll := congrArg pollOfOne heq
  revert hpoll
  decide

end Sys2Proof.Machine
end

section
/-! PROOF. The service of queues (O6). -/

namespace Sys2Proof.Machine

/-- [R302] an operation at the head of a queue that may be used is started and sends its first turn. -/
theorem startOp_used {s u : State} {q op : Nat} {x : Qp} (hx : getQp s q = some x) (hn : nextIs s q op = true)
    (hu : useQueue s x.fn q engHost = .inr u) : startOp s q op = issueFetch (sendTurn (startNext u q) q 300 turnBytes) q := by
  simp only [startOp, hn, hx, Option.map_some, Option.getD_some, hu, if_true]
  rfl

/-- Settles O6. -/
theorem queueServiceCompletes : Obligations.QueueServiceCompletes := by
  unfold Obligations.QueueServiceCompletes
  refine ⟨?park, ?turn, ?head, ?cqReread, ?cqHead, ?cqFull, ?holdoff, ?write, ?writeCount, ?read, ?send, ?fetchAdd, ?cswap64, ?cswap128, ?counterFetch,
    ?tsend, ?collective⟩
  case park =>
    intro s q x hx hpoll hlong hidle hst hindex hfetching hpartial hwait hparking
    change execParkIdleExpire q s = _
    simp only [execParkIdleExpire, hx]
    rw [if_pos (by simp [hpoll, hlong, hidle, hst, hindex, hfetching, hpartial, hwait, hparking])]
  case turn =>
    intro s qd q sl pos x t u hqd ht hsel hx hents huse
    refine guardRes_next (decide_eq_true hqd) ?_
    simp only [← ht, hsel, hx, Option.map_some, Option.getD_some, huse, Option.any_some, hents]
    rfl
  case head =>
    intro s q x hx hdue hst
    change execHeadRecordWrite q s = _
    simp [execHeadRecordWrite, hx, hdue, hst]
  case cqReread =>
    intro s n c u hc hfull herr hqui hmode huse
    change execCqHeadReread n s = _
    simp [execCqHeadReread, hc, hfull, herr, hqui, hmode, huse]
  case cqHead =>
    intro s n bs c u hc herr hqui hmode hepoch huse
    change execCqHeadReadComplete n bs s = _
    simp [execCqHeadReadComplete, hc, herr, hqui, hmode, hepoch, huse]
  case cqFull =>
    intro s n c hc hfull hlong hqui hmode
    change execCqFullTimeout n s = _
    simp only [execCqFullTimeout, hc]
    rw [if_pos (by simp [hfull, hlong, hqui, hmode])]
  case holdoff =>
    intro s f v hf hone
    refine guardRes_next hf ?_
    simp only [hone]
  case write =>
    intro s q x u hx hn hu
    exact congrArg Host.Outcome.next (startOp_used hx hn hu)
  case writeCount =>
    intro s q x u hx hn hu
    exact congrArg Host.Outcome.next (startOp_used hx hn hu)
  case read =>
    intro s q x u hx hn hu
    exact congrArg Host.Outcome.next (startOp_used hx hn hu)
  case send =>
    intro s q x u hx hn hu
    exact congrArg Host.Outcome.next (startOp_used hx hn hu)
  case fetchAdd =>
    intro s q x u hx hn hu
    exact congrArg Host.Outcome.next (startOp_used hx hn hu)
  case cswap64 =>
    intro s q x u hx hn hu
    exact congrArg Host.Outcome.next (startOp_used hx hn hu)
  case cswap128 =>
    intro s q x u hx hn hu
    exact congrArg Host.Outcome.next (startOp_used hx hn hu)
  case counterFetch =>
    intro s q x u hx hn hu
    exact congrArg Host.Outcome.next (startOp_used hx hn hu)
  case tsend =>
    intro s q x u hx hn hu
    exact congrArg Host.Outcome.next (startOp_used hx hn hu)
  case collective =>
    intro s q x e v u hx hnext hn htree huse hxv hnv hu
    change Host.Outcome.next (startCollective s q) = _
    rw [startCollective, hx]
    simp only [Option.bind_some, hnext, Option.map_some, hn, htree, huse]
    exact congrArg Host.Outcome.next (startOp_used hxv hnv hu)

/-! ### Admin queues (O7, O9) -/

/-- A SET_QUOTA command, which Molzu takes. -/
def quotaSlot : List Byte := [0x10, 0]

/-- A state where the admin queue of function 0x100 runs and has fetched a SET_QUOTA that waits for Molzu. -/
def quotaFetched : State :=
  updFn State.reset 0x100 (fun x => { x with bme := true, aq := { x.aq with enable := true, state := 1, fetched := [quotaSlot] } })

/-- What the admin queue of function 0x100 has fetched in the state that is answered. -/
def fetchedOf (r : Res) : List (List Byte) :=
  match r with
  | .next t => (t.fn 0x100).aq.fetched
  | _ => []

theorem quotaFetched_error : fetchedOf (exec (.aqCommandFetch 0x100 ⟨none, false⟩) quotaFetched) = [quotaSlot] := by decide

/-- Refutes O7: a ring that cannot be read flushes what the queue has fetched but for the commands that Molzu has in hand, so the clause that
nothing is left fetched fails where a SET_QUOTA waits. -/
theorem not_adminQueueRegistersComplete : ¬ Obligations.AdminQueueRegistersComplete := by
  unfold Obligations.AdminQueueRegistersComplete
  rintro ⟨-, -, -, -, -, hfetch, -⟩
  obtain ⟨t, hnext, -, -, hempty⟩ := hfetch quotaFetched 0x100 none (by decide) (by decide) (by decide) (by decide)
  have hkept := quotaFetched_error
  rw [hnext] at hkept
  exact absurd (hempty.symm.trans hkept) (by decide)

/-- [R103 R105] a command whose turn has come and whose slot is well formed completes with what its own meaning answers. -/
theorem runAq_answered {s t : State} {f op st r0 r1 : Nat} {e : List Byte} {act : State → List Byte → State × AqAnswer}
    (ht : aqTurn s f op = some e) (hc : aqClean e = true) (ha : act (aqTaken s f e) e = (t, some (st, r0, r1))) :
    runAq s f op act = aqSweepAll (aqComplete t f (aqTag e) st r0 r1) f := by
  simp only [runAq, ht, hc, if_true, ha]

/-- [R292] a command whose completion has to wait. -/
theorem runAq_waits {s t : State} {f op : Nat} {e : List Byte} {act : State → List Byte → State × AqAnswer}
    (ht : aqTurn s f op = some e) (hc : aqClean e = true) (ha : act (aqTaken s f e) e = (t, none)) :
    runAq s f op act = aqSweepAll t f := by
  simp only [runAq, ht, hc, if_true, ha]

/-- Settles O9. -/
theorem adminChangesComplete : Obligations.AdminChangesComplete := by
  unfold Obligations.AdminChangesComplete
  refine ⟨?modify, ?destroyQp, ?destroySrq, ?destroyCq, ?destroyEq, ?destroyPd, ?revoke, ?invalidate, ?abort, ?setQuota, ?queryQuota, ?bind, ?bindRead⟩
  case modify =>
    intro s f e hf ht hc ha
    exact guardRes_next hf (runAq_answered ht hc (Prod.ext rfl ha))
  case destroyQp =>
    intro s f e hf ht hc ha
    exact guardRes_next hf (congrArg finishDestroys (runAq_waits ht hc (Prod.ext rfl ha)))
  case destroySrq =>
    intro s f e hf ht hc ha
    exact guardRes_next hf (congrArg finishDestroys (runAq_waits ht hc (Prod.ext rfl ha)))
  case destroyCq =>
    intro s f e hf ht hc ha
    exact guardRes_next hf (runAq_answered ht hc (Prod.ext rfl ha))
  case destroyEq =>
    intro s f e hf ht hc ha
    exact guardRes_next hf (runAq_answered ht hc (Prod.ext rfl ha))
  case destroyPd =>
    intro s f e hf ht hc ha
    exact guardRes_next hf (runAq_answered ht hc (Prod.ext rfl ha))
  case revoke =>
    intro s f e hf ht hc hown hidle
    refine guardRes_next hf (runAq_answered ht hc ?_)
    simp only [hown, hidle, aqSay]
    rfl
  case invalidate =>
    intro s f e hf ht hc ha
    exact guardRes_next hf (runAq_answered ht hc (Prod.ext rfl ha))
  case abort =>
    intro s f e x hf ht hc hkind hx hown ha
    refine guardRes_next hf (runAq_answered ht hc ?_)
    have hany : abortAny (aqTaken s f e) f (byteAt e 8 == 0) (leAt e 12 3) (BitVec.ofNat 16 (leAt e 16 2)) (BitVec.ofNat 64 (leAt e 24 8)) =
        abortSend (aqTaken s f e) (leAt e 12 3) x (BitVec.ofNat 16 (leAt e 16 2)) := by
      simp [abortAny, hkind, hx, hown]
    simp only
    rw [if_neg (by omega), hany, ha, if_neg (by simp [aqSay, stNOT_FOUND, stSUCCESS])]
    exact Prod.ext rfl ha
  case setQuota =>
    intro s f e v hf ht hc hpf hv
    refine guardRes_next hf (runAq_answered ht hc ?_)
    simp [hpf, hv, aqSay]
  case queryQuota =>
    intro s f e v hf ht hc hv
    refine guardRes_next hf (runAq_answered ht hc ?_)
    simp [hv]
  case bind =>
    intro s q bs x e k hx hchain hnext hop hst hready hres hfence hwork hread hreg
    change execBindWindow q bs s = _
    simp [execBindWindow, hx, hchain, hnext, hop, hst, hready, hres, hfence, hwork, hread, bindNow, hreg]
  case bindRead =>
    intro s q bs x e i rest hx hchain he
    change execBindWindow q bs s = _
    simp only [execBindWindow, hx, hchain, he]

end Sys2Proof.Machine
end

section
/-! PROOF. The creating admin commands (O8): a completion queue in HEAD mode keeps no epoch. -/

namespace Sys2Proof.Machine

/-- A CREATE_CQ of a HEAD-mode queue of 64 entries. -/
def headCqSlot : List Byte := [6, 0, 0, 0, 0, 0, 0, 0, 0, 6, 2] ++ List.replicate 53 0

/-- A state where the admin queue of function 0x100 runs and has fetched that command. -/
def headCqFetched : State :=
  updFn State.reset 0x100 (fun x => { x with bme := true, aq := { x.aq with enable := true, state := 1, fetched := [headCqSlot] } })

/-- A doorbell record of epoch 1. -/
def epochOne : List Byte := [0, 0, 0, 0, 1, 0, 0, 0]

/-- The epoch of completion queue `q` in the state that is answered. -/
def cqEpochOf (q : Nat) (r : Res) : Option (BitVec 30) :=
  match r with
  | .next t => (getCq t q).map (fun c => c.epoch)
  | _ => none

theorem headCqFetched_epoch : cqEpochOf 1 (exec (.aqCreateCq 0x100 epochOne) headCqFetched) = some 0 := by decide

/-- Refutes O8: a HEAD-mode queue is created with epoch 0 and its doorbell record is not read, so the clause of CREATE_CQ that its epoch is the
record's fails where the record holds another. -/
theorem not_adminCreationCompletes : ¬ Obligations.AdminCreationCompletes := by
  unfold Obligations.AdminCreationCompletes
  rintro ⟨-, -, hcq, -⟩
  obtain ⟨t, hnext, x, hx, -, -, -, -, -, hepoch, -⟩ :=
    hcq headCqFetched 0x100 epochOne headCqSlot 1 (by decide) (by decide) (by decide) (by decide)
  have hzero := headCqFetched_epoch
  rw [hnext] at hzero
  simp only [cqEpochOf, hx, Option.map_some, Option.some.injEq] at hzero
  exact absurd (hepoch.symm.trans hzero) (by decide)

end Sys2Proof.Machine
end

section
/-! PROOF. The life record, telemetry and trips (O18), and PLLs, codewords and training (O20). -/

namespace Sys2Proof.Machine

/-- Settles O18. -/
theorem lifeTelemetryAndTripsComplete : Obligations.LifeTelemetryAndTripsComplete := by
  unfold Obligations.LifeTelemetryAndTripsComplete
  refine ⟨?second, ?hour, ?month, ?telemetry, ?trip, ?rail, ?undervoltage, ?core⟩
  case second =>
    intro s m hrun hlow htop
    change execLifeSecondCheck m s = _
    simp [execLifeSecondCheck, hrun, Int.not_lt.mpr hlow, Int.not_lt.mpr htop]
  case hour =>
    intro s hrun hpart hallow
    change execLifeHourlyWrite s = _
    have hallow' : allowed s recorderMaster (tgtEVENT_RING + 4) true = true := hallow
    simp [execLifeHourlyWrite, hrun, agentWrite, hpart, hallow']
  case month =>
    intro s hrun hfew
    have hnot : ¬ 12 ≤ ((s.life.cur :: s.life.months).take 13).length := Nat.not_le.mpr hfew
    change execLifeMonthBoundary s = _
    simp only [execLifeMonthBoundary, hrun, hnot, decide_false, Bool.false_and, Bool.or_false]
    rfl
  case telemetry =>
    intro s g rs hg hlen hnot0 hnot2 hon hrun
    refine guardRes_next (by simp [hg, hlen]) ?_
    rw [if_neg hon, if_neg hrun, if_neg hnot0, if_neg hnot2]
  case trip =>
    intro s die hdie hpower
    exact guardRes_next (decide_eq_true hdie) (if_pos hpower)
  case rail =>
    intro s r mv hr hrun hporst
    exact guardRes_next (decide_eq_true hr) (if_pos (by simp [hrun, hporst]))
  case undervoltage =>
    intro s r mv hr hrun hporst hpwr
    exact guardRes_next (decide_eq_true hr) (if_pos (by simp [hrun, hporst, hpwr]))|>.trans (congrArg Host.Outcome.next (if_pos hrun))
  case core =>
    intro s hpower hlost
    exact congrArg Host.Outcome.next (if_pos ⟨hpower, by simp [hlost]⟩)

/-- A lane number within the device. -/
theorem laneOk_of_lt {l : Nat} (h : l < 512) : laneOk l = true := decide_eq_true h

/-- Settles O20. -/
theorem pllsCodewordsAndTrainingComplete : Obligations.PllsCodewordsAndTrainingComplete := by
  unfold Obligations.PllsCodewordsAndTrainingComplete
  refine ⟨?unlock, ?relock, ?refLost, ?corrected, ?uncorrected, ?lockDiag, ?lockRetrain, ?lockTrain, ?lostUp, ?lostDown, ?notLost, ?signalQuiet, ?signalLost,
    ?noLock, ?retryWait, ?retrainAlone, ?retrainPort⟩
  case unlock =>
    intro s o ho hpll
    exact guardRes_next (decide_eq_true ho) (if_pos hpll)
  case relock =>
    intro s o ho hpll href
    exact guardRes_next (decide_eq_true ho) (if_pos (by rw [hpll, href]; rfl))
  case refLost =>
    intro s q hq href
    exact guardRes_next (decide_eq_true hq) (if_pos href)
  case corrected =>
    intro s l n hl hn hoff hparked
    refine guardRes_next (laneOk_of_lt hl) ?_
    generalize (s.lane l).st = st at hoff hparked ⊢
    cases st <;> simp_all
  case uncorrected =>
    intro s l hl hoff hparked
    refine guardRes_next (laneOk_of_lt hl) ?_
    generalize (s.lane l).st = st at hoff hparked ⊢
    cases st <;> simp_all
  case lockDiag =>
    intro s l inv hl hgood hst
    refine guardRes_next (laneOk_of_lt hl) ?_
    rw [if_pos hgood, hst]
  case lockRetrain =>
    intro s l inv hl hgood hst
    refine guardRes_next (laneOk_of_lt hl) ?_
    rw [if_pos hgood, hst]
  case lockTrain =>
    intro s l inv hl hgood hst hreq
    refine guardRes_next (laneOk_of_lt hl) ?_
    rw [if_pos hgood, hst]
    exact if_neg (by simp [hreq])
  case lostUp =>
    intro s l hl hun hup
    exact guardRes_next (laneOk_of_lt hl) ((if_pos hun).trans (if_pos hup))
  case lostDown =>
    intro s l hl hun hup
    exact guardRes_next (laneOk_of_lt hl) ((if_pos hun).trans (if_neg (by simp [hup])))
  case notLost =>
    intro s l hl hun
    exact guardRes_next (laneOk_of_lt hl) (if_neg hun)
  case signalQuiet =>
    intro s l hl hquiet
    exact guardRes_next (laneOk_of_lt hl) (if_neg (by simp [hquiet]))
  case signalLost =>
    intro s l hl hup hrx
    exact guardRes_next (laneOk_of_lt hl) (if_pos (by simp [hup, hrx]))
  case noLock =>
    intro s l hl hst htmr
    exact guardRes_next (laneOk_of_lt hl) (if_pos (by simp [hst, htmr]))
  case retryWait =>
    intro s l p hl hst hwait hp
    refine guardRes_next (laneOk_of_lt hl) ((if_pos (by simp [hst, hwait])).trans ?_)
    rw [hp]
  case retrainAlone =>
    intro s l hl hst hp
    refine guardRes_next (laneOk_of_lt hl) ((if_pos (by simp [hst])).trans ?_)
    rw [hp]
  case retrainPort =>
    intro s l p hl hst hp
    refine guardRes_next (laneOk_of_lt hl) ((if_pos (by simp [hst])).trans ?_)
    rw [hp]

/-! ### Adaptation, lane tests and LTB lock (O22), and LTBs in order (O24) -/

/-- Settles O22. -/
theorem adaptationTestAndLtbLockComplete : Obligations.AdaptationTestAndLtbLockComplete := by
  unfold Obligations.AdaptationTestAndLtbLockComplete
  refine ⟨?adapt, ?coeffs, ?prbsLock, ?prbsLoss, ?inject, ?dropEnd, ?ltbLock, ?ltbLost⟩
  case adapt =>
    intro s l q snr eye ber hl hup
    exact guardRes_next (laneOk_of_lt hl) (if_pos (by rw [hup]; rfl))
  case coeffs =>
    intro s l hl hcold hday
    exact guardRes_next (laneOk_of_lt hl) (if_pos (by rw [hcold, Bool.true_and, decide_eq_true_iff]; exact hday))
  case prbsLock =>
    intro s l hl hdiag hchk
    exact guardRes_next (laneOk_of_lt hl) (if_pos (by rw [hdiag, hchk]; rfl))
  case prbsLoss =>
    intro s l b e hl hlock
    exact guardRes_next (laneOk_of_lt hl) (if_pos hlock)
  case inject =>
    intro s l hl hinj hable
    exact guardRes_next (laneOk_of_lt hl) (if_pos (by rw [bne_iff_ne.mpr hinj, hable]; rfl))
  case dropEnd =>
    intro s l hl hdrop
    exact guardRes_next (laneOk_of_lt hl) (if_pos hdrop)
  case ltbLock =>
    intro s l hl hup hfree
    exact guardRes_next (laneOk_of_lt hl) (if_pos (by rw [hup, hfree]; rfl))
  case ltbLost =>
    intro s l hl hup hlock
    exact guardRes_next (laneOk_of_lt hl) (if_pos (by rw [hup, hlock]; rfl))

/-- A port number within the device. -/
theorem portOk_of_lt {p : Nat} (h : p < 512) : portOk p = true := decide_eq_true h

/-- [R203] the next sequenced LTB of an open link has its own effect. -/
theorem seqIn_next {s u : State} {p : Nat} {h : LtbHdr} {k : State → State} (e : InOrder s p h) (hu : k (ltbInOrder s p h) = u) :
    guardRes (portOk p) (seqIn s p h k) = .next u :=
  guardRes_next (portOk_of_lt e.1.1) ((seqIn_inOrder e k).trans hu)

/-- Settles O24. -/
theorem sequencedLtbsComplete : Obligations.SequencedLtbsComplete := by
  unfold Obligations.SequencedLtbsComplete
  refine ⟨?data, ?badType, ?badCrc, ?idle, ?credit, ?linkDown, ?reserved, ?mapEcho, ?mapAgain, ?mapNew, ?mapOld, ?hint⟩
  case data =>
    intro s p h fs since horder hkept hframe
    refine seqIn_next horder ?_
    simp only [hkept, Bool.false_eq_true, if_false]
    exact if_pos hframe
  case badType =>
    intro s p hp
    exact guardRes_next (portOk_of_lt hp) rfl
  case badCrc =>
    intro s p hopen
    obtain ⟨hp, hlink, hmap⟩ := hopen
    refine guardRes_next (portOk_of_lt hp) ?_
    rcases hlink with hlink | hlink <;> simp [badCrc, hlink, hmap]
  case idle =>
    intro s p h hopen hclean
    exact guardRes_next (portOk_of_lt hopen.1) ((unmarked_clean hclean _).trans (ltbIn_open hopen h id))
  case credit =>
    intro s p h m horder
    exact seqIn_next horder rfl
  case linkDown =>
    intro s p h m horder
    exact seqIn_next horder rfl
  case reserved =>
    intro s p h horder
    exact seqIn_next horder rfl
  case mapEcho =>
    intro s p h q m hp hclean hlink hopen hq hm
    refine guardRes_next (portOk_of_lt hp) ((unmarked_clean hclean _).trans ?_)
    rcases hlink with hlink | hlink <;> simp [hlink, hopen, hq, hm]
  case mapAgain =>
    intro s p h q m hp hclean hlink hpeer
    refine guardRes_next (portOk_of_lt hp) ((unmarked_clean hclean _).trans ?_)
    rcases hlink with hlink | hlink <;> simp [hlink, hpeer]
  case mapNew =>
    intro s p h q m hp hclean hlink hpeer hnew
    refine guardRes_next (portOk_of_lt hp) ((unmarked_clean hclean _).trans ?_)
    rcases hlink with hlink | hlink <;> simp [hlink, hpeer, hnew]
  case mapOld =>
    intro s p h q m r hp hclean hlink hpeer hne hold
    refine guardRes_next (portOk_of_lt hp) ((unmarked_clean hclean _).trans ?_)
    rcases hlink with hlink | hlink <;> simp [hlink, hpeer, hne, hold]
  case hint =>
    intro s p h m hopen hclean hlegacy hver hactive
    refine guardRes_next (portOk_of_lt hopen.1) ((unmarked_clean hclean _).trans ?_)
    rw [if_neg (by simp [hlegacy]), ltbIn_open hopen, if_neg (by simp [hver, hactive])]

end Sys2Proof.Machine
end

section
/-! PROOF. Links: initialisation, timers and the switching step (O25). -/

namespace Sys2Proof.Machine

/-- A link that is ACTIVE or in DRAIN. -/
theorem activeOrDrain {x : Port} (h : x.link = .active ∨ x.link = .drain) : (x.link == .active || x.link == .drain) = true := by
  simpa using h

/-- Settles O25. -/
theorem linkInitAndTimersComplete : Obligations.LinkInitAndTimersComplete := by
  unfold Obligations.LinkInitAndTimersComplete
  refine ⟨?initRx, ?initRxActive, ?initRepeat, ?poolRetry, ?trainWait, ?initTmo, ?hint, ?held, ?creditTmo, ?grant, ?replay, ?replayLimit, ?grace, ?graceDrain,
    ?drained, ?downWait, ?netWhole, ?netPart, ?host, ?coll, ?service, ?serviceStraight⟩
  case initRx =>
    intro s p k h i hp hk hclean hlink hcheck
    refine guardRes_next (by simp [portOk, hp, hk]) ((unmarked_clean hclean _).trans ?_)
    simp [hlink, hcheck]
  case initRxActive =>
    intro s p k h i hp hk hclean hlink hmap hcheck
    refine guardRes_next (by simp [portOk, hp, hk]) ((unmarked_clean hclean _).trans ?_)
    simp [hlink, hmap, hcheck]
  case initRepeat =>
    intro s p hp hlink hallot
    exact guardRes_next (portOk_of_lt hp) (if_pos (by simp [hlink, hallot]))
  case poolRetry =>
    intro s p hp hlink hwait
    exact guardRes_next (portOk_of_lt hp) (if_pos (by simp [hlink, hwait]))
  case trainWait =>
    intro s p hp hwait hlink hup
    refine guardRes_next (portOk_of_lt hp) (if_pos ?_)
    simpa [hwait, hlink] using hup
  case initTmo =>
    intro s p hp hlink hgot hmis
    exact guardRes_next (portOk_of_lt hp) (if_pos (by simp [hlink, hgot, hmis]))
  case hint =>
    intro s p hp hfabric hlink hidle
    exact guardRes_next (portOk_of_lt hp) (if_pos (by rw [hfabric, hlink, hidle]; rfl))
  case held =>
    intro s p v hp hv hlink hdue hroom
    exact guardRes_next (by simp [portOk, hp, hv]) (if_pos (by rw [activeOrDrain hlink, hdue, hroom]; rfl))
  case creditTmo =>
    intro s p v hp hv hlink hwait hlong
    exact guardRes_next (by simp [portOk, hp, hv]) (if_pos (by rw [activeOrDrain hlink, hwait, decide_eq_true hlong]; rfl))
  case grant =>
    intro s p hp hfabric hlink hlow hmax hpool
    exact guardRes_next (portOk_of_lt hp) ((if_neg (by simp [hfabric, hlink])).trans ((if_pos ⟨hlow, hmax⟩).trans (if_pos hpool)))
  case replay =>
    intro s p hp hlink
    refine guardRes_next (portOk_of_lt hp) ?_
    rcases hlink with hlink | hlink <;> simp only [hlink]
  case replayLimit =>
    intro s p h hp hlink hh
    refine guardRes_next (portOk_of_lt hp) ?_
    rcases hlink with hlink | hlink <;> simp only [hlink, replayOver, hh]
  case grace =>
    intro s p hp hgrace hlink
    exact guardRes_next (portOk_of_lt hp) ((if_neg (by simp [hgrace])).trans (if_neg hlink))
  case graceDrain =>
    intro s p hp hgrace hlink
    exact guardRes_next (portOk_of_lt hp) ((if_neg (by simp [hgrace])).trans (if_pos hlink))
  case drained =>
    intro s p hp hlink hvcq hheld hleaving htxq
    exact guardRes_next (portOk_of_lt hp) (if_pos (by rw [hlink, hvcq, hheld, hleaving, htxq]; rfl))
  case downWait =>
    intro s p hp hlink hsent
    exact guardRes_next (portOk_of_lt hp) (if_pos (by simp [hlink, hsent]))
  case netWhole =>
    intro s p n k l hp harr hcur
    refine guardRes_next (decide_eq_true hp) ?_
    simp only [harr, hcur, Option.any_none, Bool.and_false]
    rfl
  case netPart =>
    intro s p n k r hp harr hcur hbad hgone
    refine guardRes_next (decide_eq_true hp) ?_
    simp only [harr, hcur, Option.any_some, hbad, hgone]
    rfl
  case host =>
    intro s e k l he hinj htake
    refine guardRes_next he ?_
    rw [hinj]
    exact if_pos htake
  case coll =>
    intro s q p k l hq htx htake
    refine guardRes_next (decide_eq_true hq) ?_
    rw [htx]
    exact if_pos htake
  case service =>
    intro s k l htx htake
    refine congrArg Host.Outcome.next ?_
    rw [htx]
    exact if_pos htake
  case serviceStraight =>
    intro s p k l htx hlink htake
    refine congrArg Host.Outcome.next ?_
    rw [htx]
    exact (if_neg (by simp [hlink])).trans (if_pos htake)

end Sys2Proof.Machine
end

section
/-! PROOF. Requests at the target (O26). -/

namespace Sys2Proof.Machine

/-- [R308 R309] an admitted request whose effect is not refused and waits for nothing has its PSNs accepted. -/
theorem onRequest_accepted {s v : State} {ep op q : Nat} {a : Arrival} {y : Qp} {n : Arrival → Nat} {f : State → Nat → Qp → Arrival → State × Nat}
    {g : State → Nat → Qp → Arrival → State} (he : epExists s ep = true) (h : admitted s ep op = some (a, v, q, y)) (hf : (f v q y a).2 = 0) :
    guardRes (epExists s ep) (onRequest s ep op n f g) = .next (acceptPsn (f v q y a).1 q a (n a)) :=
  guardRes_next he ((onRequest_admitted h n f g).trans (if_pos hf))

/-- Settles O26. -/
theorem requestsAtTheTargetComplete : Obligations.RequestsAtTheTargetComplete := by
  unfold Obligations.RequestsAtTheTargetComplete
  refine ⟨?write, ?writeCount, ?read, ?send, ?atomic, ?eager, ?rts, ?fin⟩
  case write =>
    intro s ep a v q y he h hf
    exact onRequest_accepted he h hf
  case writeCount =>
    intro s ep a v q y he h hf
    exact onRequest_accepted he h hf
  case read =>
    intro s ep a v q y he h hf
    exact onRequest_accepted he h hf
  case send =>
    intro s ep a v q y he h hf
    exact onRequest_accepted he h hf
  case atomic =>
    intro s ep a v q y he h hf
    exact onRequest_accepted he h hf
  case eager =>
    intro s ep a v q y he h hf
    exact onRequest_accepted he h hf
  case rts =>
    intro s ep a v q y he h hf
    exact onRequest_accepted he h hf
  case fin =>
    intro s ep a v q y he h hf
    exact onRequest_accepted he h hf

end Sys2Proof.Machine
end

section
/-! PROOF. Collectives (O28) and coherence messages (O30). -/

namespace Sys2Proof.Machine

/-- Settles O28. -/
theorem collectiveCommandsComplete : Obligations.CollectiveCommandsComplete := by
  unfold Obligations.CollectiveCommandsComplete
  refine ⟨?up, ?upHeld, ?opal, ?down, ?credit, ?abort, ?stall⟩
  case up =>
    intro s quad u id tr e p c l hq ht he hgo
    refine guardRes_next (decide_eq_true hq) ((onTree_taken ht _).trans ?_)
    rw [if_neg he, if_neg (by simp [hgo])]
  case upHeld =>
    intro s quad u id tr e p c l hq ht he hhold hended hbroken
    refine guardRes_next (decide_eq_true hq) ((onTree_taken ht _).trans ?_)
    rw [if_neg he, if_pos (by rw [hhold, hended, hbroken]; rfl)]
  case opal =>
    intro s quad tree seq block hq htree
    exact guardRes_next (decide_eq_true hq) (if_pos htree)
  case down =>
    intro s quad u id tr e p c l hq ht he hcoll
    obtain ⟨x, hx⟩ := Option.isSome_iff_exists.mp hcoll
    refine guardRes_next (decide_eq_true hq) ((onTree_taken ht _).trans ?_)
    rw [if_neg (not_not.mpr he), hx]
  case credit =>
    intro s quad u id tr e p c l hq ht
    exact guardRes_next (decide_eq_true hq) (onTree_taken ht _)
  case abort =>
    intro s quad u id tr e p c l hq ht
    exact guardRes_next (decide_eq_true hq) (onTree_taken ht _)
  case stall =>
    intro s quad tree seq hq htree hst
    exact guardRes_next (decide_eq_true hq) (if_pos (by simp [htree, hst]))

/-- [R404] a sharing forward to a cache that holds the line for itself. -/
theorem fwdShared_held {s : State} {owner req : Nat} {line : LineId} (hgone : fwdToGone s owner line = false)
    (hst : ((getLine s owner line).st == .i || (getLine s owner line).st == .s) = false) :
    fwdShared s owner req line = cohSend (updDir (updLine s owner line (fun x => { x with st := (getLine s owner line).st.shared })) line
      (fun d => { d with st := (getLine s owner line).st.shared, owner := if (getLine s owner line).st.shared = .o then owner else 0 }))
      mDATA owner req line 0 := by
  simp only [fwdShared]
  rw [if_neg (by simp [hgone]), if_neg (by simp [hst])]

/-- [R404] an answer that is awaited. -/
theorem answerReqst_awaited {s : State} {req n : Nat} {line : LineId} {st : Moesi} (hreq : (getLine s req line).req.isSome = true)
    (hans : (getLine s req line).answered = false) (hphase : (getLine s req line).phase ≠ 2) :
    answerReqst s req line n st = finishReq (updLine s req line (fun x => { x with acksDue := n, answered := true, target := st })) req line := by
  simp [answerReqst, hreq, hans, hphase]

/-- [R390] the home of a line is told by what it belongs to, not by the caches. -/
theorem lineHome_updLine (s : State) (c : Nat) (l m : LineId) (f : CLine → CLine) : lineHome (updLine s c l f) m = lineHome s m := rfl

theorem lineHome_updDir (s : State) (l m : LineId) (f : Dir → Dir) : lineHome (updDir s l f) m = lineHome s m := rfl

/-- Settles O30. -/
theorem coherenceMessagesComplete : Obligations.CoherenceMessagesComplete := by
  unfold Obligations.CoherenceMessagesComplete
  refine ⟨?idle, ?getS, ?getM, ?upgrade, ?put, ?putClean, ?fwdS, ?fwdM, ?inv, ?fwdSGone, ?fwdMGone, ?invGone, ?ack, ?putAck, ?grant, ?data, ?snoopInv,
    ?snoopShare⟩
  case idle =>
    intro s quad line hq hok hst hdirty hphase hreq hbusy hlong
    refine guardRes_next (decide_eq_true hq) ?_
    simp [hok, hst, hdirty, hphase, hreq, hbusy, Nat.not_lt.mpr hlong, lineHome_updLine, lineHome_updDir]
  case getS =>
    intro s req line hr hok
    exact guardRes_next (decide_eq_true hr) (if_pos hok)
  case getM =>
    intro s req line hr hok
    exact guardRes_next (decide_eq_true hr) (if_pos hok)
  case upgrade =>
    intro s req line hr hok hst
    exact guardRes_next (decide_eq_true hr) (if_pos (by simpa [hok] using hst))
  case put =>
    intro s req line home hr hok hhome hst hphase hreq
    refine guardRes_next (decide_eq_true hr) ?_
    rw [hhome]
    exact if_neg (by rcases hst with hst | hst <;> simp [hok, hst, hphase, hreq])
  case putClean =>
    intro s req line home hr hok hhome hst hphase hreq
    refine guardRes_next (decide_eq_true hr) ?_
    rw [hhome]
    exact if_neg (by rcases hst with hst | hst <;> simp [hok, hst, hphase, hreq])
  case fwdS =>
    intro s owner req line ho hr hgone hst
    exact guardRes_next (by simp [ho, hr]) (fwdShared_held hgone hst)
  case fwdM =>
    intro s owner req line ho hr hgone hst
    exact guardRes_next (by simp [ho, hr]) ((if_neg (by simp [hgone])).trans (if_neg (by simp [hst])))
  case inv =>
    intro s sharer req line ho hr hgone hst
    exact guardRes_next (by simp [ho, hr]) ((if_neg (by simp [hgone])).trans (if_neg (by simp [hst])))
  case fwdSGone =>
    intro s owner req line ho hr hgone
    exact guardRes_next (by simp [ho, hr]) (if_pos hgone)
  case fwdMGone =>
    intro s owner req line ho hr hgone
    exact guardRes_next (by simp [ho, hr]) (if_pos hgone)
  case invGone =>
    intro s sharer req line ho hr hgone
    exact guardRes_next (by simp [ho, hr]) (if_pos hgone)
  case ack =>
    intro s req line hr hreq
    exact guardRes_next (decide_eq_true hr) (if_pos hreq)
  case putAck =>
    intro s req line hr hphase hreq
    refine guardRes_next (decide_eq_true hr) ((if_neg (by simp [hphase])).trans ?_)
    rw [hreq]
  case grant =>
    intro s req line n hr hreq hans hphase
    exact guardRes_next (decide_eq_true hr) (answerReqst_awaited hreq hans hphase)
  case data =>
    intro s req line n st hr hst hreq hans hphase
    exact guardRes_next (by simp [hr, hst]) (answerReqst_awaited hreq hans hphase)
  case snoopInv =>
    intro s quad line hq hkind hst
    exact guardRes_next (decide_eq_true hq) (if_neg (by simp [hkind, hst]))
  case snoopShare =>
    intro s quad line hq hkind hst
    exact guardRes_next (decide_eq_true hq) (if_neg (by simp [hkind, hst]))

end Sys2Proof.Machine
end

section
/-! PROOF. The chain's requests and answers (O32), and group management (O33). -/

namespace Sys2Proof.Machine

/-- [R418] a well-formed frame at a locked port that names this device has its effect here. -/
theorem chainRx_own {s : State} {p : ChainPort} {f : ChainFrame} {type : Nat} (h : FrameTaken s p f type) (hown : f.dest = s.chain.addr) (act : State) :
    chainRx s p f type (chainOwn s p f act) = act :=
  (chainRx_taken h _).trans (if_pos hown)

/-- Settles O32. -/
theorem chainRequestsAndAnswersComplete : Obligations.ChainRequestsAndAnswersComplete := by
  unfold Obligations.ChainRequestsAndAnswersComplete
  refine ⟨?statusReq, ?statusRsp, ?regRsp, ?mbRsp, ?event, ?reset, ?warm, ?cold, ?molzu, ?regRead, ?regWrite, ?mbCmd, ?badFrame, ?crcEnum, ?crcAll, ?crcOther⟩
  case statusReq =>
    intro s p f h hown hallow
    exact congrArg Host.Outcome.next ((chainRx_own h hown _).trans (if_pos hallow))
  case statusRsp =>
    intro s p f h
    exact congrArg Host.Outcome.next (chainRx_taken h _)
  case regRsp =>
    intro s p f h
    exact congrArg Host.Outcome.next (chainRx_taken h _)
  case mbRsp =>
    intro s p f h
    exact congrArg Host.Outcome.next (chainRx_taken h _)
  case event =>
    intro s p f h
    exact congrArg Host.Outcome.next (chainRx_taken h _)
  case reset =>
    intro s p f h hown hone hallow
    change execReset p f s = _
    simp only [execReset]
    rw [if_neg hone, chainRx_own h hown, if_pos hallow, if_pos hallow]
  case warm =>
    intro s hkind hpower hcore hwarm
    refine congrArg Host.Outcome.next ?_
    rw [hkind]
    exact if_pos (by simp [hpower, hcore, hwarm])
  case cold =>
    intro s hkind hruns
    refine congrArg Host.Outcome.next ?_
    rw [hkind]
    exact if_pos hruns
  case molzu =>
    intro s k hkind hruns
    refine congrArg Host.Outcome.next ?_
    rw [hkind]
    exact if_pos hruns
  case regRead =>
    intro s p f h hown
    exact congrArg Host.Outcome.next (chainRx_own h hown _)
  case regWrite =>
    intro s p f h hown
    exact congrArg Host.Outcome.next (chainRx_own h hown _)
  case mbCmd =>
    intro s p f h hown
    exact congrArg Host.Outcome.next (chainRx_own h hown _)
  case badFrame =>
    intro s p f hserves hlock hbad
    exact congrArg Host.Outcome.next (if_pos (by rw [hserves, hlock, hbad]; rfl))
  case crcEnum =>
    intro s p f hserves hlock htype
    rw [htype] at hserves
    change execChainCrcFail p f s = _
    simp [execChainCrcFail, hserves, hlock, htype, chainForMe]
  case crcAll =>
    intro s p f hserves hlock hall htype1 htype2 haddr
    change execChainCrcFail p f s = _
    simp [execChainCrcFail, hserves, hlock, hall, htype1, htype2, Ne.symm haddr, chainForMe]
  case crcOther =>
    intro s p f hserves hlock hother
    have hnot : ¬ (f.type = 0x01 ∨ f.type = 0x02 ∨ (f.dest ≠ 0 ∧ f.dest = s.chain.addr)) := by
      simp only [chainForMe, Bool.or_eq_false_iff, Bool.and_eq_false_iff, beq_eq_false_iff_ne, bne_eq_false_iff_eq] at hother
      tauto
    change execChainCrcFail p f s = _
    simp only [execChainCrcFail, hother]
    rw [if_neg (by simp [hserves, hlock]), if_neg hnot]
    rfl

/-- Settles O33. -/
theorem groupManagementCommandsComplete : Obligations.GroupManagementCommandsComplete := by
  unfold Obligations.GroupManagementCommandsComplete
  refine ⟨?cmd, ?resp, ?event, ?dist, ?announce, ?loss, ?elect, ?walk, ?relay, ?isolate⟩
  case cmd =>
    intro s u src h mh body ht
    exact congrArg Host.Outcome.next (agentTake_taken ht _)
  case resp =>
    intro s u src h mh body x hup ht hx
    refine congrArg Host.Outcome.next ((if_neg (by simp [hup])).trans ((agentTake_taken ht _).trans ?_))
    rw [hx]
  case event =>
    intro s u src h mh body hup ht
    exact congrArg Host.Outcome.next ((if_neg (by simp [hup])).trans (agentTake_taken ht _))
  case dist =>
    intro s u src h mh body ht
    exact congrArg Host.Outcome.next (agentTake_taken ht _)
  case announce =>
    intro s hup hrole hfea
    exact congrArg Host.Outcome.next (if_pos (by rw [hup, hrole, hfea]; rfl))
  case loss =>
    intro s u hmgr hfollow hrec hu
    refine congrArg Host.Outcome.next ((if_neg (by simp [hmgr])).trans ((if_neg (by simp [hfollow])).trans ?_))
    rw [hrec, hu]
    rfl
  case elect =>
    intro s hcand hlow
    exact congrArg Host.Outcome.next ((if_neg (by simp [hcand])).trans (if_neg (by simp [hlow])))
  case walk =>
    intro s hup hmgr hyield hfea hwalk
    refine congrArg Host.Outcome.next ((if_pos (by rw [hup, hmgr, hyield, hfea]; rfl)).trans ?_)
    rw [hwalk]
    rfl
  case relay =>
    intro s m ftag tag hsent
    refine congrArg Host.Outcome.next ?_
    rw [hsent]
    rfl
  case isolate =>
    intro s hiso hpower hlinks
    exact congrArg Host.Outcome.next (if_neg (by simp only [hiso, hpower, hlinks]; decide))

end Sys2Proof.Machine
end

section
/-! PROOF. Scheduling (O16), and snapshots, the recorder and power failure (O17). -/

namespace Sys2Proof.Machine

/-- What is not written is as before: a port. -/
theorem port_of_erase {w : Fields} {s t : State} (hw : w.ports = false) (h : erase w t = erase w s) (p : Nat) : t.port p = s.port p := by
  have hr := congrArg State.ports h
  simp only [erase, hide, hw, cond_false] at hr
  rw [State.port, hr, State.port]

theorem port_recordEv (s : State) (e : Ev) (die p0 p1 p2 p3 : Nat) (summary : Bool) (p : Nat) :
    (recordEv s e die p0 p1 p2 p3 summary).port p = s.port p :=
  port_of_erase (w := { ctrs := true, quads := true, fns := true, insts := true, grp := true, recd := true, out := true }) rfl
    (erase_recordEv (by decide) s e die p0 p1 p2 p3 summary) p

/-- Settles O16. -/
theorem schedulerCommandsComplete : Obligations.SchedulerCommandsComplete := by
  unfold Obligations.SchedulerCommandsComplete
  refine ⟨?start, ?departed, ?entry, ?lead, ?holdover, ?edges, ?almanac, ?routes⟩
  case start =>
    intro s p vc y q l hp hlink hleft hnot3 hsel hq hnot2
    have hany : (s.port p).leaving.any (fun t => !t.departed) = false := by
      simpa using hleft
    refine guardRes_next (portOk_of_lt hp) ((if_neg ?_).trans ?_)
    · rw [activeOrDrain hlink, hany]
      simpa using hnot3
    · simp only [hsel, hq]
      exact if_neg hnot2
  case departed =>
    intro s p k hp hk harriving habort hwin
    refine guardRes_next (portOk_of_lt hp) ?_
    simp [hk, harriving, habort, hwin]
  case entry =>
    intro s p v hp hgating hv
    refine guardRes_next (portOk_of_lt hp) ((if_neg (by simp [hgating])).trans ?_)
    simp only [hv]
  case lead =>
    intro s p v q l hp hidle hdue hq
    refine guardRes_next (portOk_of_lt hp) ((if_pos hidle).trans ?_)
    rw [hdue]
    simp [hq]
  case holdover =>
    intro s p hp htmr hgating
    refine ⟨_, guardRes_next (portOk_of_lt hp) (if_pos (by simp [htmr, hgating])), ?_⟩
    rw [closeGates, port_recordEv]
    simp
  case edges =>
    intro s p err e rest u hp hdue hu
    refine guardRes_next (portOk_of_lt hp) ?_
    rw [hdue, hu]
  case almanac =>
    intro s p y hp hy hpend hft hgating
    refine guardRes_next (portOk_of_lt hp) ?_
    subst hy
    have hadopt : ¬ (((routeDue s).port p).gate.otherBank.gating && !timeLocked (routeDue s)) = true := by
      rcases hgating with h | h <;> simp [h]
    simp only [almanacDue, adoptAlmanac]
    rw [if_pos (by simp [hpend, hft]), if_neg hadopt]
  case routes =>
    intro s hst hft
    refine ⟨_, congrArg Host.Outcome.next (if_pos ⟨hst, hft⟩), ?_⟩
    rfl

/-- Settles O17. -/
theorem snapshotRecorderAndPowerFailComplete : Obligations.SnapshotRecorderAndPowerFailComplete := by
  unfold Obligations.SnapshotRecorderAndPowerFailComplete
  refine ⟨?snap, ?fold, ?forward, ?flush, ?remap, ?pwrfail, ?restored, ?vaon⟩
  case snap =>
    intro s hst hft hfolded hwarm
    refine congrArg Host.Outcome.next ?_
    rw [adoptDue, snapDue, if_neg (by simp [hst, hft]), if_neg (by simp [hfolded]), if_neg (by simp [hwarm])]
  case fold =>
    intro s hfolded
    exact congrArg Host.Outcome.next (if_neg (by simp [hfolded]))
  case forward =>
    intro s q r l hq hrun hreset hpwr hbuf hroom hlost
    refine guardRes_next (decide_eq_true hq) ((if_pos (by simp [hrun, hreset, hpwr])).trans ?_)
    simp [forwardOne, hbuf, Nat.not_le.mpr hroom, hlost]
  case flush =>
    intro s hrun hpwr hdue
    exact congrArg Host.Outcome.next (if_pos (by simp [hrun, hpwr, hdue]))
  case remap =>
    intro s part sector hpart hsector hpower hmolzu hspares hwait hallow
    refine guardRes_next (by simp [hpart, hsector]) ?_
    rw [if_neg (by simp [hpower]), if_neg (by simp [hmolzu]), if_neg (by simp [hallow]), if_neg hspares, hwait, Bool.and_false]
    rfl
  case pwrfail =>
    intro s hpwr hpower
    have hrun : recorderRuns s = true := by rcases hpower with h | h <;> simp [recorderRuns, h]
    have hon : ¬ (s.pins.pwrfail || s.boot.power == .off) = true := by rcases hpower with h | h <;> simp [hpwr, h]
    exact congrArg Host.Outcome.next ((if_neg hon).trans (if_pos hrun))
  case restored =>
    intro s v hrun hlatch
    refine congrArg Host.Outcome.next ?_
    rw [hrun, if_pos rfl, hlatch]
  case vaon =>
    intro s
    exact ⟨_, rfl, rfl, rfl, rfl, rfl⟩

end Sys2Proof.Machine
end

section
/-! PROOF. Electrical idle and wake (O21), and power-step signalling (O23). -/

namespace Sys2Proof.Machine

/-- A lane is changed to what the change makes of its present value. -/
theorem updLane_congr {s : State} {l : Nat} {f g : Lane → Lane} (h : f (s.lane l) = g (s.lane l)) : updLane s l f = updLane s l g := by
  have hg : f (s.lanes.get l) = g (s.lanes.get l) := h
  rw [updLane, updLane, Tbl.upd, Tbl.upd, hg]

/-- [R169] the exit burst of a lane in WAKE brings it UP. -/
theorem burstEnd_wake {s : State} {l : Nat} (hst : (s.lane l).st = .wake) :
    updLane s l (fun x => { x with st := if x.st == .wake then .up else x.st, burst := false }) =
      updLane s l (fun x => { x with st := .up, burst := false }) :=
  updLane_congr (by rw [hst]; rfl)

/-- Settles O21. -/
theorem electricalIdleAndWakeComplete : Obligations.ElectricalIdleAndWakeComplete := by
  unfold Obligations.ElectricalIdleAndWakeComplete
  refine ⟨?enter, ?sent, ?partner, ?refresh, ?burstAlone, ?burstPort, ?signal, ?stream, ?align, ?batch, ?batchGranted⟩
  case enter =>
    intro s p hp hlink hidle hen hquiet hover
    exact guardRes_next (decide_eq_true hp) (if_pos (by rw [hlink, hidle, hen, hquiet, hover]; rfl))
  case sent =>
    intro s p hp hidle
    exact guardRes_next (decide_eq_true hp) (if_pos (by rw [hidle]; rfl))
  case partner =>
    intro s l hl hup
    exact guardRes_next (laneOk_of_lt hl) (if_pos hup)
  case refresh =>
    intro s p hp hidle hlong
    exact guardRes_next (decide_eq_true hp) (if_pos (by rw [hidle, decide_eq_true hlong]; rfl))
  case burstAlone =>
    intro s l hl hst hburst hp
    refine guardRes_next (laneOk_of_lt hl) ((if_pos hburst).trans ?_)
    simp only [burstEnd_wake hst, hp]
  case burstPort =>
    intro s l p t hl hst hburst ht hp hidle hothers
    refine guardRes_next (laneOk_of_lt hl) ((if_pos hburst).trans ?_)
    simp only [burstEnd_wake hst, ← ht, hp]
    exact if_neg (by rw [hidle, hothers]; decide)
  case signal =>
    intro s l hl
    exact ⟨_, guardRes_next (laneOk_of_lt hl) rfl, by simp⟩
  case stream =>
    intro s l hl hrx
    exact guardRes_next (laneOk_of_lt hl) (if_pos hrx)
  case align =>
    intro s l hl htmr
    exact guardRes_next (laneOk_of_lt hl) (if_pos htmr)
  case batch =>
    intro s hrise hgrant
    change execWakeBatch s = _
    simp only [execWakeBatch, if_pos (Or.inr hrise), hgrant]
    rfl
  case batchGranted =>
    intro s hrise hgrant hlead
    change execWakeBatch s = _
    simp only [execWakeBatch, if_pos (Or.inr hrise), hgrant, hlead]
    rfl

@[simp] theorem getStep_updStep (s : State) (g : Nat) (f : PStep → PStep) : getStep (updStep s g f) g = f (getStep s g) := by
  unfold getStep updStep
  split <;> rfl

@[simp] theorem clk_updStep (s : State) (g : Nat) (f : PStep → PStep) : (updStep s g f).clk = s.clk := by
  unfold updStep
  split <;> rfl

@[simp] theorem getStep_count (s : State) (sc : Scope) (i n g : Nat) (c : Cn) : getStep (count s sc i c n) g = getStep s g := rfl

theorem clk_count (s : State) (sc : Scope) (i n : Nat) (c : Cn) : (count s sc i c n).clk = s.clk := rfl

@[simp] theorem getStep_driveCode (s : State) (g c j : Nat) : getStep (driveCode s g c) j = getStep s j := rfl

/-- [R497] the notice has ended: the code is cleared, and nothing is left to rise. -/
theorem endStep_done {s : State} {g : Nat} (hopen : (getStep s g).code ≠ 0 ∨ (getStep s g).rise ≠ 0)
    (hcovered : (getStep s g).rise ≤ codeAmps (getStep s g).code) :
    getStep (endStep s g) g = { getStep s g with code := 0, stbAt := s.clk.now, grant := none, rise := 0, used := false } := by
  have hleft : (getStep s g).rise - codeAmps (getStep s g).code = 0 := Nat.sub_eq_zero_of_le hcovered
  have hnot : ¬ ((getStep s g).code = 0 ∧ (getStep s g).rise = 0) := by tauto
  simp only [endStep]
  rw [if_neg hnot, if_pos hleft, hleft]
  split <;> simp [clk_count]

/-- Settles O23. -/
theorem powerStepSignallingCompletes : Obligations.PowerStepSignallingCompletes := by
  unfold Obligations.PowerStepSignallingCompletes
  refine ⟨?rise, ?fall, ?lead, ?hold, ?done⟩
  case rise =>
    intro s g hg hack hcode harm hearly
    have hlead : leadPassed (updStep s g (fun y => { y with ack := true, grant := some s.clk.now })) g = false := by
      simp [leadPassed, hearly]
    refine guardRes_next (decide_eq_true hg) ((if_neg (by simp [hack])).trans ?_)
    simp [hcode, harm, hlead]
  case fall =>
    intro s g hg
    exact ⟨_, guardRes_next (decide_eq_true hg) rfl, by simp⟩
  case lead =>
    intro s g hg hlong hgrant hcode hused
    have hlead : leadPassed s g = true := decide_eq_true hlong
    refine guardRes_next (decide_eq_true hg) ((if_pos hlead).trans (if_pos ?_))
    rw [hgrant, hcode, hused]
    rfl
  case hold =>
    intro s g hg
    exact guardRes_next (decide_eq_true hg) rfl
  case done =>
    intro s g hg hopen hcovered
    refine ⟨_, guardRes_next (decide_eq_true hg) rfl, ?_⟩
    rw [endStep_done hopen hcovered]
    exact ⟨rfl, rfl, rfl, rfl⟩

end Sys2Proof.Machine
end

section
/-! PROOF. Responses and transport timers (O27). -/

namespace Sys2Proof.Machine

/-- Settles O27. -/
theorem responsesAndTransportTimersComplete : Obligations.ResponsesAndTransportTimersComplete := by
  unfold Obligations.ResponsesAndTransportTimersComplete
  refine ⟨?readResp, ?atomicResp, ?ack, ?ackDelay, ?rtoFail, ?rtoResend, ?rnr, ?hostData, ?hostAtomic, ?hostAtomicRefused, ?cxl, ?ats, ?atsFails, ?atsInvalidate,
    ?recv, ?trecv, ?rdv⟩
  case readResp =>
    intro s ep a v q y he h
    exact guardRes_next he (onResponse_answered h _)
  case atomicResp =>
    intro s ep a v q y p e idx w he h hp howner hent hwins hchecks hmiss
    refine guardRes_next he ((onResponse_answered h _).trans ?_)
    simp only [hp, howner, hent, placeLocal, hwins, hchecks, hmiss]
    rfl
  case ack =>
    intro s ep a v q y sack code ec ra np he h hext
    refine guardRes_next he ((onResponse_answered h _).trans ?_)
    simp only [hext]
  case ackDelay =>
    intro s q x hx hst hdue hlong
    change execAckDelayExpire q s = _
    simp [execAckDelayExpire, hx, hst, hdue, hlong]
  case rtoFail =>
    intro s q x psn p hx hst hp hlong hlimit
    change execRtoExpire q psn s = _
    simp only [execRtoExpire, hx, hp]
    rw [if_neg (by simp [hst, hlong]), if_pos hlimit]
  case rtoResend =>
    intro s q x psn p hx hst hp hlong hlimit
    change execRtoExpire q psn s = _
    simp only [execRtoExpire, hx, hp]
    rw [if_neg (by simp [hst, hlong]), if_neg (Nat.not_lt.mpr hlimit)]
  case rnr =>
    intro s q x n hx hst hn hlong
    change execRnrRetryAfterExpire q s = _
    simp only [execRnrRetryAfterExpire, hx, hn]
    rw [if_neg (by simp [hst, hlong])]
  case hostData =>
    intro s ep d q psn b l x p idx e he hread hx hp howner hent
    refine guardRes_next he ?_
    simp only [hread, hx, hp, howner, hent]
  case hostAtomic =>
    intro s ep o h x he hh hx hst
    refine guardRes_next he ?_
    simp only [hh, hx, Option.any_some, hst]
    rfl
  case hostAtomicRefused =>
    intro s ep h x he hh hx hst
    refine guardRes_next he ?_
    simp only [hh, hx, Option.any_some, hst]
    rfl
  case cxl =>
    intro s ep o h x he hh hx hst
    refine guardRes_next he ?_
    simp only [hh, hx, Option.any_some, hst]
    rfl
  case ats =>
    intro s fn addr len b w hf hw
    refine guardRes_next hf ?_
    simp only [hw]
  case atsFails =>
    intro s fn addr len w hf hw
    refine guardRes_next hf ?_
    simp only [hw]
  case atsInvalidate =>
    intro s fn start len hf
    refine ⟨_, guardRes_next hf rfl, ?_⟩
    simp [count, State.fn, updFn]
  case recv =>
    intro s srq r e hr hnext hgarnet herr hqui hread hfence hst hchain hlen
    change execRecv srq s = _
    simp only [execRecv, hr, hnext]
    rw [if_neg (by rw [hgarnet, herr, hqui, hread, hfence]; decide), if_neg (not_not.mpr hst), hchain]
    exact congrArg Host.Outcome.next (if_neg (Nat.not_le.mpr hlen))
  case trecv =>
    intro s srq r e u v hr hnext hgarnet herr hqui hfence hroom hst hstores hwins hcheck hwild hnone
    change execTrecv srq s = _
    have hfull : decide (storeSize ≤ (s.quad r.home).storeUsed) = false := decide_eq_false (Nat.not_le.mpr hroom)
    simp only [execTrecv, hr, hnext]
    rw [if_neg (by rw [hgarnet, herr, hqui, hfull, hfence]; decide), if_neg (not_not.mpr hst), hstores]
    simp only [hwins]
    rw [if_neg (not_not.mpr hcheck), hwild, if_neg (by simp)]
    simp only [postRecv, hnone]
  case rdv =>
    intro s q x m hx hst hm hfailed hlost hlen
    have hout : m.outcome = (stSUCCESS, false) := by
      rw [Matched.outcome, hlost, if_neg (by decide), if_neg (Nat.not_lt.mpr hlen)]
    change execRdvReadComplete q 0 s = _
    simp only [execRdvReadComplete, hx, bne_self_eq_false, Bool.false_or, hm]
    rw [if_neg (by simp [hst]), if_neg (by decide), hfailed, hout]
    rfl

end Sys2Proof.Machine
end

section
/-! PROOF. Paging, the scrubs and the end of a quarantine (O29). -/

namespace Sys2Proof.Machine

/-- Settles O29. -/
theorem pagingScrubsAndNumbersComplete : Obligations.PagingScrubsAndNumbersComplete := by
  unfold Obligations.PagingScrubsAndNumbersComplete
  refine ⟨?evicted, ?evictedStalled, ?pagedIn, ?pageInFailed, ?patrolOk, ?patrolCorrected, ?pass, ?scrubCorrected, ?scrubClean, ?scrubDirty, ?quarantine⟩
  case evicted =>
    intro s q x hx hmarked hres hstalled
    change Host.Outcome.next (evictDone s q) = _
    simp [evictDone, hx, hmarked, hres, hstalled]
  case evictedStalled =>
    intro s q x hx hmarked hres hstalled
    change Host.Outcome.next (evictDone s q) = _
    simp [evictDone, hx, hmarked, hres, hstalled]
  case pagedIn =>
    intro s q x i hx hpaging hslot hkept hcheck hpoll
    change execPageInReadComplete q (some i) s = _
    simp only [execPageInReadComplete, hx]
    rw [if_neg (by simp [hpaging])]
    simp only [Option.isSome_some, if_true, hslot, hkept, Option.isSome_none, hcheck]
    rw [if_neg (by decide), if_neg (by simpa using hpoll)]
  case pageInFailed =>
    intro s q x hx hpaging hslot hkept
    change execPageInReadComplete q none s = _
    simp only [execPageInReadComplete, hx]
    rw [if_neg (by simp [hpaging])]
    simp only [Option.isSome_none, Bool.false_eq_true, if_false, hslot, hkept]
  case patrolOk =>
    intro s stack row hstack hactive hroom
    exact guardRes_next (decide_eq_true hstack) (if_neg (by simp [hactive, hroom]))
  case patrolCorrected =>
    intro s stack row hstack hactive hroom
    exact guardRes_next (decide_eq_true hstack) (if_neg (by simp [hactive, hroom]))
  case pass =>
    intro s stack hstack hactive hday
    exact guardRes_next (decide_eq_true hstack) (if_pos (by rw [hactive, Bool.true_and, decide_eq_true_iff]; exact hday))
  case scrubCorrected =>
    intro s quad line hq hactive
    exact guardRes_next (decide_eq_true hq) (if_neg (by simp [hactive]))
  case scrubClean =>
    intro s quad line hq hactive hst hclean
    exact guardRes_next (decide_eq_true hq) ((if_neg (by simp [hactive])).trans (if_pos (by simp [hst, hclean])))
  case scrubDirty =>
    intro s quad line u hq hactive hst hdirty hu
    have hdir : ((getLine s quad line).st == .i && lineHome s line == some quad && (getDir s line).st != .i) = false := by simp [hst]
    refine guardRes_next (decide_eq_true hq) ((if_neg (by simp [hactive])).trans ((if_neg (by simp [hdirty])).trans ((if_pos (by simp [hst])).trans ?_)))
    simp only [hdir, Bool.false_eq_true, if_false, hu]
  case quarantine =>
    intro s sp num hsp
    refine ⟨_, guardRes_next (decide_eq_true hsp) rfl, ?_, ?_⟩ <;> simp only [updEp] <;> split <;> rfl

end Sys2Proof.Machine
end

section
/-! PROOF. The management chain (O31), and the board interfaces (O34). -/

namespace Sys2Proof.Machine

/-- The management chain is powered wherever its frames are served. -/
theorem chainAlive_of_runs {s : State} (h : chainRuns s = true) : chainAlive s = true := by
  simp only [chainRuns, chainAlive] at h ⊢
  rw [h]
  rfl

/-- [R419] only the head of the chain manages it. -/
theorem isChainMgr_of_notHead {s : State} (h : isHead s = false) : isChainMgr s = false := by
  rw [isChainMgr, h, Bool.false_and]

/-- Settles O31. -/
theorem chainLocksAndEnumerationComplete : Obligations.ChainLocksAndEnumerationComplete := by
  unfold Obligations.ChainLocksAndEnumerationComplete
  refine ⟨?lockUp, ?lockDown, ?lostUp, ?lostDown, ?enum, ?enumAck, ?enumDone, ?enumTmo, ?heartbeat, ?beat, ?join, ?joinSend, ?break_, ?orphan⟩
  case lockUp =>
    intro s halive hfree
    refine congrArg Host.Outcome.next ((if_neg (by simp [halive, chainLocked, hfree])).trans ?_)
    rfl
  case lockDown =>
    intro s hruns hfree
    refine congrArg Host.Outcome.next ((if_neg (by simp [chainAlive_of_runs hruns, chainLocked, hfree])).trans (if_pos ⟨rfl, hruns⟩))
  case lostUp =>
    intro s halive hlock
    exact congrArg Host.Outcome.next ((if_neg (by simp [halive, chainLocked, hlock])).trans (if_pos (Or.inl rfl)))
  case lostDown =>
    intro s hruns hlock hhead
    change execChainPortLockLost .downstream s = _
    simp only [execChainPortLockLost]
    rw [if_neg (by simp [chainAlive_of_runs hruns, chainLocked, hlock]), if_neg (by simp [hruns]), isChainMgr_of_notHead hhead]
    rfl
  case enum =>
    intro s p f h hhead hroom haddr
    refine congrArg Host.Outcome.next ((chainRx_taken h _).trans ?_)
    simp only [onEnum]
    rw [if_neg (by simp [hhead]), if_neg hroom, if_pos (Or.inr haddr)]
  case enumAck =>
    intro s p f h
    exact congrArg Host.Outcome.next (chainRx_taken h _)
  case enumDone =>
    intro s p f h
    exact congrArg Host.Outcome.next (chainRx_taken h _)
  case enumTmo =>
    intro s hruns htmr hmgr
    exact congrArg Host.Outcome.next ((if_neg (by simp [htmr, hruns])).trans (if_neg (by simp [hmgr])))
  case heartbeat =>
    intro s p f h hhead
    refine congrArg Host.Outcome.next ((chainRx_taken h _).trans ?_)
    rw [if_neg (by simp [hhead])]
  case beat =>
    intro s hruns hmgr hbeat hlock
    exact ⟨_, congrArg Host.Outcome.next ((if_pos (by simp [hruns, hmgr, hbeat])).trans (if_pos hlock)), rfl⟩
  case join =>
    intro s p f h
    exact congrArg Host.Outcome.next (chainRx_taken h _)
  case joinSend =>
    intro s hruns hhead haddr hlock
    exact congrArg Host.Outcome.next (if_pos (by simp [hruns, hhead, haddr, hlock]))
  case break_ =>
    intro s p f h
    exact congrArg Host.Outcome.next (chainRx_taken h _)
  case orphan =>
    intro s hruns hhead hfollowed
    exact congrArg Host.Outcome.next (if_pos (by simp [hruns, hhead, hfollowed]))

/-- [R513] the TAP of a powered device takes an instruction. -/
theorem tapSelect_on {s : State} (h : s.boot.power ≠ .off) (code : Nat) : (tapSelect s code).pins = { s.pins with trst := false, ir := code } := by
  rw [tapSelect, if_neg h]

/-- Settles O34. -/
theorem boardInterfaceCommandsComplete : Obligations.BoardInterfaceCommandsComplete := by
  unfold Obligations.BoardInterfaceCommandsComplete
  refine ⟨?bmcWrite, ?bmcRead, ?assign, ?rstdaa, ?alert, ?trst, ?idcode, ?sample, ?extest, ?pulse, ?train, ?clamp, ?highz, ?bypass, ?read, ?write⟩
  case bmcWrite =>
    intro s off v ok hrun hpec
    exact congrArg Host.Outcome.next ((if_neg (by simp [hrun])).trans (if_neg (by simp [hpec])))
  case bmcRead =>
    intro s off hrun
    exact congrArg Host.Outcome.next (if_pos hrun)
  case assign =>
    intro s a hrun
    exact ⟨_, congrArg Host.Outcome.next (if_pos hrun), rfl⟩
  case rstdaa =>
    intro s
    exact ⟨_, rfl, rfl⟩
  case alert =>
    intro s hrun hi3c halert
    exact congrArg Host.Outcome.next (if_pos (by rw [hrun, hi3c, halert]; rfl))
  case trst =>
    intro s
    exact ⟨_, rfl, rfl⟩
  case idcode =>
    intro s hon
    refine ⟨_, congrArg Host.Outcome.next (if_neg hon), tapSelect_on hon 1, ?_⟩
    rw [tapSelect, if_neg hon]
    rfl
  case sample =>
    intro s hon
    exact ⟨_, rfl, tapSelect_on hon _⟩
  case extest =>
    intro s hon
    exact ⟨_, rfl, tapSelect_on hon _⟩
  case pulse =>
    intro s hon
    exact ⟨_, rfl, tapSelect_on hon _⟩
  case train =>
    intro s hon
    exact ⟨_, rfl, tapSelect_on hon _⟩
  case clamp =>
    intro s hon
    exact ⟨_, rfl, tapSelect_on hon _⟩
  case highz =>
    intro s hon
    exact ⟨_, rfl, tapSelect_on hon _⟩
  case bypass =>
    intro s hon
    exact ⟨_, rfl, tapSelect_on hon _⟩
  case read =>
    intro s dr hrun hread
    exact congrArg Host.Outcome.next ((if_neg (by simp [hrun])).trans (if_neg (by rw [hread]; decide)))
  case write =>
    intro s dr hrun hwrite
    exact congrArg Host.Outcome.next ((if_neg (by simp [hrun])).trans (if_pos hwrite))

end Sys2Proof.Machine
end

section
/-! PROOF. Resets and the first steps of a start (O1). -/

namespace Sys2Proof.Machine

/-- Every field but the firmware's state. -/
def allButBoot : Fields :=
  { ident := true, clk := true, cfg := true, cfgOld := true, hostMode := true, profile := true, lanes := true, octets := true, ports := true,
    tu := true, routes := true, snap := true, ctrs := true, quads := true, eps := true, fns := true, insts := true, masters := true,
    access := true, cmds := true, ep := true, chain := true, grp := true, recd := true, tele := true, teleFt := true, life := true,
    lifePart := true, mram := true, pstepC := true, pstepS := true, therm := true, pins := true, out := true, free := true,
    pending := true }

theorem boot_of_erase {s t : State} (h : erase allButBoot t = erase allButBoot s) : t.boot = s.boot := by
  simpa only [erase, hide, allButBoot, cond_false] using congrArg State.boot h

/-- What is not written is as before: the stored configuration. -/
theorem cfg_of_erase {w : Fields} {s t : State} (hw : w.cfg = false) (h : erase w t = erase w s) : t.cfg = s.cfg := by
  simpa only [erase, hide, hw, cond_false] using congrArg State.cfg h

@[simp] theorem boot_recordEv (s : State) (e : Ev) (die p0 p1 p2 p3 : Nat) (summary : Bool) :
    (recordEv s e die p0 p1 p2 p3 summary).boot = s.boot :=
  boot_of_erase (erase_recordEv (by decide) s e die p0 p1 p2 p3 summary)

@[simp] theorem cfg_recordEv (s : State) (e : Ev) (die p0 p1 p2 p3 : Nat) (summary : Bool) :
    (recordEv s e die p0 p1 p2 p3 summary).cfg = s.cfg :=
  cfg_of_erase (w := { ctrs := true, quads := true, fns := true, insts := true, grp := true, recd := true, out := true }) rfl
    (erase_recordEv (by decide) s e die p0 p1 p2 p3 summary)

@[simp] theorem boot_tellPowerFail (s : State) : (tellPowerFail s).boot = s.boot := by
  unfold tellPowerFail
  split <;> simp

@[simp] theorem cfg_tellPowerFail (s : State) : (tellPowerFail s).cfg = s.cfg := by
  unfold tellPowerFail
  split <;> simp

/-- [R446] a cold start begins with what outlives it, and no step done. -/
theorem beginCold_boot (s : State) : (beginCold s).boot = { (coldClear s).boot with power := .run, steps := { started := true } } := by
  simp only [beginCold]
  split <;> split <;> simp [count]

theorem beginCold_cfg (s : State) : (beginCold s).cfg = s.cfg := by
  simp only [beginCold]
  split <;> split <;> simp [count, coldClear]

/-- [R446] the read of CONFIG leaves all else of the firmware's state, and the configuration. -/
theorem applyRead_boot (s : State) : (applyHostModes (applyRetired s)).boot = s.boot :=
  boot_of_erase (by simp (decide := true))

theorem applyRead_cfg (s : State) : (applyHostModes (applyRetired s)).cfg = s.cfg :=
  cfg_of_erase (w := { quads := true, hostMode := true }) rfl (by simp (decide := true))

/-- [R116] a write of an agent that leaves the steps of the start leaves them where it is refused too. -/
theorem agentWrite_steps {s : State} {m part : Nat} {f : State → State} (hf : ∀ z, (f z).boot.steps = z.boot.steps) :
    (agentWrite s m part f).boot.steps = s.boot.steps := by
  have hdenied : (denied s m (tgtEVENT_RING + part)).boot = s.boot := boot_of_erase (by simp (decide := true))
  unfold agentWrite
  split
  · rw [hdenied]
  · split
    · exact hf s
    · rfl

/-- [R446] a step of the start marks itself done. -/
theorem stepDone_steps {s t : State} {f : BootSteps → BootSteps} (h : t.boot.steps = s.boot.steps) : (stepDone t f).boot.steps = f s.boot.steps :=
  congrArg f h

/-- Settles O1. -/
theorem resetsAndFirstStartStepsComplete : Obligations.ResetsAndFirstStartStepsComplete := by
  unfold Obligations.ResetsAndFirstStartStepsComplete
  refine ⟨?porst, ?cold, ?pll, ?config, ?svcTest, ?power, ?arrays, ?hbm, ?hbmClear, ?lanes⟩
  case porst =>
    intro s
    refine ⟨_, rfl, ?_⟩
    split <;> (unfold releaseTrip; split <;> exact ⟨rfl, rfl, rfl, rfl, rfl, rfl, rfl, rfl, rfl, rfl⟩)
  case cold =>
    intro s x hheld
    have hboot := beginCold_boot { s with boot := { s.boot with straps := x, porst := false } }
    have hcfg := beginCold_cfg { s with boot := { s.boot with straps := x, porst := false } }
    refine ⟨_, if_pos hheld, ?_⟩
    split <;> simp [emit, hboot, hcfg, coldClear]
  case pll =>
    intro s hrun hpll
    refine ⟨_, if_pos (by simp [hrun, hpll]), ?_⟩
    exact boot_of_erase (s := stepDone s (fun b => { b with pll := true })) (by simp (decide := true))
  case config =>
    intro s b hpower hwarmRst hcore hconfig hpll hwarm
    change ∃ t, execBootRomConfigRead b s = .next t ∧ _
    unfold execBootRomConfigRead
    rw [if_pos (by simp [hpower, hwarmRst, hcore, hconfig, hpll])]
    refine ⟨_, rfl, ?_⟩
    rw [if_neg (by simp [hwarm]), applyRead_boot, applyRead_cfg]
    cases b <;> exact ⟨rfl, rfl⟩
  case svcTest =>
    intro s hrun hconfig
    exact if_pos (by simp [hrun, hconfig])
  case power =>
    intro s q hq hrun hconfig hst
    refine ⟨_, guardRes_next (decide_eq_true hq) (if_pos (by simp [hrun, hconfig, hst])), ?_, rfl⟩
    simp [stepDone, State.quad, updQuad]
  case arrays =>
    intro s hrun hphys
    exact if_pos (by simp [hrun, hphys])
  case hbm =>
    intro s hrun hphys htrained
    refine ⟨_, if_pos (by simp [hrun, hphys, htrained]), ?_⟩
    refine stepDone_steps (s := s) ((agentWrite_steps ?_).trans ?_)
    · exact fun _ => rfl
    · rw [boot_of_erase (s := s)]
      refine erase_foldS _ _ _ fun z q => (erase_updQuad (by decide) _ _ _).trans ?_
      exact erase_foldS _ _ _ fun z r => by simp (decide := true)
  case hbmClear =>
    intro s hrun htrained
    exact if_pos (by simp [hrun, htrained])
  case lanes =>
    intro s hrun harrays hcal
    refine ⟨_, if_pos (by simp [hrun, harrays, hcal]), ?_⟩
    dsimp only [stepDone]
    rw [boot_of_erase (s := s)]
    refine (erase_agentWrite (by decide) _ _ _ _ fun z => erase_foldS _ _ _ fun z l => erase_updLane (by decide) ..).trans ?_
    exact erase_foldS _ _ _ fun z o => erase_updOctet (by decide) ..

end Sys2Proof.Machine
end

section
/-! PROOF. Images, Molzu, FW_READY and the firmware's timers (O2). -/

namespace Sys2Proof.Machine

/-! ### The role of a manager outlives records and the adoption of schedules -/

@[simp] theorem manager_count (s : State) (sc : Scope) (i n : Nat) (c : Cn) : (count s sc i c n).grp = s.grp := rfl

/-- What is not written is as before: the group's state. -/
theorem grp_of_erase {w : Fields} {s t : State} (hw : w.grp = false) (h : erase w t = erase w s) : t.grp = s.grp := by
  simpa only [erase, hide, hw, cond_false] using congrArg State.grp h

@[simp] theorem manager_remoteReport (s : State) (r : EvRec) : (remoteReport s r).grp.manager = s.grp.manager := by
  unfold remoteReport
  split
  · rfl
  · generalize decide (s.grp.fwdAt + 1000000000 ≤ s.clk.now) = late
    simp only [apply_ite State.grp, apply_ite Group.manager, count, ite_self]

@[simp] theorem manager_enterService (s : State) (r : EvRec) : (enterService s r).grp.manager = s.grp.manager := by
  unfold enterService
  dsimp only
  split <;> simp

@[simp] theorem manager_recordEv (s : State) (e : Ev) (die p0 p1 p2 p3 : Nat) (summary : Bool) :
    (recordEv s e die p0 p1 p2 p3 summary).grp.manager = s.grp.manager := by
  have hplace (r : EvRec) : (place s r).grp.manager = s.grp.manager := by
    unfold place
    split
    · split <;> rfl
    · exact manager_enterService s r
  unfold recordEv
  dsimp only
  split
  · rw [grp_of_erase rfl (erase_raiseAll (w := { fns := true, insts := true, out := true }) rfl _ _), hplace]
  · rw [hplace]

theorem manager_dropNofit (s : State) (p vc : Nat) (l : List QPkt) : (dropNofit s p vc l).grp.manager = s.grp.manager := by
  induction l generalizing s with
  | nil => rfl
  | cons q rest ih =>
    rw [dropNofit]
    split
    · rw [ih, grp_of_erase rfl (erase_freeOrigin (w := { ports := true, ctrs := true, quads := true, out := true }) rfl _ _)]
      unfold limited
      dsimp only
      (repeat' split) <;> simp [updPort]
    · rfl

theorem manager_foldS {f : State → Nat → State} (hf : ∀ z y, (f z y).grp.manager = z.grp.manager) (l : List Nat) (s : State) :
    (foldS l s f).grp.manager = s.grp.manager := by
  unfold foldS
  induction l generalizing s with
  | nil => rfl
  | cons y l ih => exact (ih (f s y)).trans (hf s y)

theorem manager_dropAllNofit (s : State) (p : Nat) : (dropAllNofit s p).grp.manager = s.grp.manager := by
  unfold dropAllNofit
  split
  · exact manager_foldS (fun z v => manager_dropNofit z p v _) _ s
  · rfl

theorem manager_applyAlmanac (s : State) : (applyAlmanac s).grp.manager = s.grp.manager := by
  refine manager_foldS (fun z p => ?_) _ s
  dsimp only
  split
  · unfold adoptAlmanac
    dsimp only
    split
    · simp [updPort]
    · rw [manager_dropAllNofit]
      rfl
  · simp

theorem stepDone_grp (s : State) (f : BootSteps → BootSteps) : (stepDone s f).grp = s.grp := rfl

/-- The fields that the octets, the profile and the access tables of a stored configuration are applied to. -/
def configured : Fields :=
  { profile := true, lanes := true, octets := true, ports := true, ctrs := true, quads := true, fns := true, insts := true, access := true,
    grp := true, recd := true, out := true }

/-- [R446] the stored role is taken as quadrants are initialised. -/
theorem applyConfig_manager (s : State) : (applyConfig s).grp.manager = s.cfg.groupMgr := by
  unfold applyConfig
  extract_lets octets modes access was stored routes epoch ready boot
  have hcfg : access.cfg = s.cfg := by
    refine cfg_of_erase (w := configured) rfl ?_
    simp (decide := true) only [access, erase_selectProfile, erase_loadAccess, modes]
    refine (erase_foldS _ _ _ fun z h => by simp (decide := true)).trans ?_
    exact erase_foldS _ _ _ fun z o => by simp (decide := true)
  clear_value octets modes access
  have hstored : stored.grp.manager = s.cfg.groupMgr := by
    rw [← hcfg]
    rfl
  have hepoch : epoch.grp.manager = s.cfg.groupMgr := by
    rw [← hstored]
    simp only [epoch]
    split <;> rfl
  have hready : ready.grp.manager = s.cfg.groupMgr := by
    rw [← hepoch]
    simp only [ready]
    split
    · exact manager_applyAlmanac epoch
    · rfl
  exact hready

/-! ### What answers and images leave of the firmware's state -/

theorem answerCut_boot (s : State) : (answerCut s).boot = s.boot := boot_of_erase (erase_answerCut (by decide) s)

/-- [R456] resolving what ran changes no more than which slot counts as erased. -/
theorem resolveRunning_boot (s : State) : ∃ a b, (resolveRunning s).boot = { s.boot with erasedA := a, erasedB := b } := by
  unfold resolveRunning
  dsimp only
  generalize s.cmds.running = l
  induction l generalizing s with
  | nil => exact ⟨s.boot.erasedA, s.boot.erasedB, rfl⟩
  | cons x l ih =>
    rw [List.foldl_cons]
    obtain ⟨a, b, h⟩ := ih (match x.what with | .fwEnd slot => setErased s slot true | _ => s)
    refine ⟨a, b, h.trans ?_⟩
    split <;> rfl

@[simp] theorem clk_recordEv (s : State) (e : Ev) (die p0 p1 p2 p3 : Nat) (summary : Bool) :
    (recordEv s e die p0 p1 p2 p3 summary).clk = s.clk := by
  have h := congrArg State.clk (erase_recordEv
    (w := { ctrs := true, quads := true, fns := true, insts := true, grp := true, recd := true, out := true }) rfl s e die p0 p1 p2 p3 summary)
  simpa only [erase, hide, cond_false] using h

/-- [R448] destroying every function's objects leaves the firmware's state and the configuration, and so does holding time. -/
theorem boot_holdTime_destroyAll (s : State) : (holdTime (destroyAll s)).boot = s.boot :=
  (congrArg (fun x => x.2.2.2.1) (linkSided_holdTime (destroyAll s))).trans (congrArg (fun x => x.2.2.2.1) (hostSided_destroyAll s))

theorem cfg_holdTime_destroyAll (s : State) : (holdTime (destroyAll s)).cfg = s.cfg :=
  (congrArg (fun x => x.2.2.2.2.1) (linkSided_holdTime (destroyAll s))).trans (congrArg (fun x => x.2.2.2.2.1) (hostSided_destroyAll s))

/-- What is not written is as before: the commands. -/
theorem cmds_of_erase {w : Fields} {s t : State} (hw : w.cmds = false) (h : erase w t = erase w s) : t.cmds = s.cmds := by
  simpa only [erase, hide, hw, cond_false] using congrArg State.cmds h

theorem boot_count (s : State) (sc : Scope) (i n : Nat) (c : Cn) : (count s sc i c n).boot = s.boot := rfl

/-- [R459] a restart of Molzu drops FW_READY, the update and the staging buffers. -/
theorem molzuRestart_kept (s : State) (cause slot : Nat) : (molzuRestart s cause slot).boot.fwReady = false ∧
    (molzuRestart s cause slot).boot.fwRestarting = true ∧ (molzuRestart s cause slot).boot.steps.molzu = false ∧
    (molzuRestart s cause slot).boot.update = none ∧ (molzuRestart s cause slot).cmds.exportBuf = {} ∧
    (molzuRestart s cause slot).cmds.importBuf = {} := by
  unfold molzuRestart
  extract_lets next old dated dogs was prior steps routes cmds cut told
  have hboot : told.boot = cut.boot := by
    refine boot_of_erase ?_
    simp only [told]
    split <;> simp (decide := true)
  have hcmds : told.cmds = cut.cmds := by
    refine cmds_of_erase (w := { fns := true, insts := true, out := true }) rfl ?_
    simp only [told]
    split <;> simp (decide := true)
  have hrec : (recordEv (count (endUpdate told) .device 0 .fwRestart) .fwRestart svcDie cause next).cmds = told.cmds :=
    cmds_of_erase (w := { boot := true, ctrs := true, quads := true, fns := true, insts := true, grp := true, recd := true, out := true }) rfl
      (by simp (decide := true) [endUpdate])
  have hend : (count (endUpdate told) .device 0 .fwRestart).boot = { cut.boot with update := none } := by
    rw [boot_count, endUpdate, hboot]
  rw [boot_recordEv, hend, hrec, hcmds]
  exact ⟨rfl, rfl, rfl, rfl, rfl, rfl⟩

theorem cfg_count (s : State) (sc : Scope) (i n : Nat) (c : Cn) : (count s sc i c n).cfg = s.cfg := rfl

/-- [R448] what a warm start begins with. -/
theorem warmClear_kept (s : State) : (warmClear s).boot.warm = true ∧ (warmClear s).boot.warmRst = s.boot.warmRst ∧
    (warmClear s).boot.fwReady = false ∧ (warmClear s).boot.steps = { started := true } ∧ (warmClear s).cfg = s.cfg := by
  have hboot := boot_holdTime_destroyAll s
  have hcfg := cfg_holdTime_destroyAll s
  unfold warmClear
  generalize holdTime (destroyAll s) = t at hboot hcfg ⊢
  rw [← hboot, ← hcfg]
  exact ⟨rfl, rfl, rfl, rfl, rfl⟩

/-- Settles O2. -/
theorem imagesMolzuAndReadyComplete : Obligations.ImagesMolzuAndReadyComplete := by
  unfold Obligations.ImagesMolzuAndReadyComplete
  refine ⟨?restartImage, ?preferredImage, ?goldenImage, ?molzu, ?quadInit, ?ready, ?warmAssert, ?warmStart, ?tmoRestart, ?tmoStart, ?watchdog, ?rollback⟩
  case restartImage =>
    intro s a b golden hdue hrestart hcheck
    change execImageSelection a b golden s = _
    simp only [execImageSelection]
    rw [if_pos hdue, if_pos (by simp [hrestart]), if_pos hrestart, if_pos hcheck]
  case preferredImage =>
    intro s a b golden hdue hrestart hwarm hsrc hattempts hslot hcheck
    change execImageSelection a b golden s = _
    simp only [execImageSelection]
    rw [if_pos hdue, if_neg (by simp [hrestart, hwarm])]
    simp [selectCold, hsrc, Nat.not_lt.mpr hattempts, hslot, hcheck]
  case goldenImage =>
    intro s a b golden hdue hrestart hwarm hsrc hcheck
    change execImageSelection a b golden s = _
    simp only [execImageSelection]
    rw [if_pos hdue, if_neg (by simp [hrestart, hwarm])]
    simp [selectCold, hsrc, hcheck]
  case molzu =>
    intro s v hpower hwarmRst himage hmolzu hdown
    change ∃ t, execMolzuStart v s = .next t ∧ _
    unfold execMolzuStart
    rw [if_pos (by simp [hpower, hwarmRst, himage, hmolzu, hdown])]
    extract_lets done up lost clk cleared
    have hup : up.boot = done.boot := by
      refine boot_of_erase ?_
      simp only [up]
      split
      · exact (erase_foldS _ _ _ fun z q => by simp (decide := true)).trans (by simp (decide := true))
      · rfl
    have hsteps : done.boot.steps = { s.boot.steps with molzu := true } := rfl
    split
    · refine ⟨_, rfl, ?_, fun _ _ => ?_⟩
      · rw [boot_recordEv, ← hsteps, ← hup]
      · rw [clk_recordEv]
    · refine ⟨_, rfl, ?_, fun hv hrestart => ?_⟩
      · rw [hup, hsteps]
      · simp_all
  case quadInit =>
    intro s hpower hwarmRst hmolzu hinit hrestart hhbm hcal
    refine ⟨_, if_pos (by simp [hpower, hwarmRst, hmolzu, hinit, hrestart, hhbm, hcal]), ?_, ?_⟩
    · rw [stepDone]
    · rw [stepDone_grp, applyConfig_manager]
  case ready =>
    intro s hpower hwarmRst hready hdown hmolzu hinit
    change ∃ t, execFwReadySet s = .next t ∧ _
    unfold execFwReadySet
    rw [if_pos (by simp [hpower, hwarmRst, hready, hdown, hmolzu, hinit])]
    extract_lets was up told hosts fea
    have htold : told.boot = up.boot := boot_of_erase (erase_raiseAll (by decide) _ _)
    have hfea : fea.boot = up.boot := by
      rw [← htold]
      refine boot_of_erase ?_
      simp only [fea]
      split <;> simp (decide := true) [hosts]
    split
    · refine ⟨_, rfl, ?_⟩
      obtain ⟨a, b, hboot⟩ := resolveRunning_boot (answerCut told)
      rw [hboot, answerCut_boot, htold]
      exact ⟨rfl, rfl, rfl, rfl⟩
    · refine ⟨_, rfl, ?_⟩
      rw [boot_of_erase (erase_foldS _ _ portUp fun z p => erase_portUp (by decide) z p), hfea]
      exact ⟨rfl, rfl, rfl, rfl⟩
  case warmAssert =>
    intro s hporst hwarmRst hpower
    change ∃ t, execWarmRstNAssert s = .next t ∧ _
    unfold execWarmRstNAssert
    rw [if_neg (by simp [hporst, hwarmRst, hpower])]
    extract_lets told kept boot
    have hkept : kept.boot = s.boot := by
      refine boot_of_erase ((erase_foldS _ _ _ fun z q => by simp (decide := true)).trans ?_)
      simp only [told]
      split <;> simp (decide := true)
    refine ⟨_, rfl, rfl, rfl, ?_⟩
    rw [← hpower, ← hkept]
  case warmStart =>
    intro s hwarmRst hpower hcore hcause
    refine ⟨_, if_pos (by simp [hwarmRst, hpower, hcore]), ?_⟩
    rw [beginWarm, hcause]
    dsimp only
    rw [boot_tellPowerFail, cfg_tellPowerFail]
    obtain ⟨hwarm, hrst, hready, hsteps, hcfg⟩ := warmClear_kept { s with boot := { s.boot with warmRst := false } }
    rw [boot_count, cfg_count]
    exact ⟨hwarm, hrst, hready, hsteps, hcfg⟩
  case tmoRestart =>
    intro s hpower hready hdown hwarmRst hrestart himage hgolden
    refine (if_neg (by simp [hpower, hready, hdown, hwarmRst])).trans ((if_pos hrestart).trans ((if_neg (by simp [himage])).trans (if_neg (by simp [hgolden]))))
  case tmoStart =>
    intro s hpower hready hdown hwarmRst hrestart hmolzu hslot
    refine (if_neg (by simp [hpower, hready, hdown, hwarmRst])).trans ((if_neg (by simp [hrestart])).trans ((if_pos hmolzu).trans ?_))
    have hnot : (s.boot.slot == 2) = false := by simp; omega
    rw [hnot]
    rfl
  case watchdog =>
    intro s hruns
    exact ⟨_, congrArg Host.Outcome.next (if_pos hruns), molzuRestart_kept (cutHead s) 0 s.boot.slot⟩
  case rollback =>
    intro s hready hlong hslot hpart
    change execAntiRollbackRaise s = _
    rw [execAntiRollbackRaise, if_pos ?_]
    rw [hready, hpart, decide_eq_true hslot, Bool.true_and, Bool.and_true, Bool.and_true, decide_eq_true_iff]
    exact hlong

end Sys2Proof.Machine
end

section
/-! PROOF. Reads and writes of the register space (O4). -/

namespace Sys2Proof.Machine

/-! ### Where the registers of the shared windows lie -/

/-- The select registers have no access table: their write reaches every master but a virtual function. -/
theorem write32_chsel {s : State} {m : Nat} (hv : isVf s m = false) (v : Nat) :
    write32 s m 0x20000 v = (.ok, writeChsel s m 0 v) :=
  write32_open s m 0x20000 v .chsel 0 (blockOf_shared s m _ 0x20000 .chsel (by decide) hv (by decide) (by decide)) rfl

theorem read32_chsel {s : State} {m : Nat} (hv : isVf s m = false) : read32 s m 0x20000 = ((s.master m).portSel, .ok, s) :=
  read32_open s m 0x20000 .chsel 0 (blockOf_shared s m _ 0x20000 .chsel (by decide) hv (by decide) (by decide)) rfl

theorem write32_doorbell {s : State} {m : Nat} (hi : hasInst s m = true) (hv : isVf s m = false) (v : Nat) :
    (write32 s m 0x12000 v).2 = if v % 2 = 1 then ringDoorbell s m else s := by
  rw [write32_open s m 0x12000 v .mailbox 0x2000 (blockOf_mailbox s m _ hi hv (by decide) (by decide)) rfl]
  rfl

/-- [R96 R118] a granted write of a window with an access table reaches its block. -/
theorem write32_window {s : State} {m : Nat} {b : Block} {base tgt : Nat} (hw : (b, base) ∈ sharedWindows) (ht : b.target = some tgt)
    (hv : isVf s m = false) (ha : allowed s m tgt true = true) {o : Nat} (ho : o < 0x1000) (v : Nat) :
    write32 s m (base + o) v = writeBlock s m b o v := by
  have hb := blockOf_shared s m (base + o) base b hw hv (by omega) (by omega)
  rw [Nat.add_sub_cancel_left] at hb
  exact write32_granted s m _ v tgt b o hb ht ha

/-- [R96 R118] a granted read of a window with an access table reaches its block. -/
theorem read32_window {s : State} {m : Nat} {b : Block} {base tgt : Nat} (hw : (b, base) ∈ sharedWindows) (ht : b.target = some tgt)
    (hv : isVf s m = false) (ha : allowed s m tgt false = true) {o : Nat} (ho : o < 0x1000) :
    read32 s m (base + o) = readBlock s m b o := by
  have hb := blockOf_shared s m (base + o) base b hw hv (by omega) (by omega)
  rw [Nat.add_sub_cancel_left] at hb
  exact read32_granted s m _ tgt b o hb ht ha

/-- [R95] a write of a window whose selected resource exists. -/
theorem windowWrite_ok (s : State) (m : Nat) {ok : Bool} (h : ok = true) (t : State) : windowWrite s m ok t = (.ok, t) := by
  rw [windowWrite, h, if_pos rfl]

/-! ### The access itself -/

/-- [R81] the select register PORT_SEL takes the word written, four bytes at its offset. -/
theorem regWrite_portSel {s : State} {m v : Nat} (hv : isVf s m = false) (h : v < 512) :
    (regWrite s m 0x20000 (leBytes 4 v)).2 = updMaster s m (fun x => { x with portSel := v }) := by
  have hbar : barTwo s m 0x20000 = false := by simp [barTwo]
  have hblock : blockOf s m 0x20000 = some (.chsel, 0) := blockOf_shared s m _ 0x20000 .chsel (by decide) hv (by decide) (by decide)
  have hkind : writeKind s m 0x20000 = 2 := by simp [writeKind, hbar, hblock]
  have hword : leNat (leBytes 4 v) = v := by simp [leNat, leBytes]; omega
  have hfld : fld v 0 9 = v := by simp [fld]; omega
  have hlen : (leBytes 4 v).length = 4 := rfl
  simp only [regWrite, hkind, hlen, hword]
  simp [natural, write32_chsel hv, writeChsel, hfld]

/-- [R95] the select register PORT_SEL reads as it stands. -/
theorem regRead_portSel {s : State} {m : Nat} (hv : isVf s m = false) (h : (s.master m).portSel < 512) :
    regRead s m 0x20000 4 = ((s.master m).portSel, .ok, s) := by
  have hbar : barTwo s m 0x20000 = false := by simp [barTwo]
  have hblock : blockOf s m 0x20000 = some (.chsel, 0) := blockOf_shared s m _ 0x20000 .chsel (by decide) hv (by decide) (by decide)
  have hbox : inMailboxArea s m 0x20000 = false := by simp [inMailboxArea, hblock]
  have hfld : fld (s.master m).portSel 0 32 = (s.master m).portSel := by simp [fld]; omega
  simp only [regRead, hbar, hbox]
  simp [natural, read32_chsel hv, hfld]

/-! ### Status, interrupts and doorbells -/

/-- [R90] a board master's status sends no interrupt. -/
theorem writeCause_board {s : State} {m : Nat} (hf : fnExists s m = false) (v : Nat) :
    writeCause s m v = updInst s m (fun i => { i with cause := i.cause &&& ~~~ (BitVec.ofNat 9 v) }) := by
  have hf' : fnExists (updInst s m (fun i => { i with cause := i.cause &&& ~~~ (BitVec.ofNat 9 v) })) m = false := hf
  simp [writeCause, hf']

/-- [R90] a master that is no virtual function writes all nine mask bits. -/
theorem writeMask_board {s : State} {m : Nat} (hf : fnExists s m = false) (hv : isVf s m = false) (v : Nat) :
    writeMask s m v = updInst s m (fun i => { i with mask := BitVec.ofNat 9 v }) := by
  have hfull (b : BitVec 9) : b &&& 0x1FF#9 = b := BitVec.and_allOnes
  simp [writeMask, changeStatus, hf, causeBits, hv, hfull]

/-- [R91] without bus-master enable no pending vector leaves. -/
theorem releasePending_noBme {s : State} {f : Nat} (h : (s.fn f).bme = false) : releasePending s f = s := by
  simp [releasePending, h]

theorem hiHalf_word (v : Word32) : fld v.toNat 16 16 = v.toNat / 2 ^ 16 := by
  simp only [fld]
  exact Nat.mod_eq_of_lt (by have := v.isLt; omega)

/-- [R99] bit 0 of a doorbell word. -/
theorem odd_of_lsb {v : Word32} (h : v.getLsbD 0 = true) : v.toNat % 2 = 1 := by
  simpa [BitVec.getLsbD, Nat.testBit_zero] using h

theorem even_of_lsb {v : Word32} (h : v.getLsbD 0 = false) : ¬ v.toNat % 2 = 1 := by
  simpa [BitVec.getLsbD, Nat.testBit_zero] using h

/-- [R101] the service of a mailbox moves none of the waiting commands. -/
theorem cmds_mbToService (s : State) (m n : Nat) : (mbToService s m n).cmds = s.cmds := by
  unfold mbToService toService
  split
  · exact cmds_of_erase (w := { quads := true, out := true }) rfl (by simp (decide := true))
  · rfl

/-- [R99] a doorbell of a mailbox that is not PENDING queues the command area and makes it PENDING. -/
theorem ringDoorbell_idle {s : State} {m : Nat} (h : (s.inst m).mbState ≠ 1) :
    (ringDoorbell s m).cmds.queue = s.cmds.queue ++ [areaCommand s m] ∧ ((ringDoorbell s m).inst m).mbState = 1 := by
  rw [ringDoorbell, if_neg h]
  dsimp only
  refine ⟨?_, ?_⟩
  · change (mbToService s m _).cmds.queue ++ _ = _
    rw [cmds_mbToService]
  · change ((updInst (mbToService s m _) m _).inst m).mbState = 1
    simp

/-! ### Records and counters -/

/-- [R475] the low half of a counter, read from an even register, changes the shadow of its master alone. -/
theorem read32_counter {s : State} {m k : Nat} (hv : isVf s m = false) (hk : k < 510) (ha : allowed s m tgtCOUNTER false = true)
    {a : Nat × State} (h : counterReg s m (8 * k) = some a) : read32 s m (0x35000 + 8 * k) = (a.1, .ok, a.2) := by
  rw [read32_window (b := .counterW) (by decide) rfl hv ha (by omega)]
  simp only [readBlock, h]

/-- [R109] the last word of a shown record moves the read pointer on. -/
theorem advanceRdPtr_shown {s : State} {m : Nat} (h : (shownRecords s).any (fun r => r.seq == rdPtrOf s m) = true) :
    advanceRdPtr s m = updMaster s m (fun x => { x with rdPtr := rdPtrOf s m + 1 }) := by
  unfold advanceRdPtr
  dsimp only
  rw [h, Bool.true_or, if_pos rfl]

/-- Settles O4. -/
theorem registerCommandsComplete : Obligations.RegisterCommandsComplete := by
  unfold Obligations.RegisterCommandsComplete
  refine ⟨?write, ?read, ?cause, ?mask, ?vector, ?function, ?ring, ?busy, ?noRing, ?ft, ?arm, ?cancel, ?record, ?counter, ?lane, ?octet,
    ?limits, ?backing⟩
  case write => exact fun s m v hm hv h => guardRes_next hm (regWrite_portSel hv h)
  case read =>
    exact fun s m hm hv h => guardRes_next hm (by rw [answerRead, regRead_portSel hv h]; rfl)
  case cause => exact fun s m v hi hf => guardRes_next hi (writeCause_board hf v.toNat)
  case mask => exact fun s m v hi hf hv => guardRes_next hi (writeMask_board hf hv v.toNat)
  case vector =>
    refine fun s f v hf hb => guardRes_next hf (releasePending_noBme ?_)
    simpa using hb
  case function =>
    intro s f v hf hb hp hm
    refine guardRes_next hf ?_
    simp [unmaskFn, releasePending, hb, hp, hm, Tbl.find, foldS]
  case ring =>
    intro s m v hi hv hb hp
    obtain ⟨hq, hst⟩ := ringDoorbell_idle hp
    exact ⟨_, guardRes_next hi ((write32_doorbell hi hv _).trans (if_pos (odd_of_lsb hb))), hq, hst⟩
  case busy =>
    intro s m v hi hv hb hp
    exact guardRes_next hi ((write32_doorbell hi hv _).trans ((if_pos (odd_of_lsb hb)).trans (if_pos hp)))
  case noRing =>
    intro s m v hi hv hb
    exact guardRes_next hi ((write32_doorbell hi hv _).trans (if_neg (even_of_lsb hb)))
  case ft =>
    intro s m hm hv ha
    refine ⟨_, guardRes_next hm (congrArg _ (read32_window (b := .time) (o := 0) (by decide) rfl hv ha (by decide))), rfl, ?_, ?_, rfl⟩
    · change ((updMaster s m _).master m).ftHi = _
      simp [hiHalf]
    · change ((updMaster s m _).master m).ftFrac = _
      simp
  case arm =>
    intro s m hm hv ha hst hval hlt
    refine guardRes_next hm ((congrArg _ (write32_window (b := .time) (o := 0x18) (by decide) rfl hv ha (by decide) 1)).trans ?_)
    change armSnap s = _
    have hahead : ¬ s.snap.ft.toNat ≤ s.clk.ft.toNat := by omega
    simp [armSnap, hst, hval, hahead]
  case cancel =>
    intro s m hm hv ha hst
    refine guardRes_next hm ((congrArg _ (write32_window (b := .time) (o := 0x18) (by decide) rfl hv ha (by decide) 2)).trans ?_)
    exact if_pos hst
  case record =>
    intro s m hm hv ha hr
    have hread : read32 s m 0x5003C = (eventWord s m 7, .ok, advanceRdPtr s m) :=
      read32_window (b := .event) (o := 0x3C) (by decide) rfl hv ha (by decide)
    refine ⟨_, guardRes_next hm (by rw [answerRead, hread, advanceRdPtr_shown hr]), rfl, ?_, rfl⟩
    simp
  case counter =>
    intro s m k hm hv hk ha hs
    obtain ⟨a, h⟩ := Option.isSome_iff_exists.mp hs
    have hread : answerRead m (read32 s m (0x35000 + 8 * k)) = { a.2 with out := a.2.out ++ [.readData m a.1] } := by
      rw [answerRead, read32_counter hv hk ha h]
      rfl
    exact ⟨_, guardRes_next (by simp [hm, hk]) hread, a, h, rfl⟩
  case lane =>
    intro s m v hm hv ha hl
    have hwrite : (write32 s m 0x31004 v.toNat).2 = writeLaneCfg s (s.master m).laneSel v.toNat := by
      rw [write32_window (b := .laneW) (base := 0x31000) (o := 4) (by decide) rfl hv ha (by decide)]
      exact congrArg _ (windowWrite_ok s m hl _)
    refine ⟨_, guardRes_next hm hwrite, ?_, ?_⟩
    · have hlane (x : Lane → Lane) : (updLane s (s.master m).laneSel x).lane (s.master m).laneSel = x (s.lane (s.master m).laneSel) := by simp
      unfold writeLaneCfg
      dsimp only
      split <;> exact congrArg Lane.cfg (hlane _)
    · unfold writeLaneCfg
      dsimp only
      split <;> rfl
  case octet =>
    intro s m v hm hv ha ho
    refine guardRes_next hm ?_
    rw [write32_window (b := .octetW) (base := 0x32000) (o := 8) (by decide) rfl hv ha (by decide)]
    refine (congrArg _ (windowWrite_ok s m ho _)).trans ?_
    simp [writeOctTimers, fld]
  case limits =>
    intro s m v hm hv ha hp hle
    have hlow : fld v.toNat 0 16 = v.toNat % 2 ^ 16 := by simp [fld]
    have hwrite : (write32 s m 0x3001C v.toNat).2 = writePort s (s.master m).portSel 0x1C v.toNat := by
      rw [write32_window (b := .portW) (base := 0x30000) (o := 0x1C) (by decide) rfl hv ha (by decide)]
      exact congrArg _ (windowWrite_ok s m hp _)
    have hport : (writePort s (s.master m).portSel 0x1C v.toNat).port (s.master m).portSel =
        { s.port (s.master m).portSel with sharedMin := v.toNat % 2 ^ 16, sharedMax := v.toNat / 2 ^ 16 } := by
      simp only [writePort, hlow, hiHalf_word, if_pos hle]
      simp
    exact ⟨_, guardRes_next hm hwrite, congrArg Port.sharedMin hport, congrArg Port.sharedMax hport, rfl⟩
  case backing =>
    intro s m v hm hv ha hh hnone hle
    have hwrite : (write32 s m (0x33000 + 0x03C) v.toNat).2 = writeHost s (hostSelEp (s.master m).hostSel) 0x3C v.toNat := by
      rw [write32_window (b := .hostW) (o := 0x3C) (by decide) rfl hv ha (by decide)]
      exact congrArg _ (windowWrite_ok s m hh _)
    have hslots : fld v.toNat 0 23 = v.toNat := by simp [fld]; omega
    have hback : writeHost s (hostSelEp (s.master m).hostSel) 0x3C v.toNat =
        updHost s (hostSelEp (s.master m).hostSel) (fun x => { x with backSlots := v.toNat }) := by
      simp [writeHost, writeBacking, hnone, hslots, inRange, hle]
    refine ⟨_, guardRes_next (by simp [hm]) (hwrite.trans hback), ?_, rfl⟩
    simp

end Sys2Proof.Machine
end

section
/-! PROOF. Host ports, functions, the flash and SPDM (O3). -/

namespace Sys2Proof.Machine

/-! ### Bus-master enable and quiescence of the functions

Only the commands of the host ports, a function's configuration and its resets write these two bits; what the collectives, completions
and interrupts do to a function leaves them as they were. -/

/-- Bus-master enable and quiescence, by function. -/
def bus (s : State) (j : Nat) : Bool × Bool := ((s.fn j).bme, (s.fn j).quiesced)

theorem bits_of_bus {s : State} {f : Nat} {b q : Bool} (h : bus s f = (b, q)) : (s.fn f).bme = b ∧ (s.fn f).quiesced = q := Prod.mk.inj h

def allButFns : Fields :=
  { ident := true, clk := true, boot := true, cfg := true, cfgOld := true, hostMode := true, profile := true, lanes := true, octets := true,
    ports := true, tu := true, routes := true, snap := true, ctrs := true, quads := true, eps := true, insts := true, masters := true,
    access := true, cmds := true, ep := true, chain := true, grp := true, recd := true, tele := true, teleFt := true, life := true,
    lifePart := true, mram := true, pstepC := true, pstepS := true, therm := true, pins := true, out := true, free := true,
    pending := true }

theorem bus_of_erase {s t : State} (h : erase allButFns t = erase allButFns s) : bus t = bus s := by
  have hfns : t.fns = s.fns := by simpa only [erase, hide, allButFns, cond_false] using congrArg State.fns h
  unfold bus State.fn
  rw [hfns]

theorem bus_foldl {α : Type} {f : State → α → State} (hf : ∀ z y, bus (f z y) = bus z) (l : List α) (s : State) :
    bus (l.foldl f s) = bus s := by
  induction l generalizing s with
  | nil => rfl
  | cons y l ih => exact (ih (f s y)).trans (hf s y)

theorem bus_foldS {f : State → Nat → State} (hf : ∀ z y, bus (f z y) = bus z) (l : List Nat) (s : State) : bus (foldS l s f) = bus s :=
  bus_foldl hf l s

/-- A change of a function that keeps its two bits keeps those of all. -/
theorem bus_updFn {f : Fn → Fn} (hf : ∀ x, (f x).bme = x.bme ∧ (f x).quiesced = x.quiesced) (s : State) (m : Nat) :
    bus (updFn s m f) = bus s := by
  funext j
  simp only [bus, updFn_fn]
  split
  next h => subst h; simp [hf]
  · rfl

@[simp] theorem bus_emit (s : State) (o : Out) : bus (emit s o) = bus s := rfl
@[simp] theorem bus_updInst (s : State) (m : Nat) (f : Inst → Inst) : bus (updInst s m f) = bus s := rfl
@[simp] theorem bus_count (s : State) (sc : Scope) (i n : Nat) (c : Cn) : bus (count s sc i c n) = bus s := rfl
@[simp] theorem bus_updEp (s : State) (f : Endpoint → Endpoint) : bus (updEp s f) = bus s := rfl
@[simp] theorem bus_updQp (s : State) (q : Nat) (f : Qp → Qp) : bus (updQp s q f) = bus s := rfl
@[simp] theorem bus_updSrq (s : State) (q : Nat) (f : Srq → Srq) : bus (updSrq s q f) = bus s := rfl
@[simp] theorem bus_updCq (s : State) (q : Nat) (f : Cq → Cq) : bus (updCq s q f) = bus s := rfl
@[simp] theorem bus_updEq (s : State) (q : Nat) (f : Eq → Eq) : bus (updEq s q f) = bus s := rfl
@[simp] theorem bus_updTree (s : State) (id : Nat) (f : Tree → Tree) : bus (updTree s id f) = bus s := rfl
@[simp] theorem bus_updHost (s : State) (e : Nat) (f : HostEp → HostEp) : bus (updHost s e f) = bus s := rfl
@[simp] theorem bus_updQuad (s : State) (q : Nat) (f : Quad → Quad) : bus (updQuad s q f) = bus s := rfl

@[simp] theorem bus_updColl (s : State) (id : Nat) (seq : BitVec 32) (f : Coll → Coll) : bus (updColl s id seq f) = bus s :=
  bus_of_erase (by simp (decide := true))
@[simp] theorem bus_updRing (s : State) (q : Nat) (f : Ring → Ring) : bus (updRing s q f) = bus s :=
  bus_of_erase (by simp (decide := true))
@[simp] theorem bus_dma (s : State) (f addr : Nat) (bytes : List Byte) : bus (dma s f addr bytes) = bus s :=
  bus_of_erase (by simp (decide := true))
@[simp] theorem bus_countStatus (s : State) (e st : Nat) : bus (countStatus s e st) = bus s :=
  bus_of_erase (by simp (decide := true))
@[simp] theorem bus_lookup (s : State) (k : CohReq) (c : Nat) (l : LineId) : bus (lookup s k c l) = bus s :=
  bus_of_erase (by simp (decide := true))
@[simp] theorem bus_place (s : State) (r : EvRec) : bus (place s r) = bus s :=
  bus_of_erase (by simp (decide := true))
@[simp] theorem bus_sendTree (s : State) (id : Nat) (t : Tree) (p : Nat) (c : CollHdr) (payload : List Byte) :
    bus (sendTree s id t p c payload) = bus s := rfl
@[simp] theorem bus_sendTreeCredit (s : State) (id e n : Nat) : bus (sendTreeCredit s id e n) = bus s :=
  bus_of_erase (by simp (decide := true))
@[simp] theorem bus_countFlags (s : State) (id : Nat) (t : Tree) (c : Coll) : bus (countFlags s id t c) = bus s :=
  bus_of_erase (by simp (decide := true))
@[simp] theorem bus_crossOpal (s : State) (f id n : Nat) (b : Bool) : bus (crossOpal s f id n b) = bus s :=
  bus_of_erase (by simp (decide := true))
@[simp] theorem bus_dmaScatter (s : State) (l : List (Nat × Nat × Nat)) (bytes : List Byte) : bus (dmaScatter s l bytes) = bus s :=
  bus_of_erase (by simp (decide := true))
@[simp] theorem bus_pumpUp (s : State) (id k : Nat) : bus (pumpUp s id k) = bus s := bus_of_erase (by simp (decide := true))
@[simp] theorem bus_pumpDown (s : State) (id k : Nat) : bus (pumpDown s id k) = bus s := bus_of_erase (by simp (decide := true))
@[simp] theorem bus_finishColl (s : State) (id : Nat) (seq : BitVec 32) : bus (finishColl s id seq) = bus s :=
  bus_of_erase (by simp (decide := true))
@[simp] theorem bus_activate (s : State) (id : Nat) (h : CollHdr) : bus (activate s id h) = bus s :=
  bus_of_erase (by simp (decide := true))
@[simp] theorem bus_addBlocks (s : State) (id : Nat) (seq : BitVec 32) (edge : Nat) (l : List Contrib) (b : Nat) :
    bus (addBlocks s id seq edge l b) = bus s := bus_of_erase (by simp (decide := true))
@[simp] theorem bus_unmarkFor (s : State) (f : Nat) : bus (unmarkFor s f) = bus s := bus_of_erase (by simp (decide := true))

/-! #### Interrupts and records -/

@[simp] theorem bus_sendMsix (s : State) (f v : Nat) : bus (sendMsix s f v) = bus s := by
  unfold sendMsix
  split
  · refine bus_updFn (fun _ => ?_) s f
    exact ⟨rfl, rfl⟩
  · rfl

@[simp] theorem bus_signalVec (s : State) (f v : Nat) : bus (signalVec s f v) = bus s := by
  unfold signalVec
  split
  · refine (bus_updFn (fun _ => ?_) _ f).trans (bus_sendMsix s f v)
    exact ⟨rfl, rfl⟩
  · refine bus_updFn (fun _ => ?_) s f
    exact ⟨rfl, rfl⟩

@[simp] theorem bus_changeStatus (s : State) (m : Nat) (f : Inst → Inst) : bus (changeStatus s m f) = bus s := by
  unfold changeStatus
  dsimp only
  split <;> simp

@[simp] theorem bus_raiseAll (s : State) (b : BitVec 9) : bus (raiseAll s b) = bus s :=
  bus_foldl (fun z m => bus_changeStatus z m _) _ s

@[simp] theorem bus_recordEv (s : State) (e : Ev) (die p0 p1 p2 p3 : Nat) (summary : Bool) :
    bus (recordEv s e die p0 p1 p2 p3 summary) = bus s := by
  unfold recordEv
  dsimp only
  split <;> simp

theorem bus_limited {mk : State → Nat → Bool → State} (hmk : ∀ z n b, bus (mk z n b) = bus z) (s : State) (e : Ev) (obj period : Nat) :
    bus (limited s e obj period mk) = bus s := by
  unfold limited
  extract_lets l due
  split
  · exact hmk _ _ _
  · rfl

@[simp] theorem bus_denied (s : State) (m t : Nat) : bus (denied s m t) = bus s :=
  bus_limited (fun _ _ _ => bus_recordEv _ _ _ _ _ _ _ _) _ _ _ _

@[simp] theorem bus_collAbortEvent (s : State) (id : Nat) (seq : BitVec 32) (st : Nat) : bus (collAbortEvent s id seq st) = bus s :=
  bus_limited (fun _ _ _ => bus_recordEv _ _ _ _ _ _ _ _) _ _ _ _

/-! #### Completions -/

theorem bus_useLine {s t : State} {f eng kind num : Nat} {w : Bool}
    (h : useLine s f eng w kind num = .inl t ∨ useLine s f eng w kind num = .inr t) : bus t = bus s := by
  unfold useLine engineUse at h
  split at h
  · rcases h with h | h <;> cases h
    rfl
  · split at h <;> rcases h with h | h <;> cases h <;> simp

@[simp] theorem bus_putCqe (s : State) (n : Nat) (c : Cq) (e : CqEnt) (solicit : Bool) : bus (putCqe s n c e solicit) = bus s := by
  unfold putCqe
  dsimp only
  split <;> simp

@[simp] theorem bus_cqComplete (s : State) (n : Nat) (e : CqEnt) (solicit : Bool) : bus (cqComplete s n e solicit) = bus s := by
  unfold cqComplete
  split
  · rfl
  · split
    · rfl
    · split
      · simp
      · split
        next t h => exact bus_useLine (.inl h)
        next t h =>
          split
          · exact (bus_updCq _ _ _).trans (bus_useLine (.inr h))
          · exact (bus_putCqe _ _ _ _ _).trans (bus_useLine (.inr h))

@[simp] theorem bus_writeEq (s : State) (f kind status qkind num : Nat) (wqe : BitVec 16) :
    bus (writeEq s f kind status qkind num wqe) = bus s := by
  unfold writeEq
  split
  · rfl
  · split
    · rfl
    · split
      next t h => exact bus_useLine (.inl h)
      next t h => simpa using bus_useLine (.inr h)

@[simp] theorem bus_reportSend (s : State) (q : Nat) (x : Qp) (wqe : BitVec 16) (signal : Bool) (op status bytes : Nat) (extra : List Byte) :
    bus (reportSend s q x wqe signal op status bytes extra) = bus s := by
  unfold reportSend
  (repeat' split) <;> simp

@[simp] theorem bus_completeEnt (s : State) (q : Nat) (idx : BitVec 32) (status bytes : Nat) (extra : List Byte) :
    bus (completeEnt s q idx status bytes extra) = bus s := by
  unfold completeEnt
  (repeat' split) <;> simp

/-! #### Collectives -/

@[simp] theorem bus_endColl (s : State) (id : Nat) (seq : BitVec 32) (st : Nat) (from_ : Option Nat) :
    bus (endColl s id seq st from_) = bus s := by
  unfold endColl
  split
  · rfl
  next t _ =>
    split
    · rfl
    · dsimp only
      have told (l : List Nat) (x : CollHdr) : bus (foldS l s (fun s e =>
          match t.edgePort e with
          | some p => sendTree s id t p x []
          | none => s)) = bus s :=
        bus_foldS (fun z e => by split <;> simp) _ _
      rw [bus_collAbortEvent, bus_count, bus_updTree, bus_foldl (fun _ _ => bus_sendTreeCredit _ _ _ _)]
      split
      · exact told _ _
      · have members (z : State) (l : List Member) (x : List Byte) :
            bus (l.foldl (fun s m => completeEnt s m.qp m.idx st 0 x) z) = bus z :=
          bus_foldl (fun _ _ => bus_completeEnt _ _ _ _ _ _) _ _
        (repeat' split) <;> simp only [bus_sendTreeCredit, members, bus_countFlags] <;> exact told _ _

@[simp] theorem bus_placeMember (s : State) (id : Nat) (seq : BitVec 32) (m : Member) (off : Nat) (bytes : List Byte) (blocks : Nat) :
    bus (placeMember s id seq m off bytes blocks) = bus s := by
  unfold placeMember
  dsimp only
  (repeat' split) <;> simp

@[simp] theorem bus_goDown (s : State) (id : Nat) (seq : BitVec 32) (first n : Nat) (bytes : List Byte) :
    bus (goDown s id seq first n bytes) = bus s := by
  unfold goDown
  split
  · dsimp only
    (repeat' split) <;> simp [bus_foldl]
  · rfl

@[simp] theorem bus_finishBlock (s : State) (id : Nat) (seq : BitVec 32) (b : Nat) : bus (finishBlock s id seq b) = bus s := by
  unfold finishBlock
  dsimp only
  (repeat' split) <;> simp

@[simp] theorem bus_allEmpty (s : State) (id : Nat) (seq : BitVec 32) : bus (allEmpty s id seq) = bus s := by
  unfold allEmpty
  (repeat' split) <;> simp

@[simp] theorem bus_contribute (s : State) (id edge : Nat) (h : CollHdr) (xs : List Contrib) (bytes : Nat) :
    bus (contribute s id edge h xs bytes) = bus s := by
  unfold contribute
  dsimp only
  (repeat' split) <;> simp

@[simp] theorem bus_takeUp (s : State) (id edge : Nat) (h : CollHdr) (payload : List Byte) : bus (takeUp s id edge h payload) = bus s := by
  unfold takeUp
  (repeat' split) <;> simp

@[simp] theorem bus_releaseHold (s : State) (id n : Nat) : bus (releaseHold s id n) = bus s := by
  induction n generalizing s with
  | zero => rfl
  | succ k ih =>
    unfold releaseHold
    split
    · rfl
    · split
      · rfl
      · dsimp only
        split <;> simp [ih]

@[simp] theorem bus_abortColls (s : State) (q : Nat) : bus (abortColls s q) = bus s := by
  refine bus_foldS (fun z id => ?_) _ _
  split
  · rfl
  · exact bus_foldl (fun _ _ => by simp) _ _

@[simp] theorem bus_abortFnColls (s : State) (f : Nat) : bus (abortFnColls s f) = bus s := bus_foldS bus_abortColls _ _

/-! #### The quiescence of a function -/

@[simp] theorem bus_freeChunks (s : State) (h f n : Nat) : bus (freeChunks s h f n) = bus s := by
  refine bus_updFn (fun _ => ?_) _ f
  exact ⟨rfl, rfl⟩

@[simp] theorem bus_dropWaiting (s : State) (q : Nat) : bus (dropWaiting s q) = bus s := by
  unfold dropWaiting
  split
  · rfl
  · dsimp only
    (repeat' split) <;> simp

/-- [R460] a function whose queues are quiesced is no bus master and is quiesced. -/
theorem bus_quiesceQueues (s : State) (f : Nat) : bus (quiesceQueues s f) f = (false, true) := by
  unfold quiesceQueues
  dsimp only
  rw [bus_foldS (fun _ _ => bus_updEq _ _ _), bus_foldS (fun _ _ => bus_updCq _ _ _), bus_foldS (fun _ _ => bus_updSrq _ _ _),
    bus_foldS (fun _ _ => (bus_updQp _ _ _).trans (bus_dropWaiting _ _))]
  split
  · rw [bus_unmarkFor]
    simp [bus]
  · simp [bus]

theorem bus_quiesceFn (s : State) (f : Nat) : bus (quiesceFn s f) f = (false, true) := by
  rw [quiesceFn, bus_abortFnColls, bus_quiesceQueues]

/-- [R91] the vectors that leave change no bit but the pending ones. -/
theorem bus_releasePending (s : State) (f : Nat) : bus (releasePending s f) = bus s := by
  unfold releasePending
  split
  · rfl
  · refine bus_foldS (fun z v => (bus_emit _ _).trans (bus_updFn (fun _ => ?_) z f)) _ _
    exact ⟨rfl, rfl⟩

/-! ### Host endpoints whose link goes down -/

/-- A host endpoint's link stays as it is while waiting packets of a queue pair are dropped. -/
theorem linkUp_dropWaiting (s : State) (q e : Nat) : ((dropWaiting s q).hostEp e).linkUp = (s.hostEp e).linkUp := by
  have hdrop (z : State) (k n : Nat) : ((updHost z k (fun h => { h with reorderUsed := h.reorderUsed - n })).hostEp e).linkUp =
      (z.hostEp e).linkUp := by
    rw [updHost_hostEp]
    split
    next h => subst h; rfl
    · rfl
  have hqp (z : State) (g : Qp → Qp) : (updQp z q g).hostEp e = z.hostEp e := rfl
  have hchunks (z : State) (h f n : Nat) : (freeChunks z h f n).hostEp e = z.hostEp e := rfl
  unfold dropWaiting
  split
  · rfl
  · dsimp only
    rw [hqp]
    split
    · split
      · exact hdrop _ _ _
      · rw [hchunks]
        exact hdrop _ _ _
    · exact hdrop _ _ _

/-- What is not written is as before: the host endpoints. -/
theorem eps_of_erase {w : Fields} {s t : State} (hw : w.eps = false) (h : erase w t = erase w s) : t.eps = s.eps := by
  simpa only [erase, hide, hw, cond_false] using congrArg State.eps h

theorem hostEp_of_erase {w : Fields} {s t : State} (hw : w.eps = false) (h : erase w t = erase w s) (e : Nat) : t.hostEp e = s.hostEp e := by
  rw [State.hostEp, eps_of_erase hw h]
  rfl

theorem linkUp_foldS {e : Nat} {f : State → Nat → State} (hf : ∀ z y, ((f z y).hostEp e).linkUp = (z.hostEp e).linkUp) (l : List Nat)
    (s : State) : ((foldS l s f).hostEp e).linkUp = (s.hostEp e).linkUp := by
  unfold foldS
  induction l generalizing s with
  | nil => rfl
  | cons y l ih => exact (ih (f s y)).trans (hf s y)

theorem linkUp_quiesceQueues (s : State) (f e : Nat) : ((quiesceQueues s f).hostEp e).linkUp = (s.hostEp e).linkUp := by
  unfold quiesceQueues
  dsimp only
  have hqp (z : State) (q : Nat) (g : Qp → Qp) : ((updQp z q g).hostEp e).linkUp = (z.hostEp e).linkUp := rfl
  have hsrq (z : State) (q : Nat) (g : Srq → Srq) : ((updSrq z q g).hostEp e).linkUp = (z.hostEp e).linkUp := rfl
  have hcq (z : State) (q : Nat) (g : Cq → Cq) : ((updCq z q g).hostEp e).linkUp = (z.hostEp e).linkUp := rfl
  have heq (z : State) (q : Nat) (g : Eq → Eq) : ((updEq z q g).hostEp e).linkUp = (z.hostEp e).linkUp := rfl
  rw [linkUp_foldS (fun z q => heq z q _), linkUp_foldS (fun z q => hcq z q _), linkUp_foldS (fun z q => hsrq z q _),
    linkUp_foldS (fun z q => (hqp _ q _).trans (linkUp_dropWaiting z q e))]
  split
  · exact congrArg HostEp.linkUp (hostEp_of_erase (w := { ep := true }) rfl (erase_unmarkFor (by decide) _ _) e)
  · rfl

/-- What the end of the collectives of a function may write. -/
def collWrites : Fields :=
  { ctrs := true, quads := true, fns := true, insts := true, ep := true, grp := true, recd := true, pstepC := true, pstepS := true,
    out := true, free := true }

/-- [R460] a host endpoint that goes down has no link. -/
theorem linkUp_hostDown (s : State) (e : Nat) : ((hostDown s e).hostEp e).linkUp = false := by
  unfold hostDown
  dsimp only
  have hcolls (z : State) (l : List Nat) : (foldS l z abortFnColls).hostEp e = z.hostEp e :=
    hostEp_of_erase (w := collWrites) rfl (erase_foldS _ _ _ fun _ _ => erase_abortFnColls (by decide) _ _) e
  have hedge (z : State) (d : EdgeTo) : (edgeLost z d).hostEp e = z.hostEp e :=
    hostEp_of_erase (w := collWrites) rfl (erase_edgeLost (by decide) _ _) e
  have hrx (z : State) (l : List QPkt) : (l.foldl (fun t q => freeOrigin t q.orig) z).hostEp e = z.hostEp e :=
    hostEp_of_erase (w := { ports := true, ctrs := true, quads := true, out := true }) rfl
      (erase_foldl _ (fun _ _ => erase_freeOrigin (by decide) _ _) _ _) e
  rw [hcolls, hedge, linkUp_foldS (fun z f => linkUp_quiesceQueues z f e), hrx]
  simp

/-! ### The rest -/

/-- What is not written is as before: the pins. -/
theorem pins_of_erase {w : Fields} {s t : State} (hw : w.pins = false) (h : erase w t = erase w s) : t.pins = s.pins := by
  simpa only [erase, hide, hw, cond_false] using congrArg State.pins h

def hostResetWrites : Fields :=
  { ports := true, ctrs := true, quads := true, eps := true, fns := true, insts := true, masters := true, cmds := true, ep := true,
    grp := true, recd := true, pstepC := true, pstepS := true, out := true, free := true }

/-- [R443] the reset of a host's endpoints moves no pin. -/
theorem pins_hostReset (s : State) (l : List Nat) :
    (foldS l s (fun s e => foldS (fnsOfEp s e) (hostDown s e) resetFn)).pins = s.pins := by
  refine pins_of_erase (w := hostResetWrites) rfl (erase_foldS _ _ _ fun z e => ?_)
  exact (erase_foldS _ _ _ fun _ _ => erase_resetFn (by decide) _ _).trans (erase_hostDown (by decide) _ _)

theorem flashOps_keep (l : List (Nat × Nat × Nat)) (s : State) (h : l = []) : l.foldl (fun s w => flashOp s w.1 w.2.1 w.2.2) s = s := by
  subst h
  rfl

/-- [R447] the note of readiness leaves the link of an endpoint as it stands. -/
theorem link_readiness (s : State) (e : Nat) : ((readiness s e).hostEp e).linkUp = (s.hostEp e).linkUp ∧
    ((readiness s e).hostEp e).speed = (s.hostEp e).speed ∧ ((readiness s e).hostEp e).width = (s.hostEp e).width := by
  unfold readiness
  dsimp only
  split <;> simp

/-- Settles O3. -/
theorem hostPortsFunctionsAndFlashComplete : Obligations.HostPortsFunctionsAndFlashComplete := by
  unfold Obligations.HostPortsFunctionsAndFlashComplete
  refine ⟨?perst, ?deassert, ?down, ?up, ?cfgRead, ?cfgWrite, ?cfgRetry, ?bmeClear, ?bmeSet, ?flr, ?flrEnd, ?late, ?flashReq, ?flashGnt,
    ?flashEnd, ?spdmOff, ?spdm⟩
  case perst =>
    intro s h hh
    exact ⟨_, guardRes_next (decide_eq_true hh) rfl, pins_hostReset _ _⟩
  case deassert => exact fun s h hh => guardRes_next (decide_eq_true hh) rfl
  case down =>
    intro s e he hl
    refine ⟨_, guardRes_next he (if_pos hl), ?_⟩
    have hbox (z : State) (l : List Nat) : (foldS l z resetMailbox).hostEp e = z.hostEp e :=
      hostEp_of_erase (w := { insts := true, cmds := true }) rfl (erase_foldS _ _ _ fun _ _ => erase_resetMailbox (by decide) _ _) e
    rw [hbox, linkUp_hostDown]
  case up =>
    intro s e sp wd he hphys hact hres hperst hl
    have hready : ((s.boot.steps.phys || s.boot.warm) && quadActive s (quadOfEp e) && !(s.quad (quadOfEp e)).inReset &&
        !s.pins.perst.getLsbD (e / 2) && !(s.hostEp e).linkUp) = true := by
      simp [hphys, hact, hres, hperst, hl]
    obtain ⟨hup, hspeed, hwidth⟩ := link_readiness (updHost (foldS (fnsOfEp s e) s resetFn) e
      (fun h => { h with linkUp := true, speed := sp, width := wd, seenLink := true })) e
    exact ⟨_, guardRes_next he (if_pos hready), hup.trans (by simp), hspeed.trans (by simp), hwidth.trans (by simp)⟩
  case cfgRead =>
    intro s f hf hl hs
    exact guardRes_next hf (by simp [hl, hs, emit])
  case cfgWrite =>
    intro s f w hf hl hs hr
    exact guardRes_next hf (by simp [hl, hs, hr])
  case cfgRetry =>
    intro s f w hf hl hs hr
    exact guardRes_next hf (by simp [hl, hs, hr])
  case bmeClear =>
    intro s f hf hb
    have h : bus (count (quiesceFn s f) .host (epOfFn s f) .bmeQuiesce) f = (false, true) := by
      rw [bus_count, bus_quiesceFn]
    exact ⟨_, guardRes_next hf (if_pos hb), bits_of_bus h⟩
  case bmeSet =>
    intro s f hf hb hp
    have h : bus (releasePending (updFn s f (fun x => { x with bme := true, quiesced := false })) f) f = (true, false) := by
      rw [bus_releasePending]
      simp [bus]
    exact ⟨_, guardRes_next hf (by rw [if_neg (by simp [hb]), if_neg (by simp [hp])]), bits_of_bus h⟩
  case flr => exact fun s f hf => ⟨_, guardRes_next hf rfl, by simp⟩
  case flrEnd =>
    intro s f hf hb
    refine ⟨_, guardRes_next hf (if_pos hb), ?_⟩
    change ((updFn s f _).fn f).flrBusy = false
    simp
  case late => exact fun s f hf hb => guardRes_next hf (if_neg (by simp [hb]))
  case flashReq => exact fun s => rfl
  case flashGnt =>
    intro s hreq hgnt hpor himg
    have hfree : (s.boot.flashReq && !s.boot.flashGnt && !s.boot.porst && (s.boot.steps.image || s.boot.safe)) = true := by
      simp [hreq, hgnt, hpor, himg]
    exact ⟨_, if_pos hfree, rfl, rfl, rfl, rfl⟩
  case flashEnd =>
    intro s hpor hwork
    refine ⟨_, if_neg (by simp [hpor]), ?_⟩
    rw [flashOps_keep _ _ hwork]
    dsimp only
    split
    · exact ⟨rfl, rfl, rfl⟩
    next hg => exact ⟨rfl, by simpa using hg, rfl⟩
  case spdmOff => exact fun s e code he hr => guardRes_next he (if_neg (by simp [hr]))
  case spdm =>
    intro s e code k he hr hk
    exact guardRes_next he ((if_pos hr).trans (by rw [hk]; rfl))

end Sys2Proof.Machine
end

section
/-! PROOF. What the time messages come down to (O19): all of it but the departure stamp of a REQ. -/

namespace Sys2Proof.Machine

theorem timeRx_active {s : State} {p : Nat} {h : LtbHdr} {m : TimeMsg} {k : State → State} (ho : LinkOpen s p) (hu : Unmarked s p h)
    (hleg : isLegacy s p = false) (hfab : isFabric (ltbTaken s p h) p = true) (hact : ((ltbTaken s p h).port p).link = .active) :
    guardRes (portOk p) (timeRx s p h m k) = .next (k (noteFlags (ltbTaken s p h) p m)) := by
  obtain ⟨hp, hlink, hmap⟩ := ho
  refine guardRes_next (decide_eq_true hp) ?_
  have hin (f : State → State) : ltbIn s p h f = f (ltbTaken s p h) := by
    unfold ltbIn ltbTaken
    rcases hlink with hl | hl <;> simp [hl, hmap]
  rw [timeRx, unmarked, hu, if_neg Bool.false_ne_true, if_neg (by simp [hleg]), hin, if_pos (by simp [hfab, hact])]

/-- A port that is awake keeps its state when a wake is asked for. -/
theorem requestWake_awake {s : State} {p : Nat} (h : (s.port p).txIdle = 0) (cls : Nat) :
    ∃ g : Port → Port, requestWake s p cls = updPort s p g ∧ g (s.port p) = s.port p := by
  refine ⟨fun x => if x.txIdle = 2 then { x with wakeReq := betterReq x.wakeReq cls s.clk.now } else x, ?_, ?_⟩
  · rw [requestWake, if_neg (by omega)]
  · dsimp only
    rw [if_neg (by omega)]

/-- An LTB that is put out moves its port's slot on. -/
theorem putLtb_port (s : State) (p l : Nat) (h : LtbTx) (b : LtbBody) :
    (putLtb s p (some l) h b).port p = { s.port p with txSlot := l + 1, slotAcc := (s.port p).slotAcc - slotBits } := by
  change (updPort s p _).port p = _
  simp

theorem putLtb_out (s : State) (p l : Nat) (h : LtbTx) (b : LtbBody) :
    (putLtb s p (some l) h b).out = s.out ++ [.ltb p l { h with ack := (s.port p).ackSeq } b] := rfl

/-- [R147] a port whose REQ of the regular cycle has left in state `s` under the number `q`. -/
def notedReq (s : State) (q : BitVec 16) (x : Port) : Port :=
  { x with eqx := { x.eqx with seq := q, outOfCycle := false, openSeq := q, t1 := some (departAt s), responded := false, dueReg := false } }

/-- [R147] the exchange of a port that is awake sends a REQ and notes the stamp of its departure. -/
theorem startExchange_awake {s : State} {p : Nat} (h : (s.port p).txIdle = 0) :
    ((startExchange s p false).port p).eqx.seq = (s.port p).eqx.seq + 1 ∧
    ((startExchange s p false).port p).eqx.openSeq = (s.port p).eqx.seq + 1 ∧
    ((startExchange s p false).port p).eqx.t1 = some (departAt s) ∧
    ((startExchange s p false).port p).eqx.outOfCycle = false ∧
    (startExchange s p false).out =
      s.out ++ [.ltb p (lowLane (s.port p)) (plainHdr (s.port p)) (.time 1 (timeMsg s ((s.port p).eqx.seq + 1) false))] := by
  obtain ⟨g, hg, hport⟩ := requestWake_awake h 1
  have hself (z : State) (f : Port → Port) : (updPort z p f).port p = f (z.port p) := by simp
  have hidle : ¬ 2 ≤ (s.port p).txIdle := by omega
  have hstart : startExchange s p false = beginExchange (updPort s p g) p false := by
    unfold startExchange
    dsimp only
    rw [if_neg hidle, hg]
  have hbegin : beginExchange (updPort s p g) p false = sendTimeLtb (updPort (drawn (updPort s p g)) p (notedReq s ((s.port p).eqx.seq + 1))) p 1
      (timeMsg s ((s.port p).eqx.seq + 1) false) := by
    unfold beginExchange
    dsimp only
    rw [hself, hport]
    rfl
  generalize hu : updPort (drawn (updPort s p g)) p (notedReq s ((s.port p).eqx.seq + 1)) = u at hbegin
  have hout : u.out = s.out := by rw [← hu]; rfl
  have hup : u.port p = notedReq s ((s.port p).eqx.seq + 1) (s.port p) := by
    rw [← hu, hself]
    exact congrArg (notedReq s _) ((hself s g).trans hport)
  have huidle : (u.port p).txIdle = 0 := by rw [hup]; exact h
  obtain ⟨g', hg', hport'⟩ := requestWake_awake huidle 1
  have hsend (m : TimeMsg) : sendTimeLtb u p 1 m =
      putLtb (updPort u p g') p (some (lowLane (u.port p))) (plainHdr (u.port p)) (.time 1 m) := by
    unfold sendTimeLtb sendLtb
    rw [if_neg (by omega), hg']
  have hput (m : TimeMsg) : (sendTimeLtb u p 1 m).port p =
      { u.port p with txSlot := lowLane (u.port p) + 1, slotAcc := (u.port p).slotAcc - slotBits } := by
    rw [hsend, putLtb_port, hself, hport']
  rw [hstart, hbegin]
  refine ⟨by rw [hput, hup]; rfl, by rw [hput, hup]; rfl, by rw [hput, hup]; rfl, by rw [hput, hup]; rfl, ?_⟩
  rw [hsend, putLtb_out, hself, hport', updPort_out, hout, hup]
  rfl

/-- A quarter of a nanosecond is 16,384 units of FT: two stamps agree where their phases do. -/
theorem stampAt_inj {s : State} {a b : BitVec 2} : stampAt s a = stampAt s b ↔ a = b := by
  refine ⟨fun h => BitVec.eq_of_toNat_eq ?_, fun h => congrArg _ h⟩
  unfold stampAt at h
  omega

/-- A FABRIC port that is ACTIVE and awake, with nothing else set up; `n` is what has been drawn of the values left open. -/
def awakeLink (n : Nat) : State :=
  { State.reset with ports := { dflt := {}, cells := [(0, { exists_ := true, role := 0, link := .active, txIdle := 0 })] }, free := n }

theorem awakeLink_awake (n : Nat) : isFabric (awakeLink n) 0 = true ∧ ((awakeLink n).port 0).link = .active ∧
    ((awakeLink n).port 0).txIdle = 0 ∧ (awakeLink n).free = n := ⟨rfl, rfl, rfl, rfl⟩

theorem eqxExchangeStart_active {s : State} {p : Nat} (hp : p < 512) (hfab : isFabric s p = true) (hact : (s.port p).link = .active) :
    exec (.eqxExchangeStart p) s = .next (startExchange s p false) :=
  guardRes_next (decide_eq_true hp) (if_pos (by simp [hfab, hact]))

theorem sendPhase_of_timeMessages (h : Obligations.TimeMessagesAndLockComplete) (n : Nat) : Config.sendPhase n = 0 := by
  unfold Obligations.TimeMessagesAndLockComplete at h
  obtain ⟨-, -, -, -, -, -, -, hstart, -⟩ := h
  obtain ⟨hfab, hact, hidle, hfree⟩ := awakeLink_awake n
  obtain ⟨t, ht, -, -, hstamp, -⟩ := hstart (awakeLink n) 0 (by decide) hfab hact hidle
  generalize awakeLink n = s at *
  obtain ⟨-, -, hnoted, -⟩ := startExchange_awake hidle
  rw [eqxExchangeStart_active (by decide) hfab hact, Host.Outcome.next.injEq] at ht
  rw [← ht, hnoted, Option.some.injEq] at hstamp
  exact hfree ▸ stampAt_inj.mp hstamp

theorem timeMessages_of_sendPhase (hphase : ∀ n, Config.sendPhase n = 0) : Obligations.TimeMessagesAndLockComplete := by
  unfold Obligations.TimeMessagesAndLockComplete
  refine ⟨?req, ?resp, ?report, ?announce, ?stepNow, ?stepLater, ?lock, ?start, ?interval, ?miss, ?step, ?ppsSet, ?ppsServo, ?lossTod,
    ?lossPps, ?sourceWait, ?ppsOut⟩
  case req =>
    intro s p h m ho hu hleg hfab hact hidle
    exact (timeRx_active ho hu hleg hfab hact).trans (congrArg Host.Outcome.next (if_neg (Nat.not_le.mpr hidle)))
  case resp =>
    intro s p h m t1 out ho hu hleg hfab hact hopen hround hdelay
    refine (timeRx_active ho hu hleg hfab hact).trans (congrArg Host.Outcome.next ?_)
    dsimp only
    rw [hopen]
    dsimp only
    rw [if_neg (by omega), hdelay]
    rfl
  case report =>
    intro s p h m ho hu hleg hfab hact
    exact timeRx_active ho hu hleg hfab hact
  case announce =>
    intro s p h m ho hu hleg hfab hact hno
    exact (timeRx_active ho hu hleg hfab hact).trans (congrArg Host.Outcome.next (if_neg hno))
  case stepNow =>
    intro s p h m ho hu hleg hfab hact hup hseq hfree hpast
    refine (timeRx_active ho hu hleg hfab hact).trans (congrArg Host.Outcome.next ?_)
    dsimp only
    generalize reselect (updPort (noteFlags (ltbTaken s p h) p m) p _) = r at hup hseq hfree hpast ⊢
    rw [if_pos ⟨hup, hseq⟩, if_neg hfree, if_pos hpast]
  case stepLater =>
    intro s p h m ho hu hleg hfab hact hup hseq hfree hahead
    refine (timeRx_active ho hu hleg hfab hact).trans (congrArg Host.Outcome.next ?_)
    dsimp only
    generalize reselect (updPort (noteFlags (ltbTaken s p h) p m) p _) = r at hup hseq hfree hahead ⊢
    rw [if_pos ⟨hup, hseq⟩, if_neg hfree, if_neg (Nat.not_le.mpr hahead)]
  case lock =>
    intro s p hup hst hcount hsel hhops
    change execTimeLockGained s = _
    simp only [execTimeLockGained, hup, hst, hcount, hsel, hhops, and_self, if_true]
  case start =>
    intro s p hp hfab hact hidle
    obtain ⟨hseq, hopen, ht1, hcycle, hout⟩ := startExchange_awake hidle
    refine ⟨_, eqxExchangeStart_active hp hfab hact, hseq, hopen, ?_, hcycle, hout⟩
    rw [ht1, departAt, hphase]
  case interval =>
    intro s p hp hfab hact
    refine ⟨_, guardRes_next (decide_eq_true hp) (if_neg (by simp [hfab, hact])), ?_⟩
    have hports (c : Bool) (z : State) : (if c then { z with tu := unmeasured z.tu } else z).port p = z.port p := by split <;> rfl
    rw [hports]
    simp
  case miss =>
    intro s p hup hmiss hst
    change execTimeMissLimit s = _
    simp only [execTimeMissLimit, hup, hst]
    exact if_neg (by omega)
  case step =>
    intro s q f ns hw hpast hns
    change execTimeStepApply s = _
    simp only [execTimeStepApply, hw, if_pos hpast, applyStep, if_pos hns]
  case ppsSet =>
    intro s v hedge htod
    change execPpsInEdge s = _
    rw [execPpsInEdge, if_neg (by rw [hedge]; exact Bool.false_ne_true)]
    dsimp only
    rw [htod]
  case ppsServo =>
    intro s hedge htod hst hcls hon
    change execPpsInEdge s = _
    rw [execPpsInEdge, if_neg (by rw [hedge]; exact Bool.false_ne_true)]
    dsimp only
    rw [htod]
    exact congrArg Host.Outcome.next (if_pos ⟨hst, hcls, hon⟩)
  case lossTod =>
    intro s htod hlate
    change execPpsLossTimeout s = _
    unfold execPpsLossTimeout
    dsimp only
    rw [htod, if_pos rfl, if_neg (by omega), if_pos rfl]
  case lossPps =>
    intro s a htod hat hlate hst hcls
    change execPpsLossTimeout s = _
    unfold execPpsLossTimeout
    dsimp only
    simp only [htod, hat, Option.isSome_none, Option.getD_some, Bool.false_eq_true, if_false]
    rw [if_neg (by omega), if_pos ⟨hst, hcls⟩]
  case sourceWait =>
    intro s hman hwait hst hnone
    refine if_pos ?_
    rcases hst with hst | hst <;> simp only [hman, hwait, hst, hnone] <;> rfl
  case ppsOut =>
    intro s hval hnear hsec
    refine if_pos ?_
    rw [hval, decide_eq_true hnear, bne_iff_ne.mpr hsec]
    rfl

/-- O19 holds exactly where every TIME LTB of this device leaves in the first quarter of a nanosecond, which the model leaves open
(log 7): its clause of EQX_EXCHANGE_START names the stamp of phase 0, and `Config.sendPhase` is opaque. -/
theorem timeMessagesAndLockComplete_iff : Obligations.TimeMessagesAndLockComplete ↔ ∀ n, Config.sendPhase n = 0 :=
  ⟨sendPhase_of_timeMessages, timeMessages_of_sendPhase⟩

end Sys2Proof.Machine
end
